-- ==== Sys2Proof/Word.lean ====
section
/-! DEFINITION. Bytes, little- and big-endian numbers, and the sparse maps in which the model keeps like things by number (one canonical form: keys strictly rising, no entry equal to the default). -/

namespace Sys2Proof

/-- One byte. -/
abbrev Byte := BitVec 8

/-- A byte string, first byte first. -/
abbrev Bytes := List (BitVec 8)

/-- A 64-bit register word. -/
abbrev Word64 := BitVec 64

/-- Sparse maps keyed by number: the value of `k`, `d` when it is not listed. -/
def SMap.get {α : Type} (d : α) : List (Nat × α) → Nat → α
  | [], _ => d
  | (k', v) :: m, k => if k' = k then v else SMap.get d m k

/-- Insertion that keeps the canonical form: keys rise, and a value equal to `d` is not listed. -/
def SMap.set {α : Type} [DecidableEq α] (d : α) (k : Nat) (v : α) : List (Nat × α) → List (Nat × α)
  | [] => if v = d then [] else [(k, v)]
  | (k', w) :: m =>
    if k < k' then (if v = d then (k', w) :: m else (k, v) :: (k', w) :: m)
    else if k = k' then (if v = d then m else (k, v) :: m)
    else (k', w) :: SMap.set d k v m

/-- The canonical form of a sparse map. -/
def SMap.wf {α : Type} [DecidableEq α] (d : α) : List (Nat × α) → Bool
  | [] => true
  | [(_, v)] => decide (v ≠ d)
  | (k, v) :: (k', v') :: m => decide (v ≠ d) && decide (k < k') && SMap.wf d ((k', v') :: m)

/-- Rewrite the value of `k` by `f`. -/
def SMap.upd {α : Type} [DecidableEq α] (d : α) (k : Nat) (f : α → α) (m : List (Nat × α)) : List (Nat × α) :=
  SMap.set d k (f (SMap.get d m k)) m

/-- Rewrite every value of a sparse map by `f`, which must keep the default. -/
def SMap.mapVals {α : Type} [DecidableEq α] (d : α) (f : α → α) (m : List (Nat × α)) : List (Nat × α) :=
  (m.map fun e => (e.1, f e.2)).filter fun e => decide (e.2 ≠ d)

/-- The low 8 bits of a number, as a byte. -/
def byteOf (n : Nat) : Byte := BitVec.ofNat 8 n

/-- `n` bytes of `v`, least significant first (R5). -/
def leBytes : Nat → Nat → Bytes
  | 0, _ => []
  | n + 1, v => byteOf v :: leBytes n (v / 256)

/-- The number a little-endian byte string spells (R5). -/
def leNat : Bytes → Nat
  | [] => 0
  | b :: bs => b.toNat + 256 * leNat bs

/-- `n` bytes of `v`, most significant first. -/
def beBytes (n v : Nat) : Bytes := (leBytes n v).reverse

/-- The number a big-endian byte string spells. -/
def beNat (bs : Bytes) : Nat := bs.foldl (fun a b => a * 256 + b.toNat) 0

/-- The bytes of a text, one per character. -/
def ascii (t : String) : Bytes := t.toList.map fun c => byteOf c.toNat

/-- Exactly `n` bytes: cut, or filled with zero bytes. -/
def fit (n : Nat) (bs : Bytes) : Bytes := (bs.take n) ++ List.replicate (n - bs.length) 0

/-- `n` bytes from offset `o`, zero-filled past the end. -/
def cut (o n : Nat) (bs : Bytes) : Bytes := fit n (bs.drop o)

/-- The byte at offset `o`, as a number; 0 past the end. -/
def at8 (o : Nat) (bs : Bytes) : Nat := (bs.getD o 0).toNat

/-- The little-endian number of `n` bytes at offset `o`. -/
def le (o n : Nat) (bs : Bytes) : Nat := leNat (cut o n bs)

/-- The quotient rounded up; 0 when the divisor is 0. -/
def ceilDiv (a b : Nat) : Nat := (a + b - 1) / b

/-- Bit `i` of `n`. -/
def bitOf (n i : Nat) : Bool := n.testBit i

/-- Bits [hi:lo] of `n` (R6). -/
def bits (n hi lo : Nat) : Nat := n / 2 ^ lo % 2 ^ (hi + 1 - lo)

/-- 1 for true, 0 for false. -/
def b2n (b : Bool) : Nat := if b then 1 else 0

/-- The mask with bit `i` set for every `i` of the list. -/
def maskOf (l : List Nat) : Nat := l.foldl (fun m i => m ||| 2 ^ i) 0

/-- One more, not past `m`: the saturating counters of the dictionary. -/
def satInc (m v : Nat) : Nat := if v < m then v + 1 else v

/-- All bytes zero. -/
def allZero (bs : Bytes) : Bool := bs.all fun b => b == 0

end Sys2Proof
end

