-- ==== Sys2Proof/Syntax.lean ====
section
/-! DEFINITION. The commands of the block: one constructor of `Instr` for each row of spec/opcode_table.json, and the payloads the commands carry (what a bus, a message, a pin or a drive brings in). -/

namespace Sys2Proof

/-- The writer of a dictionary entry, after its proof or its approvals were accepted (Table 14.4). -/
inductive Role where
  | observer | operator | maintenance | officer | keeper
  deriving DecidableEq, Repr

/-- What a non-posted read of the host link was issued for (R76). -/
inductive ReadKind where
  | descriptor | input | label
  deriving DecidableEq, Repr

/-- What an uncorrectable FIFO entry carried (Table 3.15). -/
inductive FifoContent where
  | job (id : Nat)
  | chainMessage
  | keeperTraffic
  | hostWrite
  deriving DecidableEq, Repr

/-- Which slice entry a share write names (R113). -/
inductive ShareKind where
  | publicKey | symmetric | weight
  deriving DecidableEq, Repr

/-- The main rails of Table 20.3, in the order of R448. -/
inductive Rail where
  | v3v3 | io | serdes1v2 | sram | core | serdes0v9 | lane
  deriving DecidableEq, Repr

/-- The receiver's check of one chain message (R321): each failure discards it. -/
inductive MsgCheck where
  | good | badCrc | badType | reservedSet | badSeal
  deriving DecidableEq, Repr

/-- The header fields of a received chain message (Table 13.3) with the outcome of its checks. -/
structure MsgHdr where
  src : Nat
  dst : Nat
  id : Nat
  frag : Nat
  last : Nat
  insTick : Nat
  check : MsgCheck
  deriving DecidableEq, Repr

/-- A dictionary request (Table 13.6) with its message header; `weir` marks one that Keeper firmware makes through weirs 16 to 23 (R354). -/
structure DictReq where
  hdr : MsgHdr
  reqId : Nat
  role : Nat
  index : Nat
  sub : Nat
  proof : List (BitVec 8)
  value : List (BitVec 8)
  weir : Bool
  deriving DecidableEq, Repr

/-- A tick marker with its frame header, as it arrives on a port (Tables 13.1, 13.2; R326). -/
structure Marker where
  ring : Nat
  source : Nat
  wrapped : Bool
  strapped : Bool
  headerOk : Bool
  tickNo : Nat
  period : Nat
  switchArmed : Bool
  periodNext : Nat
  switchTick : Nat
  roundTrip : Nat
  arrivalPs : Int
  deriving DecidableEq, Repr

/-- A change that a replication record carries (Table 13.8, bytes 8 and 24 on). -/
inductive Change where
  | objectWrite (slot : Nat) (sealed : List (BitVec 8))
  | objectFree (slot : Nat) (slots : Nat)
  | pin (handle : Nat)
  | unpin (handle : Nat)
  | counter (slice counter increment : Nat)
  | heart (heart : Nat) (entry : List (BitVec 8))
  | kValue (k : Nat)
  | repair (slot : Nat) (sealed : List (BitVec 8))
  | imageTag (slice : Nat) (tag : List (BitVec 8))
  | members (list : List Nat)
  deriving DecidableEq, Repr

/-- A replication record (Table 13.8). -/
structure ReplRecord where
  seq : Nat
  k : Nat
  tick : Nat
  change : Change
  deriving DecidableEq, Repr

/-- ATTEST_OFFER (Table 13.9, step 2). -/
structure Offer where
  nonce : List (BitVec 8)
  ecKey : List (BitVec 8)
  kemKey : List (BitVec 8)
  lotEc : List (BitVec 8)
  lotDsa : List (BitVec 8)
  recovery : List (BitVec 8)
  sigEc : List (BitVec 8)
  sigDsa : List (BitVec 8)
  deriving DecidableEq, Repr

/-- ATTEST_ANSWER (Table 13.9, step 3). -/
structure Answer where
  nonce : List (BitVec 8)
  ecKey : List (BitVec 8)
  kemCt : List (BitVec 8)
  lotEc : List (BitVec 8)
  lotDsa : List (BitVec 8)
  sigEc : List (BitVec 8)
  sigDsa : List (BitVec 8)
  deriving DecidableEq, Repr

/-- DOMAIN_KEY (Table 13.9, step 6). -/
structure DomainGrant where
  id : List (BitVec 8)
  key : List (BitVec 8)
  members : List Nat
  k : Nat
  deriving DecidableEq, Repr

/-- What Identify and the first reads tell of a drive (R246, R247, R250). -/
structure DriveIdent where
  /-- generation 1 to 4 and width 1, 2 or 4 of the trained link -/
  gen : Nat
  width : Nat
  /-- namespace 1 passes the check of Table 10.1, and has this many blocks of 4,096 bytes -/
  formatOk : Bool
  blocks : Nat
  /-- blocks 0 and 1, the copies of the vault header, and blocks 16 and 17, the frames of the level-5 node -/
  header0 : List (BitVec 8)
  header1 : List (BitVec 8)
  node0 : List (BitVec 8)
  node1 : List (BitVec 8)
  deriving DecidableEq, Repr

/-- What the monitors read at one sample (Table 15.1): voltages in mV, temperature in hundredths of a degree, frequencies in parts per million of deviation. -/
structure Reading where
  meshDiffers : Nat
  enclosure : Nat
  vbat : Nat
  onHold : Bool
  temp : Int
  core : Nat
  sram : Nat
  io : Nat
  ppm25 : Int
  ppm100 : Int
  ppm32k : Int
  glitch : Nat
  light : Nat
  deriving DecidableEq, Repr

/-- One image slot of the flash, as the boot ROM finds it (R435). -/
structure ImageInfo where
  keysHash : List (BitVec 8)
  signaturesOk : Bool
  measurement : List (BitVec 8)
  release : List (BitVec 8)
  deriving DecidableEq, Repr

/-- What a start reads from outside the unit's own state: the ROM check and the two image slots (Table 19.6). -/
structure Boot where
  romOk : Bool
  slotA : ImageInfo
  slotB : ImageInfo
  deriving DecidableEq, Repr

/-- The commands: one constructor for each row of the table of operations and events. -/
inductive Instr where
  /-- TICK (R25): The tick pulse ends one seiche and begins the next frame, releasing everything the previous housekeeping window staged and starting the frame's scheduling. -/
  | tick
  /-- HOUSEKEEPING_WINDOW (R25): When lane time ends, the housekeeping window runs the six steps of Table 2.2 in order. -/
  | housekeepingWindow
  /-- PERIOD_SWITCH (R50): When the switch tick is reached, SEI_PERIOD takes the new value and the drained jobs are admitted under the new period. -/
  | periodSwitch
  /-- SQ_TAIL_WRITE (R64): The host writes the submission tail of a ring pair; the unit observes the value at the next tick. -/
  | sqTailWrite (ring value : Nat)
  /-- CQ_HEAD_WRITE (R64): The host writes the completion consumer index of a ring pair; the unit observes the value at the next tick. -/
  | cqHeadWrite (ring value : Nat)
  /-- ABORT_INDEX_WRITE (R107): The host asks the unit to abort the job at a submission index; the outcome depends on the job's state. -/
  | abortIndexWrite (ring index : Nat)
  /-- RING_ENABLE (R62): A write of ENABLE = 1 resets the ring pair's indices and enables it, or refuses with an ERROR code. -/
  | ringEnable (ring : Nat)
  /-- RING_DISABLE (R63): A write of ENABLE = 0 stops fetching; jobs already fetched complete, and BUSY clears once their records are released. -/
  | ringDisable (ring : Nat)
  /-- BAR_REGISTER_WRITE (R54): A write to a BAR register that has no row of its own is stored, dropped or completed with Unsupported Request. -/
  | barRegisterWrite (bar offset size value : Nat)
  /-- SLC_RESET (R119): A write of 1 to SLC_RESET starts a slice reset that stops the slice's jobs and wipes its register page and session objects. -/
  | slcReset (slice : Nat)
  /-- SLICE_RESET_DONE (R120): Once any in-progress vault writes of the slice have ended, the slice-reset record is released and RESET_DONE is set. -/
  | sliceResetDone (slice : Nat)
  /-- OUT_GO (R57): A write of OUT_GO sends the outbound tunnel datagram at the next tick, or discards it when its length is wrong. -/
  | outGo
  /-- IN_FULL_CLEAR (R57): Writing 1 to IN_FULL frees the inbound tunnel buffer, and the next held datagram is delivered. -/
  | inFullClear
  /-- MSIX_UNMASK (R72): Unmasking a vector whose pending bit is set sends its message at the next tick and clears the bit. -/
  | msixUnmask (vector : Nat)
  /-- DMA_READ_COMPLETE (R76): A non-posted read for a descriptor, an input piece or a label completes, successfully or as a failed read. -/
  | dmaReadComplete (job : Nat) (what : ReadKind) (data : Option (List (BitVec 8)))
  /-- READ_TIMEOUT (R76): A read that has not completed within HST_READ_TIMEOUT fails. -/
  | readTimeout (job : Nat) (what : ReadKind)
  /-- HOST_LINK_RETRAIN (R201): The host link trains at a new speed or width; SYM_OUTPUT_BUDGET follows, and waiting jobs whose output exceeds it fail. -/
  | hostLinkRetrain (gen width : Nat)
  /-- ECDSA_SIGN (R139): Signs a digest with ECDSA under a private key, using the extra-random-bits k. -/
  | ecdsaSign (job : Nat)
  /-- ECDSA_VERIFY (R139): Verifies an ECDSA signature over a digest. -/
  | ecdsaVerify (job : Nat)
  /-- EDDSA_SIGN (R140): Signs a message with pure Ed25519. -/
  | eddsaSign (job : Nat)
  /-- EDDSA_VERIFY (R140): Verifies an Ed25519 signature with the cofactored equation. -/
  | eddsaVerify (job : Nat)
  /-- EC_KEYGEN (R143): Generates an elliptic-curve key pair into a creation target. -/
  | ecKeygen (job : Nat)
  /-- ECDH_DERIVE (R141): Computes an ECDH or X25519 shared secret into a session object. -/
  | ecdhDerive (job : Nat)
  /-- RSA_SIGN_PSS (R142): Signs a digest with RSA-PSS. -/
  | rsaSignPss (job : Nat)
  /-- RSA_SIGN_PKCS1 (R142): Signs a digest with RSA PKCS #1 v1.5. -/
  | rsaSignPkcs1 (job : Nat)
  /-- RSA_VERIFY (R142): Verifies an RSA signature under the scheme that the input names. -/
  | rsaVerify (job : Nat)
  /-- RSA_DECRYPT_OAEP (R142): Decrypts an RSA-OAEP ciphertext. -/
  | rsaDecryptOaep (job : Nat)
  /-- RSA_ENCRYPT_OAEP (R142): Encrypts a plaintext with RSA-OAEP. -/
  | rsaEncryptOaep (job : Nat)
  /-- RSA_KEYGEN (R146): Generates an RSA key in rounds of candidate primes, under renewed leave. -/
  | rsaKeygen (job : Nat)
  /-- MLKEM_KEYGEN (R166): Draws an ML-KEM seed and creates the key. -/
  | mlkemKeygen (job : Nat)
  /-- MLKEM_ENCAPS (R169): Encapsulates to an ML-KEM public key and puts the shared secret in a session object. -/
  | mlkemEncaps (job : Nat)
  /-- MLKEM_DECAPS (R169): Decapsulates an ML-KEM ciphertext into a session object. -/
  | mlkemDecaps (job : Nat)
  /-- MLDSA_KEYGEN (R166): Draws an ML-DSA seed and creates the key. -/
  | mldsaKeygen (job : Nat)
  /-- MLDSA_SIGN (R173): Runs a hedged ML-DSA signature in attempts until one is accepted. -/
  | mldsaSign (job : Nat)
  /-- MLDSA_VERIFY (R170): Verifies an ML-DSA signature under a context string. -/
  | mldsaVerify (job : Nat)
  /-- PAIRED_SIGN (R182): Produces a classical signature and an ML-DSA signature over the composite message. -/
  | pairedSign (job : Nat)
  /-- PAIRED_VERIFY (R184): Verifies both halves of a paired signature. -/
  | pairedVerify (job : Nat)
  /-- AEAD_SEAL (R197): Encrypts and authenticates with AES-GCM or ChaCha20-Poly1305, drawing the nonce when none is given. -/
  | aeadSeal (job : Nat)
  /-- AEAD_OPEN (R202): Decrypts and verifies an AEAD ciphertext, releasing no plaintext unless the tag passes. -/
  | aeadOpen (job : Nat)
  /-- CIPHER_ENCRYPT (R196): Encrypts with AES in CBC, CTR, XTS or ECB mode. -/
  | cipherEncrypt (job : Nat)
  /-- CIPHER_DECRYPT (R196): Decrypts with AES in CBC, CTR, XTS or ECB mode. -/
  | cipherDecrypt (job : Nat)
  /-- MAC_GENERATE (R196): Computes a CMAC, HMAC or KMAC tag. -/
  | macGenerate (job : Nat)
  /-- MAC_VERIFY (R202): Verifies a MAC tag with a comparison whose time does not depend on the data. -/
  | macVerify (job : Nat)
  /-- HASH (R196): Computes a SHA-2 or SHA-3 digest. -/
  | hash (job : Nat)
  /-- KDF_DERIVE (R195): Derives a new session key from a source key with the KMAC256 ladder construction. -/
  | kdfDerive (job : Nat)
  /-- FPE_ENCRYPT (R210): Encrypts numerals with FF1. -/
  | fpeEncrypt (job : Nat)
  /-- FPE_DECRYPT (R210): Decrypts numerals with FF1. -/
  | fpeDecrypt (job : Nat)
  /-- PIN_TRANSLATE (R204): Re-enciphers a format-4 PIN block from the incoming key to the outgoing key. -/
  | pinTranslate (job : Nat)
  /-- PIN_VERIFY (R206): Checks a PIN block against a reference value. -/
  | pinVerify (job : Nat)
  /-- DUKPT_DERIVE (R205): Derives an AES DUKPT working key into a session object, or exports an initial key as a key block. -/
  | dukptDerive (job : Nat)
  /-- KEYBLOCK_IMPORT (R207): Imports an X9.143 key block into a creation target. -/
  | keyblockImport (job : Nat)
  /-- KEYBLOCK_EXPORT (R209): Exports an exportable-wrapped key as an X9.143 key block. -/
  | keyblockExport (job : Nat)
  /-- LOCKER_CODE_ISSUE (R212): Computes the locker code for step t. -/
  | lockerCodeIssue (job : Nat)
  /-- LOCKER_CODE_CHECK (R213): Compares a presented code with the codes for steps t−2 to t+2. -/
  | lockerCodeCheck (job : Nat)
  /-- LOCKER_TOKEN_SIGN (R214): Signs a locker token body with Ed25519. -/
  | lockerTokenSign (job : Nat)
  /-- KEY_GENERATE (R97): Generates a symmetric key into a creation target. -/
  | keyGenerate (job : Nat)
  /-- KEY_IMPORT_WRAPPED (R97): Unwraps and imports a key into a creation target. -/
  | keyImportWrapped (job : Nat)
  /-- KEY_EXPORT_WRAPPED (R236): Exports a key wrapped under a wrapping key. -/
  | keyExportWrapped (job : Nat)
  /-- KEY_PIN (R232): Pins an object in the key cache on every unit of the domain. -/
  | keyPin (job : Nat)
  /-- KEY_UNPIN (R232): Removes the pin of an object on every unit of the domain. -/
  | keyUnpin (job : Nat)
  /-- KEY_DESTROY (R233): Destroys a stored or session object. -/
  | keyDestroy (job : Nat)
  /-- KEY_QUERY (R98): Returns the query record of an object. -/
  | keyQuery (job : Nat)
  /-- ATTEST_KEY (R241): The Keeper writes a lot-signed attestation statement for a key. -/
  | attestKey (job : Nat)
  /-- RECORD_SEAL (R97): Seals a record of 1 to 448 bytes into the vault. -/
  | recordSeal (job : Nat)
  /-- RECORD_OPEN (R97): Opens a sealed record. -/
  | recordOpen (job : Nat)
  /-- COUNTER_INCREMENT (R97): Increments one of the slice's monotonic counters, as a replicated change. -/
  | counterIncrement (job : Nat)
  /-- OBJECT_REPAIR (R263): Resolves an object in CONFLICT by keeping the copy of the drive that the input names. -/
  | objectRepair (job : Nat)
  /-- RANDOM_BYTES (R284): Serves 1 to 4,096 random bytes through the software port. -/
  | randomBytes (job : Nat)
  /-- REPLICATION_TIMEOUT (R99): A key-changing job that has fewer than K acknowledgements by tick E+65 completes with REPLICATION_TIMEOUT, and its change is rolled back. -/
  | replicationTimeout (seq : Nat)
  /-- ENTROPY_WAIT_EXPIRY (R281): A job held 64 frames for a refused fresh draw completes with ENTROPY_UNAVAILABLE. -/
  | entropyWaitExpiry (job : Nat)
  /-- LANE_FAULT (R155): A public-key lane fault stops and wipes the lane, fences it, and re-runs a class-0 job or fails the job. -/
  | laneFault (lane cause : Nat)
  /-- COMING_SPARE_SETTLE (R134): A coming spare becomes a spare at the first tick at which it holds no job. -/
  | comingSpareSettle (lane : Nat)
  /-- SPARE_TEST_DUE (R157): At a tick that is a multiple of PKE_SPARE_TEST_INTERVAL, each spare starts its known-answer test. -/
  | spareTestDue
  /-- SPARE_TEST_END (R157): A spare self-test ends and passes, or fences the spare on failure. -/
  | spareTestEnd (lane : Nat) (pass : Bool)
  /-- PKE_UNFENCE (R158): A write asks for fenced lanes to be tested and returned to service. -/
  | pkeUnfence (role : Role) (value : Nat)
  /-- UNFENCE_TEST_END (R158): A lane's unfence test ends; a pass clears the fence and assigns the lane's role. -/
  | unfenceTestEnd (lane : Nat) (pass : Bool)
  /-- PKE_SPARE_COUNT (R159): A quorum write changes the number of public-key spare lanes. -/
  | pkeSpareCount (role : Role) (value : Nat)
  /-- SHARED_UNIT_FAULT (R179): A fault in a cluster's transform unit or Keccak core stops the cluster's lattice segments and fences its shared units. -/
  | sharedUnitFault (cluster : Nat)
  /-- PKE_LAT_UNFENCE (R179): A write starts the known-answer test of a fenced cluster's shared units. -/
  | pkeLatUnfence (role : Role) (value : Nat)
  /-- LAT_UNFENCE_TEST_END (R179): A cluster's unfence test ends, and a pass clears the fence. -/
  | latUnfenceTestEnd (cluster : Nat) (pass : Bool)
  /-- SYM_LANE_FAULT (R215): A symmetric lane fault wipes the lane's windows and staged output and fences the lane. -/
  | symLaneFault (lane cause : Nat)
  /-- SYM_UNFENCE (R215): A write starts the known-answer test of a fenced symmetric lane. -/
  | symUnfence (role : Role) (value : Nat)
  /-- SYM_UNFENCE_TEST_END (R215): The symmetric lane test ends, and a pass clears the fence at tick H+3. -/
  | symUnfenceTestEnd (lane : Nat) (pass : Bool)
  /-- REGISTER_PAGE_WIPE (R190): An uncorrectable error in a register page wipes the page and fails every job that holds one of its windows. -/
  | registerPageWipe (slice : Nat)
  /-- WM_UNCORRECTABLE (R292): An uncorrectable working-memory error fails the owning job context, or resets or scrubs, depending on the word's colour. -/
  | wmUncorrectable (word : Nat)
  /-- KEY_CACHE_UNCORRECTABLE (R12): An uncorrectable key-cache error drops the entry, which is refetched from the vault. -/
  | keyCacheUncorrectable (handle : Nat)
  /-- HEART_TABLE_UNCORRECTABLE (R12): An uncorrectable heart-table error reloads the entry from its MRAM image. -/
  | heartTableUncorrectable (heart : Nat)
  /-- KEEPER_SRAM_UNCORRECTABLE (R12): An uncorrectable error in Keeper SRAM causes a WARM reset. -/
  | keeperSramUncorrectable
  /-- FIFO_UNCORRECTABLE (R75): An uncorrectable clock-crossing FIFO entry is handled according to its content, as Table 3.15 states. -/
  | fifoUncorrectable (fifo : Nat) (content : FifoContent)
  /-- COLOUR_FAULT (R291): A command-core access that fails the colour check or the region guard traps the core and fails the job. -/
  | colourFault (core : Nat) (job : Nat) (guardCause : Bool)
  /-- GATEWAY_CALL (R294): A command core's gateway instruction queues a call on a weir, returns busy, or faults. -/
  | gatewayCall (core weir addr length : Nat) (direct : Bool)
  /-- GATEWAY_FAULT_LIMIT (R295): Sixteen gateway faults within 65,536 ticks cause a FUNCTION reset. -/
  | gatewayFaultLimit
  /-- KEEPER_CALL_SERVE (R296): The Keeper serves the oldest queued weir call and writes its result. -/
  | keeperCallServe (result : List (BitVec 8))
  /-- WEIR_INVALIDATE (R297): Clearing a weir's valid bit withdraws the calls queued on it as refused. -/
  | weirInvalidate (weir : Nat)
  /-- GUARD_DISABLE (R300): The Keeper disables the region guard, and guarded accesses are held. -/
  | guardDisable
  /-- GUARD_ENABLE (R299): The Keeper re-enables the region guard; it checks for overlap and releases held accesses. -/
  | guardEnable
  /-- GUARD_HOLD_LIMIT (R300): A guard left disabled for 4,096 Keeper cycles re-enables itself. -/
  | guardHoldLimit
  /-- DEBUG_MASTER_ACCESS (R301): A debug-master access is permitted, poisoned or dropped according to the region and the enables. -/
  | debugMasterAccess (write : Bool) (word data : Nat) (allBits : Bool)
  /-- KEEPER_HANDOVER_REQUEST (R304): The Keeper requests a hand-over block, which is drained, wiped and granted to it at G+2. -/
  | keeperHandoverRequest (block : Nat)
  /-- KEEPER_HANDOVER_RELEASE (R305): The Keeper releases a block, which is wiped and returned to the normal world, applying any deferred gate request. -/
  | keeperHandoverRelease (block : Nat)
  /-- NORMAL_HANDOVER_REQUEST (R305): The normal world asks through weirs 32 to 35 for a block that the Keeper holds. -/
  | normalHandoverRequest (block : Nat)
  /-- SWDT_REFRESH (R309): The Keeper writes 0x5A then 0xA5 to refresh the secure watchdog. -/
  | swdtRefresh (value : Nat)
  /-- SWDT_EXPIRY (R310): Secure watchdog expiry causes a WARM reset, and LOCK at the third expiry within 600 operating seconds. -/
  | swdtExpiry
  /-- NWDT_CHECKIN (R311): A command core checks in; once every running core has checked in, the watchdog refreshes. -/
  | nwdtCheckin (core : Nat)
  /-- NWDT_EXPIRY (R311): Normal-world watchdog expiry causes a FUNCTION reset, or a WARM reset at the third expiry. -/
  | nwdtExpiry
  /-- VAULT_READ_COMPLETE (R259): A vault page or node read completes and is checked against the tree, falling back to the other drive or scheduling a repair. -/
  | vaultReadComplete (page port : Nat) (data : Option (List (BitVec 8)))
  /-- COMMIT_GROUP_OPEN (R254): A commit group opens and begins phase-1 writes and the Flush on both drives. -/
  | commitGroupOpen
  /-- COMMIT_PHASE2 (R254): Once every phase-1 command has completed, the journal record and both battery copies of the root are written. -/
  | commitPhase2
  /-- DRIVE_LINK_UP (R265): A drive appears on a vault port and is identified and resilvered. -/
  | driveLinkUp (port : Nat) (drive : DriveIdent)
  /-- DRIVE_LINK_DOWN (R247): A vault port's link goes down, and the drive is taken out of the mirror. -/
  | driveLinkDown (port : Nat)
  /-- VAULT_CMD_ERROR (R247): An NVMe command completes with an error status. -/
  | vaultCmdError (port : Nat) (readPage : Option Nat)
  /-- VAULT_CMD_TIMEOUT (R247): An NVMe command does not complete within VLT_CMD_TIMEOUT, and the drive is taken out. -/
  | vaultCmdTimeout (port : Nat)
  /-- SMART_POLL (R246): Every 65,536 ticks the unit reads each drive's health log and acts on its critical warnings. -/
  | smartPoll (port warning : Nat)
  /-- RESILVER_DONE (R265): The resilver copy ends and the drive joins the mirror. -/
  | resilverDone (port : Nat)
  /-- SWEEP_PASS_END (R239): A sweep pass ends; KEY_SWEEP_PASSES advances and spent hearts are certified or emptied. -/
  | sweepPassEnd
  /-- SCRUB_PASS_END (R266): A scrub pass ends at the last written page, and VLT_SCRUB_PASSES advances. -/
  | scrubPassEnd
  /-- VLT_FORMAT (R267): A quorum write starts formatting the vault with N pages. -/
  | vltFormat (role : Role) (pages : Nat)
  /-- FORMAT_DONE (R267): The all-unwritten tree is committed as sequence 1, and the vault becomes ONLINE. -/
  | formatDone
  /-- VLT_ROOT_SELECT (R260): A quorum write ends ROOT_CONFLICT by keeping the root on the named drive. -/
  | vltRootSelect (role : Role) (port : Nat)
  /-- VLT_PORT_OFFLINE_SET (R265): Writing VLT_PORT_OFFLINE = 1 takes the drive out, and the vault runs DEGRADED. -/
  | vltPortOfflineSet (role : Role) (port : Nat)
  /-- VLT_PORT_OFFLINE_CLEAR (R265): Writing VLT_PORT_OFFLINE = 0 brings the port back, and its drive is resilvered. -/
  | vltPortOfflineClear (role : Role) (port : Nat)
  /-- WSP_BLOCK (R271): A block of 1,024 samples completes, is health-tested, and is conditioned or discarded. -/
  | wspBlock (source : Nat) (samples : List Bool)
  /-- WSP_DECLARED_FAILED (R273): A ninth failed block within 1,024 blocks declares the wellspring failed and changes the supply state. -/
  | wspDeclaredFailed (source : Nat)
  /-- WSP_SETTLED (R278): A wellspring's 1 ms of settling ends, and its start-up count of four passing blocks begins. -/
  | wspSettled (source : Nat)
  /-- RESEED_DUE (R276): A DRBG reseed falls due and runs, with its known-answer test, once the pools hold the entropy input. -/
  | reseedDue (testPasses : Bool)
  /-- DRBG_REQUEST_LIMIT (R277): In DRBG_ONLY the request counter reaches 2^20 and draws are withheld. -/
  | drbgRequestLimit
  /-- CHAIN_TICK_MARKER (R326): A tick marker arrives on a chain port, and the unit aligns its tick and measures its delays. -/
  | chainTickMarker (marker : Marker)
  /-- CHAIN_UP (R323): The master's tick marker returns to it for the first time, and it sends ROLL_CALL. -/
  | chainUp
  /-- PORT_BROKEN (R328): A chain port loses block lock or receives 4 bad messages, and the unit loops back. -/
  | portBroken (portB : Bool)
  /-- LOOPBACK_RESTORE (R329): A port that has held block lock for 1,024 blocks and received a valid marker ends its loop-back. -/
  | loopbackRestore (portB : Bool)
  /-- HOLDOVER_ENTRY (R330): No marker at two consecutive expected ticks puts the unit in holdover; an addressed unit then acts as master. -/
  | holdoverEntry
  /-- ROLL_CALL (R324): A passing roll call assigns or confirms the unit's address and appends its entry. -/
  | rollCall (hdr : MsgHdr) (count : Nat) (entries : List Nat)
  /-- FILL_CALL (R325): A fill roll call gives an unaddressed unit the address of its ring position. -/
  | fillCall (hdr : MsgHdr) (order entries : List Nat)
  /-- HELLO (R325): An unaddressed unit announces itself, and the master schedules a FILL_CALL. -/
  | hello (hdr : MsgHdr)
  /-- DICT_READ (R332): A dictionary read request returns the value as of the next tick. -/
  | dictRead (req : DictReq)
  /-- DICT_WRITE (R357): A dictionary write to an entry without a row of its own is checked, acknowledged and applied, or refused with a reason. -/
  | dictWrite (req : DictReq)
  /-- DICT_REPLY (R57): A dictionary reply reaches a tunnel master and is delivered to its IN_BUFFER. -/
  | dictReply (hdr : MsgHdr) (body : List (BitVec 8))
  /-- CHALLENGE_REQUEST (R333): The unit draws a 16-byte quorum challenge and answers with CHALLENGE. -/
  | challengeRequest (hdr : MsgHdr)
  /-- APPROVAL (R360): An officer approval is checked and counted, and a quorum write completes when M approvals are reached. -/
  | approval (hdr : MsgHdr) (body : List (BitVec 8))
  /-- QUORUM_WRITE_EXPIRY (R361): A pending quorum write still incomplete 4,096 ticks after its challenge is refused with reason 8. -/
  | quorumWriteExpiry (challenge : List (BitVec 8))
  /-- REPLICATE (R335): A peer logs a replication record in its replica log and acknowledges it. -/
  | replicate (hdr : MsgHdr) (record : ReplRecord)
  /-- REPL_ACK (R336): The writer counts an acknowledgement, and at the K-th it sends REPL_COMMIT and completes the change. -/
  | replAck (hdr : MsgHdr) (writer seq : Nat)
  /-- REPL_COMMIT (R336): A peer applies a logged record once it holds the record and its commit. -/
  | replCommit (hdr : MsgHdr) (writer seq : Nat)
  /-- REPL_ROLLBACK (R336): A peer drops the logged record. -/
  | replRollback (hdr : MsgHdr) (writer seq : Nat)
  /-- REPL_QUERY_DUE (R339): A peer that has held a record 128 ticks without a notice sends REPL_QUERY. -/
  | replQueryDue (writer seq : Nat)
  /-- REPL_QUERY (R339): A holder answers a query with REPL_STATE. -/
  | replQuery (hdr : MsgHdr) (writer seq : Nat)
  /-- REPL_STATE (R339): A holder's answer to a query is counted. -/
  | replState (hdr : MsgHdr) (writer seq : Nat)
  /-- REPL_DECISION (R339): 64 ticks after the query, each holder commits or rolls back by counting holders against K. -/
  | replDecision (writer seq : Nat)
  /-- MEMBER_UNREACHABLE (R338): A member unheard for 64 ticks stops counting toward the majority. -/
  | memberUnreachable (member : Nat)
  /-- FRAGMENT_TIMEOUT (R320): A fragmented message missing a fragment 64 ticks after the first is discarded. -/
  | fragmentTimeout (source id : Nat)
  /-- MIG_CONSUME (R131): The source accepts or refuses the consumption of an image tag and marks its slice MOVED. -/
  | migConsume (hdr : MsgHdr) (tag : List (BitVec 8)) (targetSlice : Nat)
  /-- MIG_REPLY (R129): The source's acceptance completes a restore, or its refusal fails it with error 4. -/
  | migReply (hdr : MsgHdr) (tag : List (BitVec 8)) (accepted : Bool)
  /-- MIGRATION_TIMEOUT (R129): No reply or acknowledgement within 64 ticks fails a SAVE or a RESTORE with error 6. -/
  | migrationTimeout (slice : Nat)
  /-- ATTEST_OFFER (R343): A member checks a joining unit's lot-signed offer and answers with ATTEST_ANSWER. -/
  | attestOffer (hdr : MsgHdr) (offer : Offer)
  /-- ATTEST_ANSWER (R343): The joining unit checks the answer and forms the join key and transcript. -/
  | attestAnswer (hdr : MsgHdr) (answer : Answer)
  /-- DOMAIN_KEY (R343): The joining unit receives the domain id, key, member list and K. -/
  | domainKey (hdr : MsgHdr) (grant : DomainGrant)
  /-- HEART_TRANSFER (R344): A joining or recovering unit installs a transferred heart. -/
  | heartTransfer (hdr : MsgHdr) (heart : Nat) (entry : List (BitVec 8))
  /-- OBJECT_TRANSFER (R344): A joining or recovering unit writes a transferred object or slot map to its vault. -/
  | objectTransfer (hdr : MsgHdr) (slot : Nat) (sealed : List (BitVec 8)) (pinned : Bool) (slotMap : Nat)
  /-- TRANSFER_END (R344): The transfer ends; logged records are applied, remaining RECOVERING hearts become SPENT, and the unit becomes a member. -/
  | transferEnd (hdr : MsgHdr) (hearts objects : Nat) (full : Bool)
  /-- JOIN_TIMEOUT (R343): A join step not followed within 4,096 ticks fails the join. -/
  | joinTimeout
  /-- SEI_PERIOD_NEXT (R49): A quorum write arms or cancels a seiche period switch. -/
  | seiPeriodNext (role : Role) (value : Nat)
  /-- SEI_SWITCH_TICK (R49): A quorum write sets or moves the switch tick. -/
  | seiSwitchTick (role : Role) (value : Nat)
  /-- SLC_PASID (R110): A write maps or unmaps a slice's PASID. -/
  | slcPasid (role : Role) (slice value : Nat)
  /-- SLC_SHARE_WRITE (R115): A write changes a slice's share or weight and with it its credit ceiling and pre-reservation. -/
  | slcShareWrite (role : Role) (slice : Nat) (which : ShareKind) (value : Nat)
  /-- FREEZE (R123): A FREEZE stops a slice's fetching and credits, lets admitted jobs complete, and parks jobs not yet admitted. -/
  | freeze (role : Role) (slice : Nat)
  /-- FREEZE_NOW (R124): A FREEZE_NOW also stops and parks the slice's admitted jobs that have segments left to run. -/
  | freezeNow (role : Role) (slice : Nat)
  /-- FREEZE_DRAINED (R123): Once no admitted job lacks a released record, the slice becomes FROZEN. -/
  | freezeDrained (slice : Nat)
  /-- THAW (R126): A THAW resumes the slice, consuming its image if the slice is SAVED. -/
  | thaw (role : Role) (slice : Nat)
  /-- SAVE (R127): A SAVE builds and seals the slice image and announces its tag to the domain. -/
  | save (role : Role) (slice : Nat)
  /-- RESTORE (R129): A RESTORE opens the image, checks the target and requests consumption from the source. -/
  | restore (role : Role) (slice : Nat)
  /-- RNG_SLICE (R133): A write moves a ring pair to another slice and clears its bases and K. -/
  | rngSlice (role : Role) (ring value : Nat)
  /-- HST_MSIX_MAP (R73): A write moves an event source to another vector. -/
  | hstMsixMap (role : Role) (source value : Nat)
  /-- HRT_OWNER (R223): Assigning an EMPTY heart to a slice installs a fresh key as a replicated change. -/
  | hrtOwner (role : Role) (heart value : Nat)
  /-- HRT_INVALIDATE (R226): A quorum write moves a heart to a new generation and orphans every object beneath it. -/
  | hrtInvalidate (role : Role) (heart value : Nat)
  /-- HRT_RETIRE (R223): A quorum write retires a heart to EMPTY, or to SPENT at the last generation. -/
  | hrtRetire (role : Role) (heart value : Nat)
  /-- CHN_K (R341): A quorum write changes the domain's K as a replicated change. -/
  | chnK (role : Role) (value : Nat)
  /-- CHN_DOMAIN_FOUND (R342): A quorum write makes the Keeper draw a domain key and id, making the unit the domain's only member. -/
  | chnDomainFound (role : Role) (value : Nat)
  /-- CHN_DOMAIN_JOIN (R343): A quorum write starts a join with a named member by drawing ephemeral keys and sending ATTEST_OFFER. -/
  | chnDomainJoin (role : Role) (value : Nat)
  /-- CHN_DOMAIN_CONFIRM (R343): A quorum write confirms the join transcript on one side. -/
  | chnDomainConfirm (role : Role) (value : List (BitVec 8))
  /-- CHN_MEMBER_REMOVE (R346): A quorum write removes a member as a replicated kind-10 record. -/
  | chnMemberRemove (role : Role) (value : Nat)
  /-- OFC_ALGORITHM (R365): A quorum write enrols an officer with a self-approval, or removes one. -/
  | ofcAlgorithm (role : Role) (officer value : Nat) (selfApproved : Bool)
  /-- TAMPER_ALARM (R375): A source's events within W milliseconds reach K and the source fires an alarm. -/
  | tamperAlarm (source : Nat)
  /-- TAMPER_RESPONSE (R378): The union of alarms reaching the Keeper in a frame is applied once: zeroise, log and event, lock, then reset. -/
  | tamperResponse
  /-- BATTERY_REMOVAL (R386): VBAT is lost with the main rails off; the domain acts on its hold-up capacitor and then loses its content. -/
  | batteryRemoval
  /-- TMP_CLEAR (R387): A quorum write clears tamper latches whose condition no longer holds. -/
  | tmpClear (role : Role) (value : Nat)
  /-- TMP_LOCK_CLEAR (R387): A quorum write ends LOCK and clears TMP_LOCK_CAUSE. -/
  | tmpLockClear (role : Role) (value : Nat)
  /-- LCS_TRANSITION (R392): A write starts an authorised life-cycle transition and stops service. -/
  | lcsTransition (role : Role) (value : Nat)
  /-- TRANSITION_STEP (R392): A transition step ends and its progress mark is blown, followed by a WARM reset after DONE. -/
  | transitionStep
  /-- TRANSITION_LAPSE (R401): An authorised transition lapses at the end of its certificate's lifetime. -/
  | transitionLapse
  /-- LCS_CHALLENGE_DRAW (R397): The Keeper draws a 16-byte life-cycle challenge. -/
  | lcsChallengeDraw (role : Role) (value : Nat)
  /-- LCS_CHALLENGE_EXPIRY (R397): A life-cycle challenge lapses 86,400 operating seconds after its draw. -/
  | lcsChallengeExpiry
  /-- LCS_CERT_APPLY (R400): An apply starts the Keeper's check of a loaded certificate. -/
  | lcsCertApply (role : Role) (value : Nat)
  /-- CERT_CHECK_END (R400): Certificate checking ends; a grant comes into force, a transition is authorised, or the certificate is refused. -/
  | certCheckEnd
  /-- LCS_GRANT_END (R404): A write ends the grant in force, with a WARM reset if it held right 3 or 4. -/
  | lcsGrantEnd (role : Role) (value : Nat)
  /-- GRANT_EXPIRY (R404): A grant ends at the end of its lifetime. -/
  | grantExpiry
  /-- LCS_TRIM_SELECT (R406): Under a trim-analysis grant, the chosen trim copy is blown into the fuses. -/
  | lcsTrimSelect (role : Role) (value : Nat)
  /-- CHK_START (R411): A START command begins a CRC scan from INIT. -/
  | chkStart (role : Role) (unit : Nat)
  /-- CHK_CONTINUE (R411): A CONTINUE command resumes a suspended scan from CHK_RUNNING. -/
  | chkContinue (role : Role) (unit : Nat)
  /-- CHK_SUSPEND (R411): A SUSPEND command stops a scan, keeping its state. -/
  | chkSuspend (role : Role) (unit : Nat)
  /-- CHK_SCAN_END (R413): A scan folds its last byte or faults, and ends in MATCH, MISMATCH, DONE or FAULT. -/
  | chkScanEnd (unit : Nat)
  /-- SIL_CLEAR_CIRCULAR (R422): A quorum write empties the circular area of the sillage log. -/
  | silClearCircular (role : Role) (value : Nat)
  /-- RST_RESET_REQUEST (R426): A quorum write requests a WARM reset. -/
  | rstResetRequest (role : Role) (value : Nat)
  /-- STANDBY_ENTER (R439): Writing RST_STANDBY = 1 puts the unit in STANDBY. -/
  | standbyEnter (role : Role)
  /-- STANDBY_EXIT (R440): Writing RST_STANDBY = 0 powers the blocks up and runs a FUNCTION start. -/
  | standbyExit (role : Role)
  /-- GATE_REQUEST (R442): A write asks to gate a hand-over block, which is gated, drained or deferred. -/
  | gateRequest (role : Role) (block : Nat)
  /-- UNGATE_REQUEST (R442): A write ungates a hand-over block or clears a pending gate request. -/
  | ungateRequest (role : Role) (block : Nat)
  /-- LANE_GATE_DRAINED (R442): A draining symmetric lane holds no job and is gated. -/
  | laneGateDrained (block : Nat)
  /-- IDLE_ENTRY (R438): After RST_IDLE_FRAMES frames without work, the unit clock-gates its lanes. -/
  | idleEntry
  /-- POWER_ON (R448): The main rails reach power-good in order and the unit leaves COLD reset. -/
  | powerOn (rails : List Rail) (testModeTied : Bool)
  /-- BROWN_OUT (R449): A rail below power-good for more than 1 µs strobes ZEROISE_WORKING and causes a COLD reset. -/
  | brownOut (rail : Rail)
  /-- RESET_N_LOW (R427): RESET_N held low for 2 µs becomes a WARM reset source. -/
  | resetNLow
  /-- RESET_N_LONG (R427): RESET_N held low for 100 ms widens the reset to COLD. -/
  | resetNLong
  /-- PERST_N_ASSERT (R426): PERST_N is asserted, causing a FUNCTION reset. -/
  | perstNAssert
  /-- PCIE_HOT_RESET (R426): A PCIe hot reset causes a FUNCTION reset. -/
  | pcieHotReset
  /-- PCIE_LINK_DOWN (R426): The PCIe link goes down, causing a FUNCTION reset. -/
  | pcieLinkDown
  /-- FUNCTION_LEVEL_RESET (R426): A Function Level Reset causes a FUNCTION reset. -/
  | functionLevelReset
  /-- COLD_START (R434): After the release of the last reset source, the unit runs the full start sequence of Table 19.6. -/
  | coldStart (strap : List Nat) (boot : Boot)
  /-- WARM_START (R434): The unit runs the start sequence from the trim load onward. -/
  | warmStart (boot : Boot)
  /-- FUNCTION_START (R436): The unit scrubs working memory, reloads region 0 and restarts the command cores. -/
  | functionStart
  /-- TAMPER_SAMPLE (R374): At each battery-domain or main-domain sample period every armed source is sampled, its condition updated and its event count advanced. -/
  | tamperSample (battery : Bool) (reading : Reading)
  /-- PASID_ENABLE (R52): The host sets or clears PASID Enable in the PASID capability, deciding whether ring pairs of slices other than 0 can be enabled and whether requests carry a prefix. -/
  | pasidEnable (on : Bool)
  /-- DEBUG_HALT (R308): A debug master halts the command cores or the Keeper under an invasive right, which pauses that world's watchdog and holds jobs that need a halted core. -/
  | debugHalt (secure : Bool)
  /-- DEBUG_RESUME (R308): A halted world is released by debug, its watchdog resumes counting and jobs waiting on it proceed. -/
  | debugResume (secure : Bool)
  /-- RAW_SAMPLE_TAP_OPEN (R285): Under a grant with the tap right, a wellspring's raw-sample tap is opened, its blocks go to the tap and the supply is treated as HALF. -/
  | rawSampleTapOpen (source : Nat)
  /-- CHALLENGE_EXPIRY (R333): A quorum challenge not held by a pending write reaches tick I + 4,096 and lapses, ending any approvals held with it. -/
  | challengeExpiry (challenge : List (BitVec 8))
  deriving DecidableEq, Repr

end Sys2Proof
end

