-- ==== Sys2Proof/Decode.lean ====
section
/-! DEFINITION. The command that a word spells. No row of the table gives bits, so no word spells a command. -/

namespace Sys2Proof

/-- The table gives none of its 225 rows bits: no word spells a command. -/
def decodeTableWord (_nbits _w : Nat) : Option Instr := none

end Sys2Proof
end

