-- ==== Sys2Proof/Config.lean ====
section
/-! DEFINITION. What an implementation fixes and the spec does not give: fuse contents, the authorities' keys, and the free values (constants without a body, so that no proof can use a value of theirs). -/

namespace Sys2Proof.Config

/-! ## Fuses and firmware constants (UNVERIFIED: drawn at manufacture; no value is given) -/

/-- The root in the fuses, 32 bytes (R217). -/
opaque root : Bytes
/-- The lot attestation key for ECDSA P-384: the scalar (R241). -/
opaque lotKeyEc : Nat
/-- The lot attestation key for ML-DSA-65: its 32-byte seed (R241). -/
opaque lotKeyDsa : Bytes
/-- SHA3-256 of the vendor authority's public keys (R398, R435). -/
opaque vendorHash : Bytes
/-- The integrator authority hash blown for the ordering customer (after Table 20.8). -/
opaque orderHash : Bytes
/-- The three trim copies and the two option copies as the fuse loader finds them (R430, R431): intact, and content. -/
opaque trimCopy (n : Nat) : Bytes
opaque optionIntact (n : Nat) : Bool
/-- Word `i` of the command firmware in the image of a slot, as region 0 holds it (R293, R435). -/
opaque firmwareWord (slot i : Nat) : Nat
/-- Word `i` of working memory inside the buffers of a job: how the firmware lays a job's descriptor, input and output out there is not given. -/
opaque bufferWord (job i : Nat) : Nat
/-- Snapshot map entries of the firmware: (key) up to 8 per event code (Table 18.3). -/
opaque snapshotMap (code : Nat) : List Nat
/-- Weirs that the shipped firmware marks valid, as KPR_WEIR_VALID (R297: per firmware). -/
opaque weirValid : Nat

/-- The code that the firmware gives an event of rule R<n> for which the spec states a record and names no code (R424). -/
opaque eventCode (rule : Nat) : Nat

/-- The body of a chain message whose layout the spec does not give, from its type and the fields that the spec says it carries. -/
opaque bodyLayout (type : Nat) (fields : List Bytes) : Bytes

/-- The transcript hash of a join, over its offer and its answer: the spec names it and does not say how it is formed (R343). -/
opaque transcriptHash (offer answer : Bytes) : Bytes

/-! ## Free values -/

/-- Lane cycles of one round of an RSA key generation with a modulus of this many bytes (R146 gives no figure). -/
opaque roundCycles (bytes : Nat) : Nat

/-- The fixed internal digest or message that the release checks of key generation use (Table 6.9 gives no value). -/
opaque checkDigest : Bytes

/-- Single-bit errors that a memory corrected in the frames from one tick to another, by the key of the entry that counts them (R12, R75, R163, R244): the spec gives the counters, and when such errors happen is nature's. -/
opaque corrected (key since now : Nat) : Nat

/-- A free number: the n-th one taken in a run. Nothing constrains it. -/
opaque freeNat (n : Nat) : Nat
/-- A free byte string: the n-th one taken in a run. -/
opaque freeBytes (n : Nat) : Bytes
/-- A free truth value: the n-th one taken in a run. -/
opaque freeBool (n : Nat) : Bool

end Sys2Proof.Config
end

