-- ==== Sys2Proof/Machine/State.lean ====
section
/-! DEFINITION. The state of the unit as plain data: every register, queue, memory, mode and pin the spec gives it, block by block, and the queue of waiting commands. The fixed reasons a step can stop. -/

namespace Sys2Proof.Machine

/-! ## Host link (03) -/

/-- One MSI-X table entry (R51, R72): masked at reset. -/
structure MsixVector where
  addr : Nat
  data : Nat
  masked : Bool
  deriving DecidableEq, Repr

def MsixVector.reset : MsixVector := ⟨0, 0, true⟩

/-- The chain tunnel window (Table 3.5). -/
structure Tunnel where
  outLength : Nat
  outDiscarded : Bool
  inFull : Bool
  outGo : Bool
  inLength : Nat
  outBuffer : Bytes
  inBuffer : Bytes
  /-- inbound datagrams that wait in the chain relay while IN_FULL is 1 (R57) -/
  held : List Bytes
  /-- OUT_GO has been observed at a tick: the datagram goes at the next one (R24, R57) -/
  outSeen : Bool
  /-- datagrams placed in this frame that the unit itself handles, in its window (R25, R355) -/
  ownDue : List Bytes
  deriving DecidableEq, Repr

/-- A clock-crossing FIFO (R74): the write and read pointers with the wrap bit in bit 8, each pointer's Gray code in the two flops of the other domain, and its entries (a free place reads 0). -/
structure Fifo where
  wr : BitVec 9
  rd : BitVec 9
  wrGray0 : BitVec 9
  wrGray1 : BitVec 9
  rdGray0 : BitVec 9
  rdGray1 : BitVec 9
  cells : List (Nat × BitVec 72)
  deriving DecidableEq, Repr

def Fifo.reset : Fifo := ⟨0, 0, 0, 0, 0, 0, []⟩

/-- The endpoint's own state: link, configuration space, MSI-X, raised events, tunnel window, the tick images of R56. -/
structure HostLink where
  linkUp : Bool
  /-- the speed and width as the last tick found them, and those that the link has trained to since (R201) -/
  gen : Nat
  width : Nat
  trainedGen : Nat
  trainedWidth : Nat
  pasidEnable : Bool
  /-- Maximum payload size, maximum read request size in bytes, D3hot (Table 3.1) -/
  payload : Nat
  readRequest : Nat
  d3hot : Bool
  /-- AER's uncorrectable error status: bit 14 a read of the unit that failed, bit 20 an Unsupported Request (R54, R76) -/
  aer : Nat
  /-- the clock-crossing FIFOs, 0 to 95 (R74) -/
  fifos : List (Nat × Fifo)
  msix : List (Nat × MsixVector)
  msixPending : List Nat
  /-- event sources that raise at the next tick (R72) -/
  raised : List Nat
  /-- vectors unmasked with their pending bit set: their message goes out at the next tick (R72) -/
  unmasked : List Nat
  ringPending : List Nat
  ringError : List Nat
  tunnel : Tunnel
  ready : Bool
  deriving DecidableEq, Repr

/-- One ring pair: its registers and indices (R59 to R66). -/
structure RingPair where
  sqBase : Nat
  cqBase : Nat
  shadowBase : Nat
  k : Nat
  irqEnable : Bool
  enableBit : Bool
  error : Nat
  enabled : Bool
  /-- the last ENABLE bit written since the last tick (R24, R62, R63) -/
  enableWritten : Option Bool
  /-- an accepted ENABLE: the tick at which it shows, and the first credit limit (R62) -/
  startDue : Option (Nat × Nat)
  /-- an error staged for a later tick: its tick and its code (R62, R78) -/
  errorDue : Option (Nat × Nat)
  tl : Nat
  sh : Nat
  cp : Nat
  ch : Nat
  limit : Nat
  /-- the last SQ_TAIL and CQ_HEAD values written since the last tick (R64) -/
  tailWritten : Option Nat
  headWritten : Option Nat
  /-- the last ABORT_INDEX written since the last tick (R106) -/
  abortWritten : Option Nat
  /-- submission indices to be aborted when they are fetched (Table 4.14) -/
  abortMarks : List Nat
  /-- bytes 0 to 15 of the last shadow word written (R68), as L, CP, SH, ERROR, ENABLED, BUSY -/
  lastShadow : List Nat
  /-- RNG_SLICE has changed: the next tick sets the bases and K to 0 (R133) -/
  moveDue : Bool
  deriving DecidableEq, Repr

def RingPair.reset : RingPair :=
  { sqBase := 0, cqBase := 0, shadowBase := 0, k := 0, irqEnable := true, enableBit := false, error := 0,
    enabled := false, enableWritten := none, startDue := none, errorDue := none, tl := 0, sh := 0, cp := 0, ch := 0, limit := 0,
    tailWritten := none, headWritten := none, abortWritten := none, abortMarks := [], lastShadow := [], moveDue := false }

/-! ## Slices (05) -/

/-- SLC_MIG_STATE (Table 5.4). -/
inductive MigState where
  | running | freezing | frozen | saving | saved | moved | restoring
  deriving DecidableEq, Repr

/-- A parked job of a frozen slice: ring pair, submission index, submitted as class 0 (R125). -/
structure Parked where
  ring : Nat
  index : Nat
  class0 : Bool
  deriving DecidableEq, Repr

/-- What a slice holds beside its dictionary entries. -/
structure SliceCtx where
  counters : List (Nat × Nat)
  /-- slice resets so far: the slice's part of its session epoch (R227) -/
  epoch : Nat
  mig : MigState
  migError : Nat
  /-- frame G in which the freeze, save or restore in progress was acknowledged (tick number) -/
  migTick : Nat
  /-- the tick at which a SAVE or a RESTORE completes (R127, R129) -/
  migDue : Option Nat
  /-- the image tag of the SAVE in progress or done, or the tag that a RESTORE asked its source for (R127, R129) -/
  imageTag : Option Bytes
  /-- the image of the SAVE in progress, held back until SAVED appears (R127); header and plain body of the image that the RESTORE in progress opened (R129); the error with which the restore ends at the next tick -/
  imageNew : Option Bytes
  opened : Option (Bytes × Bytes)
  migFail : Option Nat
  parked : List Parked
  /-- the slice image, chunk number to its 512 bytes (R128) -/
  image : List (Nat × Bytes)
  resetting : Option Nat
  /-- 1 was written to SLC_RESET; the next tick observes it (R24, R119) -/
  resetWritten : Bool
  resetHeld : Bool
  resetDone : Bool
  /-- ring pairs enabled when the reset began, and jobs it ended (R120) -/
  resetRings : List Nat
  resetCount : Nat
  /-- jobs of the slice whose vault writes were in progress when the reset began (Table 5.2) -/
  resetVault : List Nat
  /-- ring pairs with a job that has no record released when the reset began: BUSY until the reset ends (Table 5.2) -/
  resetBusy : List Nat
  /-- class-0 sixteenths used in the last frame, as they show, and those of the present one -/
  c0UsePk : Nat
  c0UseSym : Nat
  c0NowPk : Nat
  c0NowSym : Nat
  /-- register page counters (Table 8.1) -/
  segments : Nat
  derivations : Nat
  verifyFails : Nat
  wipes : Nat
  /-- segments run and wipes made in the present frame: the page shows them from its end on (R188) -/
  segmentsNow : Nat
  wipesNow : Nat
  windowBusy : Nat
  /-- holder (job number) of each key window; the keys of the job are in the job's context -/
  windows : List (Nat × Nat)
  /-- one past the ring pair whose limit was advanced first at the last tick (R66) -/
  creditNext : Nat
  deriving DecidableEq, Repr

def SliceCtx.reset : SliceCtx :=
  { counters := [], epoch := 0, mig := .running, migError := 0, migTick := 0, migDue := none, imageTag := none, imageNew := none, opened := none, migFail := none,
    parked := [], image := [], resetting := none, resetWritten := false, resetHeld := false, resetDone := false, resetRings := [],
    resetCount := 0, resetVault := [], resetBusy := [], c0UsePk := 0, c0UseSym := 0, c0NowPk := 0, c0NowSym := 0, segments := 0, derivations := 0, verifyFails := 0, wipes := 0, segmentsNow := 0, wipesNow := 0,
    windowBusy := 0, windows := [], creditNext := 0 }

/-! ## Jobs (04) -/

/-- The 64-byte descriptor (Table 4.1). -/
structure Desc where
  opcode : Nat
  classFlags : Nat
  reserved3 : Nat
  inputLength : Nat
  key1 : Nat
  key2 : Nat
  inputAddr : Nat
  outputAddr : Nat
  capacity : Nat
  labelLength : Nat
  reserved45 : Nat
  policy : Nat
  labelField : Bytes
  cookie : Nat
  deriving DecidableEq, Repr

def Desc.zero : Desc := ⟨0, 0, 0, 0, 0, 0, 0, 0, 0, 0, 0, 0, [], 0⟩

/-- A key as an engine holds it: algorithm code, policy number, flags (Table 9.5 byte 3; 128 marks an object in CONFLICT), key bytes, and where it comes from. -/
structure KeyMat where
  alg : Nat
  policy : Nat
  flags : Nat
  bytes : Bytes
  handle : Nat
  /-- commit sequence and last-change tick of the object (Table 4.12) -/
  commitSeq : Nat
  lastChange : Nat
  deriving DecidableEq, Repr

/-- Where a job stands (R28, Table 2.3). -/
inductive Phase where
  | fetching      -- its descriptor, input or label read is outstanding (frame F on)
  | noRoom        -- no working-memory placement yet (R290)
  | ready         -- parsed; waits for admission, a key, a draw, leave or a share
  | running       -- holds a lane
  | parkedLane    -- parked on its lane at a segment boundary (R27)
  | control       -- CT or KP work in progress; it holds no lane
  | output        -- its output frame (R28)
  | committing    -- key-changing: waits for its vault group (R254)
  | replicating   -- key-changing: its record is on the chain (R99)
  | staged        -- its completion record waits for the tick `due`
  deriving DecidableEq, Repr

/-- What an operation produced (R91, R100): a status, output bytes, the RESULT word, and the change it makes. -/
structure Outcome where
  status : Nat
  output : Bytes
  result : Nat
  change : Option Change
  /-- a key or record that the operation created -/
  created : Option KeyMat
  deriving DecidableEq, Repr

/-- A stage of a lane schedule (Tables 6.5, 7.2, 8.5, 8.6): its lane cycles, those still to run, its shared demand u (R175), its credit rate (Table 2.7), and whether it starts at a segment boundary (R150, R151). -/
structure Stage where
  cycles : Nat
  left : Nat
  demand : Nat
  rate : Nat
  fresh : Bool
  deriving DecidableEq, Repr

/-- CTR_DRBG with AES-256: key, V (R275). -/
structure Drbg where
  key : Bytes
  v : Bytes
  live : Bool
  deriving DecidableEq, Repr

/-- The state of an RSA key generation between candidates (R146): the generator of its draws, the first prime once found, the key once both are. -/
structure RsaSearch where
  gen : Drbg
  first : Option Nat
  key : Option Bytes
  deriving DecidableEq, Repr

/-- A job context: one fetched descriptor and all that the unit keeps for it until its record is released. -/
structure Job where
  id : Nat
  ring : Nat
  index : Nat
  slice : Nat
  frameF : Nat
  desc : Desc
  descDone : Bool
  input : Bytes
  inputDone : Bool
  label : Bytes
  labelDone : Bool
  /-- bytes of the input that its reads have asked for so far (R200) -/
  asked : Nat
  /-- the tick at which the outstanding descriptor or input read was issued, and the label's (R76) -/
  readSince : Nat
  labelSince : Nat
  colour : Nat
  granules : List Nat
  /-- the buffers in the order of their placement, each with its first byte and its length: descriptor copy, input, label, output (R290) -/
  bufs : List (Nat × Nat)
  /-- buffers placed so far (R290): 0 none, 1 the descriptor's, 2 with those of input and label, 3 with that of the output -/
  placed : Nat
  cls : Nat
  class0 : Bool
  boundVoid : Bool
  phase : Phase
  engine : Nat
  lane : Nat
  /-- what is left of the lane schedule with its checks, and segments run -/
  plan : List Stage
  segsRun : Nat
  /-- lane cycles and shared demand of the segment of frame `ranFrame` (R31, R175) -/
  segCycles : Nat
  segDemand : Nat
  /-- attempts of an ML-DSA signing job (R173), or rounds of an RSA key generation (R146), that the plan holds so far; whether the last of them is the one that ends the work; the search of a key generation -/
  attempts : Nat
  accepted : Bool
  search : Option RsaSearch
  ranFrame : Nat
  admitted : Option Nat
  /-- not admitted before this tick: the job waits for its heart's entry (R12) -/
  notBefore : Nat
  firstHeld : Option Nat
  rerun : Bool
  /-- a parked job fetched again after a freeze (R125) -/
  refetch : Bool
  lastSeg : Nat
  checks : Nat
  key1 : Option KeyMat
  key2 : Option KeyMat
  /-- the heart key of a stored target or object, as it stood at admission (R226) -/
  heartKey : Bytes
  /-- the sealed copy that OBJECT_REPAIR reads from the drive it names (R263) -/
  copy : Bytes
  draws : Bytes
  drawsDone : Bool
  /-- blinding bytes: of the first run, of the second, of the release check (R147, R151) -/
  blind : Bytes
  leaveN : Nat
  leaveUntil : Option Nat
  leaveAsked : Option Nat
  outcome : Option Outcome
  due : Nat
  outDone : Bool
  degraded : Bool
  replicated : Bool
  /-- replication: record sequence, frame E, K in force, peers that acknowledged -/
  replSeq : Option Nat
  replE : Nat
  replK : Nat
  acks : List Nat
  /-- the unit reached no majority when the job was admitted (R338) -/
  noMajority : Bool
  /-- created handle of a stored creation, kept until the change is usable (R99) -/
  newHandle : Nat
  /-- a status that a fault has fixed while the schedule runs on (R100), with its RESULT word -/
  forced : Option (Nat × Nat)
  /-- a KEY_DESTROY of an object that the waiting job names has taken effect (R104) -/
  lost : Bool
  /-- the frame in which a lane's fault ended the job (R108) -/
  faultTick : Option Nat
  deriving DecidableEq, Repr

/-! ## Lanes (06, 07, 08) -/

/-- Banks of a lane's operand memory in use (R136, R137): by a job, or (0) by the lane's own test; the first bank, how many, and the limbs that stand in them from the first bank's first limb on. Every other limb of the lane is 0. -/
structure BankUse where
  job : Nat
  first : Nat
  count : Nat
  limbs : List (BitVec 36)
  deriving DecidableEq, Repr

/-- The role of a public-key lane (R134). -/
inductive LaneRole where
  | active | comingSpare | spare | fenced
  deriving DecidableEq, Repr

/-- A running known-answer test: lane cycles still to run, and the tick it began (R157, R158, R179, R215). -/
structure LaneTest where
  cyclesLeft : Nat
  since : Nat
  deriving DecidableEq, Repr

/-- What the next tick does to a lane or a cluster: fence it, or clear its fence (R155, R158, R179, R215). -/
inductive LaneDue where
  | none | fence | unfence
  deriving DecidableEq, Repr

/-- One public-key lane: role, jobs held, operand memory (limb number to 36-bit limb, unlisted 0), blinding stream (R134 to R148). -/
structure PkLane where
  role : LaneRole
  running : Option Nat
  parked : Option Nat
  test : Option LaneTest
  banks : List BankUse
  /-- the blinding stream (R148): its seed, the count of its expansions, the tick of the seed, and the cluster whose Keccak core made the last expansion (R179) -/
  blindSeed : Bytes
  blindCounter : Nat
  blindSeeded : Nat
  blindCore : Nat
  usedCycles : Nat
  due : LaneDue
  /-- the tick at which the lane last started its spare's test -/
  tested : Option Nat
  deriving DecidableEq, Repr

def PkLane.reset : PkLane := ⟨.active, none, none, none, [], [], 0, 0, 0, 0, .none, none⟩

/-- The shared units of one cluster (R175 to R179). -/
structure Cluster where
  fenced : Bool
  test : Option LaneTest
  /-- shared cycles committed in the last frame, as they show, and those of the present one -/
  demand : Nat
  now : Nat
  due : LaneDue
  deriving DecidableEq, Repr

def Cluster.reset : Cluster := ⟨false, none, 0, 0, .none⟩

/-- One symmetric lane (R187, R215, R303, R442). -/
structure SymLane where
  fenced : Bool
  keeper : Bool
  draining : Bool
  gated : Bool
  running : Option Nat
  parked : List Nat
  test : Option LaneTest
  usedCycles : Nat
  due : LaneDue
  deriving DecidableEq, Repr

def SymLane.reset : SymLane := ⟨false, false, false, false, none, [], none, 0, .none⟩

/-- A derived key that waits in the ladder for its job's first segment (R193). -/
structure LadderKey where
  job : Nat
  heart : Nat
  bytes : Bytes
  deriving DecidableEq, Repr

/-- A verified page whose objects wait to be unwrapped: the page, its content, the jobs that wait, and whether it is the version before a pending change (R83, R193). -/
structure Unwrap where
  page : Nat
  content : List Bytes
  jobs : List Nat
  prior : Bool
  /-- first slots, within the page, of objects in CONFLICT (R262) -/
  bad : List Nat
  deriving DecidableEq, Repr

structure Lanes where
  pk : List (Nat × PkLane)
  clusters : List (Nat × Cluster)
  sym : List (Nat × SymLane)
  ladder : List LadderKey
  /-- vault pages read, that wait for a credit of the ladder to be unwrapped (R193) -/
  unwraps : List Unwrap
  /-- ladder work done in this frame, in derivations (R193) -/
  ladderUsed : Nat
  deriving DecidableEq, Repr

/-! ## Frame scheduler (02) -/

/-- A grant of leave: its job (or engine), N per frame, first and last frame (R43 to R45). -/
structure Leave where
  job : Nat
  n : Nat
  first : Nat
  last : Nat
  deriving DecidableEq, Repr

/-- Leave of work that is no job: asked since, last frame, N. -/
structure CopyLeave where
  asked : Option Nat
  last : Option Nat
  n : Nat
  deriving DecidableEq, Repr

structure Sched where
  reservoir : Nat
  /-- credits committed in the current frame, and debited from the uncommitted remainder -/
  committed : Nat
  debited : Nat
  preReserved : Nat
  leaves : List Leave
  /-- one past the last ring pair served by the fetch (R65) -/
  fetchNext : Nat
  nextJob : Nat
  idleFrames : Nat
  idle : Bool
  /-- deficit round robin of R31: (pool, class, slice) by `deficitKey`, and its deficit in lane cycles, below 0 once it has run ahead -/
  deficits : List (Nat × Int)
  /-- leave of a scrub pass or a resilver (R43, R265, R266), and of a transfer to a joining unit (R344) -/
  copyLeave : CopyLeave
  transferLeave : CopyLeave
  deriving DecidableEq, Repr

/-! ## Key tree (09) -/

/-- State of a heart (Table 9.1, byte 36). -/
inductive HeartState where
  | empty | live | spent | recovering
  deriving DecidableEq, Repr

/-- A heart table entry (Table 9.1). -/
structure Heart where
  key : Bytes
  generation : Nat
  owner : Nat
  state : HeartState
  certified : Bool
  lastChange : Nat
  imageCommit : Nat
  deriving DecidableEq, Repr

def Heart.reset : Heart := ⟨[], 0, 0xFFFF, .empty, false, 0, 0⟩

/-- A heart image in MRAM (R220): the encrypted part, the additional data, the tag. -/
structure HeartImage where
  cipher : Bytes
  ad : Bytes
  tag : Bytes
  deriving DecidableEq, Repr

/-- An object in the key cache (R230). -/
structure CacheObj where
  handle : Nat
  key : KeyMat
  entries : Nat
  session : Bool
  slice : Nat
  /-- entry number of a session object (Table 9.4) -/
  entry : Nat
  used : Nat
  deriving DecidableEq, Repr

structure KeyTree where
  /-- the two battery-backed copies of the base secret (R218) -/
  baseSecret : Option Bytes
  baseSecret2 : Option Bytes
  mramKey : Option Bytes
  baseKey : Option Bytes
  heartImageKey : Option Bytes
  baseState : Nat
  /-- resets of FUNCTION reach or wider so far: each advances the session epoch of every slice (R227) -/
  epochs : Nat
  hearts : List (Nat × Heart)
  images : List (Nat × Option HeartImage)
  cache : List CacheObj
  pins : List Nat
  /-- hearts with a change of this unit in flight (R224) -/
  inFlight : List Nat
  /-- the sweep: slots found naming SPENT hearts in this pass, and whether a pass began after the heart became SPENT (R239) -/
  sweepSeen : List Nat
  sweepFresh : List Nat
  certifiedLast : List Nat
  /-- pins still to reload (R232) -/
  reload : List Nat
  /-- entries of the heart table with an uncorrectable error, reloaded in the next housekeeping window (R12) -/
  heartsLost : List Nat
  deriving DecidableEq, Repr

/-! ## Vault (10) -/

/-- A tree entry (Table 10.3). -/
structure TreeEntry where
  hash : Bytes
  frame : Bool
  conflict : Bool
  slotMap : Nat
  seq : Nat
  deriving DecidableEq, Repr

def TreeEntry.unwritten : TreeEntry := ⟨[], false, false, 0, 0⟩

/-- A root record (R253). -/
structure Root where
  seq : Nat
  hash : Bytes
  frame : Bool
  deriving DecidableEq, Repr

/-- Kind of a journal item (Table 10.4). -/
inductive ItemKind where
  | change | pendingChange | keep | rollBack | repair | sweep
  deriving DecidableEq, Repr

/-- A journal item: page, kind, the page's level-1 entry before the commit. -/
structure JItem where
  page : Nat
  kind : ItemKind
  prior : TreeEntry
  deriving DecidableEq, Repr

/-- A journal record (Table 10.4), with the CRC-32C of its bytes 60 to 63. -/
structure JRecord where
  root : Root
  items : List JItem
  tick : Nat
  crc : Nat
  deriving DecidableEq, Repr

/-- A copy of the root record in battery-backed memory, with its CRC-32C (R253). -/
structure RootCopy where
  root : Root
  crc : Nat
  deriving DecidableEq, Repr

/-- A page change that waits for a commit group (R254): the page, its kind, the slots it writes (none: freed), the CONFLICT bit it sets, the job it belongs to, and the frame in which it came. -/
structure Version where
  page : Nat
  kind : ItemKind
  writes : List (Nat × Option Bytes)
  conflict : Option Bool
  job : Option Nat
  since : Nat
  deriving DecidableEq, Repr

/-- VLT_PORT_STATE (Table 10.7). -/
inductive PortState where
  | absent | resilvering | inMirror | out | offline
  deriving DecidableEq, Repr

/-- An NVMe command of Table 10.1. -/
inductive NvmeOp where
  | identifyController | identifyNamespace
  | createCompletion (queue : Nat) | createSubmission (queue : Nat)
  | deleteSubmission (queue : Nat) | deleteCompletion (queue : Nat)
  | read (block : Nat) | write (block : Nat) | flush
  | deallocate (first count : Nat)
  | healthLog
  deriving DecidableEq, Repr

/-- A command in a submission queue (R246): queue 0 is the admin queue, 1 to 4 are the I/O queue pairs; the frame of its submission; whether a later command of the block tells its completion. -/
structure NvmeCmd where
  queue : Nat
  op : NvmeOp
  since : Nat
  told : Bool
  deriving DecidableEq, Repr

/-- One vault port and its drive. -/
structure Drive where
  state : PortState
  /-- the link as the last tick sampled it, and as it is now (R245) -/
  link : Bool
  linkNow : Bool
  /-- what the link trained to: generation 1 to 4, width 4, 2 or 1 -/
  gen : Nat
  width : Nat
  /-- PERST_N is driven low; the 100 MHz reference is forwarded (R245, Table 1.5) -/
  perst : Bool
  refclk : Bool
  /-- what the drive told that has come up since the last tick -/
  ident : Option DriveIdent
  /-- logical blocks of the drive -/
  size : Nat
  /-- the drive's blocks of 4,096 bytes, as the unit has written or read them (Table 10.2) -/
  cells : List (Nat × Bytes)
  /-- the state that the port takes at the next tick (R247, R265) -/
  next : Option PortState
  /-- commands that have not completed (R246) -/
  cmds : List NvmeCmd
  deriving DecidableEq, Repr

def Drive.reset : Drive :=
  { state := .absent, link := false, linkNow := false, gen := 1, width := 4, perst := true, refclk := false, ident := none, size := 0, cells := [],
    next := none, cmds := [] }

/-- VLT_STATE (Table 10.7). -/
inductive VaultState where
  | absent | unformatted | formatting | online | degraded | unavailable | rootConflict
  deriving DecidableEq, Repr

/-- A vault read in progress: the page, the port it reads, whether the other copy failed, the jobs that wait (R259). -/
structure VRead where
  page : Nat
  port : Nat
  second : Bool
  jobs : List Nat
  since : Nat
  /-- the read is of the version before a pending change (R256) -/
  prior : Bool
  /-- the first copy's read ended with data (R262) -/
  firstData : Bool
  /-- what is read now: the node of this level on the page's path, 0 the page (R258) -/
  level : Nat
  /-- the read command has been issued: its credits and its queue had room -/
  issued : Bool
  deriving DecidableEq, Repr

/-- The tree of a group whose phase 2 has been written: in force from the next tick (R254), and the pages whose frames are deallocated then (R257). -/
structure Coming where
  tree : List (Nat × TreeEntry)
  root : Root
  locked : List Nat
  dead : List Nat
  deriving DecidableEq, Repr

structure Vault where
  state : VaultState
  d0 : Drive
  d1 : Drive
  /-- entries of the committed tree: (level of the child, index) coded level × 2^32 + index (R251) -/
  tree : List (Nat × TreeEntry)
  root : Root
  battery0 : Option RootCopy
  battery1 : Option RootCopy
  journal : List JRecord
  formatting : Option Nat
  waiting : List Version
  group : List Version
  groupSince : Nat
  /-- writes of the open group that have been issued; the Flush has; every command of phase 1 has completed (R254) -/
  groupIssued : Nat
  groupFlushed : Bool
  groupEnded : Bool
  /-- the commit that comes into force at the next tick -/
  coming : Option Coming
  /-- level-1 and level-2 nodes in the verified-node area, least recently used first (R258) -/
  nodes : List Nat
  /-- nodes of levels 3 to 5 that no drive could give at the start -/
  lost : List Nat
  locked : List Nat
  reads : List VRead
  sweepPages : Nat
  scrubPages : Nat
  /-- the port whose resilver has not ended, and the keys of the pages and nodes that it copies, ascending (R265) -/
  copyPort : Option Nat
  copyKeys : List Nat
  deriving DecidableEq, Repr

/-! ## Wellsprings and DRBG (11) -/

/-- WSP_SRC_STATE (Table 11.4). -/
inductive SrcState where
  | starting | healthy | failed | tapped
  deriving DecidableEq, Repr

structure Wellspring where
  state : SrcState
  settled : Bool
  passCount : Nat
  /-- the last block outcomes, newest first, true for a failed block, at most 1,024 (R273) -/
  window : List Bool
  pool : List Bytes
  /-- value and length of the run in progress (R271) -/
  runValue : Bool
  runLength : Nat
  /-- declared failed from the next tick on (R273) -/
  failDue : Bool
  deriving DecidableEq, Repr

def Wellspring.reset : Wellspring := ⟨.starting, false, 0, [], [], false, 0, false⟩

structure Entropy where
  w0 : Wellspring
  w1 : Wellspring
  drbg : Drbg
  supply : Nat
  /-- a COLD start-up failure holds the unit in STARTING (R278, R279) -/
  held : Bool
  sinceReseed : Nat
  framesSinceReseed : Nat
  reseedDue : Bool
  /-- the outcome that the known-answer test of the window's reseed is to have (RESEED_DUE, R276) -/
  reseedTest : Option Bool
  katFailed : Bool
  /-- the request counter has reached 2^20 in DRBG_ONLY (R277) -/
  limited : Bool
  portBytesUsed : Nat
  keeperPort : Bool
  gatedPort : Bool
  deriving DecidableEq, Repr

/-! ## Keeper, weirs, working memory, guard (12) -/

/-- A call queued on a weir (R294). -/
structure WeirCall where
  weir : Nat
  core : Nat
  job : Nat
  args : Bytes
  addr : Nat
  started : Bool
  deriving DecidableEq, Repr

/-- A region of the guard (Table 12.6). -/
structure Region where
  base : Nat
  size : Nat
  subOff : Nat
  perm : Nat
  lock : Bool
  enable : Bool
  deriving DecidableEq, Repr

/-- A hand-over in progress (R304, R305). -/
inductive HandState where
  | settled | releasing | wiping
  deriving DecidableEq, Repr

/-- Ownership of a block of Table 12.7 and its gate request (R303 to R306, R442). -/
structure Block where
  keeperOwns : Bool
  hand : HandState
  /-- the tick at which the hand-over in progress ends, and to whom (true: the Keeper) -/
  handDue : Option (Nat × Bool)
  normalAsks : Bool
  gated : Bool
  gateDraining : Bool
  /-- the one pending gate request, deferred (R306) -/
  deferred : Bool
  /-- the symmetric lane that a block 5 or 6 in the Keeper's hands, or on its way there, is (R303) -/
  lane : Option Nat
  deriving DecidableEq, Repr

def Block.reset : Block := ⟨false, .settled, none, false, false, false, false, none⟩

/-- A word of working memory: colour and data (R289). -/
structure Word36 where
  colour : Nat
  data : Nat
  deriving DecidableEq, Repr

def Word36.free : Word36 := ⟨15, 0⟩

structure Keeper where
  running : Bool
  /-- a start has loaded regions 0, 3 and 5 of working memory (R293) -/
  loaded : Bool
  weirCalls : List WeirCall
  /-- completion words of served or refused calls: core, weir, 1 done or 2 refused, result bytes (R296, R297) -/
  completions : List (Nat × Nat × Nat × Bytes)
  /-- what the last gateway instruction of each core returned: 1 queued, 2 busy, 3 faulted -/
  gateReturn : List (Nat × Nat)
  gateFaultTicks : List Nat
  regions : List (Nat × Region)
  guardOn : Bool
  guardSaved : List (Nat × Region)
  guardOffSince : Nat
  /-- disable written too late in the frame, held until the next lane time (R300) -/
  guardDisableHeld : Bool
  /-- region fields written while the guard is disabled -/
  regionsNew : List (Nat × Region)
  blocks : List (Nat × Block)
  debugState : Nat
  haltNormal : Bool
  haltSecure : Bool
  swdtArmed : Bool
  /-- the last value written to KPR_SWDT_REFRESH (R309) -/
  swdtLast : Nat
  swdtUs : Nat
  swdtPeriodNow : Nat
  swdtExpiries : List Nat
  nwdtUs : Nat
  checkins : List Nat
  nwdtExpiries : List Nat
  /-- jobs running on the command cores: core number to job number -/
  cores : List (Nat × Nat)
  coresRunning : Bool
  /-- accesses of guarded masters that wait for the guard (R300) -/
  held : List Instr
  deriving DecidableEq, Repr

/-! ## Chain (13) -/

/-- A chain message of this unit, waiting or sent: type, destination, id, plain body (R319). -/
structure ChainMsg where
  type : Nat
  dst : Nat
  id : Nat
  insTick : Nat
  body : Bytes
  record : Option ReplRecord
  /-- fragments that earlier frames have taken (R320) -/
  placed : Nat
  /-- the header of a tunnel datagram, as the host wrote it (R57, R319) -/
  head : Option Bytes
  deriving DecidableEq, Repr

/-- A logged replication record of a peer (R335, R339). -/
structure LogRecord where
  writer : Nat
  record : ReplRecord
  since : Nat
  committed : Bool
  /-- the change has been put in line for the vault; the entry is freed once its group has committed (R336) -/
  applied : Bool
  queried : Option Nat
  holders : List Nat
  deriving DecidableEq, Repr

/-- A change of this unit in flight: record, frame E, acknowledging peers, the write or job it belongs to (R99, R224). -/
structure OwnChange where
  record : ReplRecord
  e : Nat
  acks : List Nat
  job : Option Nat
  /-- the entry of the dictionary write, when it is one, and the request to be answered -/
  write : Option (Nat × Option DictReq)
  /-- set when the K-th acknowledgement has arrived: the tick at which the change applies -/
  applyAt : Option Nat
  /-- the tick of the last REPL_QUERY for a change whose job or write is gone, and the holders that answered (R339) -/
  queried : Option Nat
  holders : List Nat
  /-- found pending by a restart (R260, R339) -/
  restarted : Bool
  deriving DecidableEq, Repr

/-- A fragmented message being joined (R320). -/
structure Partial where
  src : Nat
  id : Nat
  since : Nat
  have_ : List (Nat × Bytes)
  last : Nat
  deriving DecidableEq, Repr

/-- CHN_JOIN_STATE (Table 13.11). -/
inductive JoinState where
  | none | attesting | confirming | transferring | done | failed
  deriving DecidableEq, Repr

structure Chain where
  address : Nat
  lockA : Bool
  lockB : Bool
  loopA : Bool
  loopB : Bool
  holdover : Bool
  acting : Bool
  up : Bool
  /-- the unit originates chain frames as strapped master (R316, R331) -/
  origin : Bool
  /-- last offset from the master's tick, in picoseconds -/
  offset : Int
  roundTrip : Nat
  arrival0 : Option Int
  arrival1 : Option Int
  tickSource : Bool
  master : Nat
  missed : Nat
  markerSeen : Bool
  msgId : Nat
  waiting : List ChainMsg
  seen : List (Nat × Nat × Nat)
  partials : List Partial
  /-- last tick at which each member was heard (R338) -/
  heard : List (Nat × Nat)
  unreachable : List Nat
  own : List OwnChange
  log : List LogRecord
  /-- commit notices whose record has not arrived yet: writer, sequence (R336) -/
  early : List (Nat × Nat)
  /-- image tags of this unit's slices that are outstanding, with their slice, and those consumed, with the target's address and slice (R129, R131); tags that peers announced -/
  tags : List (Bytes × Nat)
  consumed : List (Bytes × Nat × Nat)
  peerTags : List Bytes
  seq : Nat
  helloDue : Bool
  rollCallDue : Bool
  fillCallDue : Bool
  domainKey : Option Bytes
  join : JoinState
  joinSince : Nat
  joinPeer : Nat
  joinIsMember : Bool
  joinSecret : Bytes
  joinKey : Bytes
  joinOffer : Option Offer
  joinTranscript : Bytes
  joinConfirmed : Bool
  joinLogged : List LogRecord
  /-- a DOMAIN_KEY received, which waits for this unit's own confirmation -/
  joinGrant : Option DomainGrant
  /-- objects that a transfer brought: first slot and last-change tick (R344, R345) -/
  joinSlots : List (Nat × Nat)
  /-- what a member still has to send to a joining unit: hearts, then object slots (R344) -/
  transferHearts : List Nat
  transferObjects : List Nat
  /-- pages whose slot map it sends (R345) -/
  transferMaps : List Nat
  /-- hearts and objects sent; every object is sent -/
  sentHearts : Nat
  sentObjects : Nat
  transferFull : Bool
  transferTo : Nat
  deriving DecidableEq, Repr

/-! ## Dictionary (14) -/

/-- The value of an entry: a number, or a byte string. -/
inductive DVal where
  | num (n : Nat)
  | octets (b : Bytes)
  deriving DecidableEq, Repr

/-- A quorum challenge (R333): its bytes, its issue tick, whether a pending write holds it, the officers whose approval is held with it (R360). -/
structure Challenge where
  bytes : Bytes
  issued : Nat
  held : Bool
  /-- held approvals: officer, target, key, value hash -/
  approvals : List (Nat × Nat × Nat × Bytes)
  deriving DecidableEq, Repr

/-- A pending quorum write (R361); `replied` once its reply of operation 6 has been given. -/
structure PendingWrite where
  req : DictReq
  challenge : Bytes
  officers : List Nat
  selfApproved : Bool
  replied : Bool
  deriving DecidableEq, Repr

/-- The answer to the last write or command of the dictionary: acknowledged, waiting for approvals, or refused with a reason (Table 14.5). -/
inductive Answered where
  | none | acked | waiting | refused (reason : Nat)
  deriving DecidableEq, Repr

structure Dict where
  /-- stored numeric and byte-string values by index × 256 + subindex; an unlisted entry holds its default -/
  nums : List (Nat × Nat)
  octs : List (Nat × Bytes)
  /-- writes acknowledged in this frame, applied in the window, in order (R357) -/
  acked : List (Nat × DVal)
  seenReqs : List (Nat × Nat × Nat)
  challenges : List Challenge
  pendingWrites : List PendingWrite
  answer : Answered
  /-- the tick from which a counter of corrected errors counts, by its entry's key (R12) -/
  ceSince : List (Nat × Nat)
  deriving DecidableEq, Repr

/-! ## Tamper (15), life cycle (16), check values (17), sillage (18), reset (19) -/

/-- One tamper source: ticks of its events in sample counts, condition at the last sample (R373 to R375). -/
structure TamperSrc where
  events : List Nat
  condition : Bool
  deriving DecidableEq, Repr

def TamperSrc.reset : TamperSrc := ⟨[], false⟩

/-- A battery log record (Table 15.4). -/
structure BatLog where
  sources : Nat
  applied : Nat
  held : Nat
  seconds : Nat
  cycles : Nat
  state : Nat
  deriving DecidableEq, Repr

structure Tamper where
  sources : List (Nat × TamperSrc)
  latched : List Nat
  /-- alarms that reached the Keeper in this frame, and those of start-up that wait for it: source and response set (R378, R383) -/
  alarms : List (Nat × Nat)
  pendingActions : Nat
  batLog : List BatLog
  /-- battery-domain sample at which the newest battery log record was made for an alarm: those of one sample combine (R384) -/
  batSample : Option Nat
  /-- responses still to be finished, by log and event, lock, reset: frame Z, response set, alarms (R378) -/
  respond : List (Nat × Nat × List (Nat × Nat))
  sampleBattery : Nat
  sampleMain : Nat
  alert : Bool
  locked : Bool
  batteryBlank : Bool
  deriving DecidableEq, Repr

/-- Progress marks of a transition: BEGUN, WIPED, PROVISIONED, DONE, as blown bits of each mark (R391). -/
structure Marks where
  begun : Nat
  wiped : Nat
  provisioned : Nat
  done : Nat
  deriving DecidableEq, Repr

def Marks.reset : Marks := ⟨0, 0, 0, 0⟩

/-- The fuses that change: progress marks, integrator hash, trim choice, vendor test access, blown at SCRAP (R389 to R406). -/
structure Fuses where
  m1 : Marks
  m2 : Marks
  m3 : Marks
  m4 : Marks
  /-- none: as blown for the ordering customer at the factory (Table 20.8); some: blown by transition 1 -/
  integratorHash : Option Bytes
  trimChoice : Option Nat
  vendorTest : Bool
  allBlown : Bool
  deriving DecidableEq, Repr

structure LifeCycle where
  fuses : Fuses
  /-- transition in progress: its number and its target -/
  transition : Option (Nat × Nat)
  challenge : Option (Bytes × Nat)
  cert : List (Nat × Bytes)
  certState : Nat
  certError : Nat
  grantRights : Nat
  /-- operating second at which the grant or the authorised transition ends -/
  grantEnds : Nat
  /-- authorised transition: number, target -/
  authorised : Option (Nat × Nat)
  /-- a grant is in force; it ends at the next tick (R404) -/
  granted : Bool
  endDue : Bool
  /-- the certificate check has ended in this frame: 0 passed, else the code of the check that failed (R400) -/
  verdict : Option Nat
  /-- the integrator authority hash that transition 1 blows -/
  newHash : Bytes
  deriving DecidableEq, Repr

/-- One check-value unit (R409 to R415): CHK_STATE; reg and position of the running scan; CHK_RUNNING, CHK_POSITION, CHK_RESULT and CHK_FAULT as they show; a fault met in this frame; the end state that shows at the next tick, with its fault; leave of a scan over 1 MiB. -/
structure CheckUnit where
  state : Nat
  reg : Nat
  position : Nat
  running : Nat
  shown : Nat
  result : Nat
  fault : Nat
  hit : Nat
  next : Option (Nat × Nat)
  leaveAsked : Option Nat
  leaveUntil : Option Nat
  leaveN : Nat
  deriving DecidableEq, Repr

def CheckUnit.reset : CheckUnit := ⟨0, 0, 0, 0, 0, 0, 0, 0, none, none, none, 0⟩

/-- An event to be recorded: code, tick of its frame (R420). -/
structure SilEvent where
  code : Nat
  tick : Nat
  /-- the record goes out as a chain EVENT message too (Table 15.2) -/
  send : Bool
  /-- a battery-log copy carries its 28 bytes (R418) -/
  copy : Option BatLog
  /-- operating seconds, snapshot count and snapshot, taken in the window of the event's frame (R417, R418) -/
  made : Option (Nat × Nat × Bytes)
  deriving DecidableEq, Repr

/-- A sillage record (Table 18.1). -/
structure SilRecord where
  code : Nat
  seconds : Nat
  cycles : Nat
  tick : Nat
  suppressed : Nat
  flags : Nat
  snapCount : Nat
  snapshot : Bytes
  seq : Nat
  deriving DecidableEq, Repr

structure Sillage where
  nextSeq : Nat
  firstSeq : Nat
  perm : List (Nat × Option SilRecord)
  permCount : Nat
  circular : List SilRecord
  queue : List SilEvent
  /-- per code: records in the open window, and the second it opened (R421) -/
  windows : List (Nat × Nat × Nat)
  suppressed : List (Nat × Nat)
  deriving DecidableEq, Repr

/-- Where the unit stands in power and reset (R425 to R442). -/
inductive Power where
  | run | standby | battery | held
  deriving DecidableEq, Repr

structure ResetCtl where
  power : Power
  /-- reach of the reset being held: 0 none, 1 FUNCTION, 2 WARM, 3 COLD -/
  reach : Nat
  causes : Nat
  trimState : Nat
  /-- The trim applied (R430); none for the safe default trim. -/
  trim : Option Bytes
  optionsState : Nat
  strap : Nat
  bootSlot : Nat
  bootFallback : Bool
  scrapped : Bool
  /-- reach of the start in progress: 0 none, 1 FUNCTION, 2 WARM, 3 COLD (R434, R436) -/
  starting : Nat
  /-- a start whose steps up to 8 are done, waiting for the DRBG (R434 step 9) -/
  awaitDrbg : Bool
  /-- READY reads 1 at the next tick (R434 step 12) -/
  readyDue : Bool
  /-- internal reset sources detected in this frame: reach, cause bits; entered at the next tick (R426) -/
  dueReach : Nat
  dueCauses : Nat
  /-- RESET_N is low, and counted as WARM -/
  resetNLow : Bool
  /-- TEST_MODE is not tied to VSS: the unit is held in COLD reset -/
  testMode : Bool
  /-- main rails below their power-good threshold since the brown-out (R448, R449) -/
  railsDown : List Rail
  /-- the reset being held is the exit from STANDBY (R440) -/
  fromStandby : Bool
  seconds : Nat
  microseconds : Nat
  powerCycles : Nat
  fwRelease : Bytes
  fwMeasurement : Bytes
  junction : Int
  deriving DecidableEq, Repr

/-- A posted write or message that left the unit, in the order it left: the model's own trace of the ports. -/
inductive Sent where
  | read (job : Nat) (what : ReadKind) (addr length : Nat) (pasid : Option Nat)
  | output (job : Nat) (addr : Nat) (data : Bytes) (pasid : Option Nat)
  | record (ring : Nat) (addr : Nat) (bytes : Bytes) (pasid : Option Nat)
  | shadow (ring : Nat) (addr : Nat) (bytes : Bytes) (pasid : Option Nat)
  | msix (vector : Nat) (addr : Nat) (data : Nat)
  | chain (msg : ChainMsg) (line : Bytes)
  | forwarded (type : Nat) (hdr : MsgHdr) (body : Bytes)
  | chainFrame (ring : Nat) (marker header endMarker : Bytes)
  | drive (port : Nat) (queue : Nat) (op : NvmeOp)
  | unsupported (bar offset : Nat)
  | readFailed (ring : Nat)
  | debug (word36 : Nat)
  | tap (source : Nat) (samples : List Bool)
  deriving DecidableEq, Repr

end Sys2Proof.Machine

namespace Sys2Proof.Machine

/-- Why a step stops the machine. No rule of the spec gives a command of the table no effect on every operand; the one fault is of an operand that names nothing the unit has. -/
inductive Fault where
  /-- Raised by `execWmUncorrectable` alone: the operand names a word past the last of working memory (R289). Safe: the model stops and says nothing. -/
  | noSuchWord (word : Nat)
  deriving DecidableEq, Repr

/-- Why a command has no meaning. -/
inductive Refusal where
  /-- a command whose meaning has not been written yet, by its mnemonic. Safe: nothing is claimed. -/
  | notModelled (mnemonic : String)
  deriving DecidableEq, Repr

/-- What the host sees of the blocks behind its registers: as the last tick left it (R3, R18, R25). -/
structure Shown where
  slices : List (Nat × SliceCtx)
  jobs : List Job
  keys : KeyTree
  vault : Vault
  dict : Dict
  tamper : Tamper
  life : LifeCycle
  rst : ResetCtl
  deriving DecidableEq, Repr

/-- The state of the unit. -/
structure State where
  /-- tick number of the current frame, 64 bits (R4) -/
  tick : Nat
  /-- true from the start of the housekeeping window to the tick (R17) -/
  window : Bool
  host : HostLink
  rings : List (Nat × RingPair)
  slices : List (Nat × SliceCtx)
  jobs : List Job
  lanes : Lanes
  sched : Sched
  keys : KeyTree
  vault : Vault
  ent : Entropy
  keeper : Keeper
  wm : List (Nat × Word36)
  chain : Chain
  dict : Dict
  tamper : Tamper
  life : LifeCycle
  chk : List (Nat × CheckUnit)
  sil : Sillage
  rst : ResetCtl
  /-- what the host reads until the next tick; none while no tick has shown anything since a reset -/
  shown : Option Shown
  /-- chain messages and dictionary requests received in this frame, in order, for step 4 of its window (R25, R357) -/
  inbox : List Instr
  /-- the trace of what left the unit (the model's own) -/
  sent : List Sent
  /-- counter of the free values (the model's own) -/
  free : Nat
  /-- the commands that wait, first in, first out -/
  pending : List Instr
  deriving DecidableEq, Repr


/-! ## The state right after reset -/

def Tunnel.reset : Tunnel := ⟨0, false, false, false, 0, [], [], [], false, []⟩

def HostLink.reset : HostLink :=
  { linkUp := false, gen := 5, width := 8, trainedGen := 5, trainedWidth := 8, pasidEnable := false, payload := 128, readRequest := 512, d3hot := false, aer := 0, fifos := [], msix := [], msixPending := [], raised := [],
    unmasked := [], ringPending := [], ringError := [], tunnel := Tunnel.reset, ready := false }

/-- Lanes 0 to 22 active, lane 23 the spare (R134, R135). -/
def Lanes.reset : Lanes :=
  { pk := [(23, { PkLane.reset with role := .spare })], clusters := [], sym := [], ladder := [], unwraps := [], ladderUsed := 0 }

def Sched.reset : Sched :=
  { reservoir := 0, committed := 0, debited := 0, preReserved := 0, leaves := [], fetchNext := 0, nextJob := 0,
    idleFrames := 0, idle := false, deficits := [], copyLeave := ⟨none, none, 0⟩, transferLeave := ⟨none, none, 0⟩ }

def KeyTree.reset : KeyTree :=
  { baseSecret := none, baseSecret2 := none, mramKey := none, baseKey := none, heartImageKey := none, baseState := 0, epochs := 0,
    hearts := [], images := [], cache := [], pins := [], inFlight := [], sweepSeen := [], sweepFresh := [],
    certifiedLast := [], reload := [], heartsLost := [] }

def Root.none : Root := ⟨0, [], false⟩

def Vault.reset : Vault :=
  { state := .unformatted, d0 := Drive.reset, d1 := Drive.reset, tree := [], root := Root.none, battery0 := none,
    battery1 := none, journal := [], formatting := none, waiting := [], group := [], groupSince := 0, groupIssued := 0,
    groupFlushed := false, groupEnded := false, coming := none, nodes := [], lost := [], locked := [], reads := [], sweepPages := 0, scrubPages := 0,
    copyPort := none, copyKeys := [] }

def Entropy.reset : Entropy :=
  { w0 := Wellspring.reset, w1 := Wellspring.reset, drbg := ⟨[], [], false⟩, supply := 0, held := false,
    sinceReseed := 0, framesSinceReseed := 0, reseedDue := false, reseedTest := none, katFailed := false, limited := false, portBytesUsed := 0,
    keeperPort := false, gatedPort := false }

def Region.none : Region := ⟨0, 9, 0, 0, false, false⟩

/-- The region map of the shipped firmware (Table 12.5). -/
def Region.shipped : List (Nat × Region) :=
  [(0, ⟨0, 19, 0, 1345, false, true⟩), (1, ⟨0x80000, 18, 0, 64, true, true⟩), (2, ⟨0xC0000, 18, 0, 195, true, true⟩),
   (3, ⟨0x100000, 20, 0, 1283, false, true⟩), (4, ⟨0x200000, 21, 0, 79, true, true⟩),
   (5, ⟨0x400000, 22, 0, 240, true, true⟩)]

def Keeper.reset : Keeper :=
  { running := false, loaded := false, weirCalls := [], completions := [], gateReturn := [], gateFaultTicks := [], regions := Region.shipped, guardOn := false,
    guardSaved := [], guardOffSince := 0, guardDisableHeld := false, regionsNew := [], blocks := [], debugState := 0,
    haltNormal := false, haltSecure := false, swdtArmed := false, swdtLast := 0, swdtUs := 0, swdtPeriodNow := 100, swdtExpiries := [],
    nwdtUs := 0, checkins := [], nwdtExpiries := [], cores := [], coresRunning := false, held := [] }

def Chain.reset : Chain :=
  { address := 0, lockA := false, lockB := false, loopA := false, loopB := false, holdover := false, acting := false,
    up := false, origin := false, offset := 0, roundTrip := 0, arrival0 := none, arrival1 := none, tickSource := false, master := 0,
    missed := 0, markerSeen := false, msgId := 0, waiting := [], seen := [], partials := [], heard := [],
    unreachable := [], own := [], log := [], early := [], tags := [], consumed := [], peerTags := [], seq := 0, helloDue := false, rollCallDue := false, fillCallDue := false,
    domainKey := none, join := .none, joinSince := 0, joinPeer := 0, joinIsMember := false, joinSecret := [],
    joinKey := [], joinOffer := none, joinTranscript := [], joinConfirmed := false, joinLogged := [], joinGrant := none,
    joinSlots := [], transferHearts := [], transferObjects := [], transferMaps := [], sentHearts := 0, sentObjects := 0, transferFull := false,
    transferTo := 0 }

def Dict.reset : Dict :=
  { nums := [], octs := [], acked := [], seenReqs := [], challenges := [], pendingWrites := [], answer := .none, ceSince := [] }

def Tamper.reset : Tamper :=
  { sources := [], latched := [], alarms := [], pendingActions := 0, batLog := [], batSample := none, respond := [], sampleBattery := 0,
    sampleMain := 0, alert := false, locked := false, batteryBlank := false }

/-- A unit as it leaves the factory: INTEGRATOR (the list after Table 20.8). -/
def Fuses.reset : Fuses :=
  { m1 := ⟨15, 15, 15, 15⟩, m2 := Marks.reset, m3 := Marks.reset, m4 := Marks.reset, integratorHash := none, trimChoice := none,
    vendorTest := false, allBlown := false }

def LifeCycle.reset : LifeCycle :=
  { fuses := Fuses.reset, transition := none, challenge := none, cert := [], certState := 0, certError := 0,
    grantRights := 0, grantEnds := 0, authorised := none, granted := false, endDue := false, verdict := none, newHash := [] }

def Sillage.reset : Sillage :=
  { nextSeq := 0, firstSeq := 0, perm := [], permCount := 0, circular := [], queue := [], windows := [], suppressed := [] }

/-- Held in COLD reset, the power-on cause noted (R426 bit 16). -/
def ResetCtl.reset : ResetCtl :=
  { power := .held, reach := 3, causes := 0x10000, trimState := 0, trim := none, optionsState := 0, strap := 15, bootSlot := 0,
    bootFallback := false, scrapped := false, starting := 0, awaitDrbg := false, readyDue := false, dueReach := 0,
    dueCauses := 0, resetNLow := false, testMode := false, railsDown := [], fromStandby := false, seconds := 0, microseconds := 0, powerCycles := 0, fwRelease := [],
    fwMeasurement := [], junction := 0 }

/-- The unit right after reset: every block in COLD reset, nothing listed in any memory, no command waiting. Values the spec does not give are those of assumption log 3. -/
def State.reset : State :=
  { tick := 0, window := false, host := HostLink.reset, rings := [], slices := [], jobs := [], lanes := Lanes.reset,
    sched := Sched.reset, keys := KeyTree.reset, vault := Vault.reset, ent := Entropy.reset, keeper := Keeper.reset,
    wm := [], chain := Chain.reset, dict := Dict.reset, tamper := Tamper.reset, life := LifeCycle.reset, chk := [],
    sil := Sillage.reset, rst := ResetCtl.reset, shown := none, inbox := [], sent := [], free := 0, pending := [] }

end Sys2Proof.Machine
end

