-- ==== Sys2Proof/Machine/Entries.lean ====
section
/-! DEFINITION. The object dictionary's entries: the key of each entry, and its attributes as the tables of the spec give them (R348). -/

namespace Sys2Proof.Machine

/-- Types of values (Table 14.1). -/
inductive VType where
  | bool | u8 | u16 | u32 | u64 | u36 | i32 | octets | string
  deriving DecidableEq, Repr

/-- Access codes (Table 14.3). -/
inductive Acc where
  | ro | rw | rw0 | wo | rwq | woq
  deriving DecidableEq, Repr

/-- Reach of a stored value (Table 14.2); `live` for a value that the unit recomputes or keeps in a block's own state. -/
inductive Reach where
  | live | function | warm | cold | batteryLoss | scrap | none
  deriving DecidableEq, Repr

/-- Attributes of an entry (R348): type, access, writer role (`observer`: none but quorum, or nobody), reach, default, range of a number, permitted bits (0: all), length bounds of a byte string. -/
structure Attr where
  typ : VType
  acc : Acc
  writer : Role
  reach : Reach
  dflt : Nat
  lo : Nat
  hi : Nat
  mask : Nat
  minLen : Nat
  maxLen : Nat
  deriving DecidableEq, Repr

/-- A row of the entry tables: indices `index` to `index + icount - 1`, subindices `sub` to `sub + scount - 1`. -/
structure EntryRow where
  index : Nat
  icount : Nat
  sub : Nat
  scount : Nat
  attr : Attr
  deriving DecidableEq, Repr

/-- The key of an entry: index × 256 + subindex. -/
def entryKey (index sub : Nat) : Nat := index * 256 + sub

def Key.UNIT_IF_VERSION : Nat := entryKey 0x1000 1
def Key.UNIT_FW_RELEASE : Nat := entryKey 0x1000 2
def Key.UNIT_LIFE_CYCLE : Nat := entryKey 0x1000 3
def Key.UNIT_READY : Nat := entryKey 0x1000 4
def Key.UNIT_LOCKED : Nat := entryKey 0x1000 5
def Key.UNIT_IMAGE_SLOT : Nat := entryKey 0x1000 6
def Key.UNIT_STRAP : Nat := entryKey 0x1000 7
def Key.UNIT_OPERATING_SECONDS : Nat := entryKey 0x1000 8
def Key.UNIT_POWER_CYCLES : Nat := entryKey 0x1000 9
def Key.UNIT_JUNCTION_TEMP : Nat := entryKey 0x1000 10
def Key.UNIT_DICT_WRITES : Nat := entryKey 0x1001 1
def Key.UNIT_DICT_REFUSALS : Nat := entryKey 0x1001 2
def Key.UNIT_LAST_REFUSAL : Nat := entryKey 0x1001 3
def Key.CHN_ADDRESS : Nat := entryKey 0x1100 1
def Key.CHN_ROLE : Nat := entryKey 0x1100 2
def Key.CHN_STATE : Nat := entryKey 0x1100 3
def Key.CHN_ROUND_TRIP : Nat := entryKey 0x1100 4
def Key.CHN_DELAY_0 : Nat := entryKey 0x1100 5
def Key.CHN_DELAY_1 : Nat := entryKey 0x1100 6
def Key.CHN_RING_ORDER (n : Nat) : Nat := entryKey 0x1103 (1 + n)
def Key.CHN_K : Nat := entryKey 0x1101 1
def Key.CHN_DOMAIN_ID : Nat := entryKey 0x1101 2
def Key.CHN_DOMAIN_MEMBERS (n : Nat) : Nat := entryKey 0x1104 (1 + n)
def Key.CHN_DOMAIN_FOUND : Nat := entryKey 0x1101 4
def Key.CHN_DOMAIN_JOIN : Nat := entryKey 0x1101 5
def Key.CHN_SETUP_TRANSCRIPT : Nat := entryKey 0x1101 6
def Key.CHN_DOMAIN_CONFIRM : Nat := entryKey 0x1101 7
def Key.CHN_JOIN_STATE : Nat := entryKey 0x1101 8
def Key.CHN_MEMBER_REMOVE : Nat := entryKey 0x1101 9
def Key.CHN_LOT_ALLOW : Nat := entryKey 0x1101 10
def Key.CHN_INSERT_LIMIT : Nat := entryKey 0x1102 1
def Key.CHN_COPY_OBJECTS_PER_FRAME : Nat := entryKey 0x1102 2
def Key.CHN_BAD_MESSAGES : Nat := entryKey 0x1102 3
def Key.CHN_REPL_PENDING : Nat := entryKey 0x1102 4
def Key.CHN_REPL_TIMEOUTS : Nat := entryKey 0x1102 5
def Key.SEI_PERIOD : Nat := entryKey 0x1200 1
def Key.SEI_PERIOD_NEXT : Nat := entryKey 0x1200 2
def Key.SEI_SWITCH_TICK : Nat := entryKey 0x1200 3
def Key.SEI_TICK_NUMBER : Nat := entryKey 0x1200 4
def Key.SEI_TICK_SOURCE : Nat := entryKey 0x1200 5
def Key.SEI_ALIGN_OFFSET : Nat := entryKey 0x1200 6
def Key.SEI_C0_CAP_PK : Nat := entryKey 0x1201 1
def Key.SEI_C0_CAP_SYM : Nat := entryKey 0x1201 2
def Key.SEI_C0_TOTAL_PK : Nat := entryKey 0x1201 3
def Key.SEI_C0_TOTAL_SYM : Nat := entryKey 0x1201 4
def Key.SEI_WEIGHT_C1 : Nat := entryKey 0x1201 5
def Key.SEI_WEIGHT_C2 : Nat := entryKey 0x1201 6
def Key.SEI_BOUND_STATE : Nat := entryKey 0x1201 7
def Key.SEI_BUDGET : Nat := entryKey 0x1202 1
def Key.SEI_BASE_CHARGE : Nat := entryKey 0x1202 2
def Key.SEI_PEAK : Nat := entryKey 0x1202 3
def Key.SEI_RESERVOIR_MAX : Nat := entryKey 0x1202 4
def Key.SEI_RESERVOIR : Nat := entryKey 0x1202 5
def Key.SEI_COST (n : Nat) : Nat := entryKey 0x1203 (1 + n)
def Key.SEI_LEAVE_AGE : Nat := entryKey 0x1204 1
def Key.SEI_LEAVE_SPAN : Nat := entryKey 0x1204 2
def Key.SEI_LEAVE_WAITING : Nat := entryKey 0x1204 3
def Key.HST_LINK_SPEED : Nat := entryKey 0x1300 1
def Key.HST_LINK_WIDTH : Nat := entryKey 0x1300 2
def Key.HST_PASID_ENABLED : Nat := entryKey 0x1300 3
def Key.HST_READ_TIMEOUT : Nat := entryKey 0x1300 4
def Key.HST_FETCH_PER_FRAME : Nat := entryKey 0x1300 5
def Key.HST_MSIX_MAP (n : Nat) : Nat := entryKey 0x1310 0 + n
def Key.HST_FIFO_CE : Nat := entryKey 0x1330 1
def Key.HST_FIFO_UE : Nat := entryKey 0x1330 2
def Key.HST_FIFO_LAST_UE : Nat := entryKey 0x1330 3
def Key.PKE_SPARE_COUNT : Nat := entryKey 0x2000 1
def Key.PKE_ACTIVE_LANES : Nat := entryKey 0x2000 2
def Key.PKE_SPARE_MAP : Nat := entryKey 0x2000 3
def Key.PKE_COMING_SPARE_MAP : Nat := entryKey 0x2000 4
def Key.PKE_FENCE_MAP : Nat := entryKey 0x2000 5
def Key.PKE_UNFENCE : Nat := entryKey 0x2000 6
def Key.PKE_SPARE_TEST_INTERVAL : Nat := entryKey 0x2000 7
def Key.PKE_LAST_FAULT : Nat := entryKey 0x2001 1
def Key.PKE_FAULT_COUNT (n : Nat) : Nat := entryKey 0x2010 (1 + n)
def Key.PKE_OPMEM_CE (n : Nat) : Nat := entryKey 0x2011 (1 + n)
def Key.PKE_LAT_DEMAND (n : Nat) : Nat := entryKey 0x2020 (1 + n)
def Key.PKE_LAT_FENCE_MAP : Nat := entryKey 0x2021 1
def Key.PKE_LAT_UNFENCE : Nat := entryKey 0x2021 2
def Key.PKE_MLDSA_ATTEMPT_MAX (n : Nat) : Nat := entryKey 0x2022 (1 + n)
def Key.PKE_MLDSA_SIGNS : Nat := entryKey 0x2022 4
def Key.PKE_MLDSA_ATTEMPTS : Nat := entryKey 0x2022 5
def Key.SYM_ACTIVE_LANES : Nat := entryKey 0x2100 1
def Key.SYM_FENCE_MAP : Nat := entryKey 0x2100 2
def Key.SYM_UNFENCE : Nat := entryKey 0x2100 3
def Key.SYM_KEEPER_MAP : Nat := entryKey 0x2100 4
def Key.SYM_OUTPUT_BUDGET : Nat := entryKey 0x2100 5
def Key.SYM_LAST_FAULT : Nat := entryKey 0x2101 1
def Key.SYM_FAULT_COUNT (n : Nat) : Nat := entryKey 0x2110 (1 + n)
def Key.SYM_LADDER_DERIVATIONS : Nat := entryKey 0x2120 1
def Key.SYM_LADDER_UNWRAPS : Nat := entryKey 0x2120 2
def Key.SYM_LADDER_SPILLS : Nat := entryKey 0x2120 3
def Key.WSP_STATE : Nat := entryKey 0x2200 1
def Key.WSP_PORT_STATE : Nat := entryKey 0x2200 2
def Key.WSP_REQUESTS_SINCE_RESEED : Nat := entryKey 0x2200 3
def Key.WSP_RESEEDS : Nat := entryKey 0x2200 4
def Key.WSP_RESEED_INTERVAL : Nat := entryKey 0x2200 5
def Key.WSP_PORT_BYTES_PER_FRAME : Nat := entryKey 0x2200 6
def Key.WSP_WITHHELD_JOBS : Nat := entryKey 0x2200 7
def Key.WSP_DRBG_KAT_FAILS : Nat := entryKey 0x2200 8
def Key.WSP_SRC_STATE (n : Nat) : Nat := entryKey (0x2201 + n) 1
def Key.WSP_SRC_BLOCKS (n : Nat) : Nat := entryKey (0x2201 + n) 2
def Key.WSP_SRC_FAILS (n : Nat) : Nat := entryKey (0x2201 + n) 3
def Key.WSP_SRC_WINDOW_FAILS (n : Nat) : Nat := entryKey (0x2201 + n) 4
def Key.WSP_SRC_RCT_CUTOFF (n : Nat) : Nat := entryKey (0x2201 + n) 5
def Key.WSP_SRC_APT_CUTOFF (n : Nat) : Nat := entryKey (0x2201 + n) 6
def Key.VLT_STATE : Nat := entryKey 0x2300 1
def Key.VLT_PAGES : Nat := entryKey 0x2300 2
def Key.VLT_FORMAT : Nat := entryKey 0x2300 3
def Key.VLT_COMMIT_SEQ : Nat := entryKey 0x2300 4
def Key.VLT_ROOT_SELECT : Nat := entryKey 0x2300 5
def Key.VLT_CMD_TIMEOUT : Nat := entryKey 0x2300 6
def Key.VLT_PENDING_PAGES : Nat := entryKey 0x2300 7
def Key.VLT_CONFLICT_OBJECTS : Nat := entryKey 0x2300 8
def Key.VLT_PORT_STATE (n : Nat) : Nat := entryKey (0x2310 + n) 1
def Key.VLT_PORT_OFFLINE (n : Nat) : Nat := entryKey (0x2310 + n) 2
def Key.VLT_PORT_ERRORS (n : Nat) : Nat := entryKey (0x2310 + n) 3
def Key.VLT_PORT_REPAIRS (n : Nat) : Nat := entryKey (0x2310 + n) 4
def Key.VLT_PORT_HEALTH (n : Nat) : Nat := entryKey (0x2310 + n) 5
def Key.VLT_PORT_SYNC_SEQ (n : Nat) : Nat := entryKey (0x2310 + n) 6
def Key.VLT_RESILVER_PAGES_PER_FRAME : Nat := entryKey 0x2320 1
def Key.VLT_RESILVER_CURSOR : Nat := entryKey 0x2320 2
def Key.VLT_SCRUB_ENABLE : Nat := entryKey 0x2321 1
def Key.VLT_SCRUB_PAGES_PER_FRAME : Nat := entryKey 0x2321 2
def Key.VLT_SCRUB_CURSOR : Nat := entryKey 0x2321 3
def Key.VLT_SCRUB_PASSES : Nat := entryKey 0x2321 4
def Key.KEY_CACHE_USED : Nat := entryKey 0x2400 1
def Key.KEY_CACHE_PINNED : Nat := entryKey 0x2400 2
def Key.KEY_PIN_LIMIT : Nat := entryKey 0x2400 3
def Key.KEY_CACHE_CE : Nat := entryKey 0x2400 4
def Key.KEY_CACHE_UE : Nat := entryKey 0x2400 5
def Key.KEY_SWEEP_ENABLE : Nat := entryKey 0x2401 1
def Key.KEY_SWEEP_PAGES_PER_FRAME : Nat := entryKey 0x2401 2
def Key.KEY_SWEEP_CURSOR : Nat := entryKey 0x2401 3
def Key.KEY_SWEEP_PASSES : Nat := entryKey 0x2401 4
def Key.KEY_SWEEP_RECLAIMED : Nat := entryKey 0x2401 5
def Key.KEY_HEARTS_LIVE : Nat := entryKey 0x2402 1
def Key.KEY_HEARTS_SPENT : Nat := entryKey 0x2402 2
def Key.KEY_BASE_STATE : Nat := entryKey 0x2402 3
def Key.KEY_LOT_ID : Nat := entryKey 0x2403 1
def Key.KEY_FW_MEASUREMENT : Nat := entryKey 0x2403 2
def Key.KPR_WEIR_VALID : Nat := entryKey 0x2500 1
def Key.KPR_GATE_FAULTS : Nat := entryKey 0x2500 2
def Key.KPR_LAST_GATE_FAULT : Nat := entryKey 0x2500 3
def Key.KPR_COLOUR_FREE : Nat := entryKey 0x2501 1
def Key.KPR_COLOUR_FAULTS : Nat := entryKey 0x2501 2
def Key.KPR_WM_CE : Nat := entryKey 0x2501 3
def Key.KPR_WM_UE : Nat := entryKey 0x2501 4
def Key.KPR_GUARD_ENABLE : Nat := entryKey 0x2502 1
def Key.KPR_GUARD_FAULT : Nat := entryKey 0x2502 2
def Key.KPR_GUARD_FAULTS : Nat := entryKey 0x2502 3
def Key.KPR_REGION_BASE (n : Nat) : Nat := entryKey (0x2510 + n) 1
def Key.KPR_REGION_SIZE (n : Nat) : Nat := entryKey (0x2510 + n) 2
def Key.KPR_REGION_SUBOFF (n : Nat) : Nat := entryKey (0x2510 + n) 3
def Key.KPR_REGION_PERM (n : Nat) : Nat := entryKey (0x2510 + n) 4
def Key.KPR_REGION_LOCK (n : Nat) : Nat := entryKey (0x2510 + n) 5
def Key.KPR_REGION_ENABLE (n : Nat) : Nat := entryKey (0x2510 + n) 6
def Key.KPR_OWNER : Nat := entryKey 0x2520 1
def Key.KPR_SYM_RESERVE : Nat := entryKey 0x2520 2
def Key.KPR_HANDOVER_STATE : Nat := entryKey 0x2520 3
def Key.KPR_DEBUG_STATE : Nat := entryKey 0x2530 1
def Key.KPR_SWDT_PERIOD : Nat := entryKey 0x2540 1
def Key.KPR_SWDT_REFRESH : Nat := entryKey 0x2540 2
def Key.KPR_SWDT_EXPIRIES : Nat := entryKey 0x2540 3
def Key.KPR_NWDT_PERIOD : Nat := entryKey 0x2541 1
def Key.KPR_NWDT_CHECKIN : Nat := entryKey 0x2541 2
def Key.KPR_NWDT_EXPIRIES : Nat := entryKey 0x2541 3
def Key.CHK_MISMATCHES : Nat := entryKey 0x2600 1
def Key.CHK_WIDTH (n : Nat) : Nat := entryKey (0x2610 + n) 1
def Key.CHK_POLY (n : Nat) : Nat := entryKey (0x2610 + n) 2
def Key.CHK_INIT (n : Nat) : Nat := entryKey (0x2610 + n) 3
def Key.CHK_FLAGS (n : Nat) : Nat := entryKey (0x2610 + n) 4
def Key.CHK_SOURCE (n : Nat) : Nat := entryKey (0x2610 + n) 5
def Key.CHK_START (n : Nat) : Nat := entryKey (0x2610 + n) 6
def Key.CHK_LENGTH (n : Nat) : Nat := entryKey (0x2610 + n) 7
def Key.CHK_COLOUR (n : Nat) : Nat := entryKey (0x2610 + n) 8
def Key.CHK_EXPECTED (n : Nat) : Nat := entryKey (0x2610 + n) 9
def Key.CHK_RUNNING (n : Nat) : Nat := entryKey (0x2610 + n) 10
def Key.CHK_POSITION (n : Nat) : Nat := entryKey (0x2610 + n) 11
def Key.CHK_COMMAND (n : Nat) : Nat := entryKey (0x2610 + n) 12
def Key.CHK_STATE (n : Nat) : Nat := entryKey (0x2610 + n) 13
def Key.CHK_RESULT (n : Nat) : Nat := entryKey (0x2610 + n) 14
def Key.CHK_FAULT (n : Nat) : Nat := entryKey (0x2610 + n) 15
def Key.TMP_ALARMS : Nat := entryKey 0x2700 1
def Key.TMP_CLEAR : Nat := entryKey 0x2700 2
def Key.TMP_ARM : Nat := entryKey 0x2700 3
def Key.TMP_CONDITION : Nat := entryKey 0x2700 4
def Key.TMP_LOCK_CAUSE : Nat := entryKey 0x2700 5
def Key.TMP_LOCK_CLEAR : Nat := entryKey 0x2700 6
def Key.TMP_PENDING : Nat := entryKey 0x2700 7
def Key.TMP_FUSED_RESPONSE : Nat := entryKey 0x2700 8
def Key.TMP_BATLOG_OVERWRITTEN : Nat := entryKey 0x2700 9
def Key.TMP_ENCL_POLARITY : Nat := entryKey 0x2700 10
def Key.TMP_TEMP_HIGH : Nat := entryKey 0x2701 1
def Key.TMP_TEMP_LOW : Nat := entryKey 0x2701 2
def Key.TMP_VBAT_LOW : Nat := entryKey 0x2701 3
def Key.TMP_VDD_CORE_HIGH : Nat := entryKey 0x2701 4
def Key.TMP_VDD_CORE_LOW : Nat := entryKey 0x2701 5
def Key.TMP_VDD_SRAM_HIGH : Nat := entryKey 0x2701 6
def Key.TMP_VDD_SRAM_LOW : Nat := entryKey 0x2701 7
def Key.TMP_VDD_IO_HIGH : Nat := entryKey 0x2701 8
def Key.TMP_VDD_IO_LOW : Nat := entryKey 0x2701 9
def Key.TMP_SRC_K (n : Nat) : Nat := entryKey (0x2710 + n) 1
def Key.TMP_SRC_W (n : Nat) : Nat := entryKey (0x2710 + n) 2
def Key.TMP_SRC_RESPONSE (n : Nat) : Nat := entryKey (0x2710 + n) 3
def Key.TMP_SRC_STATE (n : Nat) : Nat := entryKey (0x2710 + n) 4
def Key.TMP_SRC_ALARMS (n : Nat) : Nat := entryKey (0x2710 + n) 5
def Key.LCS_STATE : Nat := entryKey 0x2800 1
def Key.LCS_PROGRESS : Nat := entryKey 0x2800 2
def Key.LCS_TRANSITION : Nat := entryKey 0x2800 3
def Key.LCS_VENDOR_TEST : Nat := entryKey 0x2800 4
def Key.LCS_AUTH_VENDOR : Nat := entryKey 0x2800 5
def Key.LCS_AUTH_INTEGRATOR : Nat := entryKey 0x2800 6
def Key.LCS_CHALLENGE_DRAW : Nat := entryKey 0x2801 1
def Key.LCS_CHALLENGE : Nat := entryKey 0x2801 2
def Key.LCS_CERT_LENGTH : Nat := entryKey 0x2802 1
def Key.LCS_CERT_CURSOR : Nat := entryKey 0x2802 2
def Key.LCS_CERT_WINDOW : Nat := entryKey 0x2802 3
def Key.LCS_CERT_APPLY : Nat := entryKey 0x2802 4
def Key.LCS_CERT_STATE : Nat := entryKey 0x2802 5
def Key.LCS_CERT_ERROR : Nat := entryKey 0x2802 6
def Key.LCS_GRANT_RIGHTS : Nat := entryKey 0x2802 7
def Key.LCS_GRANT_REMAINING : Nat := entryKey 0x2802 8
def Key.LCS_GRANT_END : Nat := entryKey 0x2802 9
def Key.LCS_TRIM_SELECT : Nat := entryKey 0x2803 1
def Key.SIL_NEXT_SEQ : Nat := entryKey 0x2900 1
def Key.SIL_FIRST_SEQ : Nat := entryKey 0x2900 2
def Key.SIL_PERM_COUNT : Nat := entryKey 0x2900 3
def Key.SIL_CLEAR_CIRCULAR : Nat := entryKey 0x2900 4
def Key.SIL_DROPPED : Nat := entryKey 0x2900 5
def Key.SIL_QUEUED : Nat := entryKey 0x2900 6
def Key.SIL_CURSOR (n : Nat) : Nat := entryKey 0x2901 (1 + n)
def Key.SIL_WINDOW (n : Nat) : Nat := entryKey 0x2902 (1 + n)
def Key.RST_CAUSE : Nat := entryKey 0x2A00 1
def Key.RST_LAST_REACH : Nat := entryKey 0x2A00 2
def Key.RST_RESET_REQUEST : Nat := entryKey 0x2A00 3
def Key.RST_COUNT (n : Nat) : Nat := entryKey 0x2A00 (4 + n)
def Key.RST_BOOT_NEXT : Nat := entryKey 0x2A01 1
def Key.RST_BOOT_FALLBACK : Nat := entryKey 0x2A01 2
def Key.RST_TRIM_STATE : Nat := entryKey 0x2A02 1
def Key.RST_OPTIONS_STATE : Nat := entryKey 0x2A02 2
def Key.RST_POWER_STATE : Nat := entryKey 0x2A03 1
def Key.RST_STANDBY : Nat := entryKey 0x2A03 2
def Key.RST_IDLE_FRAMES : Nat := entryKey 0x2A03 3
def Key.RST_GATE_REQUEST (n : Nat) : Nat := entryKey 0x2A10 (1 + n)
def Key.RST_GATE_STATUS (n : Nat) : Nat := entryKey 0x2A11 (1 + n)
def Key.SLC_PASID (n : Nat) : Nat := entryKey (0x3000 + n) 1
def Key.SLC_SHARE_PK (n : Nat) : Nat := entryKey (0x3000 + n) 2
def Key.SLC_SHARE_SYM (n : Nat) : Nat := entryKey (0x3000 + n) 3
def Key.SLC_WEIGHT (n : Nat) : Nat := entryKey (0x3000 + n) 4
def Key.SLC_FAULT_POLICY (n : Nat) : Nat := entryKey (0x3000 + n) 5
def Key.SLC_OPCODE_GROUPS (n : Nat) : Nat := entryKey (0x3000 + n) 6
def Key.SLC_QUOTA_PINS (n : Nat) : Nat := entryKey (0x3000 + n) 7
def Key.SLC_QUOTA_SESSION (n : Nat) : Nat := entryKey (0x3000 + n) 8
def Key.SLC_QUOTA_HEARTS (n : Nat) : Nat := entryKey (0x3000 + n) 9
def Key.SLC_QUOTA_RINGS (n : Nat) : Nat := entryKey (0x3000 + n) 10
def Key.SLC_CREDIT_CEILING (n : Nat) : Nat := entryKey (0x3000 + n) 11
def Key.SLC_CREDIT_OUT (n : Nat) : Nat := entryKey (0x3000 + n) 12
def Key.SLC_C0_USE (n : Nat) : Nat := entryKey (0x3000 + n) 13
def Key.SLC_MIG_CMD (n : Nat) : Nat := entryKey (0x3000 + n) 16
def Key.SLC_MIG_STATE (n : Nat) : Nat := entryKey (0x3000 + n) 17
def Key.SLC_MIG_ERROR (n : Nat) : Nat := entryKey (0x3000 + n) 18
def Key.SLC_IMAGE_LENGTH (n : Nat) : Nat := entryKey (0x3000 + n) 19
def Key.SLC_IMAGE_CURSOR (n : Nat) : Nat := entryKey (0x3000 + n) 20
def Key.SLC_IMAGE_WINDOW (n : Nat) : Nat := entryKey (0x3000 + n) 21
def Key.RNG_SLICE (n : Nat) : Nat := entryKey (0x4000 + n) 1
def Key.RNG_CREDIT_MAX (n : Nat) : Nat := entryKey (0x4000 + n) 2
def Key.RNG_STATE (n : Nat) : Nat := entryKey (0x4000 + n) 3
def Key.HRT_STATE (n : Nat) : Nat := entryKey (0x8000 + n) 1
def Key.HRT_GENERATION (n : Nat) : Nat := entryKey (0x8000 + n) 2
def Key.HRT_OWNER (n : Nat) : Nat := entryKey (0x8000 + n) 3
def Key.HRT_INVALIDATE (n : Nat) : Nat := entryKey (0x8000 + n) 4
def Key.HRT_RETIRE (n : Nat) : Nat := entryKey (0x8000 + n) 5
def Key.HRT_CERTIFIED (n : Nat) : Nat := entryKey (0x8000 + n) 6
def Key.HRT_LAST_CHANGE (n : Nat) : Nat := entryKey (0x8000 + n) 7
def Key.OFC_QUORUM_M : Nat := entryKey 0xC000 1
def Key.OFC_ENROLLED : Nat := entryKey 0xC000 2
def Key.OFC_ENROLMENT_OPEN : Nat := entryKey 0xC000 3
def Key.OFC_PENDING_WRITES : Nat := entryKey 0xC000 4
def Key.OFC_APPROVALS_REJECTED : Nat := entryKey 0xC000 5
def Key.OFC_ROLE_KEY (n : Nat) : Nat := entryKey 0xC001 (1 + n)
def Key.OFC_ROLE_KEY_SET : Nat := entryKey 0xC001 5
def Key.OFC_ALGORITHM (n : Nat) : Nat := entryKey (0xC010 + n) 1
def Key.OFC_KEY_PART0 (n : Nat) : Nat := entryKey (0xC010 + n) 2
def Key.OFC_KEY_PART1 (n : Nat) : Nat := entryKey (0xC010 + n) 3
def Key.OFC_KEY_DIGEST (n : Nat) : Nat := entryKey (0xC010 + n) 4
def Key.OFC_LAST_APPROVAL (n : Nat) : Nat := entryKey (0xC010 + n) 5

def entryRows10 : List EntryRow :=
  [ ⟨0x1000, 1, 1, 1, ⟨.u32, .ro, .observer, .live, 65536, 0, 4294967295, 0, 0, 0⟩⟩,
    ⟨0x1000, 1, 2, 1, ⟨.string, .ro, .observer, .live, 0, 0, 0, 0, 0, 32⟩⟩,
    ⟨0x1000, 1, 3, 1, ⟨.u8, .ro, .observer, .live, 0, 0, 255, 0, 0, 0⟩⟩,
    ⟨0x1000, 1, 4, 1, ⟨.bool, .ro, .observer, .live, 0, 0, 1, 0, 0, 0⟩⟩,
    ⟨0x1000, 1, 5, 1, ⟨.bool, .ro, .observer, .live, 0, 0, 1, 0, 0, 0⟩⟩,
    ⟨0x1000, 1, 6, 1, ⟨.u8, .ro, .observer, .live, 0, 0, 255, 0, 0, 0⟩⟩,
    ⟨0x1000, 1, 7, 1, ⟨.u8, .ro, .observer, .live, 0, 0, 255, 0, 0, 0⟩⟩,
    ⟨0x1000, 1, 8, 1, ⟨.u64, .ro, .observer, .live, 0, 0, 18446744073709551615, 0, 0, 0⟩⟩,
    ⟨0x1000, 1, 9, 1, ⟨.u32, .ro, .observer, .live, 0, 0, 4294967295, 0, 0, 0⟩⟩,
    ⟨0x1000, 1, 10, 1, ⟨.i32, .ro, .observer, .live, 0, 0, 4294967295, 0, 0, 0⟩⟩,
    ⟨0x1001, 1, 1, 1, ⟨.u32, .rw0, .maintenance, .warm, 0, 0, 4294967295, 0, 0, 0⟩⟩,
    ⟨0x1001, 1, 2, 1, ⟨.u32, .rw0, .maintenance, .warm, 0, 0, 4294967295, 0, 0, 0⟩⟩,
    ⟨0x1001, 1, 3, 1, ⟨.u64, .ro, .observer, .warm, 0, 0, 18446744073709551615, 0, 0, 0⟩⟩ ]

def entryRows11 : List EntryRow :=
  [ ⟨0x1100, 1, 1, 1, ⟨.u16, .ro, .observer, .live, 0, 0, 65535, 0, 0, 0⟩⟩,
    ⟨0x1100, 1, 2, 1, ⟨.u8, .ro, .observer, .live, 0, 0, 255, 0, 0, 0⟩⟩,
    ⟨0x1100, 1, 3, 1, ⟨.u16, .ro, .observer, .live, 0, 0, 65535, 0, 0, 0⟩⟩,
    ⟨0x1100, 1, 4, 1, ⟨.u32, .ro, .observer, .live, 0, 0, 4294967295, 0, 0, 0⟩⟩,
    ⟨0x1100, 1, 5, 1, ⟨.u32, .ro, .observer, .warm, 0, 0, 4294967295, 0, 0, 0⟩⟩,
    ⟨0x1100, 1, 6, 1, ⟨.u32, .ro, .observer, .warm, 0, 0, 4294967295, 0, 0, 0⟩⟩,
    ⟨0x1103, 1, 1, 9, ⟨.octets, .ro, .observer, .warm, 0, 0, 0, 0, 0, 956⟩⟩,
    ⟨0x1101, 1, 1, 1, ⟨.u8, .rwq, .observer, .batteryLoss, 1, 0, 3, 0, 0, 0⟩⟩,
    ⟨0x1101, 1, 2, 1, ⟨.octets, .ro, .observer, .scrap, 0, 0, 0, 0, 8, 8⟩⟩,
    ⟨0x1104, 1, 1, 9, ⟨.octets, .ro, .observer, .scrap, 0, 0, 0, 0, 0, 956⟩⟩,
    ⟨0x1101, 1, 4, 1, ⟨.u8, .woq, .observer, .none, 0, 1, 1, 0, 0, 0⟩⟩,
    ⟨0x1101, 1, 5, 1, ⟨.u16, .woq, .observer, .none, 0, 1, 4094, 0, 0, 0⟩⟩,
    ⟨0x1101, 1, 6, 1, ⟨.octets, .ro, .observer, .warm, 0, 0, 0, 0, 8, 8⟩⟩,
    ⟨0x1101, 1, 7, 1, ⟨.octets, .woq, .observer, .none, 0, 0, 0, 0, 8, 8⟩⟩,
    ⟨0x1101, 1, 8, 1, ⟨.u8, .ro, .observer, .live, 0, 0, 255, 0, 0, 0⟩⟩,
    ⟨0x1101, 1, 9, 1, ⟨.u16, .woq, .observer, .none, 0, 1, 4094, 0, 0, 0⟩⟩,
    ⟨0x1101, 1, 10, 1, ⟨.octets, .rwq, .observer, .batteryLoss, 0, 0, 0, 0, 0, 128⟩⟩,
    ⟨0x1102, 1, 1, 1, ⟨.u16, .rw, .maintenance, .batteryLoss, 8192, 1024, 59952, 0, 0, 0⟩⟩,
    ⟨0x1102, 1, 2, 1, ⟨.u8, .rw, .maintenance, .batteryLoss, 8, 1, 64, 0, 0, 0⟩⟩,
    ⟨0x1102, 1, 3, 1, ⟨.u32, .rw0, .maintenance, .warm, 0, 0, 4294967295, 0, 0, 0⟩⟩,
    ⟨0x1102, 1, 4, 1, ⟨.u16, .ro, .observer, .live, 0, 0, 65535, 0, 0, 0⟩⟩,
    ⟨0x1102, 1, 5, 1, ⟨.u32, .rw0, .maintenance, .warm, 0, 0, 4294967295, 0, 0, 0⟩⟩ ]

def entryRows12 : List EntryRow :=
  [ ⟨0x1200, 1, 1, 1, ⟨.u8, .ro, .observer, .batteryLoss, 1, 0, 3, 0, 0, 0⟩⟩,
    ⟨0x1200, 1, 2, 1, ⟨.u8, .rwq, .observer, .function, 1, 0, 3, 0, 0, 0⟩⟩,
    ⟨0x1200, 1, 3, 1, ⟨.u64, .rwq, .observer, .function, 0, 0, 18446744073709551615, 0, 0, 0⟩⟩,
    ⟨0x1200, 1, 4, 1, ⟨.u64, .ro, .observer, .live, 0, 0, 18446744073709551615, 0, 0, 0⟩⟩,
    ⟨0x1200, 1, 5, 1, ⟨.u8, .ro, .observer, .live, 0, 0, 255, 0, 0, 0⟩⟩,
    ⟨0x1200, 1, 6, 1, ⟨.i32, .ro, .observer, .live, 0, 0, 4294967295, 0, 0, 0⟩⟩,
    ⟨0x1201, 1, 1, 1, ⟨.u16, .ro, .observer, .live, 0, 0, 65535, 0, 0, 0⟩⟩,
    ⟨0x1201, 1, 2, 1, ⟨.u16, .ro, .observer, .live, 0, 0, 65535, 0, 0, 0⟩⟩,
    ⟨0x1201, 1, 3, 1, ⟨.u16, .ro, .observer, .live, 0, 0, 65535, 0, 0, 0⟩⟩,
    ⟨0x1201, 1, 4, 1, ⟨.u16, .ro, .observer, .live, 0, 0, 65535, 0, 0, 0⟩⟩,
    ⟨0x1201, 1, 5, 1, ⟨.u8, .rw, .maintenance, .batteryLoss, 3, 1, 255, 0, 0, 0⟩⟩,
    ⟨0x1201, 1, 6, 1, ⟨.u8, .rw, .maintenance, .batteryLoss, 1, 1, 255, 0, 0, 0⟩⟩,
    ⟨0x1201, 1, 7, 1, ⟨.u8, .ro, .observer, .live, 0, 0, 255, 0, 0, 0⟩⟩,
    ⟨0x1202, 1, 1, 1, ⟨.u16, .rwq, .observer, .batteryLoss, 1000, 200, 1100, 0, 0, 0⟩⟩,
    ⟨0x1202, 1, 2, 1, ⟨.u16, .ro, .observer, .batteryLoss, 450, 0, 65535, 0, 0, 0⟩⟩,
    ⟨0x1202, 1, 3, 1, ⟨.u16, .rwq, .observer, .batteryLoss, 1200, 0, 1200, 0, 0, 0⟩⟩,
    ⟨0x1202, 1, 4, 1, ⟨.u32, .rw, .maintenance, .batteryLoss, 100000, 0, 200000, 0, 0, 0⟩⟩,
    ⟨0x1202, 1, 5, 1, ⟨.u32, .ro, .observer, .live, 0, 0, 4294967295, 0, 0, 0⟩⟩,
    ⟨0x1203, 1, 1, 4, ⟨.u16, .ro, .observer, .batteryLoss, 0, 0, 65535, 0, 0, 0⟩⟩,
    ⟨0x1204, 1, 1, 1, ⟨.u16, .rw, .maintenance, .batteryLoss, 256, 16, 65535, 0, 0, 0⟩⟩,
    ⟨0x1204, 1, 2, 1, ⟨.u16, .rw, .maintenance, .batteryLoss, 256, 16, 65535, 0, 0, 0⟩⟩,
    ⟨0x1204, 1, 3, 1, ⟨.u16, .ro, .observer, .live, 0, 0, 65535, 0, 0, 0⟩⟩ ]

def entryRows13 : List EntryRow :=
  [ ⟨0x1300, 1, 1, 1, ⟨.u8, .ro, .observer, .live, 0, 0, 255, 0, 0, 0⟩⟩,
    ⟨0x1300, 1, 2, 1, ⟨.u8, .ro, .observer, .live, 0, 0, 255, 0, 0, 0⟩⟩,
    ⟨0x1300, 1, 3, 1, ⟨.bool, .ro, .observer, .live, 0, 0, 1, 0, 0, 0⟩⟩,
    ⟨0x1300, 1, 4, 1, ⟨.u16, .rw, .operator, .batteryLoss, 1000, 100, 50000, 0, 0, 0⟩⟩,
    ⟨0x1300, 1, 5, 1, ⟨.u16, .ro, .observer, .live, 0, 0, 65535, 0, 0, 0⟩⟩,
    ⟨0x1310, 17, 0, 256, ⟨.u16, .rw, .operator, .warm, 0, 0, 65535, 34815, 0, 0⟩⟩,
    ⟨0x1330, 1, 1, 1, ⟨.u32, .rw0, .maintenance, .warm, 0, 0, 4294967295, 0, 0, 0⟩⟩,
    ⟨0x1330, 1, 2, 1, ⟨.u32, .rw0, .maintenance, .warm, 0, 0, 4294967295, 0, 0, 0⟩⟩,
    ⟨0x1330, 1, 3, 1, ⟨.u16, .ro, .observer, .warm, 65535, 0, 65535, 0, 0, 0⟩⟩ ]

def entryRows20 : List EntryRow :=
  [ ⟨0x2000, 1, 1, 1, ⟨.u8, .rwq, .observer, .batteryLoss, 1, 0, 2, 0, 0, 0⟩⟩,
    ⟨0x2000, 1, 2, 1, ⟨.u8, .ro, .observer, .live, 0, 0, 255, 0, 0, 0⟩⟩,
    ⟨0x2000, 1, 3, 1, ⟨.u32, .ro, .observer, .live, 0, 0, 4294967295, 0, 0, 0⟩⟩,
    ⟨0x2000, 1, 4, 1, ⟨.u32, .ro, .observer, .live, 0, 0, 4294967295, 0, 0, 0⟩⟩,
    ⟨0x2000, 1, 5, 1, ⟨.u32, .ro, .observer, .live, 0, 0, 4294967295, 0, 0, 0⟩⟩,
    ⟨0x2000, 1, 6, 1, ⟨.u32, .wo, .maintenance, .none, 0, 0, 16777215, 0, 0, 0⟩⟩,
    ⟨0x2000, 1, 7, 1, ⟨.u32, .rw, .maintenance, .batteryLoss, 65536, 0, 4194304, 0, 0, 0⟩⟩,
    ⟨0x2001, 1, 1, 1, ⟨.u64, .ro, .observer, .warm, 0, 0, 18446744073709551615, 0, 0, 0⟩⟩,
    ⟨0x2010, 1, 1, 24, ⟨.u16, .rw0, .maintenance, .batteryLoss, 0, 0, 65535, 0, 0, 0⟩⟩,
    ⟨0x2011, 1, 1, 24, ⟨.u32, .rw0, .maintenance, .warm, 0, 0, 4294967295, 0, 0, 0⟩⟩,
    ⟨0x2020, 1, 1, 6, ⟨.u32, .ro, .observer, .live, 0, 0, 4294967295, 0, 0, 0⟩⟩,
    ⟨0x2021, 1, 1, 1, ⟨.u8, .ro, .observer, .live, 0, 0, 255, 0, 0, 0⟩⟩,
    ⟨0x2021, 1, 2, 1, ⟨.u8, .wo, .maintenance, .none, 0, 0, 63, 0, 0, 0⟩⟩,
    ⟨0x2022, 1, 1, 3, ⟨.u16, .rw0, .maintenance, .warm, 0, 0, 65535, 0, 0, 0⟩⟩,
    ⟨0x2022, 1, 4, 1, ⟨.u64, .rw0, .maintenance, .warm, 0, 0, 18446744073709551615, 0, 0, 0⟩⟩,
    ⟨0x2022, 1, 5, 1, ⟨.u64, .rw0, .maintenance, .warm, 0, 0, 18446744073709551615, 0, 0, 0⟩⟩ ]

def entryRows21 : List EntryRow :=
  [ ⟨0x2100, 1, 1, 1, ⟨.u8, .ro, .observer, .live, 0, 0, 255, 0, 0, 0⟩⟩,
    ⟨0x2100, 1, 2, 1, ⟨.u8, .ro, .observer, .live, 0, 0, 255, 0, 0, 0⟩⟩,
    ⟨0x2100, 1, 3, 1, ⟨.u8, .wo, .maintenance, .none, 0, 0, 255, 0, 0, 0⟩⟩,
    ⟨0x2100, 1, 4, 1, ⟨.u8, .ro, .observer, .live, 0, 0, 255, 0, 0, 0⟩⟩,
    ⟨0x2100, 1, 5, 1, ⟨.u32, .ro, .observer, .live, 0, 0, 4294967295, 0, 0, 0⟩⟩,
    ⟨0x2101, 1, 1, 1, ⟨.u64, .ro, .observer, .warm, 0, 0, 18446744073709551615, 0, 0, 0⟩⟩,
    ⟨0x2110, 1, 1, 8, ⟨.u16, .rw0, .maintenance, .batteryLoss, 0, 0, 65535, 0, 0, 0⟩⟩,
    ⟨0x2120, 1, 1, 1, ⟨.u64, .rw0, .maintenance, .warm, 0, 0, 18446744073709551615, 0, 0, 0⟩⟩,
    ⟨0x2120, 1, 2, 1, ⟨.u64, .rw0, .maintenance, .warm, 0, 0, 18446744073709551615, 0, 0, 0⟩⟩,
    ⟨0x2120, 1, 3, 1, ⟨.u32, .rw0, .maintenance, .warm, 0, 0, 4294967295, 0, 0, 0⟩⟩ ]

def entryRows22 : List EntryRow :=
  [ ⟨0x2200, 1, 1, 1, ⟨.u8, .ro, .observer, .live, 0, 0, 255, 0, 0, 0⟩⟩,
    ⟨0x2200, 1, 2, 1, ⟨.u8, .ro, .observer, .live, 0, 0, 255, 0, 0, 0⟩⟩,
    ⟨0x2200, 1, 3, 1, ⟨.u32, .ro, .observer, .live, 0, 0, 4294967295, 0, 0, 0⟩⟩,
    ⟨0x2200, 1, 4, 1, ⟨.u64, .rw0, .maintenance, .warm, 0, 0, 18446744073709551615, 0, 0, 0⟩⟩,
    ⟨0x2200, 1, 5, 1, ⟨.u16, .rw, .maintenance, .batteryLoss, 32, 1, 1024, 0, 0, 0⟩⟩,
    ⟨0x2200, 1, 6, 1, ⟨.u32, .rw, .maintenance, .batteryLoss, 65536, 40960, 262144, 0, 0, 0⟩⟩,
    ⟨0x2200, 1, 7, 1, ⟨.u32, .rw0, .maintenance, .warm, 0, 0, 4294967295, 0, 0, 0⟩⟩,
    ⟨0x2200, 1, 8, 1, ⟨.u32, .rw0, .maintenance, .warm, 0, 0, 4294967295, 0, 0, 0⟩⟩,
    ⟨0x2201, 2, 1, 1, ⟨.u8, .ro, .observer, .live, 0, 0, 255, 0, 0, 0⟩⟩,
    ⟨0x2201, 2, 2, 1, ⟨.u64, .rw0, .maintenance, .warm, 0, 0, 18446744073709551615, 0, 0, 0⟩⟩,
    ⟨0x2201, 2, 3, 1, ⟨.u32, .rw0, .maintenance, .warm, 0, 0, 4294967295, 0, 0, 0⟩⟩,
    ⟨0x2201, 2, 4, 1, ⟨.u16, .ro, .observer, .live, 0, 0, 65535, 0, 0, 0⟩⟩,
    ⟨0x2201, 2, 5, 1, ⟨.u8, .ro, .observer, .batteryLoss, 81, 0, 255, 0, 0, 0⟩⟩,
    ⟨0x2201, 2, 6, 1, ⟨.u16, .ro, .observer, .batteryLoss, 832, 0, 65535, 0, 0, 0⟩⟩ ]

def entryRows23 : List EntryRow :=
  [ ⟨0x2300, 1, 1, 1, ⟨.u8, .ro, .observer, .live, 0, 0, 255, 0, 0, 0⟩⟩,
    ⟨0x2300, 1, 2, 1, ⟨.u32, .ro, .observer, .batteryLoss, 0, 0, 4294967295, 0, 0, 0⟩⟩,
    ⟨0x2300, 1, 3, 1, ⟨.u32, .woq, .observer, .none, 0, 0, 4294967295, 0, 0, 0⟩⟩,
    ⟨0x2300, 1, 4, 1, ⟨.u64, .ro, .observer, .live, 0, 0, 18446744073709551615, 0, 0, 0⟩⟩,
    ⟨0x2300, 1, 5, 1, ⟨.u8, .woq, .observer, .none, 0, 0, 1, 0, 0, 0⟩⟩,
    ⟨0x2300, 1, 6, 1, ⟨.u16, .rw, .maintenance, .batteryLoss, 100, 10, 10000, 0, 0, 0⟩⟩,
    ⟨0x2300, 1, 7, 1, ⟨.u16, .ro, .observer, .live, 0, 0, 65535, 0, 0, 0⟩⟩,
    ⟨0x2300, 1, 8, 1, ⟨.u32, .ro, .observer, .live, 0, 0, 4294967295, 0, 0, 0⟩⟩,
    ⟨0x2310, 2, 1, 1, ⟨.u8, .ro, .observer, .live, 0, 0, 255, 0, 0, 0⟩⟩,
    ⟨0x2310, 2, 2, 1, ⟨.bool, .rw, .maintenance, .warm, 0, 0, 1, 0, 0, 0⟩⟩,
    ⟨0x2310, 2, 3, 1, ⟨.u32, .rw0, .maintenance, .warm, 0, 0, 4294967295, 0, 0, 0⟩⟩,
    ⟨0x2310, 2, 4, 1, ⟨.u32, .rw0, .maintenance, .warm, 0, 0, 4294967295, 0, 0, 0⟩⟩,
    ⟨0x2310, 2, 5, 1, ⟨.u8, .ro, .observer, .warm, 0, 0, 255, 0, 0, 0⟩⟩,
    ⟨0x2310, 2, 6, 1, ⟨.u64, .ro, .observer, .cold, 0, 0, 18446744073709551615, 0, 0, 0⟩⟩,
    ⟨0x2320, 1, 1, 1, ⟨.u8, .rw, .maintenance, .batteryLoss, 8, 1, 64, 0, 0, 0⟩⟩,
    ⟨0x2320, 1, 2, 1, ⟨.u32, .ro, .observer, .cold, 0, 0, 4294967295, 0, 0, 0⟩⟩,
    ⟨0x2321, 1, 1, 1, ⟨.bool, .rw, .maintenance, .batteryLoss, 1, 0, 1, 0, 0, 0⟩⟩,
    ⟨0x2321, 1, 2, 1, ⟨.u8, .rw, .maintenance, .batteryLoss, 2, 1, 64, 0, 0, 0⟩⟩,
    ⟨0x2321, 1, 3, 1, ⟨.u32, .ro, .observer, .cold, 0, 0, 4294967295, 0, 0, 0⟩⟩,
    ⟨0x2321, 1, 4, 1, ⟨.u32, .ro, .observer, .cold, 0, 0, 4294967295, 0, 0, 0⟩⟩ ]

def entryRows24 : List EntryRow :=
  [ ⟨0x2400, 1, 1, 1, ⟨.u16, .ro, .observer, .live, 0, 0, 65535, 0, 0, 0⟩⟩,
    ⟨0x2400, 1, 2, 1, ⟨.u16, .ro, .observer, .live, 0, 0, 65535, 0, 0, 0⟩⟩,
    ⟨0x2400, 1, 3, 1, ⟨.u16, .rwq, .observer, .batteryLoss, 28672, 0, 32768, 0, 0, 0⟩⟩,
    ⟨0x2400, 1, 4, 1, ⟨.u32, .rw0, .maintenance, .warm, 0, 0, 4294967295, 0, 0, 0⟩⟩,
    ⟨0x2400, 1, 5, 1, ⟨.u32, .rw0, .maintenance, .warm, 0, 0, 4294967295, 0, 0, 0⟩⟩,
    ⟨0x2401, 1, 1, 1, ⟨.bool, .rw, .maintenance, .batteryLoss, 1, 0, 1, 0, 0, 0⟩⟩,
    ⟨0x2401, 1, 2, 1, ⟨.u8, .rw, .maintenance, .batteryLoss, 4, 1, 64, 0, 0, 0⟩⟩,
    ⟨0x2401, 1, 3, 1, ⟨.u32, .ro, .observer, .cold, 0, 0, 4294967295, 0, 0, 0⟩⟩,
    ⟨0x2401, 1, 4, 1, ⟨.u32, .ro, .observer, .cold, 0, 0, 4294967295, 0, 0, 0⟩⟩,
    ⟨0x2401, 1, 5, 1, ⟨.u64, .ro, .observer, .cold, 0, 0, 18446744073709551615, 0, 0, 0⟩⟩,
    ⟨0x2402, 1, 1, 1, ⟨.u16, .ro, .observer, .live, 0, 0, 65535, 0, 0, 0⟩⟩,
    ⟨0x2402, 1, 2, 1, ⟨.u16, .ro, .observer, .live, 0, 0, 65535, 0, 0, 0⟩⟩,
    ⟨0x2402, 1, 3, 1, ⟨.u8, .ro, .observer, .live, 0, 0, 255, 0, 0, 0⟩⟩,
    ⟨0x2403, 1, 1, 1, ⟨.octets, .ro, .observer, .live, 0, 0, 0, 0, 8, 8⟩⟩,
    ⟨0x2403, 1, 2, 1, ⟨.octets, .ro, .observer, .live, 0, 0, 0, 0, 32, 32⟩⟩ ]

def entryRows25 : List EntryRow :=
  [ ⟨0x2500, 1, 1, 1, ⟨.u64, .rw, .keeper, .function, 0, 0, 18446744073709551615, 0, 0, 0⟩⟩,
    ⟨0x2500, 1, 2, 1, ⟨.u32, .rw0, .keeper, .warm, 0, 0, 4294967295, 0, 0, 0⟩⟩,
    ⟨0x2500, 1, 3, 1, ⟨.u64, .ro, .observer, .warm, 0, 0, 18446744073709551615, 0, 0, 0⟩⟩,
    ⟨0x2501, 1, 1, 1, ⟨.u16, .ro, .observer, .live, 0, 0, 65535, 0, 0, 0⟩⟩,
    ⟨0x2501, 1, 2, 1, ⟨.u32, .rw0, .keeper, .warm, 0, 0, 4294967295, 0, 0, 0⟩⟩,
    ⟨0x2501, 1, 3, 1, ⟨.u32, .rw0, .keeper, .warm, 0, 0, 4294967295, 0, 0, 0⟩⟩,
    ⟨0x2501, 1, 4, 1, ⟨.u32, .rw0, .keeper, .warm, 0, 0, 4294967295, 0, 0, 0⟩⟩,
    ⟨0x2502, 1, 1, 1, ⟨.bool, .rw, .keeper, .live, 0, 0, 1, 0, 0, 0⟩⟩,
    ⟨0x2502, 1, 2, 1, ⟨.u64, .ro, .observer, .warm, 0, 0, 18446744073709551615, 0, 0, 0⟩⟩,
    ⟨0x2502, 1, 3, 1, ⟨.u32, .rw0, .keeper, .warm, 0, 0, 4294967295, 0, 0, 0⟩⟩,
    ⟨0x2510, 16, 1, 1, ⟨.u32, .rw, .keeper, .live, 0, 0, 8388607, 0, 0, 0⟩⟩,
    ⟨0x2510, 16, 2, 1, ⟨.u8, .rw, .keeper, .live, 0, 9, 23, 0, 0, 0⟩⟩,
    ⟨0x2510, 16, 3, 1, ⟨.u8, .rw, .keeper, .live, 0, 0, 255, 0, 0, 0⟩⟩,
    ⟨0x2510, 16, 4, 1, ⟨.u16, .rw, .keeper, .live, 0, 0, 2047, 0, 0, 0⟩⟩,
    ⟨0x2510, 16, 5, 1, ⟨.bool, .rw, .keeper, .live, 0, 0, 1, 0, 0, 0⟩⟩,
    ⟨0x2510, 16, 6, 1, ⟨.bool, .rw, .keeper, .live, 0, 0, 1, 0, 0, 0⟩⟩,
    ⟨0x2520, 1, 1, 1, ⟨.u8, .ro, .observer, .live, 0, 0, 255, 0, 0, 0⟩⟩,
    ⟨0x2520, 1, 2, 1, ⟨.u8, .rwq, .observer, .batteryLoss, 0, 0, 2, 0, 0, 0⟩⟩,
    ⟨0x2520, 1, 3, 1, ⟨.u16, .ro, .observer, .live, 0, 0, 65535, 0, 0, 0⟩⟩,
    ⟨0x2530, 1, 1, 1, ⟨.u8, .ro, .observer, .live, 0, 0, 255, 0, 0, 0⟩⟩,
    ⟨0x2540, 1, 1, 1, ⟨.u16, .rw, .keeper, .warm, 100, 1, 1000, 0, 0, 0⟩⟩,
    ⟨0x2540, 1, 2, 1, ⟨.u8, .wo, .keeper, .none, 0, 0, 255, 0, 0, 0⟩⟩,
    ⟨0x2540, 1, 3, 1, ⟨.u8, .ro, .observer, .live, 0, 0, 255, 0, 0, 0⟩⟩,
    ⟨0x2541, 1, 1, 1, ⟨.u16, .rw, .maintenance, .batteryLoss, 20, 1, 1000, 0, 0, 0⟩⟩,
    ⟨0x2541, 1, 2, 1, ⟨.u8, .ro, .observer, .live, 0, 0, 255, 0, 0, 0⟩⟩,
    ⟨0x2541, 1, 3, 1, ⟨.u8, .ro, .observer, .live, 0, 0, 255, 0, 0, 0⟩⟩ ]

def entryRows26 : List EntryRow :=
  [ ⟨0x2600, 1, 1, 1, ⟨.u32, .rw0, .maintenance, .warm, 0, 0, 4294967295, 0, 0, 0⟩⟩,
    ⟨0x2610, 4, 1, 1, ⟨.u8, .rw, .maintenance, .function, 32, 1, 64, 0, 0, 0⟩⟩,
    ⟨0x2610, 4, 2, 1, ⟨.u64, .rw, .maintenance, .function, 517762881, 0, 18446744073709551615, 0, 0, 0⟩⟩,
    ⟨0x2610, 4, 3, 1, ⟨.u64, .rw, .maintenance, .function, 4294967295, 0, 18446744073709551615, 0, 0, 0⟩⟩,
    ⟨0x2610, 4, 4, 1, ⟨.u8, .rw, .maintenance, .function, 7, 0, 15, 0, 0, 0⟩⟩,
    ⟨0x2610, 4, 5, 1, ⟨.u8, .rw, .maintenance, .function, 0, 0, 1, 0, 0, 0⟩⟩,
    ⟨0x2610, 4, 6, 1, ⟨.u64, .rw, .maintenance, .function, 0, 0, 18446744073709551615, 0, 0, 0⟩⟩,
    ⟨0x2610, 4, 7, 1, ⟨.u64, .rw, .maintenance, .function, 0, 0, 18446744073709551615, 0, 0, 0⟩⟩,
    ⟨0x2610, 4, 8, 1, ⟨.u8, .rw, .maintenance, .function, 1, 1, 14, 0, 0, 0⟩⟩,
    ⟨0x2610, 4, 9, 1, ⟨.u64, .rw, .maintenance, .function, 0, 0, 18446744073709551615, 0, 0, 0⟩⟩,
    ⟨0x2610, 4, 10, 1, ⟨.u64, .rw, .maintenance, .live, 0, 0, 18446744073709551615, 0, 0, 0⟩⟩,
    ⟨0x2610, 4, 11, 1, ⟨.u64, .ro, .observer, .live, 0, 0, 18446744073709551615, 0, 0, 0⟩⟩,
    ⟨0x2610, 4, 12, 1, ⟨.u8, .wo, .maintenance, .none, 0, 1, 3, 0, 0, 0⟩⟩,
    ⟨0x2610, 4, 13, 1, ⟨.u8, .ro, .observer, .live, 0, 0, 255, 0, 0, 0⟩⟩,
    ⟨0x2610, 4, 14, 1, ⟨.u64, .ro, .observer, .live, 0, 0, 18446744073709551615, 0, 0, 0⟩⟩,
    ⟨0x2610, 4, 15, 1, ⟨.u8, .ro, .observer, .live, 0, 0, 255, 0, 0, 0⟩⟩ ]

def entryRows27 : List EntryRow :=
  [ ⟨0x2700, 1, 1, 1, ⟨.u32, .ro, .observer, .live, 0, 0, 4294967295, 0, 0, 0⟩⟩,
    ⟨0x2700, 1, 2, 1, ⟨.u32, .woq, .observer, .none, 0, 0, 16777215, 0, 0, 0⟩⟩,
    ⟨0x2700, 1, 3, 1, ⟨.u32, .rwq, .observer, .batteryLoss, 16776960, 0, 16777215, 0, 0, 0⟩⟩,
    ⟨0x2700, 1, 4, 1, ⟨.u32, .ro, .observer, .live, 0, 0, 4294967295, 0, 0, 0⟩⟩,
    ⟨0x2700, 1, 5, 1, ⟨.u8, .ro, .observer, .cold, 0, 0, 255, 0, 0, 0⟩⟩,
    ⟨0x2700, 1, 6, 1, ⟨.u8, .woq, .observer, .none, 0, 1, 1, 0, 0, 0⟩⟩,
    ⟨0x2700, 1, 7, 1, ⟨.u8, .ro, .observer, .live, 0, 0, 255, 0, 0, 0⟩⟩,
    ⟨0x2700, 1, 8, 1, ⟨.u8, .ro, .observer, .scrap, 36, 0, 255, 0, 0, 0⟩⟩,
    ⟨0x2700, 1, 9, 1, ⟨.u16, .rw0, .maintenance, .cold, 0, 0, 65535, 0, 0, 0⟩⟩,
    ⟨0x2700, 1, 10, 1, ⟨.u8, .rwq, .observer, .batteryLoss, 15, 0, 15, 0, 0, 0⟩⟩,
    ⟨0x2701, 1, 1, 1, ⟨.i32, .rwq, .observer, .batteryLoss, 10000, 5000, 10500, 0, 0, 0⟩⟩,
    ⟨0x2701, 1, 2, 1, ⟨.i32, .rwq, .observer, .batteryLoss, 500, 0, 2500, 0, 0, 0⟩⟩,
    ⟨0x2701, 1, 3, 1, ⟨.u16, .rwq, .observer, .batteryLoss, 2600, 2500, 2900, 0, 0, 0⟩⟩,
    ⟨0x2701, 1, 4, 1, ⟨.u16, .rwq, .observer, .batteryLoss, 860, 820, 900, 0, 0, 0⟩⟩,
    ⟨0x2701, 1, 5, 1, ⟨.u16, .rwq, .observer, .batteryLoss, 740, 700, 780, 0, 0, 0⟩⟩,
    ⟨0x2701, 1, 6, 1, ⟨.u16, .rwq, .observer, .batteryLoss, 910, 870, 950, 0, 0, 0⟩⟩,
    ⟨0x2701, 1, 7, 1, ⟨.u16, .rwq, .observer, .batteryLoss, 790, 750, 830, 0, 0, 0⟩⟩,
    ⟨0x2701, 1, 8, 1, ⟨.u16, .rwq, .observer, .batteryLoss, 1950, 1890, 1980, 0, 0, 0⟩⟩,
    ⟨0x2701, 1, 9, 1, ⟨.u16, .rwq, .observer, .batteryLoss, 1650, 1620, 1710, 0, 0, 0⟩⟩,
    ⟨0x2710, 24, 1, 1, ⟨.u8, .rwq, .observer, .batteryLoss, 0, 1, 255, 0, 0, 0⟩⟩,
    ⟨0x2710, 24, 2, 1, ⟨.u16, .rwq, .observer, .batteryLoss, 0, 1, 65535, 0, 0, 0⟩⟩,
    ⟨0x2710, 24, 3, 1, ⟨.u8, .rwq, .observer, .batteryLoss, 0, 0, 127, 0, 0, 0⟩⟩,
    ⟨0x2710, 24, 4, 1, ⟨.u8, .ro, .observer, .live, 0, 0, 255, 0, 0, 0⟩⟩,
    ⟨0x2710, 24, 5, 1, ⟨.u32, .rw0, .maintenance, .cold, 0, 0, 4294967295, 0, 0, 0⟩⟩ ]

def entryRows28 : List EntryRow :=
  [ ⟨0x2800, 1, 1, 1, ⟨.u8, .ro, .observer, .live, 0, 0, 255, 0, 0, 0⟩⟩,
    ⟨0x2800, 1, 2, 1, ⟨.u8, .ro, .observer, .live, 0, 0, 255, 0, 0, 0⟩⟩,
    ⟨0x2800, 1, 3, 1, ⟨.u8, .wo, .maintenance, .none, 0, 1, 15, 0, 0, 0⟩⟩,
    ⟨0x2800, 1, 4, 1, ⟨.bool, .ro, .observer, .live, 0, 0, 1, 0, 0, 0⟩⟩,
    ⟨0x2800, 1, 5, 1, ⟨.octets, .ro, .observer, .live, 0, 0, 0, 0, 8, 8⟩⟩,
    ⟨0x2800, 1, 6, 1, ⟨.octets, .ro, .observer, .live, 0, 0, 0, 0, 8, 8⟩⟩,
    ⟨0x2801, 1, 1, 1, ⟨.u8, .wo, .maintenance, .none, 0, 1, 1, 0, 0, 0⟩⟩,
    ⟨0x2801, 1, 2, 1, ⟨.octets, .ro, .observer, .live, 0, 0, 0, 0, 16, 16⟩⟩,
    ⟨0x2802, 1, 1, 1, ⟨.u32, .rw, .maintenance, .function, 0, 0, 5632, 0, 0, 0⟩⟩,
    ⟨0x2802, 1, 2, 1, ⟨.u8, .rw, .maintenance, .function, 0, 0, 10, 0, 0, 0⟩⟩,
    ⟨0x2802, 1, 3, 1, ⟨.octets, .rw, .maintenance, .live, 0, 0, 0, 0, 512, 512⟩⟩,
    ⟨0x2802, 1, 4, 1, ⟨.u8, .wo, .maintenance, .none, 0, 1, 1, 0, 0, 0⟩⟩,
    ⟨0x2802, 1, 5, 1, ⟨.u8, .ro, .observer, .live, 0, 0, 255, 0, 0, 0⟩⟩,
    ⟨0x2802, 1, 6, 1, ⟨.u8, .ro, .observer, .live, 0, 0, 255, 0, 0, 0⟩⟩,
    ⟨0x2802, 1, 7, 1, ⟨.u8, .ro, .observer, .live, 0, 0, 255, 0, 0, 0⟩⟩,
    ⟨0x2802, 1, 8, 1, ⟨.u32, .ro, .observer, .live, 0, 0, 4294967295, 0, 0, 0⟩⟩,
    ⟨0x2802, 1, 9, 1, ⟨.u8, .wo, .maintenance, .none, 0, 1, 1, 0, 0, 0⟩⟩,
    ⟨0x2803, 1, 1, 1, ⟨.u8, .wo, .maintenance, .none, 0, 0, 2, 0, 0, 0⟩⟩ ]

def entryRows29 : List EntryRow :=
  [ ⟨0x2900, 1, 1, 1, ⟨.u32, .ro, .observer, .live, 0, 0, 4294967295, 0, 0, 0⟩⟩,
    ⟨0x2900, 1, 2, 1, ⟨.u32, .ro, .observer, .live, 0, 0, 4294967295, 0, 0, 0⟩⟩,
    ⟨0x2900, 1, 3, 1, ⟨.u16, .ro, .observer, .live, 0, 0, 65535, 0, 0, 0⟩⟩,
    ⟨0x2900, 1, 4, 1, ⟨.u8, .woq, .observer, .none, 0, 1, 1, 0, 0, 0⟩⟩,
    ⟨0x2900, 1, 5, 1, ⟨.u32, .rw0, .maintenance, .cold, 0, 0, 4294967295, 0, 0, 0⟩⟩,
    ⟨0x2900, 1, 6, 1, ⟨.u16, .ro, .observer, .live, 0, 0, 65535, 0, 0, 0⟩⟩,
    ⟨0x2901, 1, 1, 4, ⟨.u32, .rw, .operator, .function, 0, 0, 4294967295, 0, 0, 0⟩⟩,
    ⟨0x2902, 1, 1, 4, ⟨.octets, .ro, .observer, .live, 0, 0, 0, 0, 64, 64⟩⟩ ]

def entryRows2A : List EntryRow :=
  [ ⟨0x2A00, 1, 1, 1, ⟨.u32, .ro, .observer, .cold, 0, 0, 4294967295, 0, 0, 0⟩⟩,
    ⟨0x2A00, 1, 2, 1, ⟨.u8, .ro, .observer, .cold, 0, 0, 255, 0, 0, 0⟩⟩,
    ⟨0x2A00, 1, 3, 1, ⟨.u8, .woq, .observer, .none, 0, 1, 1, 0, 0, 0⟩⟩,
    ⟨0x2A00, 1, 4, 3, ⟨.u32, .rw0, .maintenance, .batteryLoss, 0, 0, 4294967295, 0, 0, 0⟩⟩,
    ⟨0x2A01, 1, 1, 1, ⟨.u8, .rwq, .observer, .batteryLoss, 0, 0, 1, 0, 0, 0⟩⟩,
    ⟨0x2A01, 1, 2, 1, ⟨.bool, .ro, .observer, .live, 0, 0, 1, 0, 0, 0⟩⟩,
    ⟨0x2A02, 1, 1, 1, ⟨.u8, .ro, .observer, .live, 0, 0, 255, 0, 0, 0⟩⟩,
    ⟨0x2A02, 1, 2, 1, ⟨.u8, .ro, .observer, .live, 0, 0, 255, 0, 0, 0⟩⟩,
    ⟨0x2A03, 1, 1, 1, ⟨.u8, .ro, .observer, .live, 0, 0, 255, 0, 0, 0⟩⟩,
    ⟨0x2A03, 1, 2, 1, ⟨.bool, .rw, .maintenance, .function, 0, 0, 1, 0, 0, 0⟩⟩,
    ⟨0x2A03, 1, 3, 1, ⟨.u16, .rw, .maintenance, .batteryLoss, 64, 1, 65535, 0, 0, 0⟩⟩,
    ⟨0x2A10, 1, 1, 7, ⟨.bool, .rw, .maintenance, .function, 0, 0, 1, 0, 0, 0⟩⟩,
    ⟨0x2A11, 1, 1, 7, ⟨.u8, .ro, .observer, .live, 0, 0, 255, 0, 0, 0⟩⟩ ]

def entryRows30 : List EntryRow :=
  [ ⟨0x3000, 1024, 1, 1, ⟨.u32, .rw, .operator, .batteryLoss, 4294967295, 0, 4294967295, 0, 0, 0⟩⟩,
    ⟨0x3000, 1024, 2, 1, ⟨.u16, .rw, .operator, .batteryLoss, 0, 0, 65535, 0, 0, 0⟩⟩,
    ⟨0x3000, 1024, 3, 1, ⟨.u16, .rw, .operator, .batteryLoss, 0, 0, 65535, 0, 0, 0⟩⟩,
    ⟨0x3000, 1024, 4, 1, ⟨.u8, .rw, .operator, .batteryLoss, 1, 1, 255, 0, 0, 0⟩⟩,
    ⟨0x3000, 1024, 5, 1, ⟨.u8, .rw, .operator, .batteryLoss, 0, 0, 3, 0, 0, 0⟩⟩,
    ⟨0x3000, 1024, 6, 1, ⟨.u16, .rw, .operator, .batteryLoss, 510, 0, 510, 510, 0, 0⟩⟩,
    ⟨0x3000, 1024, 7, 1, ⟨.u16, .rw, .operator, .batteryLoss, 0, 0, 32768, 0, 0, 0⟩⟩,
    ⟨0x3000, 1024, 8, 1, ⟨.u16, .rw, .operator, .batteryLoss, 0, 0, 32768, 0, 0, 0⟩⟩,
    ⟨0x3000, 1024, 9, 1, ⟨.u16, .rw, .operator, .batteryLoss, 0, 0, 16384, 0, 0, 0⟩⟩,
    ⟨0x3000, 1024, 10, 1, ⟨.u16, .rw, .operator, .batteryLoss, 0, 0, 4096, 0, 0, 0⟩⟩,
    ⟨0x3000, 1024, 11, 1, ⟨.u16, .ro, .observer, .live, 0, 0, 65535, 0, 0, 0⟩⟩,
    ⟨0x3000, 1024, 12, 1, ⟨.u16, .ro, .observer, .live, 0, 0, 65535, 0, 0, 0⟩⟩,
    ⟨0x3000, 1024, 13, 1, ⟨.u32, .ro, .observer, .live, 0, 0, 4294967295, 0, 0, 0⟩⟩,
    ⟨0x3000, 1024, 16, 1, ⟨.u8, .wo, .operator, .none, 0, 1, 5, 0, 0, 0⟩⟩,
    ⟨0x3000, 1024, 17, 1, ⟨.u8, .ro, .observer, .live, 0, 0, 255, 0, 0, 0⟩⟩,
    ⟨0x3000, 1024, 18, 1, ⟨.u8, .ro, .observer, .live, 0, 0, 255, 0, 0, 0⟩⟩,
    ⟨0x3000, 1024, 19, 1, ⟨.u32, .rw, .operator, .warm, 0, 0, 65536, 0, 0, 0⟩⟩,
    ⟨0x3000, 1024, 20, 1, ⟨.u8, .rw, .operator, .warm, 0, 0, 127, 0, 0, 0⟩⟩,
    ⟨0x3000, 1024, 21, 1, ⟨.octets, .rw, .operator, .live, 0, 0, 0, 0, 512, 512⟩⟩ ]

def entryRows40 : List EntryRow :=
  [ ⟨0x4000, 4096, 1, 1, ⟨.u16, .rw, .operator, .batteryLoss, 65535, 0, 65535, 0, 0, 0⟩⟩,
    ⟨0x4000, 4096, 2, 1, ⟨.u16, .rw, .operator, .batteryLoss, 65535, 1, 65535, 0, 0, 0⟩⟩,
    ⟨0x4000, 4096, 3, 1, ⟨.u16, .ro, .observer, .live, 0, 0, 65535, 0, 0, 0⟩⟩ ]

def entryRows80 : List EntryRow :=
  [ ⟨0x8000, 16384, 1, 1, ⟨.u8, .ro, .observer, .live, 0, 0, 255, 0, 0, 0⟩⟩,
    ⟨0x8000, 16384, 2, 1, ⟨.u16, .ro, .observer, .live, 0, 0, 65535, 0, 0, 0⟩⟩,
    ⟨0x8000, 16384, 3, 1, ⟨.u16, .rw, .operator, .live, 0, 0, 65535, 0, 0, 0⟩⟩,
    ⟨0x8000, 16384, 4, 1, ⟨.u8, .woq, .observer, .none, 0, 1, 1, 0, 0, 0⟩⟩,
    ⟨0x8000, 16384, 5, 1, ⟨.u8, .woq, .observer, .none, 0, 1, 1, 0, 0, 0⟩⟩,
    ⟨0x8000, 16384, 6, 1, ⟨.bool, .ro, .observer, .live, 0, 0, 1, 0, 0, 0⟩⟩,
    ⟨0x8000, 16384, 7, 1, ⟨.u64, .ro, .observer, .live, 0, 0, 18446744073709551615, 0, 0, 0⟩⟩ ]

def entryRowsC0 : List EntryRow :=
  [ ⟨0xC000, 1, 1, 1, ⟨.u8, .rwq, .observer, .batteryLoss, 2, 2, 16, 0, 0, 0⟩⟩,
    ⟨0xC000, 1, 2, 1, ⟨.u8, .ro, .observer, .live, 0, 0, 255, 0, 0, 0⟩⟩,
    ⟨0xC000, 1, 3, 1, ⟨.bool, .ro, .observer, .batteryLoss, 1, 0, 1, 0, 0, 0⟩⟩,
    ⟨0xC000, 1, 4, 1, ⟨.u8, .ro, .observer, .live, 0, 0, 255, 0, 0, 0⟩⟩,
    ⟨0xC000, 1, 5, 1, ⟨.u32, .rw0, .maintenance, .warm, 0, 0, 4294967295, 0, 0, 0⟩⟩,
    ⟨0xC001, 1, 1, 4, ⟨.octets, .woq, .observer, .batteryLoss, 0, 0, 0, 0, 32, 32⟩⟩,
    ⟨0xC001, 1, 5, 1, ⟨.u8, .ro, .observer, .live, 0, 0, 255, 0, 0, 0⟩⟩,
    ⟨0xC010, 16, 1, 1, ⟨.u8, .rwq, .observer, .batteryLoss, 0, 0, 49, 0, 0, 0⟩⟩,
    ⟨0xC010, 16, 2, 1, ⟨.octets, .rwq, .observer, .batteryLoss, 0, 0, 0, 0, 0, 656⟩⟩,
    ⟨0xC010, 16, 3, 1, ⟨.octets, .rwq, .observer, .batteryLoss, 0, 0, 0, 0, 0, 656⟩⟩,
    ⟨0xC010, 16, 4, 1, ⟨.octets, .ro, .observer, .live, 0, 0, 0, 0, 8, 8⟩⟩,
    ⟨0xC010, 16, 5, 1, ⟨.u64, .ro, .observer, .warm, 0, 0, 18446744073709551615, 0, 0, 0⟩⟩ ]

/-- Every row of the entry tables but the per-code entries of the sillage log. -/
def entryRows : List EntryRow :=
  entryRows10 ++ entryRows11 ++ entryRows12 ++ entryRows13 ++ entryRows20 ++ entryRows21 ++ entryRows22 ++ entryRows23 ++ entryRows24 ++ entryRows25 ++ entryRows26 ++ entryRows27 ++ entryRows28 ++ entryRows29 ++ entryRows2A ++ entryRows30 ++ entryRows40 ++ entryRows80 ++ entryRowsC0

/-- The event codes that the spec names (Table 18.3, R444), with their default N and W; `(0, 1)` where unlimited. -/
def silCodes : List (Nat × Nat × Nat) :=
  [ (0x1001, 0, 1),
    (0x1101, 16, 60),
    (0x1102, 16, 60),
    (0x1301, 16, 60),
    (0x2001, 32, 60),
    (0x2002, 8, 60),
    (0x2003, 8, 60),
    (0x2101, 32, 60),
    (0x2201, 0, 1),
    (0x2202, 16, 60),
    (0x2301, 64, 60),
    (0x2501, 0, 1),
    (0x2502, 0, 1),
    (0x2503, 16, 60),
    (0x2504, 16, 60),
    (0x2505, 16, 60),
    (0x2601, 16, 60),
    (0x2720, 0, 1),
    (0x2721, 0, 1),
    (0x2801, 0, 1),
    (0x2802, 0, 1),
    (0x2803, 0, 1),
    (0x2901, 0, 1),
    (0x2A01, 0, 1),
    (0x2A02, 0, 1),
    (0x2A03, 0, 1),
    (0x2A04, 0, 1),
    (0x2A05, 0, 1),
    (0xC001, 16, 60) ] ++
  (List.range 24).map fun s => (0x2701 + s, 64, 1)

/-- Code of group `g` with low byte `e` (Table 18.2). -/
def silCode (g e : Nat) : Nat :=
  (if g < 4 then 0x10 + g else if g < 13 then 0x20 + (g - 4) else if g = 13 then 0x29 else if g = 14 then 0x2A else 0xC0) * 256 + e

/-- Group of a code's high byte (Table 18.2). -/
def silGroup (code : Nat) : Nat :=
  let h := code / 256
  if h < 0x20 then h - 0x10 else if h < 0x29 then h - 0x20 + 4 else if h = 0x29 then 13 else if h = 0x2A then 14 else 15

def Key.SIL_RATE (code : Nat) : Nat := entryKey (0x2910 + silGroup code) (code % 256)
def Key.SIL_SUPPRESSED (code : Nat) : Nat := entryKey (0x2950 + silGroup code) (code % 256)

/-- Attributes of the per-code entries of the sillage log (Table 18.4). -/
def silAttr (index sub : Nat) : Option Attr :=
  let one (base : Nat) (a : Nat → Nat → Attr) : Option Attr :=
    if base ≤ index ∧ index < base + 16 then
      match silCodes.find? (fun c => c.1 = silCode (index - base) sub) with
      | some c => some (a c.2.1 c.2.2)
      | none => none
    else none
  match one 0x2910 (fun n w => ⟨.u32, .rw, .maintenance, .batteryLoss, n + 65536 * w, 65536, 4294967295, 0, 0, 0⟩) with
  | some a => some a
  | none =>
    match one 0x2930 (fun _ _ => ⟨.octets, .ro, .observer, .live, 0, 0, 0, 0, 0, 24⟩) with
    | some a => some a
    | none => one 0x2950 (fun _ _ => ⟨.u16, .ro, .observer, .cold, 0, 0, 65535, 0, 0, 0⟩)

/-- The attributes of the entry at index:sub, or none where there is no entry (R368). -/
def attrOf (index sub : Nat) : Option Attr :=
  match entryRows.find? (fun r =>
      decide (r.index ≤ index) && decide (index < r.index + r.icount) && decide (r.sub ≤ sub) && decide (sub < r.sub + r.scount)) with
  | some r => if r.index = 0x1310 && decide (index = 0x1320) && decide (128 ≤ sub) then none else some r.attr
  | none => silAttr index sub

/-- Attributes by key. -/
def attrOfKey (k : Nat) : Option Attr := attrOf (k / 256) (k % 256)

/-- Defaults that differ inside a family: HST_MSIX_MAP (R71), slice 0's PASID (Table 5.1), the costs of Table 2.9, the sources of Table 15.1. -/
def defaultOf (k : Nat) : Nat :=
  let index := k / 256
  let sub := k % 256
  if 0x1310 ≤ index ∧ index ≤ 0x1320 then
    (let n := k - entryKey 0x1310 0; if n < 4096 then 0x8000 + n % 2048 else 0x8000)
  else if k = entryKey 0x3000 1 then 0
  else if k = Key.RST_BOOT_NEXT then 2
  else if k = Key.KPR_WEIR_VALID then Config.weirValid % 2 ^ 64
  else if index = 0x1203 then (if sub = 1 then 37 else if sub = 2 then 48 else if sub = 3 then 44 else 15)
  else if 0x2710 ≤ index ∧ index < 0x2728 then
    (let s := index - 0x2710
     let kwr : Nat × Nat × Nat :=
       if s < 4 then (4, 8, 0x47) else if s < 8 then (16, 32, 0x27) else if s = 8 then (64, 128, 0x03)
       else if s = 9 then (2, 4, 0x47) else if s = 10 then (32, 64, 0x27) else if s < 18 then (8, 1, 0x27)
       else if s < 22 then (1, 1, 0x27) else (4, 1, 0x27)
     if sub = 1 then kwr.1 else if sub = 2 then kwr.2.1 else if sub = 3 then kwr.2.2 else 0)
  else match attrOfKey k with
    | some a => a.dflt
    | none => 0

end Sys2Proof.Machine
end

