-- ==== Sys2Proof/Machine/Ops.lean ====
section
/-! DEFINITION. The shared operations over State: reading and writing what is kept by number, dictionary values, events, raised sources, jobs, memory words, free values, and internal reset requests. -/

namespace Sys2Proof.Machine

/-- Every meaning answers one of these. -/
abbrev Res := Host.Outcome State Fault Refusal

/-! ## Things kept by number -/

def State.ring (s : State) (n : Nat) : RingPair := SMap.get RingPair.reset s.rings n
def State.setRing (s : State) (n : Nat) (r : RingPair) : State := { s with rings := SMap.set RingPair.reset n r s.rings }
def State.updRing (s : State) (n : Nat) (f : RingPair → RingPair) : State := s.setRing n (f (s.ring n))

def State.slice (s : State) (n : Nat) : SliceCtx := SMap.get SliceCtx.reset s.slices n
def State.setSlice (s : State) (n : Nat) (c : SliceCtx) : State := { s with slices := SMap.set SliceCtx.reset n c s.slices }
def State.updSlice (s : State) (n : Nat) (f : SliceCtx → SliceCtx) : State := s.setSlice n (f (s.slice n))

def State.pkLane (s : State) (n : Nat) : PkLane := SMap.get PkLane.reset s.lanes.pk n
def State.setPk (s : State) (n : Nat) (l : PkLane) : State :=
  { s with lanes := { s.lanes with pk := SMap.set PkLane.reset n l s.lanes.pk } }
def State.updPk (s : State) (n : Nat) (f : PkLane → PkLane) : State := s.setPk n (f (s.pkLane n))

def State.symLane (s : State) (n : Nat) : SymLane := SMap.get SymLane.reset s.lanes.sym n
def State.setSym (s : State) (n : Nat) (l : SymLane) : State :=
  { s with lanes := { s.lanes with sym := SMap.set SymLane.reset n l s.lanes.sym } }
def State.updSym (s : State) (n : Nat) (f : SymLane → SymLane) : State := s.setSym n (f (s.symLane n))

def State.cluster (s : State) (n : Nat) : Cluster := SMap.get Cluster.reset s.lanes.clusters n
def State.setCluster (s : State) (n : Nat) (c : Cluster) : State :=
  { s with lanes := { s.lanes with clusters := SMap.set Cluster.reset n c s.lanes.clusters } }
def State.updCluster (s : State) (n : Nat) (f : Cluster → Cluster) : State := s.setCluster n (f (s.cluster n))

def State.heart (s : State) (n : Nat) : Heart := SMap.get Heart.reset s.keys.hearts n
def State.setHeart (s : State) (n : Nat) (h : Heart) : State :=
  { s with keys := { s.keys with hearts := SMap.set Heart.reset n h s.keys.hearts } }

def State.image (s : State) (n : Nat) : Option HeartImage := SMap.get none s.keys.images n
def State.setImage (s : State) (n : Nat) (i : Option HeartImage) : State :=
  { s with keys := { s.keys with images := SMap.set none n i s.keys.images } }

def State.chkUnit (s : State) (n : Nat) : CheckUnit := SMap.get CheckUnit.reset s.chk n
def State.setChk (s : State) (n : Nat) (u : CheckUnit) : State := { s with chk := SMap.set CheckUnit.reset n u s.chk }
def State.updChk (s : State) (n : Nat) (f : CheckUnit → CheckUnit) : State := s.setChk n (f (s.chkUnit n))

def State.block (s : State) (n : Nat) : Block := SMap.get Block.reset s.keeper.blocks n
def State.setBlock (s : State) (n : Nat) (b : Block) : State :=
  { s with keeper := { s.keeper with blocks := SMap.set Block.reset n b s.keeper.blocks } }
def State.updBlock (s : State) (n : Nat) (f : Block → Block) : State := s.setBlock n (f (s.block n))

def State.tmpSrc (s : State) (n : Nat) : TamperSrc := SMap.get TamperSrc.reset s.tamper.sources n
def State.setTmpSrc (s : State) (n : Nat) (t : TamperSrc) : State :=
  { s with tamper := { s.tamper with sources := SMap.set TamperSrc.reset n t s.tamper.sources } }

def State.region (s : State) (n : Nat) : Region := SMap.get Region.none s.keeper.regions n

def State.msixVector (s : State) (n : Nat) : MsixVector := SMap.get MsixVector.reset s.host.msix n
def State.setMsix (s : State) (n : Nat) (v : MsixVector) : State :=
  { s with host := { s.host with msix := SMap.set MsixVector.reset n v s.host.msix } }

def State.drive (s : State) (p : Nat) : Drive := if p = 0 then s.vault.d0 else s.vault.d1
def State.setDrive (s : State) (p : Nat) (d : Drive) : State :=
  if p = 0 then { s with vault := { s.vault with d0 := d } } else { s with vault := { s.vault with d1 := d } }
def State.updDrive (s : State) (p : Nat) (f : Drive → Drive) : State := s.setDrive p (f (s.drive p))

def State.wsp (s : State) (n : Nat) : Wellspring := if n = 0 then s.ent.w0 else s.ent.w1
def State.setWsp (s : State) (n : Nat) (w : Wellspring) : State :=
  if n = 0 then { s with ent := { s.ent with w0 := w } } else { s with ent := { s.ent with w1 := w } }

/-! ## Working memory (R12, R289) -/

/-- What an unlisted word reads as (R293): scrubbed and free; once a start has loaded the firmware, its image in region 0 and zeros in region 3, both with colour 13, and zeros with colour 14 in region 5. -/
def wmRest (loaded : Bool) (slot i : Nat) : Word36 :=
  if !loaded then Word36.free
  else if i < 0x20000 then ⟨13, Config.firmwareWord slot i % 2 ^ 32⟩
  else if 0x40000 ≤ i ∧ i < 0x80000 then ⟨13, 0⟩
  else if 0x100000 ≤ i ∧ i < 0x200000 then ⟨14, 0⟩
  else Word36.free

def State.rest (s : State) (i : Nat) : Word36 := wmRest s.keeper.loaded s.rst.bootSlot i

/-- The canonical form of working memory: word numbers strictly rising, and no listed word equal to what it reads as unlisted. -/
def Memory.wf (rest : Nat → Word36) : List (Nat × Word36) → Bool
  | [] => true
  | [(i, w)] => decide (w ≠ rest i)
  | (i, w) :: (i', w') :: m => decide (w ≠ rest i) && decide (i < i') && Memory.wf rest ((i', w') :: m)

/-- The word at index `i` of working memory. -/
def State.word (s : State) (i : Nat) : Word36 := SMap.get (s.rest i) s.wm i
def State.setWord (s : State) (i : Nat) (w : Word36) : State := { s with wm := SMap.set (s.rest i) i w s.wm }

/-- A run of words from `a` on written at once; the canonical form is kept. -/
def State.setWords (s : State) (a : Nat) (ws : List Word36) : State :=
  let new := (ws.zipIdx a).filterMap fun x => if x.1 = s.rest x.2 then none else some (x.2, x.1)
  let past := a + ws.length
  { s with wm := s.wm.filter (fun w => decide (w.1 < a)) ++ new ++ s.wm.filter fun w => decide (past ≤ w.1) }

/-- Return the words that satisfy `p` to what an unlisted word reads as: outside regions 0, 3 and 5, colour 15 with zero data. -/
def State.scrubWords (s : State) (p : Nat → Bool) : State := { s with wm := s.wm.filter fun w => !p w.1 }

/-- Byte `b` of working memory. -/
def State.wmByte (s : State) (b : Nat) : Byte := byteOf ((s.word (b / 4)).data / 2 ^ (8 * (b % 4)))

/-- Write bytes at byte address `a`, each touched word taking colour `c`. -/
def State.wmStore (s : State) (c a : Nat) (bs : Bytes) : State :=
  (bs.zipIdx).foldl (fun st bi =>
    let addr := a + bi.2
    let w := st.word (addr / 4)
    let sh := 2 ^ (8 * (addr % 4))
    let old := w.data / sh % 256
    st.setWord (addr / 4) ⟨c, w.data - old * sh + bi.1.toNat * sh⟩) s

/-! ## Dictionary values -/

/-- The stored or default value of a numeric entry. -/
def State.num (s : State) (k : Nat) : Nat := SMap.get (defaultOf k) s.dict.nums k

/-- Set a numeric entry; a value equal to the default is not listed. -/
def State.setNum (s : State) (k v : Nat) : State :=
  { s with dict := { s.dict with nums := SMap.set (defaultOf k) k v s.dict.nums } }

/-- The default of a byte-string entry: zero bytes of its least length. -/
def octDefault (k : Nat) : Bytes :=
  match attrOfKey k with
  | some a => List.replicate a.minLen 0
  | none => []

def State.oct (s : State) (k : Nat) : Bytes := SMap.get (octDefault k) s.dict.octs k
def State.setOct (s : State) (k : Nat) (v : Bytes) : State :=
  { s with dict := { s.dict with octs := SMap.set (octDefault k) k v s.dict.octs } }

/-- Greatest number of the entry's type. -/
def VType.top : VType → Nat
  | .bool => 1
  | .u8 => 255
  | .u16 => 65535
  | .u32 => 4294967295
  | .u64 => 18446744073709551615
  | .u36 => 68719476735
  | .i32 => 4294967295
  | .octets => 0
  | .string => 0

/-- Greatest number of an entry's type. -/
def topOf (k : Nat) : Nat :=
  match attrOfKey k with
  | some a => a.typ.top
  | none => 0

/-- Advance a counter entry by `n`, saturating at its type's greatest number. -/
def State.count (s : State) (k : Nat) (n : Nat := 1) : State := s.setNum k (min (topOf k) (s.num k + n))

/-! ## Counters of corrected errors (R12, R75) -/

/-- The entries that count corrected errors: of the FIFOs, the operand memories, the key cache, working memory. -/
def ceKeys : List Nat := [Key.HST_FIFO_CE, Key.KEY_CACHE_CE, Key.KPR_WM_CE] ++ (List.range 24).map Key.PKE_OPMEM_CE

/-- Such a counter starts anew at a tick: it has been written 0, or a reset has ended it. -/
def State.ceClear (s : State) (key tick : Nat) : State := { s with dict := { s.dict with ceSince := SMap.set 0 key tick s.dict.ceSince } }

/-- Such a counter as it reads: a free count of the frames since it was cleared, saturating. -/
def State.ceRead (s : State) (key : Nat) : Nat :=
  let from_ := SMap.get 0 s.dict.ceSince key
  if s.tick ≤ from_ then 0 else min (2 ^ 32 - 1) (Config.corrected key from_ s.tick)

/-! ## Events, sources, outputs, free values -/

/-- An event to be recorded in the sillage log, in the frame that began at the current tick (R417). -/
def State.event (s : State) (code : Nat) : State :=
  { s with sil := { s.sil with queue := s.sil.queue ++ [⟨code, s.tick, false, none, none⟩] } }

/-- An event whose record is sent on the chain as well (Table 15.2). -/
def State.eventSent (s : State) (code : Nat) : State :=
  { s with sil := { s.sil with queue := s.sil.queue ++ [⟨code, s.tick, true, none, none⟩] } }

/-- An event that is detected at the next tick: what makes it shows there first. -/
def State.eventNext (s : State) (code : Nat) : State :=
  { s with sil := { s.sil with queue := s.sil.queue ++ [⟨code, (s.tick + 1) % 2 ^ 64, false, none, none⟩] } }

/-- An event of a rule that the spec gives no code: the firmware's code for it (assumption log 6). -/
def State.eventOf (s : State) (rule : Nat) : State := s.event (Config.eventCode rule)

/-- Raise an event source at the next tick (R72). -/
def State.raise (s : State) (src : Nat) : State :=
  { s with host := { s.host with raised := if s.host.raised.contains src then s.host.raised else s.host.raised ++ [src] } }

/-- A posted write or message leaves the unit. -/
def State.emit (s : State) (o : Sent) : State := { s with sent := s.sent ++ [o] }

/-- The next free number; the counter advances. -/
def State.takeNat (s : State) : Nat × State := (Config.freeNat s.free, { s with free := s.free + 1 })
def State.takeBytes (s : State) (n : Nat) : Bytes × State := (fit n (Config.freeBytes s.free), { s with free := s.free + 1 })
def State.takeBool (s : State) : Bool × State := (Config.freeBool s.free, { s with free := s.free + 1 })

/-- An internal reset source was detected in this frame: its reset is entered at the next tick (R426). -/
def State.resetDue (s : State) (reach bit : Nat) : State :=
  { s with rst := { s.rst with dueReach := max s.rst.dueReach reach, dueCauses := s.rst.dueCauses ||| 2 ^ bit } }

/-- The tick stands still: battery power, a COLD reset held, SCRAP. -/
def State.noTick (s : State) : Bool :=
  decide (s.rst.power = .battery) || s.rst.scrapped || (decide (s.rst.power = .held) && decide (s.rst.reach = 3))

/-- Byte address `a` falls in an enabled sub-region of an enabled region. -/
def Region.covers (r : Region) (a : Nat) : Bool :=
  r.enable && decide (r.base ≤ a) && decide (a < r.base + 2 ^ r.size) && !bitOf r.subOff ((a - r.base) / (2 ^ r.size / 8))

/-- The region that an address matches, lowest number first. -/
def regionAt (rs : List (Nat × Region)) (a : Nat) : Option Nat := (List.range 16).find? fun n => (SMap.get Region.none rs n).covers a

/-- Record a guard fault (KPR_GUARD_FAULT, Table 12.10) with its record; a field that the spec does not fill for this cause is free. -/
def State.guardFault (s : State) (cause : Nat) (region second master : Option Nat) : State :=
  let f := s.takeNat
  let r := region.getD (f.1 % 16)
  let r2 := second.getD (f.1 / 16 % 16)
  let m := master.getD (f.1 / 256 % 16)
  (f.2.setNum Key.KPR_GUARD_FAULT (cause + 256 * r + 4096 * r2 + 65536 * m + 2 ^ 20 * (s.tick % 2 ^ 44))).event 0x2505

/-- While the guard is off, an access of a guarded master is held; it is checked in the order of its arrival once the guard is on again (R300, R302). -/
def State.guarded (s : State) (c : Instr) (f : State → State) : State :=
  if s.keeper.guardOn then f s else { s with keeper := { s.keeper with held := s.keeper.held ++ [c] } }

/-- The Keeper and the blocks that a FUNCTION reset leaves are running (R425): power on, no wider reset held. -/
def State.live (s : State) : Bool :=
  decide (s.rst.power = .run) || decide (s.rst.power = .standby) || (decide (s.rst.power = .held) && decide (s.rst.reach ≤ 1))

/-! ## Jobs -/

def State.job? (s : State) (id : Nat) : Option Job := s.jobs.find? fun j => j.id == id

/-- Replace the job of the same number. -/
def State.setJob (s : State) (j : Job) : State := { s with jobs := s.jobs.map fun i => if i.id = j.id then j else i }
def State.updJob (s : State) (id : Nat) (f : Job → Job) : State :=
  { s with jobs := s.jobs.map fun i => if i.id = id then f i else i }
def State.dropJob (s : State) (id : Nat) : State := { s with jobs := s.jobs.filter fun i => decide (i.id ≠ id) }

/-- Engines: 0 public-key lane, 1 symmetric lane, 2 command cores, 3 Keeper. -/
def engPk : Nat := 0
def engSym : Nat := 1
def engCt : Nat := 2
def engKp : Nat := 3

/-- Take a job off every lane it runs or is parked on; the window wipes the banks that no job keeps (R160, R161, `State.wipeFrame`). -/
def State.offLane (s : State) (id : Nat) : State :=
  { s with lanes := { s.lanes with
      pk := SMap.mapVals PkLane.reset (fun l =>
        if l.running = some id ∨ l.parked = some id then
          { l with running := (if l.running = some id then none else l.running),
                   parked := (if l.parked = some id then none else l.parked) } else l) s.lanes.pk
      sym := SMap.mapVals SymLane.reset (fun l =>
        { l with running := (if l.running = some id then none else l.running),
                 parked := l.parked.filter fun p => decide (p ≠ id) }) s.lanes.sym
      ladder := s.lanes.ladder.filter fun k => decide (k.job ≠ id) } }

/-- Leave of a job that ended: over at the tick after the frame (R45). -/
def State.endLeave (s : State) (id : Nat) : State :=
  { s with sched := { s.sched with leaves := s.sched.leaves.map fun l =>
      if l.job = id then { l with last := min l.last s.tick } else l } }

/-- The key windows of a job, in every slice (R188): released. -/
def State.freeWindows (s : State) (id : Nat) : State :=
  { s with slices := SMap.mapVals SliceCtx.reset (fun c => { c with windows := c.windows.filter fun w => decide (w.2 ≠ id) }) s.slices }

/-- A job stops where it stands: off its lane, its windows and leave given up. -/
def State.stopJob (s : State) (id : Nat) : State := ((s.offLane id).freeWindows id).endLeave id

/-- Stage a job's completion with a status, a result word and no output, its record due at tick `due` (R100). It asks for leave no more (R45, R46). -/
def State.finish (s : State) (id status result due : Nat) : State :=
  (s.stopJob id).updJob id fun j =>
    { j with phase := .staged, outcome := some ⟨status, [], result, none, none⟩, due := due, outDone := true, leaveAsked := none, leaveUntil := none }

/-- Fix a status that the job takes at its normal completion tick (R100, R75, R190, R292). -/
def State.force (s : State) (id status result : Nat) : State :=
  s.updJob id fun j => if j.phase = .staged then
      { j with outcome := some ⟨status, [], result, none, none⟩ }
    else { j with forced := (match j.forced with | none => some (status, result) | some f => some f) }

/-- Status codes (Table 4.13). -/
def stOk : Nat := 0x00
def stVerifyFailed : Nat := 0x01
def stInvalidInput : Nat := 0x02
def stInvalidKey : Nat := 0x03
def stInvalidPoint : Nat := 0x04
def stOrphaned : Nat := 0x05
def stUnknown : Nat := 0x06
def stPolicyDenied : Nat := 0x07
def stConflict : Nat := 0x08
def stEntropy : Nat := 0x09
def stAborted : Nat := 0x0A
def stTamperAbort : Nat := 0x0B
def stFault : Nat := 0x0C
def stVault : Nat := 0x0D
def stBuffer : Nat := 0x0E
def stQuota : Nat := 0x0F
def stReplTimeout : Nat := 0x10
def stUnsupported : Nat := 0x11
def stLocked : Nat := 0x12

/-! ## Periods (Tables 1.6, 2.1) -/

/-- Microseconds of a seiche by SEI_PERIOD code: 10, 20, 40, 80. -/
def periodUs (p : Nat) : Nat := 10 * 2 ^ p

def State.period (s : State) : Nat := s.num Key.SEI_PERIOD

/-- Lane cycles of lane time: 27,000 at 10 µs (Table 1.6). -/
def laneTimeOf (p : Nat) : Nat := 27000 * 2 ^ p
def State.laneTime (s : State) : Nat := laneTimeOf s.period

/-- A credit value per 20 µs at period code `p` (R47). DESIGN CHOICE (assumption log 79): an odd value at 10 µs rounds down. -/
def scaleCredits (p v : Nat) : Nat := v * 2 ^ p / 2

/-- Credits left uncommitted in the frame (R40). -/
def State.remainder (s : State) : Nat := scaleCredits s.period (s.num Key.SEI_BUDGET) - s.sched.committed - s.sched.debited

/-- Debit credits from the uncommitted remainder; none where they do not fit. -/
def State.debit (s : State) (c : Nat) : Option State :=
  if c ≤ s.remainder then some { s with sched := { s.sched with debited := s.sched.debited + c } } else none

/-- Credits of a vault page read or written (Table 2.7). -/
def pageCredits : Nat := 2

/-- Descriptors fetched in a frame at most (R65). -/
def fetchPerFrame (p : Nat) : Nat := 200 * 2 ^ p

/-- Ticks by which a time of `us` microseconds has passed at the current period, rounded up. -/
def State.ticksOf (s : State) (us : Nat) : Nat := ceilDiv us (periodUs s.period)

end Sys2Proof.Machine
end

