-- ==== Sys2Proof/Machine/CryptoHash.lean ====
section
/-! DEFINITION. The hash functions and keyed hashes that the spec names by their standards: SHA-2 (FIPS 180-4), SHA-3 and SHAKE (FIPS 202), cSHAKE and KMAC (SP 800-185), HMAC (FIPS 198-1). PRESUMED from those standards (assumption log 8). -/

namespace Sys2Proof.Machine

/-! ## SHA-2 -/

/-- Round constants of SHA-512; their top halves are those of SHA-256. -/
def sha512K : List Nat :=
  [0x428A2F98D728AE22, 0x7137449123EF65CD, 0xB5C0FBCFEC4D3B2F, 0xE9B5DBA58189DBBC, 0x3956C25BF348B538, 0x59F111F1B605D019, 0x923F82A4AF194F9B, 0xAB1C5ED5DA6D8118] ++
  [0xD807AA98A3030242, 0x12835B0145706FBE, 0x243185BE4EE4B28C, 0x550C7DC3D5FFB4E2, 0x72BE5D74F27B896F, 0x80DEB1FE3B1696B1, 0x9BDC06A725C71235, 0xC19BF174CF692694] ++
  [0xE49B69C19EF14AD2, 0xEFBE4786384F25E3, 0x0FC19DC68B8CD5B5, 0x240CA1CC77AC9C65, 0x2DE92C6F592B0275, 0x4A7484AA6EA6E483, 0x5CB0A9DCBD41FBD4, 0x76F988DA831153B5] ++
  [0x983E5152EE66DFAB, 0xA831C66D2DB43210, 0xB00327C898FB213F, 0xBF597FC7BEEF0EE4, 0xC6E00BF33DA88FC2, 0xD5A79147930AA725, 0x06CA6351E003826F, 0x142929670A0E6E70] ++
  [0x27B70A8546D22FFC, 0x2E1B21385C26C926, 0x4D2C6DFC5AC42AED, 0x53380D139D95B3DF, 0x650A73548BAF63DE, 0x766A0ABB3C77B2A8, 0x81C2C92E47EDAEE6, 0x92722C851482353B] ++
  [0xA2BFE8A14CF10364, 0xA81A664BBC423001, 0xC24B8B70D0F89791, 0xC76C51A30654BE30, 0xD192E819D6EF5218, 0xD69906245565A910, 0xF40E35855771202A, 0x106AA07032BBD1B8] ++
  [0x19A4C116B8D2D0C8, 0x1E376C085141AB53, 0x2748774CDF8EEB99, 0x34B0BCB5E19B48A8, 0x391C0CB3C5C95A63, 0x4ED8AA4AE3418ACB, 0x5B9CCA4F7763E373, 0x682E6FF3D6B2B8A3] ++
  [0x748F82EE5DEFB2FC, 0x78A5636F43172F60, 0x84C87814A1F0AB72, 0x8CC702081A6439EC, 0x90BEFFFA23631E28, 0xA4506CEBDE82BDE9, 0xBEF9A3F7B2C67915, 0xC67178F2E372532B] ++
  [0xCA273ECEEA26619C, 0xD186B8C721C0C207, 0xEADA7DD6CDE0EB1E, 0xF57D4F7FEE6ED178, 0x06F067AA72176FBA, 0x0A637DC5A2C898A6, 0x113F9804BEF90DAE, 0x1B710B35131C471B] ++
  [0x28DB77F523047D84, 0x32CAAB7B40C72493, 0x3C9EBE0A15C9BEBC, 0x431D67C49C100D4C, 0x4CC5D4BECB3E42B6, 0x597F299CFC657E2A, 0x5FCB6FAB3AD6FAEC, 0x6C44198C4A475817]

/-- Initial value of SHA-512; the top halves are that of SHA-256. -/
def sha512H : List Nat :=
  [0x6A09E667F3BCC908, 0xBB67AE8584CAA73B, 0x3C6EF372FE94F82B, 0xA54FF53A5F1D36F1, 0x510E527FADE682D1, 0x9B05688C2B3E6C1F, 0x1F83D9ABFB41BD6B, 0x5BE0CD19137E2179]

/-- Initial value of SHA-384. -/
def sha384H : List Nat :=
  [0xCBBB9D5DC1059ED8, 0x629A292A367CD507, 0x9159015A3070DD17, 0x152FECD8F70E5939, 0x67332667FFC00B31, 0x8EB44A8768581511, 0xDB0C2E0D64F98FA7, 0x47B5481DBEFA4FA4]

/-- Rotation right of a `w`-bit word. -/
def rotr (w n x : Nat) : Nat := x / 2 ^ n + x % 2 ^ n * 2 ^ (w - n)

/-- Rotations and shifts of the four mixing functions, and the rounds, of a SHA-2 with `w`-bit words. -/
structure Sha2 where
  w : Nat
  rounds : Nat
  big0 : Nat × Nat × Nat
  big1 : Nat × Nat × Nat
  small0 : Nat × Nat × Nat
  small1 : Nat × Nat × Nat

def sha2x32 : Sha2 := ⟨32, 64, (2, 13, 22), (6, 11, 25), (7, 18, 3), (17, 19, 10)⟩
def sha2x64 : Sha2 := ⟨64, 80, (28, 34, 39), (14, 18, 41), (1, 8, 7), (19, 61, 6)⟩

def Sha2.sigma (p : Sha2) (t : Nat × Nat × Nat) (x : Nat) : Nat := rotr p.w t.1 x ^^^ rotr p.w t.2.1 x ^^^ rotr p.w t.2.2 x
def Sha2.mix (p : Sha2) (t : Nat × Nat × Nat) (x : Nat) : Nat := rotr p.w t.1 x ^^^ rotr p.w t.2.1 x ^^^ x / 2 ^ t.2.2

/-- The message schedule of one block, as a growing array. -/
def Sha2.schedule (p : Sha2) (m : Array Nat) : Array Nat :=
  (List.range (p.rounds - 16)).foldl (fun a i =>
    let t := i + 16
    a.push ((p.mix p.small1 (a.getD (t - 2) 0) + a.getD (t - 7) 0 + p.mix p.small0 (a.getD (t - 15) 0) + a.getD (t - 16) 0) % 2 ^ p.w)) m

/-- One round on the eight working variables. -/
def Sha2.round (p : Sha2) (kw : Nat) : List Nat → List Nat
  | [a, b, c, d, e, f, g, h] =>
    let t1 := h + p.sigma p.big1 e + ((e &&& f) ^^^ ((2 ^ p.w - 1 - e) &&& g)) + kw
    let t2 := p.sigma p.big0 a + ((a &&& b) ^^^ (a &&& c) ^^^ (b &&& c))
    [(t1 + t2) % 2 ^ p.w, a, b, c, (d + t1) % 2 ^ p.w, e, f, g]
  | l => l

/-- The compression of one block, given as words. -/
def Sha2.block (p : Sha2) (h : List Nat) (m : Array Nat) : List Nat :=
  let sch := p.schedule m
  let v := (List.range p.rounds).foldl (fun v t =>
    p.round (sha512K.getD t 0 / 2 ^ (64 - p.w) + sch.getD t 0) v) h
  List.zipWith (fun a b => (a + b) % 2 ^ p.w) h v

/-- Cut into pieces of `n` bytes, at most `fuel` of them. -/
def chunksOf (n : Nat) : Nat → Bytes → List Bytes
  | 0, _ => []
  | fuel + 1, bs => if bs.isEmpty then [] else bs.take n :: chunksOf n fuel (bs.drop n)

def chunks (n : Nat) (bs : Bytes) : List Bytes := chunksOf n bs.length bs

/-- SHA-2 padding and chaining from an initial value. -/
def Sha2.hash (p : Sha2) (h0 : List Nat) (msg : Bytes) : Bytes :=
  let bw := p.w / 8
  let len := msg.length
  let zeros := (16 * bw - (len + 1 + 2 * bw) % (16 * bw)) % (16 * bw)
  let padded := msg ++ [0x80] ++ List.replicate zeros 0 ++ beBytes (2 * bw) (8 * len)
  let out := (chunks (16 * bw) padded).foldl (fun h b => p.block h ((chunks bw b).map beNat).toArray) h0
  (out.map (beBytes bw)).flatten

def sha256 (m : Bytes) : Bytes := sha2x32.hash (sha512H.map fun x => x / 2 ^ 32) m
def sha384 (m : Bytes) : Bytes := (sha2x64.hash sha384H m).take 48
def sha512 (m : Bytes) : Bytes := sha2x64.hash sha512H m

/-! ## Keccak -/

def keccakRot : List Nat :=
  [0, 1, 62, 28, 27, 36, 44, 6, 55, 20, 3, 10, 43, 25, 39, 41, 45, 15, 21, 8, 18, 2, 61, 56, 14]

def rotl64 (n x : Nat) : Nat := if n = 0 then x else rotr 64 (64 - n) x

/-- Bit `t` of the round-constant register: an 8-bit shift register stepped `t` times. -/
def keccakRcBit (t : Nat) : Nat :=
  (List.range (t % 255)).foldl (fun r _ => let r := 2 * r; if 256 ≤ r then (r - 256) ^^^ 0x71 else r) 1 % 2

def keccakRc (i : Nat) : Nat :=
  (List.range 7).foldl (fun acc j => acc + keccakRcBit (j + 7 * i) * 2 ^ (2 ^ j - 1)) 0

def keccakRcs : Array Nat := (Array.range 24).map keccakRc

/-- One round of Keccak-f[1600] on 25 lanes, lane (x, y) at x + 5 y. -/
def keccakRound (rc : Nat) (a : Array Nat) : Array Nat :=
  let c := (Array.range 5).map fun x =>
    a.getD x 0 ^^^ a.getD (x + 5) 0 ^^^ a.getD (x + 10) 0 ^^^ a.getD (x + 15) 0 ^^^ a.getD (x + 20) 0
  let d := (Array.range 5).map fun x => c.getD ((x + 4) % 5) 0 ^^^ rotl64 1 (c.getD ((x + 1) % 5) 0)
  let rot := keccakRot.toArray
  -- lane i of the result of rho and pi comes from (x, y) with i = y + 5 ((2 x + 3 y) mod 5)
  let b := (Array.range 25).map fun i =>
    let y := i % 5
    let x := (i / 5 + 2 * y) * 3 % 5
    rotl64 (rot.getD (x + 5 * y) 0) (a.getD (x + 5 * y) 0 ^^^ d.getD x 0)
  let e := (Array.range 25).map fun i =>
    let y := i / 5 * 5
    let x := i % 5
    b.getD i 0 ^^^ ((2 ^ 64 - 1 - b.getD (y + (x + 1) % 5) 0) &&& b.getD (y + (x + 2) % 5) 0)
  e.modify 0 fun v => v ^^^ rc

def keccakF (a : Array Nat) : Array Nat := (List.range 24).foldl (fun a i => keccakRound (keccakRcs.getD i 0) a) a

def keccakBytes (a : Array Nat) : Bytes := (a.toList.map (leBytes 8)).flatten

/-- Squeeze `n` blocks of `rate` bytes. -/
def squeeze (rate : Nat) : Nat → Array Nat → Bytes
  | 0, _ => []
  | n + 1, a => (keccakBytes a).take rate ++ (if n = 0 then [] else squeeze rate n (keccakF a))

/-- The sponge: `rate` bytes, a domain suffix, `n` bytes of output. -/
def sponge (rate suffix : Nat) (msg : Bytes) (n : Nat) : Bytes :=
  let gap := rate - msg.length % rate
  let pad : Bytes := if gap = 1 then [byteOf (suffix + 128)] else [byteOf suffix] ++ List.replicate (gap - 2) 0 ++ [0x80]
  let st := (chunks rate (msg ++ pad)).foldl (fun a b =>
    let ws := ((chunks 8 b).map leNat).toArray
    keccakF ((Array.range 25).map fun i => a.getD i 0 ^^^ ws.getD i 0)) (Array.replicate 25 0)
  (squeeze rate (ceilDiv n rate) st).take n

def sha3_256 (m : Bytes) : Bytes := sponge 136 6 m 32
def sha3_384 (m : Bytes) : Bytes := sponge 104 6 m 48
def sha3_512 (m : Bytes) : Bytes := sponge 72 6 m 64
def shake128 (m : Bytes) (n : Nat) : Bytes := sponge 168 0x1F m n
def shake256 (m : Bytes) (n : Nat) : Bytes := sponge 136 0x1F m n

/-! ## cSHAKE and KMAC -/

/-- Bytes of a number, most significant first, at least one. -/
def minBe (v : Nat) : Bytes :=
  let n := (List.range 9).find? fun n => decide (0 < n) && decide (v < 256 ^ n)
  beBytes (n.getD 9) v

def leftEncode (v : Nat) : Bytes := let b := minBe v; byteOf b.length :: b
def rightEncode (v : Nat) : Bytes := let b := minBe v; b ++ [byteOf b.length]
def encodeString (b : Bytes) : Bytes := leftEncode (8 * b.length) ++ b
def bytepad (w : Nat) (b : Bytes) : Bytes :=
  let x := leftEncode w ++ b
  x ++ List.replicate ((w - x.length % w) % w) 0

def cshake256 (m : Bytes) (n : Nat) (name custom : Bytes) : Bytes :=
  sponge 136 4 (bytepad 136 (encodeString name ++ encodeString custom) ++ m) n

/-- KMAC256 with `n` bytes of output. -/
def kmac256 (key m : Bytes) (n : Nat) (custom : Bytes) : Bytes :=
  cshake256 (bytepad 136 (encodeString key) ++ m ++ rightEncode (8 * n)) n (ascii "KMAC") custom

/-! ## HMAC -/

def hmac (hash : Bytes → Bytes) (block : Nat) (key m : Bytes) : Bytes :=
  let k := fit block (if block < key.length then hash key else key)
  hash ((k.map fun b => b ^^^ 0x5C) ++ hash ((k.map fun b => b ^^^ 0x36) ++ m))

def hmacSha256 (key m : Bytes) : Bytes := hmac sha256 64 key m
def hmacSha512 (key m : Bytes) : Bytes := hmac sha512 128 key m

end Sys2Proof.Machine
end

