-- ==== Sys2Proof/Machine/CryptoAes.lean ====
section
/-! DEFINITION. The ciphers that the spec names by their standards: AES (FIPS 197) with ECB, CBC, CTR, XTS, CMAC, GCM and key wrap with padding (SP 800-38A, -38B, -38D, -38E, -38F), CTR_DRBG (SP 800-90A), ChaCha20-Poly1305 (RFC 8439), FF1 (SP 800-38G). PRESUMED from those standards (assumption log 8). -/

namespace Sys2Proof.Machine

def xorBytes (a b : Bytes) : Bytes := List.zipWith (fun x y => x ^^^ y) a b

/-! ## AES -/

/-- Doubling in GF(2^8). -/
def xtime (x : Nat) : Nat := if x < 128 then 2 * x else (2 * x - 256) ^^^ 0x1B

def gmul (a b : Nat) : Nat :=
  ((List.range 8).foldl (fun (acc : Nat × Nat) i =>
    (if b.testBit i then acc.1 ^^^ acc.2 else acc.1, xtime acc.2)) (0, a)).1

/-- The S-box: inverse in GF(2^8), then the affine map. -/
def sboxOf (x : Nat) : Nat :=
  let inv := ((List.range 256).find? fun y => gmul x y == 1).getD 0
  let r (n : Nat) := inv * 2 ^ n % 256 + inv * 2 ^ n / 256
  inv ^^^ r 1 ^^^ r 2 ^^^ r 3 ^^^ r 4 ^^^ 0x63

def sbox : Array Nat := (Array.range 256).map sboxOf
def invSbox : Array Nat := (Array.range 256).foldl (fun a i => a.set! (sbox.getD i 0) i) (Array.replicate 256 0)

/-- The expanded key, as words of four bytes. -/
def aesExpand (key : Bytes) : Array (List Nat) :=
  let nk := key.length / 4
  let w0 := ((chunks 4 key).map fun c => c.map fun b => b.toNat).toArray
  let step (a : Array (List Nat)) (rcon : Nat) (i : Nat) : Array (List Nat) × Nat :=
    let t := a.getD (i - 1) []
    let sub (l : List Nat) := l.map fun b => sbox.getD b 0
    let t' := if i % nk = 0 then
        (match sub (t.drop 1 ++ t.take 1) with | x :: r => (x ^^^ rcon) :: r | [] => [])
      else if 6 < nk && i % nk = 4 then sub t else t
    (a.push (List.zipWith (fun x y => x ^^^ y) (a.getD (i - nk) []) t'), if i % nk = 0 then xtime rcon else rcon)
  ((List.range (4 * (nk + 7) - nk)).foldl (fun (acc : Array (List Nat) × Nat) i => step acc.1 acc.2 (i + nk)) (w0, 1)).1

/-- Round key `r` as 16 bytes. -/
def aesRoundKey (w : Array (List Nat)) (r : Nat) : List Nat :=
  (w.getD (4 * r) []) ++ (w.getD (4 * r + 1) []) ++ (w.getD (4 * r + 2) []) ++ (w.getD (4 * r + 3) [])

def xorNats (a b : List Nat) : List Nat := List.zipWith (fun x y => x ^^^ y) a b

/-- Bytes of the state moved by `f`: byte i of the result is byte `f i`. -/
def permute16 (f : Nat → Nat) (s : Array Nat) : Array Nat := (Array.range 16).map fun i => s.getD (f i) 0

/-- The four columns multiplied by a circulant row of GF(2^8). -/
def mixColumns (m : List Nat) (s : Array Nat) : Array Nat :=
  (Array.range 16).map fun i =>
    let c := i / 4 * 4
    let r := i % 4
    (List.range 4).foldl (fun acc j => acc ^^^ gmul (m.getD ((j + 4 - r) % 4) 0) (s.getD (c + j) 0)) 0

def aesBlockEnc (w : Array (List Nat)) (b : Bytes) : Bytes :=
  let rounds := w.size / 4 - 1
  let s0 := (xorNats (b.map fun x => x.toNat) (aesRoundKey w 0)).toArray
  let shift (s : Array Nat) := permute16 (fun i => (i + 4 * (i % 4)) % 16) (s.map fun x => sbox.getD x 0)
  let mid := (List.range (rounds - 1)).foldl (fun s r =>
    (xorNats (mixColumns [2, 3, 1, 1] (shift s)).toList (aesRoundKey w (r + 1))).toArray) s0
  (xorNats (shift mid).toList (aesRoundKey w rounds)).map byteOf

def aesBlockDec (w : Array (List Nat)) (b : Bytes) : Bytes :=
  let rounds := w.size / 4 - 1
  let s0 := (xorNats (b.map fun x => x.toNat) (aesRoundKey w rounds)).toArray
  let unshift (s : Array Nat) := (permute16 (fun i => (i + 16 - 4 * (i % 4)) % 16) s).map fun x => invSbox.getD x 0
  let mid := (List.range (rounds - 1)).foldl (fun s r =>
    mixColumns [14, 11, 13, 9] (xorNats (unshift s).toList (aesRoundKey w (rounds - 1 - r))).toArray) s0
  (xorNats (unshift mid).toList (aesRoundKey w 0)).map byteOf

def aesEnc (key b : Bytes) : Bytes := aesBlockEnc (aesExpand key) b
def aesDec (key b : Bytes) : Bytes := aesBlockDec (aesExpand key) b

/-! ## Modes -/

def ecbEnc (key m : Bytes) : Bytes := let w := aesExpand key; ((chunks 16 m).map (aesBlockEnc w)).flatten
def ecbDec (key m : Bytes) : Bytes := let w := aesExpand key; ((chunks 16 m).map (aesBlockDec w)).flatten

def cbcEnc (key iv m : Bytes) : Bytes :=
  let w := aesExpand key
  ((chunks 16 m).foldl (fun (acc : Bytes × List Bytes) b =>
    let c := aesBlockEnc w (xorBytes acc.1 b)
    (c, c :: acc.2)) (iv, [])).2.reverse.flatten

def cbcDec (key iv m : Bytes) : Bytes :=
  let w := aesExpand key
  ((chunks 16 m).foldl (fun (acc : Bytes × List Bytes) b =>
    (b, xorBytes acc.1 (aesBlockDec w b) :: acc.2)) (iv, [])).2.reverse.flatten

/-- Counter mode from a 16-byte counter block; the low `width` bits count. -/
def ctrFrom (width : Nat) (w : Array (List Nat)) (ctr m : Bytes) : Bytes :=
  let c := beNat ctr
  let high := c / 2 ^ width * 2 ^ width
  ((chunks 16 m).zipIdx.map fun bi =>
    xorBytes bi.1 (aesBlockEnc w (beBytes 16 (high + (c + bi.2) % 2 ^ width)))).flatten

def ctrCrypt (key iv m : Bytes) : Bytes := ctrFrom 128 (aesExpand key) iv m

/-- Doubling of an XTS tweak (little-endian in GF(2^128)). -/
def xtsDouble (t : Nat) : Nat := let d := 2 * t; if 2 ^ 128 ≤ d then (d - 2 ^ 128) ^^^ 0x87 else d

/-- XTS on one data unit of at least 16 bytes; `dec` decrypts; a last partial block steals ciphertext. -/
def xtsCrypt (dec : Bool) (key tweak m : Bytes) : Bytes :=
  let half := key.length / 2
  let w1 := aesExpand (key.take half)
  let t0 := leNat (aesEnc (key.drop half) tweak)
  let one (t : Nat) (b : Bytes) : Bytes :=
    let tb := leBytes 16 t
    xorBytes tb ((if dec then aesBlockDec w1 else aesBlockEnc w1) (xorBytes tb b))
  let full := m.length / 16
  let part := m.length % 16
  let whole := if part = 0 then full else full - 1
  let r := (chunks 16 (m.take (16 * whole))).foldl (fun (acc : Nat × List Bytes) b => (xtsDouble acc.1, one acc.1 b :: acc.2)) (t0, [])
  let head := r.2.reverse.flatten
  if part = 0 then head
  else
    let ta := r.1
    let tb := xtsDouble r.1
    let lastFull := (m.drop (16 * whole)).take 16
    let tail := m.drop (16 * full)
    let cc := one (if dec then tb else ta) lastFull
    head ++ one (if dec then ta else tb) (tail ++ cc.drop part) ++ cc.take part

/-- CMAC with AES. -/
def cmac (key m : Bytes) : Bytes :=
  let w := aesExpand key
  let dbl (x : Nat) : Nat := let d := 2 * x; if 2 ^ 128 ≤ d then (d - 2 ^ 128) ^^^ 0x87 else d
  let k1 := dbl (beNat (aesBlockEnc w (List.replicate 16 0)))
  let n := if m.isEmpty then 1 else ceilDiv m.length 16
  let last := m.drop (16 * (n - 1))
  let lastBlock := if last.length = 16 then xorBytes last (beBytes 16 k1)
    else xorBytes (fit 16 (last ++ [0x80])) (beBytes 16 (dbl k1))
  let x := (chunks 16 (m.take (16 * (n - 1)))).foldl (fun x b => aesBlockEnc w (xorBytes x b)) (List.replicate 16 (0 : Byte))
  aesBlockEnc w (xorBytes x lastBlock)

/-! ## GCM -/

/-- Multiplication in GCM's GF(2^128), bit 0 the most significant. -/
def ghashMul (x y : Nat) : Nat :=
  ((List.range 128).foldl (fun (acc : Nat × Nat) i =>
    (if x.testBit (127 - i) then acc.1 ^^^ acc.2 else acc.1,
     if acc.2 % 2 = 1 then (acc.2 / 2) ^^^ (0xE1 * 2 ^ 120) else acc.2 / 2)) (0, y)).1

def pad16 (b : Bytes) : Bytes := b ++ List.replicate ((16 - b.length % 16) % 16) 0

def ghash (h : Nat) (b : Bytes) : Nat := (chunks 16 b).foldl (fun y c => ghashMul (y ^^^ beNat c) h) 0

/-- GCM with a 12-byte nonce: ciphertext and 16-byte tag. -/
def gcmSeal (key nonce aad pt : Bytes) : Bytes × Bytes :=
  let w := aesExpand key
  let h := beNat (aesBlockEnc w (List.replicate 16 0))
  let ct := ctrFrom 32 w (nonce ++ beBytes 4 2) pt
  let s := ghash h (pad16 aad ++ pad16 ct ++ beBytes 8 (8 * aad.length) ++ beBytes 8 (8 * ct.length))
  (ct, xorBytes (beBytes 16 s) (aesBlockEnc w (nonce ++ beBytes 4 1)))

/-- GCM opening: the plaintext when the first `tag.length` bytes of the tag agree. -/
def gcmOpen (key nonce aad ct tag : Bytes) : Option Bytes :=
  let w := aesExpand key
  let h := beNat (aesBlockEnc w (List.replicate 16 0))
  let s := ghash h (pad16 aad ++ pad16 ct ++ beBytes 8 (8 * aad.length) ++ beBytes 8 (8 * ct.length))
  let want := xorBytes (beBytes 16 s) (aesBlockEnc w (nonce ++ beBytes 4 1))
  if want.take tag.length = tag then some (ctrFrom 32 w (nonce ++ beBytes 4 2) ct) else none

/-! ## Key wrap with padding -/

/-- The wrapping function W of SP 800-38F on a semiblock array, `n` passes. -/
def kwWrap (w : Array (List Nat)) (aiv : Bytes) (r : List Bytes) : Bytes :=
  let n := r.length
  let st := (List.range 6).foldl (fun (acc : Bytes × List Bytes) j =>
    let p := acc.2.zipIdx.foldl (fun (q : Bytes × List Bytes) ri =>
      let b := aesBlockEnc w (q.1 ++ ri.1)
      (xorBytes (b.take 8) (beBytes 8 (n * j + ri.2 + 1)), b.drop 8 :: q.2)) (acc.1, [])
    (p.1, p.2.reverse)) (aiv, r)
  st.1 ++ st.2.flatten

def kwUnwrap (w : Array (List Nat)) (c : Bytes) : Bytes × Bytes :=
  let r := chunks 8 (c.drop 8)
  let n := r.length
  let st := (List.range 6).foldl (fun (acc : Bytes × List Bytes) jj =>
    let j := 5 - jj
    let p := acc.2.reverse.zipIdx.foldl (fun (q : Bytes × List Bytes) ri =>
      let b := aesBlockDec w (xorBytes q.1 (beBytes 8 (n * j + (n - ri.2))) ++ ri.1)
      (b.take 8, b.drop 8 :: q.2)) (acc.1, [])
    (p.1, p.2)) (c.take 8, r)
  (st.1, st.2.flatten)

/-- KWP: AES key wrap with padding. -/
def kwpSeal (key m : Bytes) : Bytes :=
  let w := aesExpand key
  let aiv := [0xA6, 0x59, 0x59, 0xA6] ++ beBytes 4 m.length
  let p := m ++ List.replicate ((8 - m.length % 8) % 8) 0
  if p.length ≤ 8 then aesBlockEnc w (aiv ++ p) else kwWrap w aiv (chunks 8 p)

def kwpOpen (key c : Bytes) : Option Bytes :=
  let w := aesExpand key
  if c.length < 16 ∨ c.length % 8 ≠ 0 then none
  else
    let ap := if c.length = 16 then (let b := aesBlockDec w c; (b.take 8, b.drop 8)) else kwUnwrap w c
    let len := beNat (ap.1.drop 4)
    if ap.1.take 4 = [0xA6, 0x59, 0x59, 0xA6] ∧ len ≤ ap.2.length ∧ ap.2.length < len + 8 ∧ allZero (ap.2.drop len)
    then some (ap.2.take len) else none

/-! ## CTR_DRBG with AES-256 (R275) -/

/-- `n` bytes of AES output on the counter V, and the advanced counter. -/
def drbgBlocks (key v : Bytes) (n : Nat) : Bytes × Bytes :=
  let w := aesExpand key
  let c := beNat v
  let k := ceilDiv n 16
  ((((List.range k).map fun i => aesBlockEnc w (beBytes 16 ((c + i + 1) % 2 ^ 128))).flatten).take n,
   beBytes 16 ((c + k) % 2 ^ 128))

def drbgUpdate (d : Drbg) (data : Bytes) : Drbg :=
  let t := xorBytes (drbgBlocks d.key d.v 48).1 (fit 48 data)
  { d with key := t.take 32, v := t.drop 32 }

/-- The derivation function of NIST SP 800-90A on AES-256: 48 bytes from an input string. -/
def drbgDf (input : Bytes) : Bytes :=
  let w := aesExpand ((List.range 32).map byteOf)
  let raw := beBytes 4 input.length ++ beBytes 4 48 ++ input ++ [0x80]
  let m := fit (ceilDiv raw.length 16 * 16) raw
  let bcc (i : Nat) : Bytes := (chunks 16 (fit 16 (beBytes 4 i) ++ m)).foldl (fun c b => aesBlockEnc w (xorBytes c b)) (List.replicate 16 0)
  let t := bcc 0 ++ bcc 1 ++ bcc 2
  let k := aesExpand (t.take 32)
  let x1 := aesBlockEnc k (cut 32 16 t)
  let x2 := aesBlockEnc k x1
  x1 ++ x2 ++ aesBlockEnc k x2

/-- Instantiate or reseed from 48 bytes of seed material. -/
def drbgInit (entropy : Bytes) : Drbg := drbgUpdate ⟨List.replicate 32 0, List.replicate 16 0, true⟩ entropy
def drbgReseed (d : Drbg) (entropy : Bytes) : Drbg := drbgUpdate d entropy

/-- Generate `n` bytes. -/
def drbgGenerate (d : Drbg) (n : Nat) : Bytes × Drbg :=
  let o := drbgBlocks d.key d.v n
  (o.1, drbgUpdate { d with v := o.2 } [])

/-! ## ChaCha20-Poly1305 -/

def rotl32 (n x : Nat) : Nat := rotr 32 (32 - n) x

def chachaQuarter (s : Array Nat) (ia ib ic id : Nat) : Array Nat :=
  let st (s : Array Nat) (x y z r : Nat) : Array Nat :=
    let sx := (s.getD x 0 + s.getD y 0) % 2 ^ 32
    let s := s.set! x sx
    s.set! z (rotl32 r (s.getD z 0 ^^^ sx))
  st (st (st (st s ia ib id 16) ic id ib 12) ia ib id 8) ic id ib 7

def chachaBlock (key : Bytes) (counter : Nat) (nonce : Bytes) : Bytes :=
  let ws (b : Bytes) := (chunks 4 b).map leNat
  let s0 := ([0x61707865, 0x3320646E, 0x79622D32, 0x6B206574] ++ ws key ++ [counter % 2 ^ 32] ++ ws nonce).toArray
  let dbl (s : Array Nat) : Array Nat :=
    let s := (List.range 4).foldl (fun s i => chachaQuarter s i (i + 4) (i + 8) (i + 12)) s
    (List.range 4).foldl (fun s i => chachaQuarter s i ((i + 1) % 4 + 4) ((i + 2) % 4 + 8) ((i + 3) % 4 + 12)) s
  let s := (List.range 10).foldl (fun s _ => dbl s) s0
  ((List.range 16).map fun i => leBytes 4 (s.getD i 0 + s0.getD i 0)).flatten

def chachaCrypt (key : Bytes) (counter : Nat) (nonce m : Bytes) : Bytes :=
  ((chunks 64 m).zipIdx.map fun bi => xorBytes bi.1 (chachaBlock key (counter + bi.2) nonce)).flatten

def poly1305 (key m : Bytes) : Bytes :=
  let p := 2 ^ 130 - 5
  let r := leNat (key.take 16) &&& 0x0FFFFFFC0FFFFFFC0FFFFFFC0FFFFFFF
  let acc := (chunks 16 m).foldl (fun a b => (a + leNat b + 2 ^ (8 * b.length)) * r % p) 0
  leBytes 16 ((acc + leNat (key.drop 16)) % 2 ^ 128)

def chachaTag (key nonce aad ct : Bytes) : Bytes :=
  poly1305 ((chachaBlock key 0 nonce).take 32) (pad16 aad ++ pad16 ct ++ leBytes 8 aad.length ++ leBytes 8 ct.length)

def chachaSeal (key nonce aad pt : Bytes) : Bytes × Bytes :=
  let ct := chachaCrypt key 1 nonce pt
  (ct, chachaTag key nonce aad ct)

def chachaOpen (key nonce aad ct tag : Bytes) : Option Bytes :=
  if chachaTag key nonce aad ct = tag then some (chachaCrypt key 1 nonce ct) else none

/-! ## FF1 -/

/-- A numeral string as a number, most significant first. -/
def numRadix (radix : Nat) (x : List Nat) : Nat := x.foldl (fun a d => a * radix + d) 0

/-- `m` numerals of a number. -/
def strRadix (radix : Nat) : Nat → Nat → List Nat
  | 0, _ => []
  | m + 1, v => strRadix radix m (v / radix) ++ [v % radix]

/-- The length in bytes of `v` values of radix^v. -/
def ff1ByteLen (radix v : Nat) : Nat :=
  ((List.range 4096).find? fun b => decide (radix ^ v ≤ 256 ^ b)).getD 0

/-- FF1's round function: y of round i. -/
def ff1Y (w : Array (List Nat)) (radix n t : Nat) (tweak : Bytes) (i b num : Nat) : Nat :=
  let d := 4 * ceilDiv b 4 + 4
  let p := [1, 2, 1] ++ beBytes 3 radix ++ [10, byteOf (n / 2)] ++ beBytes 4 n ++ beBytes 4 t
  let q := tweak ++ List.replicate ((16 - (t + b + 1) % 16) % 16) 0 ++ [byteOf i] ++ beBytes b num
  let r := (chunks 16 (p ++ q)).foldl (fun x c => aesBlockEnc w (xorBytes x c)) (List.replicate 16 (0 : Byte))
  let s := r ++ ((List.range (ceilDiv d 16 - 1)).map fun j => aesBlockEnc w (xorBytes r (beBytes 16 (j + 1)))).flatten
  beNat (s.take d)

/-- FF1 on numerals; `dec` decrypts. -/
def ff1 (dec : Bool) (key tweak : Bytes) (radix : Nat) (x : List Nat) : List Nat :=
  let w := aesExpand key
  let n := x.length
  let u := n / 2
  let v := n - u
  let b := ff1ByteLen radix v
  let r := (List.range 10).foldl (fun (ab : List Nat × List Nat) ii =>
    let i := if dec then 9 - ii else ii
    let m := if i % 2 = 0 then u else v
    if dec then
      let y := ff1Y w radix n tweak.length tweak i b (numRadix radix ab.1)
      let c := (numRadix radix ab.2 + radix ^ m - y % radix ^ m) % radix ^ m
      (strRadix radix m c, ab.1)
    else
      let y := ff1Y w radix n tweak.length tweak i b (numRadix radix ab.2)
      let c := (numRadix radix ab.1 + y) % radix ^ m
      (ab.2, strRadix radix m c)) (x.take u, x.drop u)
  r.1 ++ r.2

/-! ## CRC-32C (reflected, inverted), over bytes -/

def crc32cByte (r b : Nat) : Nat :=
  (List.range 8).foldl (fun r _ => if r % 2 = 1 then (r / 2) ^^^ 0x82F63B78 else r / 2) (r ^^^ b)

def crc32c (bs : Bytes) : Nat := (bs.foldl (fun r b => crc32cByte r b.toNat) 0xFFFFFFFF) ^^^ 0xFFFFFFFF

end Sys2Proof.Machine
end

