-- ==== Sys2Proof/Machine/Limbs.lean ====
section
/-! DEFINITION. The redundant radix of the public-key lanes (Table 6.2, R138): limbs of 36 bits, addition without carries, normalisation, subtraction, and sums and differences modulo m formed with them. -/

namespace Sys2Proof.Machine

/-- An operand limb (Table 6.2): HEADROOM in bits 35 to 32, VALUE in bits 31 to 0. -/
abbrev Limb := BitVec 36

/-- HEADROOM of a limb: its carry into the next one. -/
def Limb.headroom (l : Limb) : Nat := l.toNat / 2 ^ 32

/-- A number of `w` normalised limbs, the lowest first. -/
def limbsOf : Nat → Nat → List Limb
  | 0, _ => []
  | w + 1, n => BitVec.ofNat 36 (n % 2 ^ 32) :: limbsOf w (n / 2 ^ 32)

/-- The value of a number in limbs: VALUE and HEADROOM in their places. -/
def limbsNat : List Limb → Nat
  | [] => 0
  | l :: r => l.toNat + 2 ^ 32 * limbsNat r

/-- Addition limb by limb, without carries. -/
def limbAdd (a b : List Limb) : List Limb := List.zipWith (· + ·) a b

/-- Normalisation in one pass from the lowest limb up; the last carry is a further limb. -/
def limbNormal : Nat → List Limb → List Limb
  | c, [] => [BitVec.ofNat 36 c]
  | c, l :: r => BitVec.ofNat 36 ((l.toNat + c) % 2 ^ 32) :: limbNormal ((l.toNat + c) / 2 ^ 32) r

/-- A sum of normalised numbers of `w` limbs; it is normalised before a 16th summand enters (R138). The count of summands that a limb holds goes with it. -/
def limbSum (w : Nat) : List (List Limb) → List Limb × Nat → List Limb
  | [], a => a.1
  | x :: r, a => if a.2 = 15 then limbSum w r (limbAdd ((limbNormal 0 a.1).take w) x, 2) else limbSum w r (limbAdd a.1 x, a.2 + 1)

/-- A multiple of the modulus spread over its limbs, so that no limb of it is below one of a normalised number (R138). -/
def limbSpread : Bool → List Limb → List Limb
  | _, [] => []
  | _, [t] => [t - 1]
  | low, l :: r => (l + BitVec.ofNat 36 (2 ^ 32 - b2n (!low))) :: limbSpread false r

/-- j in j × m: the smallest multiple above every number of `w` limbs. -/
def limbMultiple (w m : Nat) : Nat := 2 ^ (32 * w) / m + 1

/-- a − b as a + (j × m − b), in `w` limbs and one more. -/
def limbSub (w m : Nat) (a b : List Limb) : List Limb :=
  limbAdd a (List.zipWith (· - ·) (limbSpread true (limbsOf (w + 1) (limbMultiple w m * m))) b)

/-- A sum of residues modulo `m`, added in `w` limbs, normalised and reduced. -/
def fieldSum (w m : Nat) (l : List Nat) : Nat :=
  limbsNat (limbNormal 0 (limbSum (w + 1) (l.map (limbsOf (w + 1))) (limbsOf (w + 1) 0, 0))) % m

/-- A difference of residues modulo `m`, formed in `w` limbs, normalised and reduced. -/
def fieldSub (w m a b : Nat) : Nat := limbsNat (limbNormal 0 (limbSub w m (limbsOf (w + 1) a) (limbsOf (w + 1) b))) % m

end Sys2Proof.Machine
end

