-- ==== Sys2Proof/Machine/CryptoPk.lean ====
section
/-! DEFINITION. The public-key primitives that the spec names by their standards: ECDSA and ECC CDH on the P-curves (FIPS 186-5, SP 800-56A), Ed25519 (RFC 8032), X25519 (RFC 7748), RSA (RFC 8017); with the blinding of R147, whose random bytes each operation takes as `bl` (none: unblinded). Points, sums and differences are formed in limbs (R138). PRESUMED from those standards (assumption log 8). -/

namespace Sys2Proof.Machine

/-! ## Modular arithmetic -/

/-- b^e mod m, by squaring from the top bit. -/
def powMod (b e m : Nat) : Nat :=
  (List.range (Nat.log2 e + 1)).foldl (fun acc i =>
    let sq := acc * acc % m
    if e.testBit (Nat.log2 e - i) then sq * b % m else sq) (1 % m)

/-- Extended Euclid on `fuel` steps: the coefficient of `a` modulo `m`. -/
def invLoop (m : Nat) : Nat → Nat → Nat → Nat → Nat → Nat
  | 0, _, _, _, x1 => x1
  | fuel + 1, r0, r1, x0, x1 =>
    if r1 = 0 then x0
    else invLoop m fuel r1 (r0 % r1) x1 ((x0 + (m - r0 / r1 * x1 % m)) % m)

/-- The inverse of `a` modulo `m`; 0 for 0. -/
def invMod (a m : Nat) : Nat := if a % m = 0 then 0 else invLoop m (2 * (Nat.log2 m + 2)) m (a % m) 0 1

/-- b^e mod m in 4-bit windows over a fixed count of `bits` bits: every window runs four squarings and one multiplication (Table 6.6). -/
def powWindows (bits b e m : Nat) : Nat :=
  let nw := ceilDiv bits 4
  (List.range nw).foldl (fun acc i =>
    let sq (x : Nat) : Nat := x * x % m
    sq (sq (sq (sq acc))) * powMod b (e / 16 ^ (nw - 1 - i) % 16) m % m) (1 % m)

/-- (a − b) mod m. -/
def subMod (a b m : Nat) : Nat := (a % m + (m - b % m)) % m

/-! ## P-curves -/

/-- A short Weierstrass curve with a = −3, its base point and order, and the bytes of a coordinate. -/
structure Curve where
  p : Nat
  b : Nat
  gx : Nat
  gy : Nat
  n : Nat
  bytes : Nat
  nbits : Nat
  deriving DecidableEq, Repr

def p256 : Curve :=
  { p := 0xFFFFFFFF00000001000000000000000000000000FFFFFFFFFFFFFFFFFFFFFFFF
    b := 0x5AC635D8AA3A93E7B3EBBD55769886BC651D06B0CC53B0F63BCE3C3E27D2604B
    gx := 0x6B17D1F2E12C4247F8BCE6E563A440F277037D812DEB33A0F4A13945D898C296
    gy := 0x4FE342E2FE1A7F9B8EE7EB4A7C0F9E162BCE33576B315ECECBB6406837BF51F5
    n := 0xFFFFFFFF00000000FFFFFFFFFFFFFFFFBCE6FAADA7179E84F3B9CAC2FC632551
    bytes := 32, nbits := 256 }

def p384 : Curve :=
  { p := 0xFFFFFFFFFFFFFFFFFFFFFFFFFFFFFFFFFFFFFFFFFFFFFFFFFFFFFFFFFFFFFFFEFFFFFFFF0000000000000000FFFFFFFF
    b := 0xB3312FA7E23EE7E4988E056BE3F82D19181D9C6EFE8141120314088F5013875AC656398D8A2ED19D2A85C8EDD3EC2AEF
    gx := 0xAA87CA22BE8B05378EB1C71EF320AD746E1D3B628BA79B9859F741E082542A385502F25DBF55296C3A545E3872760AB7
    gy := 0x3617DE4A96262C6F5D9E98BF9292DC29F8F41DBD289A147CE9DA3113B5F0B8C00A60B1CE1D7E819D7A431D7C90EA0E5F
    n := 0xFFFFFFFFFFFFFFFFFFFFFFFFFFFFFFFFFFFFFFFFFFFFFFFFC7634D81F4372DDF581A0DB248B0A77AECEC196ACCC52973
    bytes := 48, nbits := 384 }

def p521 : Curve :=
  { p := 2 ^ 521 - 1
    b := 0x0051953EB9618E1C9A1F929A21A0B68540EEA2DA725B99B315F3B8B489918EF109E156193951EC7E937B1652C0BD3BB1BF073573DF883D2C34F1EF451FD46B503F00
    gx := 0x00C6858E06B70404E9CD9E3ECB662395B4429C648139053FB521F828AF606B4D3DBAA14B5E77EFE75928FE1DC127A2FFA8DE3348B3C1856A429BF97E7E31C2E5BD66
    gy := 0x011839296A789A3BC0045C8A5FB42C7D1BD998F54449579B446817AFBD17273E662C97EE72995EF42640C550B9013FAD0761353C7086A272C24088BE94769FD16650
    n := 0x1FFFFFFFFFFFFFFFFFFFFFFFFFFFFFFFFFFFFFFFFFFFFFFFFFFFFFFFFFFFFFFFFFA51868783BF2F966B7FCC0148F709A5D03BB5C9B8899C47AEBB6FB71E91386409
    bytes := 66, nbits := 521 }

/-- Curve of an algorithm code 0x01 to 0x03 (Table 4.6). -/
def curveOf (alg : Nat) : Curve := if alg = 1 then p256 else if alg = 2 then p384 else p521

/-- A point in Jacobian coordinates; Z = 0 for the point at infinity. -/
abbrev Jac := Nat × Nat × Nat

/-- Limbs of an operand (Table 6.1). -/
def Curve.limbs (c : Curve) : Nat := ceilDiv c.nbits 32

/-- Sums, differences and products modulo p, the first two in limbs (R138). -/
def Curve.sum (c : Curve) (l : List Nat) : Nat := fieldSum c.limbs c.p l
def Curve.sub (c : Curve) (a b : Nat) : Nat := fieldSub c.limbs c.p a b
def Curve.prod (c : Curve) (a b : Nat) : Nat := a * b % c.p

def Curve.dbl (c : Curve) (q : Jac) : Jac :=
  let (x, y, z) := q
  if z = 0 ∨ y = 0 then (1, 1, 0)
  else
    let z2 := c.prod z z
    let y2 := c.prod y y
    let xy := c.prod x y2
    let s := c.sum [xy, xy, xy, xy]
    let t := c.prod (c.sub x z2) (c.sum [x, z2])
    let m := c.sum [t, t, t]
    let x' := c.sub (c.prod m m) (c.sum [s, s])
    let y4 := c.prod y2 y2
    let yz := c.prod y z
    (x', c.sub (c.prod m (c.sub s x')) (c.sum [y4, y4, y4, y4, y4, y4, y4, y4]), c.sum [yz, yz])

def Curve.add (c : Curve) (q r : Jac) : Jac :=
  let (x1, y1, z1) := q
  let (x2, y2, z2) := r
  if z1 = 0 then r else if z2 = 0 then q
  else
    let z1z := c.prod z1 z1
    let z2z := c.prod z2 z2
    let u1 := c.prod x1 z2z
    let u2 := c.prod x2 z1z
    let s1 := c.prod (c.prod y1 z2) z2z
    let s2 := c.prod (c.prod y2 z1) z1z
    if u1 = u2 then (if s1 = s2 then c.dbl q else (1, 1, 0))
    else
      let h := c.sub u2 u1
      let r := c.sub s2 s1
      let h2 := c.prod h h
      let h3 := c.prod h h2
      let v := c.prod u1 h2
      let x3 := c.sub (c.prod r r) (c.sum [h3, v, v])
      (x3, c.sub (c.prod r (c.sub v x3)) (c.prod s1 h3), c.prod (c.prod z1 z2) h)

/-- The i-th random Z that `n` bytes each of `bl` give modulo p: never 0. -/
def randomZ (p n : Nat) (bl : Bytes) (i : Nat) : Nat := beNat (cut (i * n) n bl) % (p - 1) + 1

/-- Coordinates multiplied by Z: the same point (Table 6.6). -/
def Curve.randomise (c : Curve) (z : Nat) (q : Jac) : Jac :=
  let z2 := c.prod z z
  (c.prod q.1 z2, c.prod q.2.1 (c.prod z2 z), c.prod q.2.2 z)

/-- k × Q over a fixed count of `n` steps, each a doubling and an addition; the coordinates are randomised at the start and after each 64 steps. -/
def Curve.ladder (c : Curve) (bl : Bytes) (n k : Nat) (q : Jac) : Jac :=
  let z := randomZ c.p c.bytes bl
  let q := c.randomise (z 0) q
  (List.range n).foldl (fun acc i =>
    let acc := if i % 64 = 0 ∧ i ≠ 0 then c.randomise (z (i / 64)) acc else acc
    let d := c.dbl acc
    let a := c.add d q
    if k.testBit (n - 1 - i) then a else d) (1, 1, 0)

/-- k × Q for a secret k: blinded as k + r × n with r of 64 bits, recoded to bitlen(n) + 64 steps (Table 6.6). -/
def Curve.mulSecret (c : Curve) (bl : Bytes) (k : Nat) (q : Jac) : Jac :=
  c.ladder (bl.drop 8) (c.nbits + 64) (k + beNat (fit 8 bl) * c.n) q

/-- k × Q where nothing is secret: the coordinates alone are randomised. -/
def Curve.mul (c : Curve) (bl : Bytes) (k : Nat) (q : Jac) : Jac := c.ladder bl c.nbits k q

/-- Random bytes of one blinded multiplication. -/
def Curve.mulLen (c : Curve) : Nat := 8 + ((c.nbits + 64) / 64 + 1) * c.bytes

/-- The base point. -/
def Curve.base (c : Curve) : Jac := (c.gx, c.gy, 1)

def Curve.affine (c : Curve) (q : Jac) : Option (Nat × Nat) :=
  let (x, y, z) := q
  if z = 0 then none
  else
    let i := invMod z c.p
    some (x * i * i % c.p, y * i % c.p * i % c.p * i % c.p)

/-- The SEC 1 uncompressed encoding of k × G. -/
def Curve.publicOf (c : Curve) (bl : Bytes) (d : Nat) : Bytes :=
  match c.affine (c.mulSecret bl d c.base) with
  | some xy => [4] ++ beBytes c.bytes xy.1 ++ beBytes c.bytes xy.2
  | none => []

/-- A public point from its encoding, checked as Table 6.8 says. -/
def Curve.decode (c : Curve) (b : Bytes) : Option Jac :=
  let x := beNat ((b.drop 1).take c.bytes)
  let y := beNat ((b.drop (1 + c.bytes)).take c.bytes)
  if b.length = 1 + 2 * c.bytes ∧ b.head? = some 4 ∧ x < c.p ∧ y < c.p ∧
      y * y % c.p = (x * x * x + (c.p - 3) * x + c.b) % c.p
  then some (x, y, 1) else none

/-- The digest as an integer: its leftmost bits, as many as n has (R139). -/
def Curve.digestInt (c : Curve) (digest : Bytes) : Nat :=
  beNat digest / 2 ^ (8 * digest.length - c.nbits)

/-- A secret from extra random bits: (c mod (n − 1)) + 1 (R139). -/
def Curve.secretOf (c : Curve) (draw : Bytes) : Nat :=
  (beNat draw % 2 ^ (c.nbits + 64)) % (c.n - 1) + 1

/-- Bytes of bitlen(n) + 64 random bits. -/
def Curve.drawLen (c : Curve) : Nat := ceilDiv (c.nbits + 64) 8

/-- r and s under one secret k. -/
def Curve.signWith (c : Curve) (bl : Bytes) (d k : Nat) (digest : Bytes) : Nat × Nat :=
  match c.affine (c.mulSecret bl k c.base) with
  | none => (0, 0)
  | some xy =>
    let r := xy.1 % c.n
    (r, invMod k c.n * ((c.digestInt digest + r * d) % c.n) % c.n)

/-- r ‖ s under the secrets of a list in turn: one that gives r = 0 or s = 0 is passed over (FIPS 186-5). -/
def Curve.sign (c : Curve) (bl : Bytes) (d : Nat) (digest : Bytes) : List Nat → Bytes
  | [] => []
  | k :: ks =>
    let rs := c.signWith bl d k digest
    if (rs.1 = 0 ∨ rs.2 = 0) ∧ ks ≠ [] then c.sign bl d digest ks else beBytes c.bytes rs.1 ++ beBytes c.bytes rs.2

/-- The secrets k of a signature: that of its draw, then, for k after k that gives no signature, those that the draw's expansion by SHAKE256 gives (R139; assumption log 27). -/
def Curve.secrets (c : Curve) (draw : Bytes) : List Nat :=
  c.secretOf draw :: (List.range 8).map fun i => c.secretOf (shake256 (draw ++ [byteOf (i + 1)]) c.drawLen)

def Curve.verify (c : Curve) (bl : Bytes) (q : Jac) (digest sig : Bytes) : Bool :=
  let r := beNat (sig.take c.bytes)
  let s := beNat (sig.drop c.bytes)
  if sig.length ≠ 2 * c.bytes ∨ r = 0 ∨ c.n ≤ r ∨ s = 0 ∨ c.n ≤ s then false
  else
    let w := invMod s c.n
    let z := c.digestInt digest
    let u1 := z * w % c.n
    let u2 := r * w % c.n
    let a := c.mul bl u1 c.base
    match c.affine (c.add a (c.mul (bl.drop c.mulLen) u2 q)) with
    | none => false
    | some xy => xy.1 % c.n == r

/-- ECC CDH: the x-coordinate (R141). -/
def Curve.cdh (c : Curve) (bl : Bytes) (d : Nat) (q : Jac) : Bytes :=
  match c.affine (c.mulSecret bl d q) with
  | some xy => beBytes c.bytes xy.1
  | none => List.replicate c.bytes 0

/-! ## Edwards and Montgomery curves of 25519 -/

def q25519 : Nat := 2 ^ 255 - 19
def l25519 : Nat := 2 ^ 252 + 27742317777372353535851937790883648493
def d25519 : Nat := subMod 0 (121665 * invMod 121666 q25519) q25519
def sqrtM1 : Nat := powMod 2 ((q25519 - 1) / 4) q25519

abbrev Ext := Nat × Nat × Nat × Nat

/-- Sums, differences and products modulo 2^255 − 19, the first two in 8 limbs (R138). -/
def edSum (l : List Nat) : Nat := fieldSum 8 q25519 l
def edSub (a b : Nat) : Nat := fieldSub 8 q25519 a b
def edProd (a b : Nat) : Nat := a * b % q25519

def edAdd (a b : Ext) : Ext :=
  let (x1, y1, z1, t1) := a
  let (x2, y2, z2, t2) := b
  let aa := edProd (edSub y1 x1) (edSub y2 x2)
  let bb := edProd (edSum [y1, x1]) (edSum [y2, x2])
  let tt := edProd (edProd t1 t2) d25519
  let cc := edSum [tt, tt]
  let zz := edProd z1 z2
  let dd := edSum [zz, zz]
  let e := edSub bb aa
  let f := edSub dd cc
  let g := edSum [dd, cc]
  let h := edSum [bb, aa]
  (edProd e f, edProd g h, edProd f g, edProd e h)

/-- Extended coordinates multiplied by Z: the same point. -/
def edRandomise (z : Nat) (a : Ext) : Ext := (edProd a.1 z, edProd a.2.1 z, edProd a.2.2.1 z, edProd a.2.2.2 z)

/-- k × A over a fixed count of `n` steps, randomised at the start and after each 64. -/
def edLadder (bl : Bytes) (n k : Nat) (a : Ext) : Ext :=
  let z := randomZ q25519 32 bl
  let a := edRandomise (z 0) a
  (List.range n).foldl (fun acc i =>
    let acc := if i % 64 = 0 ∧ i ≠ 0 then edRandomise (z (i / 64)) acc else acc
    let d := edAdd acc acc
    let x := edAdd d a
    if k.testBit (n - 1 - i) then x else d) (0, 1, 1, 0)

/-- k × A where nothing is secret. -/
def edMul (bl : Bytes) (k : Nat) (a : Ext) : Ext := edLadder bl 256 k a

/-- k × A for a secret k, of order L: blinded and recoded to bitlen(L) + 64 steps (Table 6.6). -/
def edMulSecret (bl : Bytes) (k : Nat) (a : Ext) : Ext := edLadder (bl.drop 8) 317 (k + beNat (fit 8 bl) * l25519) a

/-- Random bytes of one blinded multiplication on these curves. -/
def edMulLen : Nat := 8 + 6 * 32

def edEncode (a : Ext) : Bytes :=
  let (x, y, z, _) := a
  let i := invMod z q25519
  leBytes 32 (y * i % q25519 + (x * i % q25519) % 2 * 2 ^ 255)

/-- Decode a point (RFC 8032): none for y ≥ p, x = 0 with the sign bit, or no square root. -/
def edDecode (b : Bytes) : Option Ext :=
  let v := leNat b
  let sign := v / 2 ^ 255
  let y := v % 2 ^ 255
  let p := q25519
  if b.length ≠ 32 ∨ p ≤ y then none
  else
    let u := subMod (y * y) 1 p
    let w := (d25519 * (y * y % p) + 1) % p
    let x := u * powMod w 3 p % p * powMod (u * powMod w 7 p % p) ((p - 5) / 8) p % p
    let vx2 := w * x % p * x % p
    let x := if vx2 = u then some x else if vx2 = subMod 0 u p then some (x * sqrtM1 % p) else none
    match x with
    | none => none
    | some x =>
      if x = 0 ∧ sign = 1 then none
      else
        let x := if x % 2 = sign then x else p - x
        some (x, y, 1, x * y % p)

def edBaseY : Nat := 4 * invMod 5 q25519 % q25519
def edBase : Ext := (edDecode (leBytes 32 edBaseY)).getD (0, 1, 1, 0)

/-- The point is of order dividing 8. -/
def edSmall (a : Ext) : Bool :=
  let (x, y, z, _) := edMul [] 8 a
  x % q25519 == 0 && y % q25519 == z % q25519

/-- Secret scalar and prefix of a seed. -/
def edSecret (seed : Bytes) : Nat × Bytes :=
  let h := sha512 seed
  let a := leNat (h.take 32)
  (a % 2 ^ 254 / 8 * 8 + 2 ^ 254, h.drop 32)

def edPublic (bl seed : Bytes) : Bytes := edEncode (edMulSecret bl (edSecret seed).1 edBase)

def edSign (bl seed msg : Bytes) : Bytes :=
  let a := edSecret seed
  let pub := edPublic bl seed
  let r := leNat (sha512 (a.2 ++ msg)) % l25519
  let rb := edEncode (edMulSecret (bl.drop edMulLen) r edBase)
  let k := leNat (sha512 (rb ++ pub ++ msg)) % l25519
  rb ++ leBytes 32 ((r + k * a.1) % l25519)

/-- The cofactored check [8][S]B = [8]R + [8][k]A (R140). -/
def edVerify (bl : Bytes) (a : Ext) (pub msg sig : Bytes) : Bool :=
  let s := leNat (sig.drop 32)
  match edDecode (sig.take 32) with
  | none => false
  | some r =>
    if sig.length ≠ 64 ∨ l25519 ≤ s then false
    else
      let k := leNat (sha512 (sig.take 32 ++ pub ++ msg)) % l25519
      let left := edMul [] 8 (edMul bl s edBase)
      let right := edMul [] 8 (edAdd r (edMul (bl.drop edMulLen) k a))
      edEncode left == edEncode right

/-- One ladder step: doubles a, adds a and b, whose difference is u. -/
def xStep (u : Nat) (a b : Nat × Nat) : (Nat × Nat) × (Nat × Nat) :=
  let s := edSum [a.1, a.2]
  let d := edSub a.1 a.2
  let aa := edProd s s
  let bb := edProd d d
  let e := edSub aa bb
  let da := edProd (edSub b.1 b.2) s
  let cb := edProd (edSum [b.1, b.2]) d
  let x := edSum [da, cb]
  let z := edSub da cb
  ((edProd aa bb, edProd e (edSum [aa, edProd 121665 e])), (edProd x x, edProd u (edProd z z)))

/-- The Montgomery ladder: projective u of k × (u : 1) over `bits` bits of k, x and z multiplied by a random Z at the start and after each 64 steps. -/
def x25519Ladder (bl : Bytes) (bits k u : Nat) : Nat × Nat :=
  let z := randomZ q25519 32 bl
  let both (n : Nat) (a : (Nat × Nat) × (Nat × Nat)) : (Nat × Nat) × (Nat × Nat) :=
    ((edProd a.1.1 n, edProd a.1.2 n), (edProd a.2.1 n, edProd a.2.2 n))
  let step := xStep u
  let st := (List.range bits).foldl (fun (acc : (Nat × Nat) × (Nat × Nat)) i =>
    let acc := if i % 64 = 0 then both (z (i / 64)) acc else acc
    if k.testBit (bits - 1 - i) then
      let r := step acc.2 acc.1
      (r.2, r.1)
    else step acc.1 acc.2) ((1, 0), (u % q25519, 1))
  st.1

def x25519Clamp (k : Bytes) : Nat := let v := leNat k; v % 2 ^ 254 / 8 * 8 + 2 ^ 254

/-- The u-coordinate of the clamped scalar times u: blinded by multiples of 8 × L, which every point of the curve has for order, over bitlen(8 × L) + 64 steps (Table 6.6; assumption log 82). -/
def x25519 (bl k : Bytes) (u : Nat) : Bytes :=
  let r := x25519Ladder (bl.drop 8) 320 (x25519Clamp k + beNat (fit 8 bl) * (8 * l25519)) u
  leBytes 32 (r.1 * invMod r.2 q25519 % q25519)

def x25519Public (bl k : Bytes) : Bytes := x25519 bl k 9

/-- The conditions of Table 6.8 on a peer u-coordinate: below p, on the curve and not its twist, not of order dividing 8. -/
def x25519PeerOk (u : Nat) : Bool :=
  let p := q25519
  let rhs := (u * u % p * u + 486662 * (u * u % p) + u) % p
  decide (u < p) && (rhs == 0 || powMod rhs ((p - 1) / 2) p == 1) && !((x25519Ladder [] 4 8 u).2 % p == 0)

/-! ## RSA -/

/-- An RSA private key: p ‖ q ‖ dp ‖ dq ‖ qinv, each `h` bytes (Table 6.4). -/
structure RsaKey where
  h : Nat
  p : Nat
  q : Nat
  dp : Nat
  dq : Nat
  qinv : Nat
  deriving DecidableEq, Repr

def rsaKeyOf (b : Bytes) : RsaKey :=
  let h := b.length / 5
  let f (i : Nat) := beNat ((b.drop (i * h)).take h)
  ⟨h, f 0, f 1, f 2, f 3, f 4⟩

def RsaKey.n (k : RsaKey) : Nat := k.p * k.q
def RsaKey.encode (k : RsaKey) : Bytes :=
  beBytes k.h k.p ++ beBytes k.h k.q ++ beBytes k.h k.dp ++ beBytes k.h k.dq ++ beBytes k.h k.qinv

def rsaE : Nat := 65537

/-- The private operation by CRT under the blinding of Table 6.6: exponents dp + r_p (p − 1) and dq + r_q (q − 1) in windows over bitlen(p) + 64 bits, and the base x v^e with the result times v^−1 (a v without an inverse leaves the base as it is). -/
def RsaKey.priv (k : RsaKey) (bl : Bytes) (x : Nat) : Nat :=
  let v := beNat (cut 16 (2 * k.h) bl) % (k.n - 1) + 1
  let vi := invMod v k.n
  let v := if v * vi % k.n = 1 then (v, vi) else (1, 1)
  let x := x * powMod v.1 rsaE k.n % k.n
  let part (m d r : Nat) : Nat := powWindows (Nat.log2 m + 1 + 64) x (d + r * (m - 1)) m
  let m1 := part k.p k.dp (beNat (fit 8 bl))
  let m2 := part k.q k.dq (beNat (cut 8 8 bl))
  (m2 + k.q * (k.qinv * fieldSub (ceilDiv (8 * k.h) 32) k.p m1 (m2 % k.p) % k.p)) * v.2 % k.n

/-- Random bytes of a blinded private operation with primes of `h` bytes. -/
def rsaBlindLen (h : Nat) : Nat := 16 + 2 * h

def rsaPub (n x : Nat) : Nat := powMod x rsaE n

/-- Import checks of Table 6.4 for `bits`-bit RSA. -/
def RsaKey.ok (k : RsaKey) (bits : Nat) : Bool :=
  decide (k.q < k.p) && decide (Nat.log2 (k.p * k.q) + 1 = bits) && decide (k.dp ≠ 0) && decide (k.dq ≠ 0) &&
  decide (rsaE * k.dp % (k.p - 1) = 1) && decide (rsaE * k.dq % (k.q - 1) = 1) && decide (k.qinv * k.q % k.p = 1)

/-- Hash by digest length: 32 SHA-256, 48 SHA-384, 64 SHA-512 (R95). -/
def shaByLen (n : Nat) (m : Bytes) : Bytes := if n = 32 then sha256 m else if n = 48 then sha384 m else sha512 m

def mgf1 (hlen : Nat) (seed : Bytes) (n : Nat) : Bytes :=
  (((List.range (ceilDiv n hlen)).map fun i => shaByLen hlen (seed ++ beBytes 4 i)).flatten).take n

/-- EMSA-PSS encoding with a salt as long as the digest; modulus of k bytes, k × 8 bits. -/
def pssEncode (k : Nat) (digest salt : Bytes) : Bytes :=
  let hl := digest.length
  let h := shaByLen hl (List.replicate 8 0 ++ digest ++ salt)
  let db := List.replicate (k - 2 * hl - 2) 0 ++ [1] ++ salt
  let masked := xorBytes db (mgf1 hl h (k - hl - 1))
  (match masked with | x :: r => (x &&& 0x7F) :: r | [] => []) ++ h ++ [0xBC]

def pssVerify (k : Nat) (digest em : Bytes) : Bool :=
  let hl := digest.length
  let masked := em.take (k - hl - 1)
  let h := (em.drop (k - hl - 1)).take hl
  let db := xorBytes masked (mgf1 hl h (k - hl - 1))
  let db := match db with | x :: r => (x &&& 0x7F) :: r | [] => []
  let salt := db.drop (k - 2 * hl - 1)
  decide (em.length = k) && em.getLast? == some 0xBC && (masked.headD 0).toNat < 128 &&
    db.take (k - 2 * hl - 1) == List.replicate (k - 2 * hl - 2) 0 ++ [1] &&
    h == shaByLen hl (List.replicate 8 0 ++ digest ++ salt)

/-- DigestInfo prefix of SHA-256, SHA-384, SHA-512. -/
def digestInfo (digest : Bytes) : Bytes :=
  let hl := digest.length
  let oid : Byte := if hl = 32 then 1 else if hl = 48 then 2 else 3
  [0x30, byteOf (17 + hl), 0x30, 0x0D, 0x06, 0x09, 0x60, 0x86, 0x48, 0x01, 0x65, 0x03, 0x04, 0x02, oid, 0x05, 0x00,
   0x04, byteOf hl] ++ digest

def pkcs1Encode (k : Nat) (digest : Bytes) : Bytes :=
  let t := digestInfo digest
  [0, 1] ++ List.replicate (k - t.length - 3) 0xFF ++ [0] ++ t

def oaepEncode (k : Nat) (label seed msg : Bytes) : Bytes :=
  let db := sha256 label ++ List.replicate (k - msg.length - 66) 0 ++ [1] ++ msg
  let mdb := xorBytes db (mgf1 32 seed (k - 33))
  [0] ++ xorBytes seed (mgf1 32 mdb 32) ++ mdb

def oaepDecode (label em : Bytes) : Option Bytes :=
  let k := em.length
  let mdb := em.drop 33
  let seed := xorBytes ((em.drop 1).take 32) (mgf1 32 mdb 32)
  let db := xorBytes mdb (mgf1 32 seed (k - 33))
  let rest := (db.drop 32).dropWhile fun b => b == 0
  if em.head? = some 0 ∧ db.take 32 = sha256 label ∧ rest.head? = some 1 then some (rest.drop 1) else none

/-- `rounds` Miller–Rabin rounds on an odd number, bases drawn from the generator. -/
def millerRabin (n : Nat) : Nat → Drbg → Bool × Drbg
  | 0, d => (true, d)
  | rounds + 1, d =>
    let o := drbgGenerate d (Nat.log2 n / 8 + 1)
    let a := beNat o.1 % (n - 3) + 2
    let e := (List.range (Nat.log2 n + 1)).foldl (fun e _ => if e % 2 = 0 then e / 2 else e) (n - 1)
    let x := powMod a e n
    let chain := (List.range (Nat.log2 n + 1)).foldl (fun (acc : Nat × Bool) _ =>
      (acc.1 * acc.1 % n, acc.2 || acc.1 == n - 1)) (x, false)
    if x = 1 ∨ chain.2 then millerRabin n rounds o.2 else (false, o.2)

/-- Small primes that the sieve of a round divides by. -/
def sievePrimes : List Nat := [3, 5, 7, 11, 13, 17, 19, 23, 29, 31, 37, 41, 43, 47, 53, 59, 61, 67, 71, 73, 79, 83, 89, 97, 101, 103, 107, 109, 113]

/-- Miller–Rabin rounds of FIPS 186-5 Table B.1. -/
def rsaRounds (bits : Nat) : Nat := if bits = 2048 then 5 else 4

/-- A candidate of `h` bits passes the conditions of FIPS 186-5 A.1.3 and the sieve. -/
def rsaGood (h : Nat) (first : Option Nat) (v : Nat) : Bool :=
  decide (2 ^ (2 * h - 1) ≤ v * v) && Nat.gcd (v - 1) rsaE == 1 && sievePrimes.all (fun q => v % q != 0) &&
    first.all fun a => decide (2 ^ (h - 100) < (if a < v then v - a else a - v))

/-- The key of two primes (Table 6.3): p > q. -/
def rsaOf (h a b : Nat) : RsaKey :=
  let p := max a b
  let q := min a b
  ⟨h / 8, p, q, invMod rsaE (p - 1), invMod rsaE (q - 1), invMod q p⟩

/-- One round of an RSA key generation (R146): one candidate, sieved, then Miller–Rabin rounds; the key once both primes are found. A search never runs out of candidates (R143). -/
def rsaRound (bits : Nat) (s : RsaSearch) : RsaSearch :=
  let h := bits / 2
  let o := drbgGenerate s.gen (h / 8)
  let v := beNat o.1 / 2 * 2 + 1
  if rsaGood h s.first v then
    let r := millerRabin v (rsaRounds bits) o.2
    if r.1 then
      match s.first with
      | none => { s with gen := r.2, first := some v }
      | some a => { s with gen := r.2, key := some (rsaOf h a v).encode }
    else { s with gen := r.2 }
  else { s with gen := o.2 }

end Sys2Proof.Machine
end

