-- ==== Sys2Proof/Machine/CryptoLattice.lean ====
section
/-! DEFINITION. The lattice schemes that R164 names by their standards: ML-KEM (FIPS 203) and ML-DSA (FIPS 204), keys held as 32-byte seeds (R165); secret polynomials in two shares and butterflies in a permuted order (R172). PRESUMED from those standards (assumption log 8). -/

namespace Sys2Proof.Machine

/-- A polynomial: 256 coefficients, each below the modulus. -/
abbrev Poly := List Nat

/-! ## Transforms -/

/-- `n` with its low `w` bits in reverse order. -/
def bitRev : Nat → Nat → Nat
  | 0, _ => 0
  | w + 1, n => (n % 2) * 2 ^ w + bitRev w (n / 2)

/-- What a job's lattice operation takes from the blinding stream (R172): the seed of its shares (none: the second share is 0), and the order of the 128 butterflies of a layer. -/
structure Mask where
  seed : Bytes
  order : List Nat

/-- The order that the bytes of a seed give: each names, among the butterflies left, the next. -/
def orderOf : Bytes → List Nat → List Nat
  | _, [] => []
  | [], l => l
  | b :: r, l =>
    let i := b.toNat % l.length
    l.getD i 0 :: orderOf r (l.eraseIdx i)

/-- The mask of blinding bytes: 32 for the shares, 32 for the order. -/
def maskOfBytes (bl : Bytes) : Mask :=
  ⟨bl.take 32, orderOf (if bl.drop 32 = [] then [] else shake256 (bl.drop 32) 128) (List.range 128)⟩

/-- Bytes of a mask. -/
def maskLen : Nat := 64

/-- One butterfly of layer `l`: its halves' places, its node. -/
def butterfly (l b : Nat) : Nat × Nat × Nat :=
  let h := 128 / 2 ^ l
  let j := b / h * (2 * h) + b % h
  (j, j + h, 2 ^ l + b / h)

/-- Forward transform of `d` layers, `z` the twiddle factors by node; the butterflies of each layer run in the mask's order. -/
def nttBy (q : Nat) (z : Array Nat) (d : Nat) (order : List Nat) (p : Poly) : Poly :=
  ((List.range d).foldl (fun a l => order.foldl (fun (a : Array Nat) b =>
    let (i, j, k) := butterfly l b
    let t := z.getD k 0 * a.getD j 0 % q
    let u := a.getD i 0
    (a.set! i ((u + t) % q)).set! j ((u + (q - t)) % q)) a) p.toArray).toList

/-- Inverse transform without its final scaling, `zi` the inverse twiddle factors. -/
def inttBy (q : Nat) (zi : Array Nat) (d : Nat) (order : List Nat) (p : Poly) : Poly :=
  ((List.range d).foldl (fun a l => order.foldl (fun (a : Array Nat) b =>
    let (i, j, k) := butterfly (d - 1 - l) b
    let u := a.getD i 0
    let v := a.getD j 0
    (a.set! i ((u + v) % q)).set! j (zi.getD k 0 * ((u + (q - v)) % q) % q)) a) p.toArray).toList

def polyAdd (q : Nat) (a b : Poly) : Poly := List.zipWith (fun x y => (x + y) % q) a b
def polySub (q : Nat) (a b : Poly) : Poly := List.zipWith (fun x y => (x + (q - y)) % q) a b

/-! ## Shares (R172) -/

/-- A secret polynomial in two additive shares mod q. -/
abbrev Shared := Poly × Poly

/-- The `i`-th random share that a mask gives. -/
def Mask.poly (m : Mask) (q i : Nat) : Poly :=
  if m.seed = [] then List.replicate 256 0
  else
    let b := shake256 (m.seed ++ leBytes 4 i) 768
    (List.range 256).map fun k => le (3 * k) 3 b % q

/-- Split a polynomial. -/
def Mask.share (m : Mask) (q i : Nat) (p : Poly) : Shared := let r := m.poly q i; (polySub q p r, r)

/-- A linear map on both shares. -/
def Shared.map (f : Poly → Poly) (s : Shared) : Shared := (f s.1, f s.2)

/-- The polynomial that the shares add up to. -/
def Shared.open (q : Nat) (s : Shared) : Poly := polyAdd q s.1 s.2

/-! ## Packing -/

/-- Bits of a byte string, least significant bit of each byte first. -/
def bytesBits (b : Bytes) : List Nat := (b.map fun x => (List.range 8).map fun i => x.toNat / 2 ^ i % 2).flatten

/-- `l` cut into lists of `n`, at most `fuel` of them. -/
def cutNats (n : Nat) : Nat → List Nat → List (List Nat)
  | 0, _ => []
  | f + 1, l => if l.isEmpty then [] else l.take n :: cutNats n f (l.drop n)

def bitsNat (l : List Nat) : Nat := l.foldr (fun b a => b + 2 * a) 0

/-- Coefficients of `d` bits each, packed. -/
def packBits (d : Nat) (p : Poly) : Bytes :=
  let bs := (p.map fun x => (List.range d).map fun i => x / 2 ^ i % 2).flatten
  (cutNats 8 bs.length bs).map fun b => byteOf (bitsNat b)

/-- The inverse of `packBits`. -/
def unpackBits (d : Nat) (b : Bytes) : Poly :=
  let bs := bytesBits b
  (cutNats d bs.length bs).map bitsNat

/-! ## ML-KEM -/

def kemQ : Nat := 3329
def kemZeta (k : Nat) : Nat := powMod 17 (bitRev 7 k) kemQ
def kemZetas : Array Nat := ((List.range 128).map kemZeta).toArray
def kemZetaInvs : Array Nat := ((List.range 128).map fun k => invMod (kemZeta k) kemQ).toArray
def kemNtt (m : Mask) (p : Poly) : Poly := nttBy kemQ kemZetas 7 m.order p
def kemIntt (m : Mask) (p : Poly) : Poly := (inttBy kemQ kemZetaInvs 7 m.order p).map fun x => x * 3303 % kemQ

/-- Products of degree-one factors. -/
def kemMulGo : Nat → Poly → Poly → Poly
  | i, a0 :: a1 :: a, b0 :: b1 :: b =>
    let g := powMod 17 (2 * bitRev 7 i + 1) kemQ
    ((a0 * b0 + a1 * b1 % kemQ * g) % kemQ) :: ((a0 * b1 + a1 * b0) % kemQ) :: kemMulGo (i + 1) a b
  | _, _, _ => []

def kemMul (a b : Poly) : Poly := kemMulGo 0 a b

/-- Rejection sampling of a transformed polynomial from triples of bytes. -/
def kemReject : Bytes → Poly
  | a :: b :: c :: r =>
    let d1 := a.toNat + 256 * (b.toNat % 16)
    let d2 := b.toNat / 16 + 16 * c.toNat
    (if d1 < kemQ then [d1] else []) ++ (if d2 < kemQ then [d2] else []) ++ kemReject r
  | _ => []

def kemSample (seed : Bytes) (i j : Nat) : Poly := (kemReject (shake128 (seed ++ [byteOf i, byteOf j]) 840)).take 256

/-- Centred binomial sampling. -/
def kemCbd (eta : Nat) (b : Bytes) : Poly :=
  let bs := bytesBits b
  (cutNats (2 * eta) 256 bs).map fun c => ((c.take eta).foldl (· + ·) 0 + kemQ - (c.drop eta).foldl (· + ·) 0) % kemQ

def kemPrf (eta : Nat) (s : Bytes) (n : Nat) : Poly := kemCbd eta (shake256 (s ++ [byteOf n]) (64 * eta))

def kemCompress (d x : Nat) : Nat := (x * 2 ^ d * 2 + kemQ) / (2 * kemQ) % 2 ^ d
def kemDecompress (d y : Nat) : Nat := (y * kemQ * 2 + 2 ^ d) / 2 ^ (d + 1)

/-- A parameter set: k, η1, du, dv. -/
structure KemSet where
  k : Nat
  eta1 : Nat
  du : Nat
  dv : Nat

/-- The set of an algorithm code (Table 7.1). -/
def kemSet (alg : Nat) : KemSet := if alg = 0x21 then ⟨2, 3, 10, 4⟩ else if alg = 0x22 then ⟨3, 2, 10, 4⟩ else ⟨4, 2, 11, 5⟩

def kemZero : Poly := List.replicate 256 0

def kemDot (a b : List Poly) : Poly := (List.zipWith kemMul a b).foldl (polyAdd kemQ) kemZero

/-- Row `i` of the matrix, or its transpose's row. -/
def kemRow (c : KemSet) (rho : Bytes) (transpose : Bool) (i : Nat) : List Poly :=
  (List.range c.k).map fun j => if transpose then kemSample rho i j else kemSample rho j i

/-- A dot product of public polynomials with shared ones. -/
def kemDotShared (a : List Poly) (b : List Shared) : Shared := (kemDot a (b.map fun s => s.1), kemDot a (b.map fun s => s.2))

/-- K-PKE key generation: the encapsulation key, and the transformed secret vector in its shares. -/
def kpkeKeygen (m : Mask) (c : KemSet) (d : Bytes) : Bytes × List Shared :=
  let g := sha3_512 (d ++ [byteOf c.k])
  let rho := g.take 32
  let sig := g.drop 32
  let poly (i : Nat) : Shared := (m.share kemQ i (kemPrf c.eta1 sig i)).map (kemNtt m)
  let sv := (List.range c.k).map poly
  let t := (List.range c.k).map fun i =>
    let s := kemDotShared (kemRow c rho false i) sv
    let e := poly (c.k + i)
    Shared.open kemQ (polyAdd kemQ s.1 e.1, polyAdd kemQ s.2 e.2)
  ((t.map (packBits 12)).flatten ++ rho, sv)

def kemPolys (d : Nat) (n : Nat) (b : Bytes) : List Poly := (List.range n).map fun i => unpackBits d (cut (32 * d * i) (32 * d) b)

def kpkeEncrypt (k : Mask) (c : KemSet) (ek m r : Bytes) : Bytes :=
  let t := (kemPolys 12 c.k ek).map fun p => p.map fun x => x % kemQ
  let rho := ek.drop (384 * c.k)
  let y := (List.range c.k).map fun i => kemNtt k (kemPrf c.eta1 r i)
  let e1 := (List.range c.k).map fun i => kemPrf 2 r (c.k + i)
  let e2 := kemPrf 2 r (2 * c.k)
  let u := (List.range c.k).map fun i => polyAdd kemQ (kemIntt k (kemDot (kemRow c rho true i) y)) (e1.getD i kemZero)
  let mu := (unpackBits 1 m).map (kemDecompress 1)
  let v := polyAdd kemQ (polyAdd kemQ (kemIntt k (kemDot t y)) e2) mu
  (u.map fun p => packBits c.du (p.map (kemCompress c.du))).flatten ++ packBits c.dv (v.map (kemCompress c.dv))

def kpkeDecrypt (m : Mask) (c : KemSet) (sv : List Shared) (ct : Bytes) : Bytes :=
  let u := (kemPolys c.du c.k ct).map fun p => kemNtt m (p.map (kemDecompress c.du))
  let v := (unpackBits c.dv (ct.drop (32 * c.du * c.k))).map (kemDecompress c.dv)
  let w := polySub kemQ v (Shared.open kemQ ((kemDotShared u sv).map (kemIntt m)))
  packBits 1 (w.map (kemCompress 1))

/-- The seeds d and z of a stored seed σ (R165). -/
def kemSeeds (alg : Nat) (seed : Bytes) : Bytes × Bytes := let dz := shake256 (seed ++ [byteOf alg]) 64; (dz.take 32, dz.drop 32)

/-- The encapsulation key of a stored seed. -/
def kemPublic (m : Mask) (alg : Nat) (seed : Bytes) : Bytes := (kpkeKeygen m (kemSet alg) (kemSeeds alg seed).1).1

/-- The modulus check of an encapsulation key (R168). -/
def kemEkOk (alg : Nat) (ek : Bytes) : Bool :=
  ((kemPolys 12 (kemSet alg).k ek).all fun p => p.all fun x => decide (x < kemQ))

/-- Encapsulation under message `m`: ciphertext and shared secret. -/
def kemEncaps (k : Mask) (alg : Nat) (ek m : Bytes) : Bytes × Bytes :=
  let g := sha3_512 (m ++ sha3_256 ek)
  (kpkeEncrypt k (kemSet alg) ek m (g.drop 32), g.take 32)

/-- Decapsulation with a stored seed, with implicit rejection. -/
def kemDecaps (k : Mask) (alg : Nat) (seed ct : Bytes) : Bytes :=
  let c := kemSet alg
  let dz := kemSeeds alg seed
  let kp := kpkeKeygen k c dz.1
  let m := kpkeDecrypt k c kp.2 ct
  let g := sha3_512 (m ++ sha3_256 kp.1)
  if kpkeEncrypt k c kp.1 m (g.drop 32) = ct then g.take 32 else shake256 (dz.2 ++ ct) 32

/-! ## ML-DSA -/

def dsaQ : Nat := 8380417
def dsaZeta (k : Nat) : Nat := powMod 1753 (bitRev 8 k) dsaQ
def dsaZetas : Array Nat := ((List.range 256).map dsaZeta).toArray
def dsaZetaInvs : Array Nat := ((List.range 256).map fun k => invMod (dsaZeta k) dsaQ).toArray
def dsaNtt (m : Mask) (p : Poly) : Poly := nttBy dsaQ dsaZetas 8 m.order p
def dsaIntt (m : Mask) (p : Poly) : Poly := (inttBy dsaQ dsaZetaInvs 8 m.order p).map fun x => x * 8347681 % dsaQ
def dsaMul (a b : Poly) : Poly := List.zipWith (fun x y => x * y % dsaQ) a b
def dsaZero : Poly := List.replicate 256 0

/-- A parameter set: k, l, η, τ, λ/4, γ1 as a power of two, γ2, ω. -/
structure DsaSet where
  k : Nat
  l : Nat
  eta : Nat
  tau : Nat
  clen : Nat
  g1 : Nat
  gamma2 : Nat
  omega : Nat

/-- The set of an algorithm code (Table 7.1). -/
def dsaSet (alg : Nat) : DsaSet :=
  if alg = 0x31 then ⟨4, 4, 2, 39, 32, 17, (dsaQ - 1) / 88, 80⟩
  else if alg = 0x32 then ⟨6, 5, 4, 49, 48, 19, (dsaQ - 1) / 32, 55⟩
  else ⟨8, 7, 2, 60, 64, 19, (dsaQ - 1) / 32, 75⟩

def DsaSet.beta (c : DsaSet) : Nat := c.tau * c.eta

/-- Magnitude of the residue nearest zero. -/
def dsaAbs (x : Nat) : Nat := if x ≤ dsaQ / 2 then x else dsaQ - x
def polyNorm (p : Poly) : Nat := p.foldl (fun a x => max a (dsaAbs x)) 0
def vecNorm (v : List Poly) : Nat := v.foldl (fun a p => max a (polyNorm p)) 0

def dsaReject : Bytes → Poly
  | a :: b :: c :: r =>
    let z := a.toNat + 256 * b.toNat + 65536 * (c.toNat % 128)
    (if z < dsaQ then [z] else []) ++ dsaReject r
  | _ => []

def dsaSampleA (rho : Bytes) (i j : Nat) : Poly := (dsaReject (shake128 (rho ++ [byteOf j, byteOf i]) 894)).take 256

def dsaHalf (eta b : Nat) : List Nat :=
  if eta = 2 then (if b < 15 then [(dsaQ + 2 - b % 5) % dsaQ] else []) else (if b < 9 then [(dsaQ + 4 - b) % dsaQ] else [])

def dsaSampleS (eta : Nat) (rho : Bytes) (n : Nat) : Poly :=
  (((shake256 (rho ++ leBytes 2 n) 481).map fun b => dsaHalf eta (b.toNat % 16) ++ dsaHalf eta (b.toNat / 16)).flatten).take 256

/-- Power2Round: high and low parts with d = 13. -/
def dsaPower2 (r : Nat) : Nat × Nat :=
  let r0 := r % 8192
  if r0 ≤ 4096 then ((r - r0) / 8192, r0) else ((r + 8192 - r0) / 8192, (dsaQ + r0 - 8192) % dsaQ)

/-- Decompose: high part and low part (mod q). -/
def dsaDecompose (g2 r : Nat) : Nat × Nat :=
  let a := 2 * g2
  let r0 := r % a
  let hi := if r0 ≤ g2 then r - r0 else r + a - r0
  let lo := if r0 ≤ g2 then r0 else (dsaQ + r0 - a) % dsaQ
  if hi = dsaQ - 1 then (0, (lo + dsaQ - 1) % dsaQ) else (hi / a, lo)

def dsaHigh (g2 r : Nat) : Nat := (dsaDecompose g2 r).1

def dsaUseHint (g2 h r : Nat) : Nat :=
  let m := (dsaQ - 1) / (2 * g2)
  let d := dsaDecompose g2 r
  if h = 0 then d.1 else if 0 < d.2 ∧ d.2 ≤ dsaQ / 2 then (d.1 + 1) % m else (d.1 + m - 1) % m

def dsaPackW1 (c : DsaSet) (v : List Poly) : Bytes := (v.map (packBits (if c.k = 4 then 6 else 4))).flatten

/-- Coefficients in −(2^b − 1) to 2^b, packed with b + 1 bits each. -/
def dsaPackZ (g1 : Nat) (p : Poly) : Bytes := packBits (g1 + 1) (p.map fun x => (2 ^ g1 + dsaQ - x) % dsaQ)
def dsaUnpackZ (g1 : Nat) (b : Bytes) : Poly := (unpackBits (g1 + 1) b).map fun x => (dsaQ + 2 ^ g1 - x) % dsaQ

/-- The challenge polynomial of τ signs. -/
def dsaBall (tau : Nat) (seed : Bytes) : Poly :=
  let st := shake256 seed (8 + 512)
  let signs := leNat (st.take 8)
  ((st.drop 8).foldl (fun (acc : Nat × Nat × Array Nat) b =>
    let i := acc.1
    if 256 ≤ i then acc
    else if i < b.toNat then acc
    else
      let v := if signs.testBit acc.2.1 then dsaQ - 1 else 1
      (i + 1, acc.2.1 + 1, (acc.2.2.set! i (acc.2.2.getD b.toNat 0)).set! b.toNat v)) (256 - tau, 0, Array.replicate 256 0)).2.2.toList

def dsaMatRow (c : DsaSet) (rho : Bytes) (i : Nat) : List Poly := (List.range c.l).map fun j => dsaSampleA rho i j
def dsaDot (a b : List Poly) : Poly := (List.zipWith dsaMul a b).foldl (polyAdd dsaQ) dsaZero
def dsaDotShared (a : List Poly) (b : List Shared) : Shared := (dsaDot a (b.map fun s => s.1), dsaDot a (b.map fun s => s.2))

/-- The inverse transform of a public polynomial times a shared one, opened. -/
def dsaProduct (m : Mask) (ch : Poly) (s : Shared) : Poly := Shared.open dsaQ (s.map fun p => dsaIntt m (dsaMul ch p))

/-- What key generation expands from ξ: ρ, K, tr, s1, s2 and t0 (transformed, in shares), the public key. -/
structure DsaKey where
  rho : Bytes
  kBytes : Bytes
  tr : Bytes
  s1 : List Shared
  s2 : List Shared
  t0 : List Shared
  pub : Bytes

def dsaKeyOf (m : Mask) (alg : Nat) (xi : Bytes) : DsaKey :=
  let c := dsaSet alg
  let g := shake256 (xi ++ [byteOf c.k, byteOf c.l]) 128
  let rho := g.take 32
  let rho' := cut 32 64 g
  let s1 := (List.range c.l).map fun i => (m.share dsaQ i (dsaSampleS c.eta rho' i)).map (dsaNtt m)
  let s2 := (List.range c.k).map fun i => m.share dsaQ (16 + i) (dsaSampleS c.eta rho' (c.l + i))
  let t := (List.range c.k).map fun i =>
    let w := (dsaDotShared (dsaMatRow c rho i) s1).map (dsaIntt m)
    let e := s2.getD i (dsaZero, dsaZero)
    Shared.open dsaQ (polyAdd dsaQ w.1 e.1, polyAdd dsaQ w.2 e.2)
  let pub := rho ++ (t.map fun p => packBits 10 (p.map fun x => (dsaPower2 x).1)).flatten
  let t0 := t.zipIdx.map fun x => (m.share dsaQ (32 + x.2) (x.1.map fun v => (dsaPower2 v).2)).map (dsaNtt m)
  ⟨rho, g.drop 96, shake256 pub 64, s1, s2.map (Shared.map (dsaNtt m)), t0, pub⟩

def dsaPublic (m : Mask) (alg : Nat) (xi : Bytes) : Bytes := (dsaKeyOf m alg xi).pub

/-- The message with its context string as the pure form prefixes it. -/
def dsaMessage (ctx m : Bytes) : Bytes := [0, byteOf ctx.length] ++ ctx ++ m

def dsaPackHint (omega : Nat) (h : List Poly) : Bytes :=
  let idx := h.map fun p => (p.zipIdx.filter fun x => decide (x.1 ≠ 0)).map fun x => x.2
  let ends := (List.range h.length).map fun i => ((idx.take (i + 1)).map List.length).foldl (· + ·) 0
  fit omega (idx.flatten.map byteOf) ++ ends.map byteOf

/-- Strictly rising. -/
def rising : List Nat → Bool
  | a :: b :: r => decide (a < b) && rising (b :: r)
  | _ => true

def dsaUnpackHint (omega k : Nat) (b : Bytes) : Option (List Poly) :=
  let pos := (b.take omega).map BitVec.toNat
  let ends := (b.drop omega).map BitVec.toNat
  let parts := (List.range k).map fun i =>
    let from_ := if i = 0 then 0 else ends.getD (i - 1) 0
    (from_, ends.getD i 0)
  if (parts.all fun p => decide (p.1 ≤ p.2) && decide (p.2 ≤ omega) && rising ((pos.drop p.1).take (p.2 - p.1))) &&
      (pos.drop (ends.getD (k - 1) 0)).all (fun x => x == 0) then
    some (parts.map fun p => let on := (pos.drop p.1).take (p.2 - p.1); (List.range 256).map fun i => b2n (on.contains i))
  else none

/-- One signing attempt at `kappa`; its y stands in shares too. -/
def dsaAttempt (m : Mask) (c : DsaSet) (key : DsaKey) (rows : List (List Poly)) (mu rho2 : Bytes) (kappa : Nat) : Option Bytes :=
  let y := (List.range c.l).map fun r =>
    m.share dsaQ (64 + kappa + r) (dsaUnpackZ c.g1 (shake256 (rho2 ++ leBytes 2 (kappa + r)) (32 * (c.g1 + 1))))
  let yh := y.map (Shared.map (dsaNtt m))
  let w := rows.map fun row => Shared.open dsaQ ((dsaDotShared row yh).map (dsaIntt m))
  let ct := shake256 (mu ++ dsaPackW1 c (w.map fun p => p.map (dsaHigh c.gamma2))) c.clen
  let ch := dsaNtt m (dsaBall c.tau ct)
  let z := List.zipWith (fun yp sp => polyAdd dsaQ (Shared.open dsaQ yp) (dsaProduct m ch sp)) y key.s1
  let wr := List.zipWith (fun wp sp => polySub dsaQ wp (dsaProduct m ch sp)) w key.s2
  let r0 := wr.map fun p => p.map fun x => (dsaDecompose c.gamma2 x).2
  if 2 ^ c.g1 - c.beta ≤ vecNorm z ∨ c.gamma2 - c.beta ≤ vecNorm r0 then none
  else
    let ct0 := key.t0.map (dsaProduct m ch)
    let h := List.zipWith (fun wp tp => List.zipWith (fun x t => b2n (decide (dsaHigh c.gamma2 x ≠ dsaHigh c.gamma2 ((x + t) % dsaQ)))) wp tp) wr ct0
    if c.gamma2 ≤ vecNorm ct0 ∨ c.omega < (h.map fun p => p.foldl (· + ·) 0).foldl (· + ·) 0 then none
    else some (ct ++ (z.map (dsaPackZ c.g1)).flatten ++ dsaPackHint c.omega h)

/-- What the setup stage of a signature forms (R173): the expanded key, the matrix, μ and the seed of the attempts' y. -/
def dsaSetup (k : Mask) (alg : Nat) (xi ctx m rnd : Bytes) : DsaKey × List (List Poly) × Bytes × Bytes :=
  let c := dsaSet alg
  let key := dsaKeyOf k alg xi
  let mu := shake256 (key.tr ++ dsaMessage ctx m) 64
  (key, (List.range c.k).map (dsaMatRow c key.rho), mu, shake256 (key.kBytes ++ rnd ++ mu) 64)

/-- Attempt `n` of a hedged signature (R170, R173), from 0: the signature, where it is accepted. -/
def dsaTry (k : Mask) (alg : Nat) (xi ctx m rnd : Bytes) (n : Nat) : Option Bytes :=
  let s := dsaSetup k alg xi ctx m rnd
  dsaAttempt k (dsaSet alg) s.1 s.2.1 s.2.2.1 s.2.2.2 ((dsaSet alg).l * n)

/-- A signature of the Keeper's own, within `fuel` attempts. -/
def dsaSign (alg fuel : Nat) (xi ctx m rnd : Bytes) : Option Bytes :=
  let k := maskOfBytes []
  let s := dsaSetup k alg xi ctx m rnd
  (List.range fuel).findSome? fun n => dsaAttempt k (dsaSet alg) s.1 s.2.1 s.2.2.1 s.2.2.2 ((dsaSet alg).l * n)

/-- Verification of a signature of the set's exact length. -/
def dsaVerify (k : Mask) (alg : Nat) (pub ctx m sig : Bytes) : Bool :=
  let c := dsaSet alg
  let rho := pub.take 32
  let t1 := (List.range c.k).map fun i => unpackBits 10 (cut (32 + 320 * i) 320 pub)
  let zl := 32 * (c.g1 + 1)
  let ct := sig.take c.clen
  let z := (List.range c.l).map fun i => dsaUnpackZ c.g1 (cut (c.clen + zl * i) zl sig)
  match dsaUnpackHint c.omega c.k (sig.drop (c.clen + zl * c.l)) with
  | none => false
  | some h =>
    let mu := shake256 (shake256 pub 64 ++ dsaMessage ctx m) 64
    let ch := dsaNtt k (dsaBall c.tau ct)
    let zh := z.map (dsaNtt k)
    let w := (List.range c.k).map fun i =>
      let a := dsaDot (dsaMatRow c rho i) zh
      let t := dsaNtt k ((t1.getD i []).map fun x => x * 8192 % dsaQ)
      dsaIntt k (polySub dsaQ a (dsaMul ch t))
    let w1 := List.zipWith (fun hp wp => List.zipWith (dsaUseHint c.gamma2) hp wp) h w
    decide (vecNorm z < 2 ^ c.g1 - c.beta) && decide (ct = shake256 (mu ++ dsaPackW1 c w1) c.clen)

/-- Public-key and ciphertext or signature lengths (Table 7.1). -/
def latPubLen (alg : Nat) : Nat :=
  if alg = 0x21 then 800 else if alg = 0x22 then 1184 else if alg = 0x23 then 1568
  else if alg = 0x31 then 1312 else if alg = 0x32 then 1952 else 2592
def latOutLen (alg : Nat) : Nat :=
  if alg = 0x21 then 768 else if alg = 0x22 then 1088 else if alg = 0x23 then 1568
  else if alg = 0x31 then 2420 else if alg = 0x32 then 3309 else 4627

end Sys2Proof.Machine
end

