-- ==== Sys2Proof/Machine/Flags.lean ====
section
/-! DEFINITION. Status words and records of the host interface, bit by bit: RING_STATUS, RNG_STATE, the completion record, the credit shadow word, SEI_BOUND_STATE, the caps and totals behind them. -/

namespace Sys2Proof.Machine

/-! ## Lanes counted (R11, R134, R187) -/

/-- The numbers of the public-key lanes with role `r`. -/
def State.pkWith (s : State) (r : LaneRole) : List Nat := (List.range 24).filter fun n => decide ((s.pkLane n).role = r)

/-- Active lanes of the public-key pool; a coming spare counts as taken (R37, R134). -/
def State.activePk (s : State) : List Nat := s.pkWith .active

/-- A symmetric lane of the pool: not fenced, not held by the Keeper, not gated (R187). -/
def SymLane.inPool (l : SymLane) : Bool := !l.fenced && !l.keeper && !l.gated

def State.activeSym (s : State) : List Nat := (List.range 8).filter fun n => (s.symLane n).inPool

/-- 60 % of `n` lanes in sixteenths, rounded down (R30). -/
def capOf (n : Nat) : Nat := n * 16 * 60 / 100

/-- A share entry of every slice, summed. -/
def State.shareSum (s : State) (sub : Nat) : Nat :=
  (s.dict.nums.filter fun e => decide (entryKey 0x3000 0 ≤ e.1) && decide (e.1 < entryKey 0x3400 0) && decide (e.1 % 256 = sub)).foldl
    (fun a e => a + e.2) 0

def State.totalPk (s : State) : Nat := s.shareSum 2
def State.totalSym (s : State) : Nat := s.shareSum 3
def State.capPk (s : State) : Nat := capOf s.activePk.length
def State.capSym (s : State) : Nat := capOf s.activeSym.length

/-- A period switch is armed (R49). -/
def State.switchArmed (s : State) : Bool := decide (s.num Key.SEI_PERIOD_NEXT ≠ s.num Key.SEI_PERIOD)

/-- SEI_BOUND_STATE: bit 0 no spare, bit 1 switch drain, bit 2 shares above a cap (Table 2.9). -/
def State.boundState (s : State) : Nat :=
  b2n (s.pkWith .spare).isEmpty + 2 * b2n s.switchArmed +
    4 * b2n (decide (s.capPk < s.totalPk) || decide (s.capSym < s.totalSym))

/-- Insertion into an ascending list without repeats. -/
def insertAsc (a : Nat) : List Nat → List Nat
  | [] => [a]
  | b :: r => if a < b then a :: b :: r else if a = b then b :: r else b :: insertAsc a r

/-! ## What the host sees (R3, R18) -/

/-- The blocks as the last tick left them, beside what the host itself has written since. -/
def State.seen (s : State) : State :=
  match s.shown with
  | some v => { s with slices := v.slices, jobs := v.jobs, keys := v.keys, vault := v.vault, dict := v.dict, tamper := v.tamper, life := v.life, rst := v.rst }
  | none => s

/-- A tick shows the blocks as they stand. -/
def State.show (s : State) : State :=
  { s with shown := some ⟨s.slices, s.jobs, s.keys, s.vault, s.dict, s.tamper, s.life, s.rst⟩ }

/-- An event of the present tick shows its slice as it now stands. -/
def State.showSlice (s : State) (n : Nat) : State :=
  { s with shown := s.shown.map fun v => { v with slices := SMap.set SliceCtx.reset n (s.slice n) v.slices } }

/-! ## Ring pairs -/

/-- (p − c) mod 2^(K+1), the entries between two indices (R60). -/
def ringDist (k c p : Nat) : Nat := (p + 2 ^ (k + 1) - c % 2 ^ (k + 1)) % 2 ^ (k + 1)

/-- A slice of a ring pair: RNG_SLICE. -/
def State.ringSlice (s : State) (n : Nat) : Nat := s.num (Key.RNG_SLICE n)

/-- BUSY of a ring pair: a job fetched from it has no record released (Table 3.9); parked jobs count (R125), and those that a slice reset ended until it shows BUSY 0 (Table 5.2). -/
def State.busy (s : State) (ring : Nat) : Bool :=
  let c := s.slice (s.ringSlice ring)
  (s.jobs.any fun j => j.ring == ring) || (c.parked.any fun p => p.ring == ring) || c.resetBusy.contains ring

/-- The PASID that a DMA request of a slice carries (R52, R110); none while PASID Enable is clear. -/
def State.dmaPasid (s : State) (slice : Nat) : Option Nat := if s.host.pasidEnable then some (s.num (Key.SLC_PASID slice) % 2 ^ 20) else none

/-- The submission slot of an index (R60). -/
def State.slotAddr (s : State) (ring index : Nat) : Nat := (s.ring ring).sqBase + 64 * (index % 2 ^ (s.ring ring).k)

/-- RING_STATUS (Table 3.9). -/
def State.ringStatus (s : State) (n : Nat) : Nat :=
  let r := s.ring n
  r.error * 2 ^ 24 + 2 * b2n (s.busy n) + b2n r.enabled

/-- RNG_STATE (Table 3.12). -/
def State.rngState (s : State) (n : Nat) : Nat :=
  let r := s.ring n
  r.error + 256 * b2n r.enabled + 512 * b2n (s.busy n)

/-- RING_CONFIG (Table 3.8). -/
def RingPair.config (r : RingPair) : Nat := b2n r.enableBit * 2 ^ 31 + b2n r.irqEnable * 256 + r.k

/-- Bytes 0 to 15 of the credit shadow word (Table 3.10). -/
def State.shadowHead (s : State) (n l : Nat) : Bytes :=
  let r := s.ring n
  leBytes 4 l ++ leBytes 4 r.cp ++ leBytes 4 r.sh ++ [byteOf r.error, byteOf (b2n r.enabled + 2 * b2n (s.busy n)), 0, 0]

/-- The credit shadow word (Table 3.10). -/
def State.shadowWord (s : State) (head : Bytes) : Bytes := head ++ leBytes 8 s.tick ++ List.replicate 8 0

/-! ## Completion record -/

/-- FLAGS of a completion record (Table 4.5). -/
def recordFlags (boundVoid sliceReset replicated degraded : Bool) : Nat :=
  b2n boundVoid + 2 * b2n sliceReset + 4 * b2n replicated + 8 * b2n degraded

/-- A completion record (Table 4.3). -/
def completionRecord (cookie status flags grant outLen tick result : Nat) : Bytes :=
  leBytes 8 cookie ++ [byteOf status, byteOf flags] ++ leBytes 2 grant ++ leBytes 4 outLen ++ leBytes 8 tick ++ leBytes 8 result

/-- The ring pairs that a slice owns, in ascending order, as the dictionary lists them. -/
def State.sliceRings (s : State) (slice : Nat) : List Nat :=
  (s.dict.nums.filter fun e => decide (entryKey 0x4000 0 ≤ e.1) && decide (e.1 < entryKey 0x5000 0) && decide (e.1 % 256 = 1)
    && decide (e.2 = slice)).map fun e => e.1 / 256 - 0x4000

/-- The slice's credit ceiling (R114). -/
def State.creditCeiling (s : State) (slice : Nat) : Nat :=
  min 1024 (64 + 4 * (s.num (Key.SLC_SHARE_PK slice) + s.num (Key.SLC_SHARE_SYM slice)) + 16 * s.num (Key.SLC_WEIGHT slice))

/-- Credits outstanding: (L − CP) over the slice's enabled ring pairs, those just being enabled with them (R62, R114). -/
def State.creditOut (s : State) (slice : Nat) : Nat :=
  (s.sliceRings slice).foldl (fun a n =>
    let r := s.ring n
    match r.startDue with
    | some d => a + d.2
    | none => if r.enabled then a + ringDist r.k r.cp r.limit else a) 0

/-- CFG_SEL selects host-tunnel master (Table 19.5). -/
def strapTunnel (c : Nat) : Bool := [2, 3, 6, 7, 8, 9, 13, 14].contains c
/-- Vault drives that the strap admits: 0, 1 or 2 (Table 19.5). -/
def strapDrives (c : Nat) : Nat := if c < 4 then 0 else if c < 8 then 1 else 2
/-- Greatest host link width (Table 19.5). -/
def strapWidth (c : Nat) : Nat := if [1, 3, 5, 7, 9, 10, 12, 14].contains c then 4 else 8
/-- First-boot slot (Table 19.5). -/
def strapSlot (c : Nat) : Nat := if [11, 12, 13, 14].contains c then 1 else 0

def State.tunnelOn (s : State) : Bool := strapTunnel s.rst.strap

/-- A PASID maps to the slice (R110). -/
def State.mapped (s : State) (slice : Nat) : Bool := decide (s.num (Key.SLC_PASID slice) ≠ 0xFFFFFFFF)

end Sys2Proof.Machine
end

