-- ==== Sys2Proof/Machine/Slices.lean ====
section
/-! DEFINITION. Slice reset (R119 to R121, R131, R132): its start, and its end with the reset record. -/

namespace Sys2Proof.Machine

/-- Jobs that hold or wait for the vault group in progress (Table 5.2). -/
def State.inGroup (s : State) (id : Nat) : Bool := s.vault.group.any fun v => v.job == some id

/-- A change on the chain goes on without its job (R109). -/
def State.orphanOwn (s : State) (id : Nat) : State :=
  { s with chain := { s.chain with own := s.chain.own.map fun o => if o.job = some id then { o with job := none } else o } }

/-- End a job without a record: stopped, wiped, its waiting page versions and reads given up, its change on the chain left to its peers (R109, R120). -/
def State.abandon (s : State) (id : Nat) : State :=
  let s := (s.stopJob id).orphanOwn id
  let s := { s with vault := { s.vault with waiting := s.vault.waiting.filter fun v => decide (v.job ≠ some id) } }
  s.dropJob id

/-- The working-memory granules of a job scrubbed to colour 15 (R290). -/
def State.scrubJob (s : State) (j : Job) : State :=
  s.scrubWords fun w => j.bufs.any fun b => decide (b.1 / 64 ≤ w / 16) && decide (w / 16 < b.1 / 64 + ceilDiv b.2 64)

/-- Session objects of a slice die with it; its session epoch advances (R227). -/
def State.wipeSessions (s : State) (slice : Nat) : State :=
  let s := { s with keys := { s.keys with cache := s.keys.cache.filter fun o => !(o.session && o.slice == slice) } }
  s.updSlice slice fun c => { c with epoch := (c.epoch + 1) % 32768 }

/-- The session epoch of a slice (R227). -/
def State.epoch (s : State) (slice : Nat) : Nat := ((s.slice slice).epoch + s.keys.epochs) % 32768

/-- Wipe a slice's register page: every window zeroed; WIPES advances at the next tick (R188, R190). -/
def State.wipePage (s : State) (slice : Nat) : State :=
  s.updSlice slice fun c => { c with windows := [], wipesNow := c.wipesNow + 1 }

/-- The jobs of a slice, abandoned (R120, R70). -/
def State.dropSliceJobs (s : State) (slice : Nat) : State :=
  (s.jobs.filter fun j => j.slice == slice).foldl (fun st j => (st.scrubJob j).abandon j.id) s

/-- The raw-sample tap closes, as at any reset and at the end of a grant (R285). -/
def State.closeTap (s : State) : State :=
  (List.range 2).foldl (fun st n =>
    let w := st.wsp n
    if w.state = .tapped then st.setWsp n { w with state := .healthy } else st) s

/-- A slice reset begins (R119, Table 5.2 at T): the slice's jobs end without a record, its register page and session objects are wiped. A reset in progress is not restarted (R121); during a restore the reset is held (R132). -/
def State.sliceReset (s : State) (n : Nat) : State :=
  let c := s.slice n
  if c.resetting.isSome then s
  else if c.mig = .restoring then s.setSlice n { c with resetHeld := true }
  else
    let js := s.jobs.filter fun j => j.slice == n
    let rings := (s.sliceRings n).filter fun r => (s.ring r).enabled
    let busy := (s.sliceRings n).filter fun r => s.busy r
    let inVault := (js.filter fun j => s.inGroup j.id).map fun j => j.id
    let s := (((s.dropSliceJobs n).wipePage n).wipeSessions n).closeTap
    s.updSlice n fun c => { c with
      resetting := some s.tick, resetHeld := false, resetDone := false, resetRings := rings, resetCount := js.length + c.parked.length,
      resetVault := inVault, resetBusy := busy, parked := [], mig := (if c.mig = .freezing ∨ c.mig = .frozen then .running else c.mig) }

/-- A write of 1 to SLC_RESET (R119): the next tick observes it (R24). A slice with no PASID mapped drops it (R58); during a reset it has no effect (R121). -/
def State.slcWrite (s : State) (n : Nat) : State :=
  if s.seen.mapped n ∧ (s.slice n).resetting.isNone then s.setSlice n { s.slice n with resetWritten := true } else s

/-- SLC_RESET (R119). -/
def execSlcReset (slice : Nat) (s : State) : Res := .next (s.slcWrite slice)

/-- The tick T that observes the writes: each slice's reset begins, ahead of the completions of T (Table 4.15). -/
def State.slcSample (s : State) : State :=
  (s.slices.filter fun e => e.2.resetWritten).foldl (fun st e => (st.updSlice e.1 fun c => { c with resetWritten := false }).sliceReset e.1) s

/-- Ring pairs of a slice after its reset: ENABLE 0, ENABLED 0, ERROR 8; indices as they stood (Table 5.2, R121). A change of ERROR from 0 raises the ring's source (R72). -/
def State.stopRings (s : State) (slice : Nat) : State :=
  (s.sliceRings slice).foldl (fun st r =>
    let p := st.ring r
    let st := if p.error = 0 then st.raise r else st
    st.setRing r { p with enabled := false, enableBit := false, enableWritten := none, startDue := none, error := 8, errorDue := none, tailWritten := none,
                          headWritten := none, abortWritten := none, abortMarks := [] }) s

/-- The slice-reset record of R120, in the slot that R66 keeps free. -/
def State.resetRecord (s : State) (ring count : Nat) : State :=
  let r := s.ring ring
  let rec32 := completionRecord 0 stAborted (recordFlags false true false false) 0 0 s.tick (count % 2 ^ 32)
  let s := s.emit (.record ring (r.cqBase + 32 * (r.cp % 2 ^ r.k)) rec32 (s.dmaPasid (s.ringSlice ring)))
  let s := s.setRing ring { r with cp := (r.cp + 1) % 2 ^ (r.k + 1) }
  if r.irqEnable then s.raise ring else s

/-- The shadow word of a ring pair written at once, after a slice reset (Table 5.2). -/
def State.writeShadow (s : State) (ring : Nat) : State :=
  let r := s.ring ring
  let head := s.shadowHead ring r.limit
  (s.emit (.shadow ring r.shadowBase (s.shadowWord head) (s.dmaPasid (s.ringSlice ring)))).setRing ring { r with lastShadow := head.map fun b => b.toNat }

/-- Vectors of the enabled sources among those raised, each once; a MOVED slice sends no message (R72, R131). -/
def State.vectorsOf (s : State) (raised : List Nat) : List Nat :=
  let sends (n : Nat) : Bool := decide (4096 ≤ n) || decide ((s.slice (s.ringSlice n)).mig ≠ .moved)
  (raised.filter fun n => decide (n < 4224) && sends n && bitOf (s.num (Key.HST_MSIX_MAP n)) 15).foldl (fun l n => insertAsc (s.num (Key.HST_MSIX_MAP n) % 2048) l) []

/-- One vector: its message, or its pending bit while it is masked (R72). -/
def State.msixOne (s : State) (v : Nat) : State :=
  let m := s.msixVector v
  let rest := s.host.msixPending.filter fun x => decide (x ≠ v)
  if m.masked then { s with host := { s.host with msixPending := insertAsc v s.host.msixPending } }
  else { s with host := { s.host with msixPending := rest }, sent := s.sent ++ [.msix v m.addr m.data] }

/-- The messages of the raised sources that `p` names, at the present tick. -/
def State.msixNow (s : State) (p : Nat → Bool) : State :=
  let vs := s.vectorsOf (s.host.raised.filter p)
  vs.foldl State.msixOne { s with host := { s.host with raised := s.host.raised.filter fun n => !p n } }

/-- End of a slice's reset (R120, R131, R132): in MOVED no record and no shadow word, counters 0 and pins dropped; in SAVED the image is consumed. -/
def State.sliceResetEnd (s : State) (n : Nat) : State :=
  let c := s.slice n
  let moved := decide (c.mig = .moved)
  let s := s.updSlice n fun c => { c with
    resetting := none, resetDone := true, resetRings := [], resetCount := 0, resetVault := [], resetBusy := [],
    counters := (if moved then [] else c.counters),
    imageTag := (if c.mig = .saved then none else c.imageTag),
    mig := (if c.mig = .saved ∨ c.mig = .moved then .running else c.mig) }
  let s := match c.resetRings with
    | r :: _ => if moved then s else s.resetRecord r c.resetCount
    | [] => s
  let s := s.stopRings n
  let s := if moved then s else (s.sliceRings n).foldl (fun st r => st.writeShadow r) s
  let s := s.msixNow fun r => (s.sliceRings n).contains r
  let pins := s.keys.pins.filter fun h => decide ((s.heart (h / 2 ^ 48 % 16384)).owner ≠ n)
  let s := if moved then { s with keys := { s.keys with pins := pins } } else s
  let tags := s.chain.tags.filter fun t => decide (some t.1 ≠ c.imageTag)
  if c.mig = .saved then { s with chain := { s.chain with tags := tags } } else s

/-- A reset in progress may end: at T+1, or at T+2 or later once the vault writes that it met have ended (Table 5.2). -/
def State.resetEnds (s : State) (n : Nat) : Bool :=
  let c := s.slice n
  (c.resetting.any fun t => decide (t + (if c.resetVault = [] then 1 else 2) ≤ s.tick)) && !(c.resetVault.any fun id => s.inGroup id)

/-- SLICE_RESET_DONE (R120): at its tick, which shows it. -/
def execSliceResetDone (slice : Nat) (s : State) : Res := if s.resetEnds slice then .next ((s.sliceResetEnd slice).showSlice slice) else .next s

end Sys2Proof.Machine
end

