-- ==== Sys2Proof/Machine/Pages.lean ====
section
/-! DEFINITION. Pages and the integrity tree of the vault: slots, entries, nodes and their hashes, root and journal records, the layout of a drive, its headers and frames, the NVMe queues, the committed content of a page (R246, R248 to R255). -/

namespace Sys2Proof.Machine

def zeroSlot : Bytes := List.replicate 512 0
def zeroPage : List Bytes := List.replicate 8 zeroSlot
def zeroBlock : Bytes := List.replicate 4096 0

/-- Page content of 4,096 bytes as eight slots. -/
def slotsOfPage (b : Bytes) : List Bytes := (List.range 8).map fun i => cut (512 * i) 512 b

/-- The slots that a map marks; every other slot of a page is zero (R248). -/
def maskSlots (map : Nat) (content : List Bytes) : List Bytes := (List.range 8).map fun i => if bitOf map i then content.getD i zeroSlot else zeroSlot

/-- Key of a tree entry: level of the child and its index. -/
def treeKey (level index : Nat) : Nat := level * 2 ^ 32 + index

def State.entryAt (s : State) (level index : Nat) : TreeEntry :=
  let e := SMap.get TreeEntry.unwritten s.vault.tree (treeKey level index)
  if level ≠ 0 ∧ e.seq = 0 then { e with slotMap := 8 } else e

def State.pageEntry (s : State) (p : Nat) : TreeEntry := s.entryAt 0 p

/-- N: VLT_PAGES. -/
def State.pages (s : State) : Nat := s.num Key.VLT_PAGES

/-- Nodes of a level, 1 to 5 (R251). -/
def nodeCount (n level : Nat) : Nat := if level = 5 then 1 else ceilDiv n (128 ^ level)

/-- Bytes of a tree entry (Table 10.3). -/
def TreeEntry.bytes (e : TreeEntry) : Bytes :=
  fit 22 e.hash ++ [byteOf (b2n e.frame + 2 * b2n e.conflict), byteOf e.slotMap] ++ leBytes 8 e.seq

/-- A tree entry as a node holds it. -/
def entryOf (b : Bytes) : TreeEntry := ⟨b.take 22, bitOf (at8 22 b) 0, bitOf (at8 22 b) 1, at8 23 b, le 24 8 b⟩

/-! ## Root and journal records (R253, R255) -/

/-- A root record: commit sequence, hash and frame bit of the level-5 node, as bytes 0 to 40 of a journal record hold them. -/
def Root.bytes (r : Root) : Bytes := leBytes 8 r.seq ++ fit 32 r.hash ++ [byteOf (b2n r.frame)]

/-- A root record as it is put into battery-backed memory. -/
def RootCopy.of (r : Root) : RootCopy := ⟨r, crc32c r.bytes⟩
/-- The CRC of a copy holds. -/
def RootCopy.holds (c : RootCopy) : Bool := c.crc == crc32c c.root.bytes

/-- Kind of a journal item, byte 4. -/
def ItemKind.code : ItemKind → Nat
  | .change => 0
  | .pendingChange => 1
  | .keep => 2
  | .rollBack => 3
  | .repair => 4
  | .sweep => 5

/-- The 40 bytes of a journal item. -/
def JItem.bytes (i : JItem) : Bytes := leBytes 4 i.page ++ [byteOf i.kind.code, 0, 0, 0] ++ i.prior.bytes

/-- Bytes 0 to 59 and 64 to 1,023 of a journal record, over which its CRC runs (Table 10.4). -/
def JRecord.head (r : JRecord) : Bytes := fit 60 (r.root.bytes ++ [byteOf r.items.length, 0, 0, 0, 0, 0, 0] ++ leBytes 8 r.tick)
def JRecord.body (r : JRecord) : Bytes := fit 960 (r.items.flatMap JItem.bytes)
/-- A journal record's 1,024 bytes. -/
def JRecord.bytes (r : JRecord) : Bytes := r.head ++ leBytes 4 r.crc ++ r.body
/-- The CRC of a journal record holds. -/
def JRecord.holds (r : JRecord) : Bool := r.crc == crc32c (r.head ++ r.body)
/-- A record as the controller writes it. -/
def JRecord.of (root : Root) (items : List JItem) (tick : Nat) : JRecord :=
  let r : JRecord := ⟨root, items, tick, 0⟩
  { r with crc := crc32c (r.head ++ r.body) }

/-- Hash of a page or node (R252). -/
def vaultHash (level index : Nat) (content : Bytes) : Bytes := sha3_256 (ascii "ILYAR-VTREE" ++ [byteOf level] ++ beBytes 8 index ++ content)

/-- Children of a node: entries at `level - 1`. -/
def childCount (n level : Nat) : Nat := if level = 1 then n else nodeCount n (level - 1)

/-- The 4,096 bytes of node `index` of a level. -/
def State.nodeBytes (s : State) (level index : Nat) : Bytes :=
  ((List.range 128).map fun i =>
    let c := 128 * index + i
    if c < childCount s.pages level then (s.entryAt (level - 1) c).bytes else List.replicate 32 0).flatten

/-- Longest run of zero bits among the 8 bits of a slot map. -/
def freeRun (m : Nat) : Nat :=
  ((List.range 8).foldl (fun (a : Nat × Nat) i => if bitOf m i then (0, a.2) else (a.1 + 1, max a.2 (a.1 + 1))) (0, 0)).2

/-- The run field of a node (Table 10.3). -/
def State.nodeRun (s : State) (level index : Nat) : Nat :=
  (List.range 128).foldl (fun a i =>
    let c := 128 * index + i
    if c < childCount s.pages level then
      let e := s.entryAt (level - 1) c
      max a (if level = 1 then (if e.conflict then 0 else freeRun e.slotMap) else e.slotMap)
    else a) 0

def State.setEntry (s : State) (level index : Nat) (e : TreeEntry) : State :=
  { s with vault := { s.vault with tree := SMap.set TreeEntry.unwritten (treeKey level index) e s.vault.tree } }

/-- Rewrite the nodes above child `index` of a level, up to level 5, at a sequence: the root's hash and frame. -/
def State.climb (s : State) (seq : Nat) : Nat → Nat → Nat → State
  | 0, _, _ => s
  | f + 1, level, index =>
    let node := index / 128
    let h := vaultHash level node (s.nodeBytes level node)
    if level = 5 then
      { s with vault := { s.vault with root := ⟨seq, h, (if s.vault.root.seq = seq then s.vault.root.frame else !s.vault.root.frame)⟩ } }
    else
      let old := s.entryAt level node
      let fr := if old.seq = seq then old.frame else !old.frame
      (s.setEntry level node ⟨h.take 22, fr, false, s.nodeRun level node, seq⟩).climb seq f (level + 1) node

/-- Change a page's level-1 entry and all above it. -/
def State.setPageEntry (s : State) (p seq : Nat) (e : TreeEntry) : State := (s.setEntry 0 p e).climb seq 5 1 p

/-! ## The layout of a drive (Tables 10.2, R249, R250) -/

/-- Nodes of the levels above one, up to level 5. -/
def nodesAbove (n level : Nat) : Nat := (List.range (5 - level)).foldl (fun a i => a + nodeCount n (5 - i)) 0

/-- The block of a node's frame: levels 5 to 1 in that order, from block 16 on. -/
def nodeBlock (n level index : Nat) (frame : Bool) : Nat := 16 + 2 * nodesAbove n level + 2 * index + b2n frame

/-- D: the first data frame. -/
def dataBase (n : Nat) : Nat := ceilDiv (16 + 2 * nodesAbove n 0) 256 * 256

/-- The block of a page's frame. -/
def pageBlock (n p : Nat) (frame : Bool) : Nat := dataBase n + 2 * p + b2n frame

/-- Blocks that a drive needs for `n` pages. -/
def blocksFor (n : Nat) : Nat := dataBase n + 2 * n

/-- The vault header of a format at commit sequence `seq`. -/
def headerBytes (n seq : Nat) : Bytes :=
  let b := fit 4092 (ascii "ILYAR-VAULT-V001" ++ leBytes 8 n ++ leBytes 8 seq)
  b ++ leBytes 4 (crc32c b)

/-- A header copy whose CRC and string hold. -/
def headerOk (b : Bytes) : Bool :=
  decide (b.length = 4096) && leBytes 4 (crc32c (b.take 4092)) == b.drop 4092 && b.take 16 == ascii "ILYAR-VAULT-V001"

/-- A block of a drive. -/
def Drive.cell (d : Drive) (b : Nat) : Bytes := SMap.get zeroBlock d.cells b
def Drive.setCell (d : Drive) (b : Nat) (x : Bytes) : Drive := { d with cells := SMap.set zeroBlock b x d.cells }

/-- N of a drive's header: of the first copy whose CRC holds; none where both fail. -/
def Drive.headerPages (d : Drive) : Option Nat :=
  if headerOk (d.cell 0) then some (le 16 8 (d.cell 0)) else if headerOk (d.cell 1) then some (le 16 8 (d.cell 1)) else none

/-- A drive's level-5 node matches a root record. -/
def Drive.holdsRoot (d : Drive) (r : Root) : Bool := vaultHash 5 0 (d.cell (16 + b2n r.frame)) == r.hash

/-- A page's frame on a drive. -/
def State.pageOn (s : State) (port p : Nat) (frame : Bool) : List Bytes := slotsOfPage ((s.drive port).cell (pageBlock s.pages p frame))

/-! ## NVMe queues (R246) -/

/-- Commands of a port that stand in a queue. -/
def Drive.queued (d : Drive) (q : Nat) : Nat := (d.cmds.filter fun c => c.queue == q).length

/-- Admin commands. -/
def NvmeOp.admin : NvmeOp → Bool
  | .read _ | .write _ | .flush | .deallocate _ _ => false
  | _ => true

/-- The queue that takes a command: the admin queue of depth 32, or the first I/O queue pair of depth 256 with room (assumption log 86). -/
def Drive.queueFor (d : Drive) (op : NvmeOp) : Option Nat :=
  if op.admin then (if d.queued 0 < 32 then some 0 else none)
  else ((List.range 4).map fun i => i + 1).find? fun q => decide (d.queued q < 256)

/-- I/O commands for which a port has room. -/
def Drive.room (d : Drive) : Nat := 4 * 256 - (d.cmds.filter fun c => c.queue != 0).length

/-- Submit a command to a drive: it stands in its queue; without room nothing is sent. -/
def State.submit (s : State) (port : Nat) (told : Bool) (op : NvmeOp) : State :=
  match (s.drive port).queueFor op with
  | some q => (s.updDrive port fun d => { d with cmds := d.cmds ++ [⟨q, op, s.tick, told⟩] }).emit (.drive port q op)
  | none => s

/-- The block writes and the Flush of a port have completed. -/
def Drive.writesEnd (d : Drive) : Drive :=
  { d with cmds := d.cmds.filter fun c => !(c.told && (match c.op with | .write _ | .flush => true | _ => false)) }
def State.endWrites (s : State) : State := (s.updDrive 0 Drive.writesEnd).updDrive 1 Drive.writesEnd

/-- A read command of a port has ended. -/
def State.endRead (s : State) (port block : Nat) : State :=
  s.updDrive port fun d => { d with cmds := match d.cmds.find? (fun c => decide (c.op = .read block)) with | some c => d.cmds.erase c | none => d.cmds }

/-- Submit several commands in order. -/
def State.submitAll (s : State) (port : Nat) (ops : List NvmeOp) : State := ops.foldl (fun st op => st.submit port false op) s

/-- The four I/O queue pairs made at link-up, and deleted before a port is taken out (Table 10.1). -/
def queuesUp : List NvmeOp := [1, 2, 3, 4].flatMap fun q => [.createCompletion q, .createSubmission q]
def queuesDown : List NvmeOp := [1, 2, 3, 4].flatMap fun q => [.deleteSubmission q, .deleteCompletion q]

/-- A drive takes part in the mirror. -/
def Drive.inMirror (d : Drive) : Bool := decide (d.state = .inMirror)
/-- A drive takes writes: in the mirror, or being resilvered (R265). -/
def Drive.writable (d : Drive) : Bool := decide (d.state = .inMirror) || decide (d.state = .resilvering)

/-- The vault serves reads and writes. -/
def State.vaultUp (s : State) : Bool := decide (s.vault.state = .online) || decide (s.vault.state = .degraded)

/-- A page's content has the hash that an entry names. -/
def matchesEntry (p : Nat) (e : TreeEntry) (content : List Bytes) : Bool := (vaultHash 0 p content.flatten).take 22 == e.hash

/-- The content of a page that an entry names: the first copy in the mirror that matches it. A page with no object holds zero slots (R248). -/
def State.slotsUnder (s : State) (p : Nat) (e : TreeEntry) : List Bytes :=
  if e.seq = 0 ∨ e.slotMap = 0 then zeroPage
  else
    let c0 := s.pageOn 0 p e.frame
    let c1 := s.pageOn 1 p e.frame
    if s.vault.d0.inMirror && (!s.vault.d1.inMirror || matchesEntry p e c0) then c0 else c1

/-- The committed content of a page. -/
def State.pageSlots (s : State) (p : Nat) : List Bytes := s.slotsUnder p (s.pageEntry p)

end Sys2Proof.Machine
end

