-- ==== Sys2Proof/Machine/Operands.lean ====
section
/-! DEFINITION. Operand forms of jobs: the descriptor, handles, the opcode table, the shapes of inputs, the parse checks of Table 4.7, key usages, and the schedules with their stages. -/

namespace Sys2Proof.Machine

/-! ## Descriptor and handles -/

/-- The 64 bytes of a descriptor taken apart (Table 4.1). -/
def descOf (b : Bytes) : Desc :=
  { opcode := le 0 2 b, classFlags := at8 2 b, reserved3 := at8 3 b, inputLength := le 4 4 b, key1 := le 8 8 b, key2 := le 16 8 b,
    inputAddr := le 24 8 b, outputAddr := le 32 8 b, capacity := le 40 4 b, labelLength := at8 44 b, reserved45 := at8 45 b,
    policy := le 46 2 b, labelField := cut 48 8 b, cookie := le 56 8 b }

def Desc.cls (d : Desc) : Nat := d.classFlags % 4
def Desc.verifyRelease (d : Desc) : Bool := bitOf d.classFlags 2
def Desc.repeatCompare (d : Desc) : Bool := bitOf d.classFlags 3
def Desc.noWait (d : Desc) : Bool := bitOf d.classFlags 4

/-- Fields of a handle (Table 4.4). -/
def hKind (h : Nat) : Nat := h / 2 ^ 62
def hHeart (h : Nat) : Nat := h / 2 ^ 48 % 16384
def hGen (h : Nat) : Nat := h / 2 ^ 33 % 32768
def hSlot (h : Nat) : Nat := h % 2 ^ 33
def mkHandle (kind heart gen slot : Nat) : Nat := kind * 2 ^ 62 + heart * 2 ^ 48 + gen * 2 ^ 33 + slot

/-- Fields of SLOT of a kind-01 handle (Table 8.3). -/
def dAlg (h : Nat) : Nat := hSlot h / 256 % 256
def dPolicy (h : Nat) : Nat := hSlot h % 256

/-! ## The opcode table (Table 4.8) -/

/-- Opcode and engine: 0 public-key or lattice lane, 1 symmetric lane, 2 command cores, 3 Keeper. -/
def opTable : List (Nat × Nat) :=
  [(0x0101, 0), (0x0102, 0), (0x0103, 0), (0x0104, 0), (0x0105, 0), (0x0106, 0)] ++
  [(0x0201, 0), (0x0202, 0), (0x0203, 0), (0x0204, 0), (0x0205, 0), (0x0206, 0)] ++
  [(0x0301, 0), (0x0302, 0), (0x0303, 0), (0x0304, 0), (0x0305, 0), (0x0306, 0), (0x0307, 0), (0x0308, 0)] ++
  [(0x0401, 1), (0x0402, 1), (0x0403, 1), (0x0404, 1), (0x0405, 1), (0x0406, 1), (0x0407, 1), (0x0408, 1), (0x0409, 1), (0x040A, 1)] ++
  [(0x0501, 1), (0x0502, 1), (0x0503, 1), (0x0504, 1), (0x0505, 1), (0x0601, 1), (0x0602, 1), (0x0603, 0)] ++
  [(0x0701, 2), (0x0702, 2), (0x0703, 2), (0x0704, 2), (0x0705, 2), (0x0706, 2), (0x0707, 2), (0x0708, 3), (0x0709, 2)] ++
  [(0x070A, 2), (0x070B, 2), (0x070C, 2), (0x0801, 1)]

def opKnown (op : Nat) : Bool := opTable.any fun e => e.1 == op
def opEngine (op : Nat) : Nat := (SMap.get 2 opTable op)

/-- KEY_HANDLE is a creation target (R85). -/
def opCreates (op : Nat) : Bool := [0x0105, 0x0206, 0x0301, 0x0304, 0x0504, 0x0701, 0x0702, 0x0709].contains op
/-- The opcode makes a session object of its own (R95, R195, R205). -/
def opSession (op : Nat) : Bool := [0x0106, 0x0302, 0x0303, 0x0408, 0x0503].contains op
/-- KEY_HANDLE must be 0 (R459). -/
def opNoKey (op : Nat) : Bool := [0x0407, 0x0801, 0x070B].contains op
/-- "public or 0": the key may be inline (R86). -/
def opInline (op : Nat) : Bool := [0x0102, 0x0104, 0x0203, 0x0205, 0x0302, 0x0306].contains op
/-- KEY_HANDLE_2 names a key; DUKPT_DERIVE in mode 1 only. -/
def opTwoKeys (op mode : Nat) : Bool :=
  [0x0307, 0x0308, 0x0501, 0x0502, 0x0504, 0x0505, 0x0702, 0x0703].contains op || (op == 0x0503 && mode == 1)
/-- A label for every kind of key, and a label only with a kind-01 key (R84). -/
def opLabel (op : Nat) : Bool := [0x0204, 0x0205, 0x0305, 0x0306, 0x0307, 0x0308, 0x0408, 0x0601, 0x0602].contains op
def opKindLabel (op : Nat) : Bool := [0x0401, 0x0402, 0x0403, 0x0404, 0x0405, 0x0406, 0x0409, 0x040A].contains op
/-- "yes" and "yes*" of the replication column. -/
def opReplYes (op : Nat) : Bool := [0x070B, 0x070C].contains op
def opReplStored (op : Nat) : Bool := opCreates op || [0x0704, 0x0705, 0x0706].contains op
/-- Streaming opcodes (R198). -/
def opStream (op : Nat) : Bool := 0x0401 ≤ op && op ≤ 0x0407
/-- Opcodes that touch the vault, beside stored key fetches (R34). -/
def opVault (op : Nat) : Bool := opReplStored op || [0x0707, 0x0708, 0x070A, 0x070C, 0x0703, 0x0505].contains op

def Job.op (j : Job) : Nat := j.desc.opcode
def Job.n (j : Job) : Nat := j.desc.inputLength
/-- Byte 1 of the header's first four bytes, and so on. -/
def Job.hdr (j : Job) (o : Nat) : Nat := at8 o j.input

/-- A stored target or handle of the job's first handle field. -/
def Job.stored1 (j : Job) : Bool := j.desc.key1 != 0 && hKind j.desc.key1 == 0

/-- RECORD_SEAL over a stored record, where KEY_HANDLE is a handle and not a target (Table 4.11). -/
def Job.overwrites (j : Job) : Bool := j.op == 0x0709 && hKind j.desc.key1 == 0 && hSlot j.desc.key1 != 0

/-- KEY_HANDLE is a creation target of this job. -/
def Job.target (j : Job) : Bool := opCreates j.op && !j.overwrites

/-- Key-changing (R99): marked yes, or yes* with a stored target or object. -/
def Job.changing (j : Job) : Bool := opReplYes j.op || (opReplStored j.op && j.stored1)

/-- An inline public key stands first in the input (R86). -/
def Job.inlineKey (j : Job) : Bool := opInline j.op && j.desc.key1 == 0

/-- The handle that the job reads a key by, first and second field. -/
def Job.handle1 (j : Job) : Option Nat := if opNoKey j.op || j.target || j.inlineKey then none else some j.desc.key1
def Job.handle2 (j : Job) : Option Nat := if opTwoKeys j.op (j.hdr 0) then some j.desc.key2 else none

/-! ## Lengths (Tables 4.6, 6.4) -/

/-- Public key length of an algorithm code; 0 for symmetric codes. -/
def pubLen (a : Nat) : Nat :=
  if a = 1 then 65 else if a = 2 then 97 else if a = 3 then 133 else if a = 4 ∨ a = 5 then 32
  else if a = 0x11 then 256 else if a = 0x12 then 384 else if a = 0x13 then 512
  else if 0x21 ≤ a ∧ a ≤ 0x23 ∨ 0x31 ≤ a ∧ a ≤ 0x33 then latPubLen a else 0

/-- Private or symmetric key length of an algorithm code, as its plaintext (Tables 4.6, 6.4, R166); 0 where it varies. -/
def keyLen (a : Nat) : Nat :=
  if a = 1 ∨ a = 4 ∨ a = 5 then 32 else if a = 2 then 48 else if a = 3 then 66
  else if a = 0x11 then 640 else if a = 0x12 then 960 else if a = 0x13 then 1280
  else if 0x21 ≤ a ∧ a ≤ 0x23 ∨ 0x31 ≤ a ∧ a ≤ 0x33 then 32
  else if a = 0x41 ∨ a = 0x48 then 16 else if a = 0x42 ∨ a = 0x49 then 24
  else if a = 0x46 then 64 else if 0x41 ≤ a ∧ a ≤ 0x4A then 32 else 0

def isEc (a : Nat) : Bool := 1 ≤ a && a ≤ 3
def isRsa (a : Nat) : Bool := 0x11 ≤ a && a ≤ 0x13
def isKem (a : Nat) : Bool := 0x21 ≤ a && a ≤ 0x23
def isDsa (a : Nat) : Bool := 0x31 ≤ a && a ≤ 0x33
def isAes (a : Nat) : Bool := 0x41 ≤ a && a ≤ 0x43
def isSym (a : Nat) : Bool := 0x41 ≤ a && a ≤ 0x4A

/-- Digest and coordinate lengths of a P-curve. -/
def ecDigest (a : Nat) : Nat := if a = 1 then 32 else if a = 2 then 48 else 64
def ecSize (a : Nat) : Nat := if a = 1 then 32 else if a = 2 then 48 else 66

/-- Wrapped length under key wrap with padding. -/
def kwpLen (n : Nat) : Nat := 8 + (n + 7) / 8 * 8

/-- Length of a KEYBLOCK_EXPORT block for an `n`-byte key: header, a KC and a PB block of 16 bytes each, key data and MAC in hex (R207, R209). -/
def keyBlockLen (n : Nat) : Nat := 16 + 32 + 2 * ((2 + n + 15) / 16 * 16) + 32

/-! ## Tags, hashes, streaming rates (Tables 8.4, 8.5) -/

/-- Least, greatest and full tag length of a MAC key. -/
def macTag (a : Nat) : Nat × Nat × Nat :=
  if isAes a then (8, 16, 16) else if a = 0x45 then (16, 32, 32) else if a = 0x46 then (16, 64, 64) else (16, 64, 32)

def hashLen (m : Nat) : Nat := if m = 1 ∨ m = 4 then 32 else if m = 2 ∨ m = 5 then 48 else 64

/-- Bytes per lane cycle as a fraction, by key code. -/
def keyRate (a : Nat) : Nat × Nat :=
  if a = 0x41 then (8, 5) else if a = 0x42 then (4, 3) else if a = 0x44 ∨ a = 0x46 then (16, 5)
  else if a = 0x45 then (2, 1) else if a = 0x47 then (17, 3) else (8, 7)

def hashRate (m : Nat) : Nat × Nat :=
  if m = 1 then (2, 1) else if m = 2 ∨ m = 3 then (16, 5) else if m = 4 then (17, 3) else if m = 5 then (13, 3) else (3, 1)

/-- Segment capacity C (R198) at `lt` lane cycles of lane time. -/
def capacityOf (lt : Nat) (r : Nat × Nat) : Nat := (lt - 1200) * r.1 / r.2 / 4096 * 4096

/-! ## Key-block headers (R207) -/

/-- Decimal digits as a number; none when one is not a digit. -/
def decimal (b : Bytes) : Option Nat :=
  b.foldl (fun a x => match a with
    | none => none
    | some v => if 48 ≤ x.toNat ∧ x.toNat ≤ 57 then some (10 * v + (x.toNat - 48)) else none) (some 0)

def hexDigit (x : Nat) : Option Nat :=
  if 48 ≤ x ∧ x ≤ 57 then some (x - 48) else if 65 ≤ x ∧ x ≤ 70 then some (x - 55) else if 97 ≤ x ∧ x ≤ 102 then some (x - 87) else none

/-- A hex text as bytes. -/
def hexBytes : Bytes → Option Bytes
  | [] => some []
  | a :: b :: r =>
    match hexDigit a.toNat, hexDigit b.toNat, hexBytes r with
    | some x, some y, some t => some (byteOf (16 * x + y) :: t)
    | _, _, _ => none
  | _ => none

def hexText (b : Bytes) : Bytes :=
  (b.map fun x => [x.toNat / 16, x.toNat % 16].map fun d => byteOf (if d < 10 then 48 + d else 55 + d)).flatten

/-- The optional blocks from an offset on: where they end, when each is an allowed one (IK, KC, KP, PB). -/
def optBlocks (b : Bytes) : Nat → Nat → Option Nat
  | 0, o => some o
  | f + 1, o =>
    match hexBytes (cut (o + 2) 2 b) with
    | some [l] =>
      if ([ascii "IK", ascii "KC", ascii "KP", ascii "PB"].contains (cut o 2 b)) && 4 ≤ l.toNat && o + l.toNat ≤ b.length then
        optBlocks b f (o + l.toNat) else none
    | _ => none

/-- A parsed key block: usage, algorithm, mode of use, exportable, the authenticated text, the encrypted data, the MAC. -/
structure KeyBlock where
  usage : Bytes
  alg : Nat
  mode : Nat
  exportable : Bool
  text : Bytes
  data : Bytes
  mac : Bytes

/-- Key usage (Table 9.6) that a key-block usage of Table 8.8 needs; none where it cannot be imported. -/
def kbUsage (u : Bytes) (alg mode : Nat) : Option Nat :=
  let bed := [66, 69, 68].contains mode
  let cgv := [67, 71, 86].contains mode
  if u = ascii "B0" ∧ alg = 65 ∧ (mode = 88 ∨ mode = 78) then some 0x0A
  else if u = ascii "D0" ∧ alg = 65 ∧ bed then some 0x04
  else if u = ascii "K0" ∧ alg = 65 ∧ bed then some 0x06
  else if u = ascii "K1" ∧ alg = 65 ∧ bed then some 0x07
  else if u = ascii "M6" ∧ alg = 65 ∧ cgv then some 0x05
  else if u = ascii "M7" ∧ alg = 72 ∧ cgv then some 0x05
  else if u = ascii "P0" ∧ alg = 65 ∧ bed then some 0x08
  else none

/-- The plaintext header and the optional blocks, checked (R207). -/
def keyBlockOf (b : Bytes) : Option KeyBlock :=
  match decimal (cut 1 4 b), decimal (cut 12 2 b) with
  | some len, some nopt =>
    match optBlocks b nopt 16 with
    | some o =>
      let body := b.drop o
      match hexBytes body with
      | some raw =>
        if at8 0 b = 68 ∧ len = b.length ∧ (kbUsage (cut 5 2 b) (at8 7 b) (at8 8 b)).isSome ∧ (at8 11 b = 69 ∨ at8 11 b = 78) ∧
            raw.length % 16 = 0 ∧ 32 ≤ raw.length then
          some ⟨cut 5 2 b, at8 7 b, at8 8 b, at8 11 b == 69, b.take o, raw.take (raw.length - 16), raw.drop (raw.length - 16)⟩
        else none
      | none => none
    | none => none
  | _, _ => none

/-! ## PAN field, KSN, locker label and token (Tables 8.7, 8.9, 8.10) -/

def nibbles (b : Bytes) : List Nat := (b.map fun x => [x.toNat / 16, x.toNat % 16]).flatten

/-- The PAN field check of Table 8.7. -/
def panOk (b : Bytes) : Bool :=
  match nibbles b with
  | m :: r => decide (m ≤ 7) && (r.take (m + 12)).all (fun d => decide (d ≤ 9)) && (r.drop (m + 12)).all fun d => d == 0
  | [] => false

/-- The PIN field check of Table 8.7. -/
def pinOk (b : Bytes) : Bool :=
  match nibbles b with
  | c :: n :: r =>
    c == 4 && decide (4 ≤ n) && decide (n ≤ 12) && (r.take n).all (fun d => decide (d ≤ 9)) &&
      ((r.take 14).drop n).all fun d => d == 10
  | _ => false

def popCount (v : Nat) : Nat := (List.range 64).foldl (fun a i => a + v / 2 ^ i % 2) 0

/-- The transaction counter of a KSN is not 0 and has at most 16 one-bits (R205). -/
def ksnOk (b : Bytes) : Bool := let c := beNat (cut 8 4 b); c != 0 && decide (popCount c ≤ 16)

def lockerLabelOk (l : Bytes) (issue : Bool) : Bool :=
  l.length == 48 && at8 0 l == 1 && allZero (cut 1 3 l) && allZero (cut 44 4 l) && decide (le 32 4 l ≤ le 36 4 l) &&
    (!issue || (decide (le 32 4 l ≤ le 40 4 l) && decide (le 40 4 l ≤ le 36 4 l)))

def tokenOk (b : Bytes) : Bool :=
  decide (20 ≤ b.length) && decide (b.length ≤ 32) && at8 0 b == 1 && at8 1 b / 2 == 0 && decide (le 12 4 b ≤ le 16 4 b)

/-! ## Shapes -/

/-- What the parse makes of a job's input: whether it agrees with Tables 4.9 to 4.11, the working algorithm code, the largest output, where the processed bytes start, how many there are, how many follow them, and the streaming rate. -/
structure Shape where
  ok : Bool
  alg : Nat
  out : Nat
  off : Nat
  b : Nat
  tail : Nat
  rate : Nat × Nat

/-- Length left after an inline key, and its offset and code (R86): none when the form is wrong, and so INVALID_INPUT in step 3, also for a code that does not fit the opcode (DESIGN CHOICE, assumption log 79). -/
def Job.keyed (j : Job) (a1 : Option Nat) (codes : Nat → Bool) : Option (Option Nat × Nat × Nat) :=
  if j.desc.key1 ≠ 0 then some (a1, j.n, 0)
  else
    let a := j.hdr 0
    let l := le 2 2 j.input
    if 4 ≤ j.n ∧ codes a ∧ j.hdr 1 = 0 ∧ l = pubLen a ∧ 4 + l ≤ j.n then some (some a, j.n - 4 - l, 4 + l) else none

/-- A shape with no streaming part. -/
def plain (ok : Bool) (alg out off : Nat) : Shape := ⟨ok, alg, out, off, 0, 0, (8, 7)⟩

/-- Public-key and lattice shapes (Table 4.9). Where the key is not at hand the output that it decides counts 0: the check is made again with the key (assumption log 9). -/
def Job.shapePk (j : Job) (a1 a2 : Option Nat) : Shape :=
  let n := j.n
  let gen (lo hi : Nat) := plain (n == 4 && decide (lo ≤ j.hdr 0) && decide (j.hdr 0 ≤ hi) && allZero (cut 1 3 j.input)) (j.hdr 0) (pubLen (j.hdr 0)) 0
  let a := a1.getD 0
  let known (p : Nat → Bool) := a1.isSome && p a
  let inl (codes : Nat → Bool) (f : Nat → Nat → Nat → Shape) : Shape :=
    match j.keyed a1 codes with
    | none => plain false 0 0 0
    | some (al, rest, off) => f (al.getD 0) rest off
  match j.op with
  | 0x0101 => plain (if known isEc then n == ecDigest a else [32, 48, 64].contains n) a (if known isEc then 2 * ecSize a else 0) 0
  | 0x0102 => inl isEc fun al rest off => plain (!isEc al || rest == ecDigest al + 2 * ecSize al) al 0 off
  | 0x0103 => plain (decide (n ≤ 1024)) a 64 0
  | 0x0104 => inl (fun c => c == 4) fun al rest off => plain (decide (64 ≤ rest) && decide (rest ≤ 1088)) al 0 off
  | 0x0105 => gen 1 5
  | 0x0106 => plain (!a1.isSome || pubLen a == 0 || n == pubLen a) a 0 0
  | 0x0201 => plain ([32, 48, 64].contains n) a (if known isRsa then pubLen a else 0) 0
  | 0x0202 => plain ([32, 48, 64].contains n) a (if known isRsa then pubLen a else 0) 0
  | 0x0203 => inl isRsa fun al rest off =>
      let d := j.hdr (off + 1)
      plain (decide (4 ≤ rest) && [1, 2].contains (j.hdr off) && [32, 48, 64].contains d && allZero (cut (off + 2) 2 j.input) &&
        (!isRsa al || rest == 4 + d + pubLen al)) al 0 off
  | 0x0204 => plain (!known isRsa || n == pubLen a) a ((if known isRsa then pubLen a else 0) - 66) 0
  | 0x0205 => inl isRsa fun al rest off =>
      let k := if isRsa al then pubLen al else 512
      plain (decide (rest + 66 ≤ k)) al (if isRsa al then k else 0) off
  | 0x0206 => gen 0x11 0x13
  | 0x0301 => gen 0x21 0x23
  | 0x0302 => inl isKem fun al rest off =>
      plain (rest == 0 && (off == 0 || kemEkOk al (j.input.drop 4))) al (if isKem al then latOutLen al else 0) off
  | 0x0303 => plain (!known isKem || n == latOutLen a) a 0 0
  | 0x0304 => gen 0x31 0x33
  | 0x0305 => plain (decide (n ≤ 65536)) a (if known isDsa then latOutLen a else 0) 0
  | 0x0306 => inl isDsa fun al rest off => plain (!isDsa al || (decide (latOutLen al ≤ rest) && decide (rest ≤ 65536 + latOutLen al))) al 0 off
  | 0x0307 => plain (decide (n ≤ 65536)) a (68 + (match a2 with | some d => if isDsa d then latOutLen d else 0 | none => 0)) 0
  | 0x0308 =>
    match a2 with
    | some d =>
      let l := 68 + latOutLen d
      let sig := j.input.drop (n - l)
      plain (!isDsa d || (decide (l ≤ n) && decide (n ≤ 65536 + l) && at8 0 sig == 1 && at8 3 sig == 0 &&
        (!a1.isSome || at8 1 sig == a) && at8 2 sig == d)) a 0 0
    | none => plain true a 0 0
  | _ => plain (tokenOk (j.input.take n)) a (n + 64) 0

/-- Symmetric, payment and locker shapes (Table 4.10). -/
def Job.shapeSym (j : Job) (a1 : Option Nat) : Shape :=
  let n := j.n
  let a := a1.getD 0
  let z (o l : Nat) := allZero (cut o l j.input)
  match j.op with
  | 0x0401 =>
    let aad := le 0 4 j.input
    let nl := j.hdr 4
    let tl := j.hdr 5
    let body := n - 8 - nl - aad
    ⟨decide (8 + nl + aad ≤ n) && (nl == 0 || nl == 12) && decide (12 ≤ tl) && decide (tl ≤ 16) && (a1 != some 0x44 || tl == 16) && z 6 2,
      a, body + tl + (if nl = 0 then 12 else 0), 8 + nl, aad + body, 0, keyRate a⟩
  | 0x0402 =>
    let aad := le 0 4 j.input
    let tl := j.hdr 5
    let body := n - 20 - aad - tl
    ⟨decide (20 + aad + tl ≤ n) && j.hdr 4 == 12 && decide (12 ≤ tl) && decide (tl ≤ 16) && (a1 != some 0x44 || tl == 16) && z 6 2,
      a, body, 20, aad + body, tl, keyRate a⟩
  | 0x0405 =>
    let t := macTag a
    let tag := if j.hdr 0 = 0 then t.2.2 else j.hdr 0
    ⟨decide (4 ≤ n) && z 1 3 && (a1.isNone || (decide (t.1 ≤ tag) && decide (tag ≤ t.2.1))), a, if a1.isSome || j.hdr 0 != 0 then tag else 0, 4, n - 4, 0, keyRate a⟩
  | 0x0406 =>
    let t := macTag a
    let tag := if j.hdr 0 = 0 then t.2.2 else j.hdr 0
    ⟨decide (4 ≤ n) && z 1 3 && (a1.isNone || (decide (t.1 ≤ tag) && decide (tag ≤ t.2.1) && decide (4 + tag ≤ n))), a, 0, 4, n - 4, 0, keyRate a⟩
  | 0x0407 => ⟨decide (4 ≤ n) && decide (1 ≤ j.hdr 0) && decide (j.hdr 0 ≤ 6) && z 1 3, 0, hashLen (j.hdr 0), 4, n - 4, 0, hashRate (j.hdr 0)⟩
  | 0x0408 => plain (n == 4 && decide (0x41 ≤ j.hdr 0) && decide (j.hdr 0 ≤ 0x47) && z 1 3) a 0 0
  | 0x0501 =>
    let f := j.hdr 0
    plain (decide (f ≤ 3) && z 1 3 && n == 36 + 12 * (f % 2) + 12 * (f / 2) && panOk (cut 20 16 j.input) &&
      (f % 2 == 0 || ksnOk (cut 36 12 j.input)) && (f / 2 == 0 || ksnOk (cut (36 + 12 * (f % 2)) 12 j.input))) a 16 0
  | 0x0502 =>
    let f := j.hdr 0
    plain (decide (f ≤ 1) && z 1 3 && n == 44 + 12 * f && panOk (cut 20 16 j.input) && (f == 0 || ksnOk (cut 36 12 j.input))) a 0 0
  | 0x0503 =>
    plain (n == 16 && decide (j.hdr 0 ≤ 1) && decide (1 ≤ j.hdr 1) && decide (j.hdr 1 ≤ 3) && z 2 2 && ksnOk (cut 4 12 j.input)) a
      (if j.hdr 0 = 1 ∧ a1.isSome then keyBlockLen (keyLen (a - 7)) else 0) 0
  | 0x0504 => plain (decide (16 ≤ n) && decide (n ≤ 1024) && (keyBlockOf (j.input.take n)).isSome) a 0 0
  | 0x0505 => plain (n == 0) a (if a1.isSome then keyBlockLen (keyLen a) else 0) 0
  | 0x0601 => plain (n == 4 && decide (6 ≤ j.hdr 0) && decide (j.hdr 0 ≤ 10) && z 1 3 && lockerLabelOk j.label true) a (j.hdr 0) 0
  | 0x0602 =>
    plain (n == 4 + j.hdr 0 && decide (6 ≤ j.hdr 0) && decide (j.hdr 0 ≤ 10) && z 1 3 && lockerLabelOk j.label false &&
      ((j.input.take n).drop 4).all fun c => decide (48 ≤ c.toNat) && decide (c.toNat ≤ 57)) a 0 0
  | 0x0801 => plain (n == 0 && decide (1 ≤ j.desc.capacity) && decide (j.desc.capacity ≤ 4096)) 0 j.desc.capacity 0
  | op =>
    if op = 0x0409 ∨ op = 0x040A then
      let r := j.hdr 0
      let t := j.hdr 1
      let c := le 2 2 j.input
      plain (decide (2 ≤ r) && decide (r ≤ 255) && decide (t ≤ 64) && decide (2 ≤ c) && decide (c ≤ 64) && decide (1000000 ≤ r ^ c) &&
        n == 4 + t + c && (cut (4 + t) c j.input).all fun d => decide (d.toNat < r)) a c (4 + t)
    else
      let m := j.hdr 0
      let iv := j.hdr 1
      let dl := n - 4 - iv
      ⟨decide (4 + iv ≤ n) && decide (1 ≤ m) && decide (m ≤ 4) && iv == (if m = 4 then 0 else 16) && z 2 2 &&
        ((m != 1 && m != 4) || dl % 16 == 0) && (m != 3 || decide (16 ≤ dl)), a, dl, 4, n - 4, 0, if m = 3 then (8, 7) else keyRate a⟩

/-- Key-management shapes (Table 4.11). `k1` is the object, when it is at hand. -/
def Job.shapeMgmt (j : Job) (k1 : Option KeyMat) : Shape :=
  let n := j.n
  let a := (k1.map fun k => k.alg).getD 0
  let len := (k1.map fun k => k.bytes.length).getD 0
  let z (o l : Nat) := allZero (cut o l j.input)
  match j.op with
  | 0x0701 => plain (n == 4 && isSym (j.hdr 0) && z 1 3) (j.hdr 0) 0 0
  | 0x0702 =>
    let c := j.hdr 0
    let want := if keyLen c = 0 then 0 else 4 + kwpLen (keyLen c)
    plain (z 1 3 && want != 0 && n == want) c (pubLen c) 4
  | 0x0703 => plain (n == 0) a (if k1.isSome then kwpLen len else 0) 0
  | 0x0707 => plain (n == 0) a (32 + pubLen a) 0
  | 0x0708 => plain (decide (16 ≤ n) && decide (n ≤ 64)) a (68 + n + (if k1.isSome then (if isSym a || a == 0x4B then 32 else pubLen a) else 0) + 96 + 3309) 0
  | 0x0709 => plain (decide (1 ≤ n) && decide (n ≤ 448)) 0 0 0
  | 0x070A => plain (n == 0) a (if k1.isSome then len else 0) 0
  | 0x070B => plain (n == 8 && decide (j.hdr 0 ≤ 63) && z 1 3 && decide (1 ≤ le 4 4 j.input)) 0 0 0
  | 0x070C => plain (n == 4 && decide (j.hdr 0 ≤ 1) && z 1 3) a 0 0
  | _ => plain (n == 0) a 0 0

/-- The shape of any job. -/
def Job.shape (j : Job) (k1 k2 : Option KeyMat) : Shape :=
  let a1 := k1.map fun k => k.alg
  let a2 := k2.map fun k => k.alg
  if 0x0700 < j.op ∧ j.op < 0x0800 then j.shapeMgmt k1
  else if j.op < 0x0400 ∨ j.op = 0x0603 then j.shapePk a1 a2
  else j.shapeSym a1

/-- The algorithm codes of Table 4.9. -/
def algCodes : List Nat := [1, 2, 3, 4, 5, 0x11, 0x12, 0x13, 0x21, 0x22, 0x23, 0x31, 0x32, 0x33] ++ (List.range 11).map fun i => 0x41 + i

/-- A key of an algorithm with the longest bytes that one has: of a record 448. -/
def longestKey (a : Nat) : KeyMat :=
  { alg := a, policy := 0, flags := 0, bytes := List.replicate (if a = 0x4B then 448 else keyLen a) 0, handle := 0, commitSeq := 0, lastChange := 0 }

/-- Bytes of the output buffer: of the output as the keys give it, or, while a key is not known, of the longest one that any key gives (DESIGN CHOICE, assumption log 80). -/
def Job.outRoom (j : Job) (k1 k2 : Option KeyMat) : Nat :=
  let k2 := if k2.isNone ∧ j.handle2.isSome then some (longestKey 0x33) else k2
  if k1.isSome ∨ j.handle1.isNone then (j.shape k1 k2).out
  else algCodes.foldl (fun m a => max m (j.shape (some (longestKey a)) k2).out) 0

/-- Where the first `k` pieces of a streaming job's input end, at `lt` lane cycles of lane time (R198, R200): the fields before the processed bytes go with the first piece, those after with the last. Any other input is one piece. While the key is unknown the least rate counts (DESIGN CHOICE, assumption log 80). -/
def Job.pieceEnd (j : Job) (k1 : Option KeyMat) (lt k : Nat) : Nat :=
  let sh := j.shape k1 none
  let cap := capacityOf lt sh.rate
  if !opStream j.op || decide (sh.b ≤ k * cap) then j.n else sh.off + k * cap

/-! ## Keys by handle (R227) -/

/-- The ladder's key (R191): `n` bytes from a source key, a Label and a Context. -/
def ladderKey (source : Bytes) (lab ctx : Bytes) (n : Nat) : Bytes :=
  let one (i : Nat) := kmac256 source (beBytes 4 i ++ lab ++ [0] ++ ctx ++ beBytes 4 (8 * n)) 32 (ascii "ILYAR-LADDER")
  (one 1 ++ one 2).take n

/-- The key of a kind-01 handle: Label of Table 8.2, Context the label, or bytes 0 to 39 of a locker label. -/
def State.derive (s : State) (h op : Nat) (label : Bytes) : KeyMat :=
  let lab := ascii "ILYL" ++ [byteOf (dAlg h), byteOf (dPolicy h)] ++ leBytes 2 (hGen h)
  let ctx := if op = 0x0601 ∨ op = 0x0602 then label.take 40 else label
  { alg := dAlg h, policy := dPolicy h, flags := 1, bytes := ladderKey (s.heart (hHeart h)).key lab ctx (keyLen (dAlg h)), handle := h,
    commitSeq := 0, lastChange := (s.heart (hHeart h)).lastChange }

/-- The cache object of a handle: a stored object by its handle, a session object by its entry. -/
def State.cached (s : State) (slice h : Nat) : Option CacheObj :=
  if hKind h = 0 then s.keys.cache.find? fun o => !o.session && o.handle == h
  else s.keys.cache.find? fun o => o.session && o.slice == slice && o.entry == hSlot h && o.handle == h

/-- The key that a handle names now, when no vault read is needed. -/
def State.keyOf (s : State) (j : Job) (h : Nat) : Option KeyMat :=
  if hKind h = 1 then some (s.derive h j.op j.label) else (s.cached j.slice h).map fun o => o.key

def State.key1Of (s : State) (j : Job) : Option KeyMat := j.handle1.bind fun h => s.keyOf j h
def State.key2Of (s : State) (j : Job) : Option KeyMat := j.handle2.bind fun h => s.keyOf j h

/-- Step 4 for one handle (Table 9.4). -/
def State.handleLive (s : State) (slice h : Nat) : Bool :=
  if hKind h ≤ 1 then (let e := s.heart (hHeart h); decide (e.state = .live) && e.owner == slice)
  else if hKind h = 2 then hHeart h == slice && hGen h == s.epoch slice && decide (hSlot h < 32768) && (s.cached slice h).isSome
  else false

/-- Step 5 for one handle: its heart lives on in the handle's generation (a SPENT heart has none, R105). -/
def State.handleFresh (s : State) (h : Nat) : Bool :=
  decide (1 < hKind h) || (hGen h == (s.heart (hHeart h)).generation && decide ((s.heart (hHeart h)).state = .live))

/-- The handles that steps 4 and 5 look at: keys used, and a stored creation target. -/
def Job.checkedHandles (j : Job) : List Nat :=
  (j.handle1.toList ++ j.handle2.toList) ++ (if j.target && j.desc.key1 != 0 then [j.desc.key1] else [])

/-! ## Key usages (Table 9.6) -/

/-- Usage of a policy number. -/
def usageOf (p : Nat) : Nat := p % 128

/-- Algorithm codes that a usage may carry. -/
def usageAlg (u a : Nat) : Bool :=
  match u with
  | 0x01 => (1 ≤ a && a ≤ 4) || isRsa a || isDsa a
  | 0x02 => isEc a || a == 5 || isKem a
  | 0x03 => isRsa a
  | 0x04 => 0x41 ≤ a && a ≤ 0x44
  | 0x05 => isAes a || (0x45 ≤ a && a ≤ 0x47)
  | 0x0A => 0x48 ≤ a && a ≤ 0x4A
  | 0x0B => (0x41 ≤ a && a ≤ 0x47) || a == 0x4B
  | 0x0C => a == 0x47
  | 0x0E => a == 0
  | u => (u == 0x06 || u == 0x07 || u == 0x08 || u == 0x09 || u == 0x0D) && isAes a

/-- Usage and algorithm codes that permit a first key for an opcode (R234, Tables 8.4, 9.6); the header supplies the mode. -/
def Job.allows1 (j : Job) (k : KeyMat) : Bool :=
  let u := usageOf k.policy
  let a := k.alg
  let f := j.hdr 0
  match j.op with
  | 0x0101 => u == 1 && isEc a
  | 0x0102 => u == 1 && isEc a
  | 0x0103 => u == 1 && a == 4
  | 0x0104 => u == 1 && a == 4
  | 0x0106 => u == 2 && (isEc a || a == 5)
  | 0x0201 => u == 1 && isRsa a
  | 0x0202 => u == 1 && isRsa a
  | 0x0203 => u == 1 && isRsa a
  | 0x0204 => u == 3 && isRsa a
  | 0x0205 => u == 3 && isRsa a
  | 0x0302 => u == 2 && isKem a
  | 0x0303 => u == 2 && isKem a
  | 0x0305 => u == 1 && isDsa a
  | 0x0306 => u == 1 && isDsa a
  | 0x0307 => u == 1 && (a == 1 || a == 4)
  | 0x0308 => u == 1 && (a == 1 || a == 4)
  | 0x0401 => u == 4 && decide (0x41 ≤ a) && decide (a ≤ 0x44)
  | 0x0402 => u == 4 && decide (0x41 ≤ a) && decide (a ≤ 0x44)
  | 0x0403 => (if f = 4 then u == 6 else u == 4) && (if f = 3 then a == 0x43 else isAes a)
  | 0x0404 => (if f = 4 then u == 6 else u == 4) && (if f = 3 then a == 0x43 else isAes a)
  | 0x0405 => u == 5 && (isAes a || (decide (0x45 ≤ a) && decide (a ≤ 0x47)))
  | 0x0406 => u == 5 && (isAes a || (decide (0x45 ≤ a) && decide (a ≤ 0x47)))
  | 0x0408 => u == 0x0B && usageAlg 0x0B a && hKind k.handle != 1
  | 0x0409 => u == 0x0D && isAes a
  | 0x040A => u == 0x0D && isAes a
  | 0x0501 => if f % 2 = 1 then u == 0x0A && usageAlg 0x0A a else u == 8 && isAes a
  | 0x0502 => if f % 2 = 1 then u == 0x0A && usageAlg 0x0A a else u == 8 && isAes a
  | 0x0503 => u == 0x0A && usageAlg 0x0A a
  | 0x0601 => u == 0x0C && a == 0x47 && hKind k.handle == 1
  | 0x0602 => u == 0x0C && a == 0x47 && hKind k.handle == 1
  | 0x0603 => u == 1 && a == 4
  | 0x0704 => hKind k.handle != 1
  | 0x0705 => hKind k.handle != 1
  | 0x0706 => hKind k.handle != 1
  | 0x0707 => true
  | 0x0708 => a != 0
  | 0x0709 => u == 0x0E && a == 0 && hKind k.handle == 0
  | 0x070A => u == 0x0E && a == 0 && hKind k.handle == 0
  | 0x070C => hKind k.handle == 0
  | _ => true

/-- The second key (Table 9.6). -/
def Job.allows2 (j : Job) (k : KeyMat) : Bool :=
  let u := usageOf k.policy
  let a := k.alg
  match j.op with
  | 0x0307 => u == 1 && isDsa a
  | 0x0308 => u == 1 && isDsa a
  | 0x0501 => if j.hdr 0 / 2 % 2 = 1 then u == 0x0A && usageAlg 0x0A a else u == 8 && isAes a
  | 0x0502 => u == 9 && isAes a
  | 0x0702 => u == 6 && isAes a
  | 0x0703 => u == 6 && isAes a
  | _ => u == 7 && isAes a

/-- The wrapping key must be AES-256 for these codes (R236). -/
def strongCode (a : Nat) : Bool := [0x43, 0x02, 0x03, 0x12, 0x13, 0x22, 0x23, 0x32, 0x33].contains a

/-- An export is permitted (R209, R236): a stored, exportable-wrapped object with bit 7 set, under a strong enough key. -/
def exportOk (k w : KeyMat) : Bool :=
  hKind k.handle == 0 && bitOf k.policy 7 && bitOf k.flags 2 && (!strongCode k.alg || w.alg == 0x43)

/-- Key-block usage, algorithm and mode letters of an exported key (Table 8.8); none when no row gives one. -/
def kbHeader (k : KeyMat) : Option Bytes :=
  let u := usageOf k.policy
  if u = 0x0A then some (ascii "B0AX") else if u = 0x04 ∧ isAes k.alg then some (ascii "D0AB")
  else if u = 0x06 then some (ascii "K0AB") else if u = 0x07 then some (ascii "K1AB")
  else if u = 0x05 ∧ isAes k.alg then some (ascii "M6AC") else if u = 0x05 ∧ (k.alg = 0x45 ∨ k.alg = 0x46) then some (ascii "M7HC")
  else if u = 0x08 then some (ascii "P0AB") else none

/-- Algorithm code of the object that the job creates, where step 6 can judge it; of a DUKPT working key the AES code, whose lengths every usage lists alike. -/
def Job.newCode (j : Job) : Option Nat :=
  if [0x0105, 0x0206, 0x0301, 0x0304, 0x0701, 0x0702].contains j.op then some (j.hdr 0)
  else if [0x0106, 0x0302, 0x0303].contains j.op then some 0x4B
  else if j.op = 0x0408 then some (j.hdr 0)
  else if j.op = 0x0709 ∧ !j.overwrites then some 0
  else if j.op = 0x0503 ∧ j.hdr 0 = 0 then some 0x41
  else none

/-- Step 6 for the object created: its usage is not reserved and lists its code; a shared secret needs usage 0x0B (R234, R235); a key block's policy permits its usage (R208). -/
def Job.newOk (j : Job) : Bool :=
  match j.newCode with
  | some c => usageAlg (usageOf j.desc.policy) c && (c != 0x4B || usageOf j.desc.policy == 0x0B)
  | none =>
    if j.op = 0x0504 then
      match keyBlockOf (j.input.take j.n) with
      | some kb => kbUsage kb.usage kb.alg kb.mode == some (usageOf j.desc.policy)
      | none => true
    else true

/-- The algorithm code that a kind-01 handle gives its derived key lies in 0x41 to 0x47 (R192). -/
def derivedCode (h : Nat) : Bool := hKind h != 1 || (decide (0x41 ≤ hSlot h / 256 % 256) && decide (hSlot h / 256 % 256 ≤ 0x47))

/-- Step 6 as far as the keys at hand tell. -/
def Job.permitted (j : Job) (groups : Nat) (k1 k2 : Option KeyMat) : Bool :=
  bitOf groups (j.op / 256) && j.newOk && (j.handle1.toList ++ j.handle2.toList).all derivedCode && (match k1 with | some k => j.allows1 k | none => true) &&
    (match k2 with | some k => j.allows2 k | none => true) &&
    (match k1, k2 with
      | some k, some w => (j.op != 0x0703 && j.op != 0x0505) || (exportOk k w && (j.op == 0x0703 || (kbHeader k).isSome))
      | _, _ => true)

/-! ## Step 3: reserved fields, label, targets (R7, R84, R85, R459, R83, R192) -/

/-- The creation target has a form that R85 permits. -/
def targetOk (h : Nat) : Bool := h == 0 || (hKind h == 0 && hSlot h == 0)

/-- The label follows R84. -/
def Job.labelOk (j : Job) : Bool :=
  let l := j.desc.labelLength
  decide (l ≤ 64) && (l == 0 || opLabel j.op || (opKindLabel j.op && hKind j.desc.key1 == 1)) &&
    (decide (8 < l) || allZero (j.desc.labelField.drop l))

/-- Reserved bits of a kind-01 handle are zero (R192). -/
def derivedOk (h : Nat) : Bool := hKind h != 1 || hSlot h / 65536 == 0

def Job.fieldsOk (j : Job) : Bool :=
  let d := j.desc
  d.classFlags / 32 == 0 && d.reserved3 == 0 && d.reserved45 == 0 && decide (d.policy ≤ 255) && decide (d.inputLength ≤ 16777216) &&
    (d.policy == 0 || opCreates j.op || opSession j.op) && (!opNoKey j.op || d.key1 == 0) && (opTwoKeys j.op (j.hdr 0) || d.key2 == 0) &&
    j.labelOk && !(d.noWait && j.changing) && (!j.target || targetOk d.key1) && (j.handle1.toList ++ j.handle2.toList).all derivedOk

/-- SYM_OUTPUT_BUDGET (R201). -/
def State.outputBudget (s : State) : Nat := 557056 * 2 ^ s.period / 2 * s.host.width / 8 / 2 ^ (5 - s.host.gen)

/-- Largest output of a symmetric job (R201). -/
def State.outputLimit (s : State) : Nat := min 262144 s.outputBudget

/-- Step 3 whole. -/
def State.step3 (s : State) (j : Job) (k1 k2 : Option KeyMat) : Bool :=
  let sh := j.shape k1 k2
  j.fieldsOk && sh.ok && (opEngine j.op != engSym || decide (sh.out ≤ s.outputLimit))

/-! ## Quotas (R116, R230) -/

/-- Cache entries of an object (R230). -/
def objEntries (k : KeyMat) : Nat := max 1 (ceilDiv k.bytes.length 512)

/-- The slice that owns a stored handle's heart. -/
def State.handleSlice (s : State) (h : Nat) : Nat := (s.heart (hHeart h)).owner

/-- Entries of a pinned handle: those of its object in the cache, or while it is not there the slots that the object takes in the vault, which are as many (R229, R230). -/
def State.pinEntries (s : State) (h : Nat) : Nat :=
  match s.keys.cache.find? fun o => !o.session && o.handle == h with
  | some o => o.entries
  | none => max 1 (at8 4 ((s.pageSlots (hSlot h / 8)).getD (hSlot h % 8) zeroSlot))

/-- SESSIONS_USED and PINS_USED of a slice: session objects, and their entries with those of the slice's pins. -/
def State.sessionsUsed (s : State) (slice : Nat) : Nat := (s.keys.cache.filter fun o => o.session && o.slice == slice).length
def State.pinsUsed (s : State) (slice : Nat) : Nat :=
  s.sessionsUsed slice + ((s.keys.pins.filter fun h => s.handleSlice h == slice).map s.pinEntries).foldl (· + ·) 0

/-- The job makes a session object. -/
def Job.makesSession (j : Job) : Bool :=
  (opSession j.op && (j.op != 0x0503 || j.hdr 0 == 0)) || (j.target && j.desc.key1 == 0)

/-- Jobs of the slice in progress, parsed before, that will make a session object. -/
def State.sessionsComing (s : State) (j : Job) : Nat :=
  (s.jobs.filter fun i => i.slice == j.slice && i.id != j.id && decide (i.phase ≠ .fetching) && decide (i.phase ≠ .staged) && i.makesSession).length

/-- Step 8. -/
def State.quotaOk (s : State) (j : Job) (k1 : Option KeyMat) : Bool :=
  let pins := s.pinsUsed j.slice + s.sessionsComing j
  if j.makesSession then
    decide (s.sessionsUsed j.slice + s.sessionsComing j + 1 ≤ s.num (Key.SLC_QUOTA_SESSION j.slice)) &&
      decide (pins + 1 ≤ s.num (Key.SLC_QUOTA_PINS j.slice))
  else if j.op = 0x0704 ∧ hKind j.desc.key1 = 0 ∧ ¬ s.keys.pins.contains j.desc.key1 then
    decide (pins + (match k1 with | some k => objEntries k | none => 1) ≤ s.num (Key.SLC_QUOTA_PINS j.slice))
  else true

/-! ## The checks in order (Table 4.7) -/

/-- LOCK is in force, or a response that holds it was begun in an earlier or the present frame (R377). -/
def State.lockNow (s : State) : Bool := s.tamper.locked || s.tamper.respond.any fun r => bitOf r.2.1 2

/-- Steps 1 and 2, which stand before a failed read (R88). -/
def State.parse12 (s : State) (j : Job) : Option Nat :=
  if s.lockNow then some stLocked else if !opKnown j.op then some stUnsupported else none

/-! ## Schedules (Tables 6.5, 7.2, 8.5, 8.6) -/

def rPk : Nat := 37
def rHeavy : Nat := 48
def rLat : Nat := 44
def rSym : Nat := 15

def stage (rate c u : Nat) : Stage := ⟨c, c, u, rate, false⟩
/-- The same stages, the first at a segment boundary. -/
def fresh : List Stage → List Stage
  | [] => []
  | a :: r => { a with fresh := true } :: r

def ecSignCycles (a : Nat) : Nat := if a = 1 then 150000 else if a = 2 then 375000 else if a = 3 then 785000 else 95000
def ecVerifyCycles (a : Nat) : Nat := if a = 1 then 190000 else if a = 2 then 470000 else if a = 3 then 1000000 else 130000
def ecdhCycles (a : Nat) : Nat := if a = 2 then 360000 else if a = 3 then 780000 else 141000
def ecGenCycles (a : Nat) : Nat := if a = 1 then 135000 else if a = 2 then 340000 else if a = 3 then 770000 else if a = 4 then 90000 else 130000
def rsaPrivCycles (a : Nat) : Nat := if a = 0x11 then 1200000 else if a = 0x12 then 3600000 else 7860000
def rsaPubCycles (a : Nat) : Nat := if a = 0x11 then 56000 else if a = 0x12 then 126000 else 224000
def rsaRate (a : Nat) : Nat := if a = 0x13 then rHeavy else rPk

/-- Lattice stages: keygen, encaps or setup, decaps or attempt, verify, expansion, as cycles and demand. -/
def latKeygen (a : Nat) : Stage :=
  if a = 0x21 then stage rLat 45000 28000 else if a = 0x22 then stage rLat 70000 44000 else if a = 0x23 then stage rLat 100000 64000
  else if a = 0x31 then stage rLat 100000 52000 else if a = 0x32 then stage rLat 150000 78000 else stage rLat 210000 110000
def latEncaps (a : Nat) : Stage := if a = 0x21 then stage rLat 50000 32000 else if a = 0x22 then stage rLat 75000 49000 else stage rLat 105000 70000
def latDecaps (a : Nat) : Stage := if a = 0x21 then stage rLat 52000 34000 else if a = 0x22 then stage rLat 80000 53000 else stage rLat 115000 77000
def latVerify (a : Nat) : Stage := if a = 0x31 then stage rLat 95000 44000 else if a = 0x32 then stage rLat 140000 64000 else stage rLat 240000 108000
def latSetup (a : Nat) : Stage := if a = 0x31 then stage rLat 45000 30000 else if a = 0x32 then stage rLat 60000 40000 else stage rLat 85000 56000
def latAttempt (a : Nat) : Stage := if a = 0x31 then stage rLat 30000 17000 else if a = 0x32 then stage rLat 40000 23500 else stage rLat 55000 33000
def latExpand (a : Nat) : Stage :=
  if a = 0x21 then stage rLat 30000 20000 else if a = 0x22 then stage rLat 45000 30000 else if a = 0x23 then stage rLat 65000 43000
  else if a = 0x31 then stage rLat 80000 42000 else if a = 0x32 then stage rLat 125000 65000 else stage rLat 175000 92000
def latPrehash : Stage := stage rLat 25000 25000

/-- The working algorithm of a lane job, and of its second key. -/
def Job.alg1 (j : Job) : Nat :=
  if j.inlineKey || [0x0105, 0x0206, 0x0301, 0x0304].contains j.op then j.hdr 0 else (j.key1.map fun k => k.alg).getD 0
def Job.alg2 (j : Job) : Nat := (j.key2.map fun k => k.alg).getD 0

/-- One round of an RSA key generation, a fixed schedule from a segment boundary on (R146); the spec does not give its lane cycles. -/
def roundStage (a : Nat) : Stage := { stage rHeavy (max 1 (Config.roundCycles (pubLen a))) 0 with fresh := true }

/-- The classical key of a paired signature is one that Table 6.8 refuses (R182): it ends the job after the classical stage. -/
def Job.badHalf (j : Job) : Bool :=
  j.op == 0x0307 && j.key1.any fun k => if k.alg = 1 then beNat k.bytes == 0 || decide (p256.n ≤ beNat k.bytes) else allZero k.bytes

/-- The work ends at an attempt or candidate that its data decide (R146, R173): its plan grows as it runs. -/
def Job.openEnded (j : Job) : Bool := j.op == 0x0206 || j.op == 0x0305 || (j.op == 0x0307 && !j.badHalf)

/-- The stages of one run of the operation, with the attempts or rounds that the plan holds so far; `lt` lane cycles of lane time. -/
def Job.runStages (j : Job) (lt : Nat) : List Stage :=
  let a := j.alg1
  let d := j.alg2
  match j.op with
  | 0x0101 => [stage rPk (ecSignCycles a) 0]
  | 0x0102 => [stage rPk (ecVerifyCycles a) 0]
  | 0x0103 => [stage rPk 95000 0]
  | 0x0104 => [stage rPk 130000 0]
  | 0x0105 => [stage rPk (ecGenCycles a) 0]
  | 0x0106 => [stage rPk (ecdhCycles a) 0]
  | 0x0203 => [stage (rsaRate a) (rsaPubCycles a) 0]
  | 0x0205 => [stage (rsaRate a) (rsaPubCycles a) 0]
  | 0x0206 => List.replicate j.attempts (roundStage a)
  | 0x0301 => [latKeygen a]
  | 0x0302 => if j.inlineKey then [latEncaps a] else [latExpand a, latEncaps a]
  | 0x0303 => [latDecaps a]
  | 0x0304 => [latKeygen a]
  | 0x0305 => latSetup a :: List.replicate j.attempts (latAttempt a)
  | 0x0306 => if j.inlineKey then [latVerify a] else [latExpand a, latVerify a]
  | 0x0307 => [latPrehash, stage rPk (ecSignCycles a) 0] ++ (if j.badHalf then [] else latSetup d :: List.replicate j.attempts (latAttempt d))
  | 0x0308 => [latPrehash, stage rPk (ecVerifyCycles a) 0, latExpand d, latVerify d]
  | 0x0603 => [stage rPk 100000 0]
  | op => if op < 0x0400 then [stage (rsaRate a) (rsaPrivCycles a) 0]
    else
      let c : Nat :=
        if op = 0x0408 then 1600 else if op = 0x0601 ∨ op = 0x0602 then 2000
        else if op = 0x0503 ∧ j.hdr 0 = 0 then 4800 else if op = 0x0501 ∨ op = 0x0502 then 5400
        else if op = 0x0503 ∨ op = 0x0504 ∨ op = 0x0505 then 6000 else if op = 0x0409 ∨ op = 0x040A then 9000
        else if op = 0x0801 then 1200 + ceilDiv j.desc.capacity 2
        else
          let sh := j.shape j.key1 j.key2
          let cap := capacityOf lt sh.rate
          if sh.b ≤ cap then 1200 + ceilDiv (sh.b * sh.rate.2) sh.rate.1 else lt * ceilDiv sh.b cap
      [stage rSym c 0]

/-- The parts of a release check (Table 6.9), each at a segment boundary. -/
def Job.checkStages (j : Job) : List Stage :=
  let a := j.alg1
  let one (r c : Nat) := fresh [stage r c 0]
  match j.op with
  | 0x0101 => one rPk (ecVerifyCycles a)
  | 0x0103 => one rPk 130000
  | 0x0603 => one rPk 130000
  | 0x0307 => one rPk (ecVerifyCycles a)
  | 0x0105 => if a = 5 then one rPk 141000 else one rPk (ecSignCycles a) ++ one rPk (ecVerifyCycles a)
  | 0x0201 => one (rsaRate a) (rsaPubCycles a)
  | 0x0202 => one (rsaRate a) (rsaPubCycles a)
  | 0x0204 => one (rsaRate a) (rsaPubCycles a)
  | 0x0206 => one rHeavy (rsaPrivCycles a) ++ one rHeavy (rsaPubCycles a)
  | _ => []

/-- The release check that the fault checks in `checks` ask for (bit 0 verify-before-release; R82, R150); none after a bad half (R182). -/
def Job.releaseStages (j : Job) : List Stage := if opEngine j.op = engPk ∧ bitOf j.checks 0 ∧ !j.badHalf then j.checkStages else []

/-- What follows the first run: its repetition (bit 1, repeat-and-compare) and the release check (R151, R152). -/
def Job.tailStages (j : Job) (lt : Nat) : List Stage :=
  (if opEngine j.op = engPk ∧ bitOf j.checks 1 ∧ !j.badHalf then fresh (j.runStages lt) else []) ++ j.releaseStages

/-- The whole plan; of an open-ended job the first run as far as it goes. -/
def Job.planOf (j : Job) (lt : Nat) : List Stage :=
  fresh (j.runStages lt) ++ (if j.openEnded && !j.accepted then [] else j.tailStages lt)

/-- Segments that a plan still takes from the start of a lane time (R26): parts that start at boundaries do not share a segment. -/
def segsGo (lt : Nat) : List Stage → Nat → Nat → Nat
  | [], segs, used => segs + (if 0 < used then 1 else 0)
  | st :: r, segs, used =>
    let base := if st.fresh && decide (0 < used) then (segs + 1, 0) else (segs, used)
    let t := base.2 + st.left
    segsGo lt r (base.1 + t / lt) (t % lt)

def planSegs (lt : Nat) (p : List Stage) : Nat := max 1 (segsGo lt p 0 0)

/-- The stretch of a plan that one segment of `room` lane cycles runs: cycles, shared demand, cost × 100,000, and the plan left (R26, R41, R175). -/
def takeSeg : List Stage → Nat → Bool → Nat × Nat × Nat × List Stage
  | [], _, _ => (0, 0, 0, [])
  | st :: r, room, started =>
    if st.fresh && started then (0, 0, 0, st :: r)
    else if room = 0 then (0, 0, 0, st :: r)
    else
      let c := min room st.left
      let dem := ceilDiv (st.demand * c) st.cycles
      if c < st.left then (c, dem, c * st.rate, [{ st with left := st.left - c, fresh := false }] ++ r)
      else
        let t := takeSeg r (room - c) true
        (c + t.1, dem + t.2.1, c * st.rate + t.2.2.1, t.2.2.2)

/-- Credits of a segment (R41): at least 1 for a symmetric job. -/
def segCost (eng raw : Nat) : Nat := let c := ceilDiv raw 100000; if eng = engSym then max 1 c else c

/-! ## Bounds, leave, banks -/

/-- The operation appears in Table 2.4 and its key is not a by-handle lattice public key (R33, R34, R167). The 4 KiB of Table 2.4 counts the whole of INPUT_LENGTH, headers included (DESIGN CHOICE, assumption log 79). -/
def Job.bounded (j : Job) : Bool :=
  let a := j.alg1
  !j.changing && !opVault j.op &&
    (match j.op with
      | 0x0101 => a == 1
      | 0x0102 => a == 1
      | 0x0103 => true
      | 0x0106 => a == 1 || a == 5
      | 0x0303 => a == 0x22
      | 0x0306 => a == 0x32 && j.inlineKey
      | 0x0401 => decide (j.n ≤ 4096)
      | 0x0402 => decide (j.n ≤ 4096)
      | 0x0405 => decide (j.n ≤ 4096)
      | 0x0406 => decide (j.n ≤ 4096)
      | 0x0501 => true
      | 0x0601 => true
      | 0x0602 => true
      | 0x0801 => decide (j.desc.capacity ≤ 256)
      | _ => false)

/-- Class-0 use of a one-segment symmetric or public-key job in sixteenths (R29). -/
def useOf (lt cycles : Nat) : Nat := ceilDiv (16 * cycles) lt

/-- Needs leave (Table 2.8). -/
def Job.heavy (j : Job) : Bool :=
  let a := j.alg1
  ([0x0201, 0x0202, 0x0204].contains j.op && a == 0x13) || j.op == 0x0206 || j.op == 0x0304 || (opStream j.op && decide (65536 < j.n))

/-- N of a heavy job: a full segment at its rate, with the ladder's credit for a derived key. -/
def Job.leaveRate (j : Job) (lt : Nat) : Nat :=
  if j.op = 0x0304 then ceilDiv (lt * rLat) 100000
  else if opStream j.op then ceilDiv (lt * rSym) 100000 + b2n (j.handle1.any fun h => hKind h == 1)
  else ceilDiv (lt * rHeavy) 100000

/-- Needs all four banks (Table 6.1). -/
def Job.fourBanks (j : Job) : Bool := j.alg1 == 0x13 && [0x0201, 0x0202, 0x0204, 0x0206].contains j.op

/-- Secret random bytes of an operation, drawn fresh from the DRBG at admission (Tables 6.7, R171, R197, R209, R218). -/
def Job.secretLen (j : Job) : Nat :=
  let a := j.alg1
  match j.op with
  | 0x0101 => (curveOf a).drawLen
  | 0x0105 => if isEc a then (curveOf a).drawLen else 32
  | 0x0201 => j.n
  | 0x0205 => 32
  | 0x0206 => 48
  | 0x0301 => 32
  | 0x0302 => 32
  | 0x0304 => 32
  | 0x0305 => 32
  | 0x0307 => 32 + (if a = 1 then p256.drawLen else 0)
  | 0x0401 => if j.hdr 4 = 0 then 12 else 0
  | 0x0505 => 28
  | 0x0701 => keyLen (j.hdr 0)
  | 0x0708 => p384.drawLen + 32
  | 0x0801 => j.desc.capacity
  | _ => 0

/-- Blinding bytes of one run of an operation, or of its release check (Table 6.6, R172; the amounts are the model's, assumption log 27). -/
def Job.blindLen (j : Job) : Nat :=
  let a := j.alg1
  let curve : Nat := if isEc a then 2 * (curveOf a).mulLen else 2 * edMulLen
  if opEngine j.op ≠ engPk then 0
  else if j.op / 256 = 1 ∨ j.op = 0x0603 then curve
  else if j.op / 256 = 2 then rsaBlindLen (pubLen a / 2)
  else if j.op = 0x0307 ∨ j.op = 0x0308 then maskLen + curve
  else maskLen

/-- The job's random values are all fresh from the DRBG; else its blinding comes from the lane's stream (Table 6.7, R171). -/
def Job.freshDraws (j : Job) : Bool := !([0x0102, 0x0103, 0x0104, 0x0203, 0x0603, 0x0303, 0x0306, 0x0308].contains j.op)

/-- Blinding bytes of all runs: the operation, its repetition, its release check (R147, R151). -/
def Job.blindAll (j : Job) : Nat := j.blindLen * (1 + b2n (bitOf j.checks 1) + b2n (bitOf j.checks 0))

/-- Bytes drawn fresh from the DRBG at admission, in one request. -/
def Job.drawLen (j : Job) : Nat := j.secretLen + (if j.freshDraws then j.blindAll else 0)

/-- Limbs of an operand of a job (Table 6.1). -/
def Job.limbs (j : Job) : Nat :=
  let a := j.alg1
  if isRsa a then pubLen a / 4 else if isEc a then (curveOf a).limbs else 8

/-- Banks that a job runs in (R136): of class 0 banks 0 and 1, of classes 1 to 3 banks 2 and 3, or all four. -/
def Job.bankUse (j : Job) (limbs : List (BitVec 36)) : BankUse :=
  if j.fourBanks then ⟨j.id, 0, 4, limbs⟩ else ⟨j.id, if j.cls = 0 then 0 else 2, 2, limbs⟩

/-- A byte string as an operand: as many limbs as the operand has, or as the string needs. -/
def limbBytes (w : Nat) (b : Bytes) : List (BitVec 36) := limbsOf (max w (ceilDiv b.length 4)) (beNat b)

/-- The operands that a lane's input port and private wires fill a job's banks with at its first segment: keys, input, random values. Their places are the model's (assumption log 83). -/
def Job.operands (j : Job) : List (BitVec 36) :=
  ((j.key1.map fun k => k.bytes).toList ++ (j.key2.map fun k => k.bytes).toList ++ [j.input.take j.n, j.draws, j.blind]).flatMap (limbBytes j.limbs)

end Sys2Proof.Machine
end

