-- ==== Sys2Proof/Machine/CryptoPay.lean ====
section
/-! DEFINITION. Payment and locker functions: AES DUKPT (ANSI X9.24-3), ISO 9564-1 format 4, X9.143 key blocks, PIN reference values, locker codes (R203 to R214). What these standards say beyond the spec's own words is PRESUMED (assumption log 8). -/

namespace Sys2Proof.Machine

/-! ## AES DUKPT (R205) -/

/-- Algorithm indicator and bit length of an AES key of `n` bytes. -/
def aesIndicator (n : Nat) : Bytes := [0, byteOf (n / 8)] ++ beBytes 2 (8 * n)

/-- One DUKPT derivation: `n` bytes under `key`, for a usage and 8 bytes of derivation data. -/
def dukptStep (key : Bytes) (usage n : Nat) (data : Bytes) : Bytes :=
  let blk (i : Nat) := aesEnc key ([1, byteOf i] ++ beBytes 2 usage ++ aesIndicator n ++ data)
  (blk 1 ++ blk 2).take n

/-- The initial key of an initial key ID. -/
def dukptInitial (bdk keyId : Bytes) : Bytes := dukptStep bdk 0x8001 bdk.length keyId

/-- The working key of a KSN for a usage: the counter's bits from the highest down, one derivation each. -/
def dukptWorking (bdk ksn : Bytes) (usage : Nat) : Bytes :=
  let keyId := ksn.take 8
  let ctr := beNat (cut 8 4 ksn)
  let n := bdk.length
  let r := (List.range 32).foldl (fun (a : Bytes × Nat) i =>
    let m := 2 ^ (31 - i)
    if ctr / m % 2 = 1 then
      let w := a.2 + m
      (dukptStep a.1 0x8000 n (cut 4 4 keyId ++ beBytes 4 w), w)
    else a) (dukptInitial bdk keyId, 0)
  dukptStep r.1 usage n (cut 4 4 keyId ++ beBytes 4 ctr)

/-- Key usage of a usage byte: 1 PIN, 2 MAC, 3 data. -/
def dukptUsage (u : Nat) : Nat := if u = 1 then 0x1000 else if u = 2 then 0x2002 else 0x3002

/-! ## PIN blocks (R203, R204, R206) -/

def pinEncipher (key field pan : Bytes) : Bytes := aesEnc key (xorBytes (aesEnc key field) pan)
def pinDecipher (key block pan : Bytes) : Bytes := aesDec key (xorBytes (aesDec key block) pan)

/-- The PIN key: the key itself, or the DUKPT PIN key of a KSN. -/
def pinKey (dukpt : Bool) (key ksn : Bytes) : Bytes := if dukpt then dukptWorking key ksn 0x1000 else key

/-- The reference value of a PIN field (R206). -/
def pinReference (key field pan : Bytes) : Bytes := (cmac key (field.take 8 ++ List.replicate 8 0 ++ pan)).take 8

/-! ## Key blocks (R207) -/

/-- Encryption (0) or authentication (1) key of a protection key. -/
def kbKey (kbpk : Bytes) (which : Nat) : Bytes :=
  let n := kbpk.length
  let blk (i : Nat) := cmac kbpk ([byteOf i] ++ beBytes 2 which ++ [0] ++ aesIndicator n)
  (blk 1 ++ blk 2).take n

/-- A key block from its authenticated text, the key and the random fill. -/
def kbWrap (kbpk text key fill : Bytes) : Bytes :=
  let body := beBytes 2 (8 * key.length) ++ key ++ fill
  let mac := cmac (kbKey kbpk 1) (text ++ body)
  text ++ hexText (cbcEnc (kbKey kbpk 0) mac body) ++ hexText mac

/-- The key inside a key block; none when its MAC or its length is wrong. -/
def kbUnwrap (kbpk : Bytes) (kb : KeyBlock) : Option Bytes :=
  let body := cbcDec (kbKey kbpk 0) kb.mac kb.data
  let n := beNat (body.take 2)
  if cmac (kbKey kbpk 1) (kb.text ++ body) = kb.mac ∧ n % 8 = 0 ∧ 2 + n / 8 ≤ body.length then some (cut 2 (n / 8) body) else none

/-- Unit code of an imported key by usage and length (Table 8.8). -/
def kbCode (usage : Bytes) (n : Nat) : Option Nat :=
  if usage = ascii "M7" then (if n = 32 then some 0x45 else if n = 64 then some 0x46 else none)
  else
    let base := if usage = ascii "B0" then 0x48 else 0x41
    if n = 16 then some base else if n = 24 then some (base + 1) else if n = 32 then some (base + 2) else none

/-- Decimal digits of a number, `n` of them. -/
def decText : Nat → Nat → Bytes
  | 0, _ => []
  | n + 1, v => decText n (v / 10) ++ [byteOf (48 + v % 10)]

/-- Header of an exported block of `len` bytes with `nopt` optional blocks (R209): version D, key version 00, exportability E. -/
def kbHead (len : Nat) (uam : Bytes) (nopt : Nat) : Bytes :=
  ascii "D" ++ decText 4 len ++ uam ++ ascii "00E" ++ decText 2 nopt ++ ascii "00"

/-- An optional block. -/
def kbOpt (id : String) (data : Bytes) : Bytes := ascii id ++ hexText [byteOf (4 + data.length)] ++ data

/-- Printable fill of a PB block from random bytes. -/
def printable (b : Bytes) : Bytes := b.map fun x => byteOf (65 + x.toNat % 16)

/-- Random bytes that fill the key data to a multiple of 16. -/
def kbPad (n : Nat) : Nat := (16 - (2 + n) % 16) % 16

/-- An exported key block (R209): the key's usage letters, its check value, 12 bytes for the PB block, the fill. -/
def kbExport (kbpk key uam kcv pb fill : Bytes) : Bytes :=
  let opt := kbOpt "KC" (ascii "01" ++ hexText kcv) ++ kbOpt "PB" (printable pb)
  kbWrap kbpk (kbHead (keyBlockLen key.length) uam 2 ++ opt) key (fill.take (kbPad key.length))

/-- An initial key exported with usage B1 and an IK block (R205), the optional blocks filled to a multiple of 16 by a PB block. -/
def kbInitial (kbpk key keyId pb fill : Bytes) : Bytes :=
  let opt := kbOpt "IK" (hexText keyId) ++ kbOpt "PB" (printable pb)
  kbWrap kbpk (kbHead (16 + opt.length + 2 * (2 + key.length + kbPad key.length) + 32) (ascii "B1AX") 2 ++ opt) key (fill.take (kbPad key.length))

/-! ## Locker codes (R212) -/

/-- The code of step `t` with `d` digits. -/
def lockerCode (key : Bytes) (t d : Nat) : Bytes :=
  let h := kmac256 key (beBytes 8 t) 32 (ascii "ILYAR-LOCKER")
  let o := at8 31 h % 16
  let v := if d < 10 then beNat (cut o 4 h) % 2 ^ 31 else beNat (cut o 8 h) % 2 ^ 63
  decText d (v % 10 ^ d)

end Sys2Proof.Machine
end

