-- ==== Sys2Proof/Machine/VaultCore.lean ====
section
/-! DEFINITION. Shared operations of the vault and of sealed objects (chapters 04, 09 and 10): the parse checks that look at objects, sealing and opening, slots and pages, the integrity tree, versions, allocation, the cache fill. -/

namespace Sys2Proof.Machine

/-! ## Sealed objects (R229, Table 9.5) -/

/-- Bytes 0 to 31 of a sealed object. -/
def sealHeader (k : KeyMat) (tick : Nat) : Bytes :=
  let n := k.bytes.length
  [1, byteOf k.alg, byteOf k.policy, byteOf k.flags, byteOf (ceilDiv (n + 60) 512), 0] ++ leBytes 2 n ++
    leBytes 2 (hHeart k.handle) ++ leBytes 2 (hGen k.handle) ++ [0, 0, 0, 0] ++ leBytes 8 tick ++ List.replicate 8 0

/-- Seal an object under a heart key for a first slot. -/
def sealObject (heartKey : Bytes) (k : KeyMat) (slot tick : Nat) : Bytes :=
  let hd := sealHeader k tick
  let nonce := (kmac256 heartKey (hd ++ leBytes 8 slot ++ k.bytes) 32 (ascii "ILYAR-SEAL-IV")).take 12
  let c := gcmSeal heartKey nonce (hd ++ leBytes 8 slot) k.bytes
  hd ++ nonce ++ c.1 ++ c.2

/-- Open a sealed object at a slot: its key material, when the seal holds. -/
def openObject (heartKey : Bytes) (slot : Nat) (b : Bytes) : Option KeyMat :=
  let n := le 6 2 b
  let hd := b.take 32
  match gcmOpen heartKey (cut 32 12 b) (hd ++ leBytes 8 slot) (cut 44 n b) (cut (44 + n) 16 b) with
  | some p => some ⟨at8 1 b, at8 2 b, at8 3 b, p, mkHandle 0 (le 8 2 b) (le 10 2 b) slot, 0, le 16 8 b⟩
  | none => none

/-- Slots that a sealed object uses. -/
def sealedSlots (b : Bytes) : Nat := max 1 (ceilDiv b.length 512)

/-- The 512-byte slots of a sealed object. -/
def slotsOf (b : Bytes) : List Bytes := (List.range (sealedSlots b)).map fun i => cut (512 * i) 512 b

/-- Heart and generation that an object's header names. -/
def headHeart (b : Bytes) : Nat := le 8 2 b
def headGen (b : Bytes) : Nat := le 10 2 b

/-! ## Versions before a pending change -/

/-- The content that a lock's prior entry names, for a reader under NO_REPLICATE_WAIT (R256). -/
def State.priorEntry (s : State) (p : Nat) : Option TreeEntry :=
  (s.vault.journal.reverse.findSome? fun r => (r.items.find? fun i => i.page == p && decide (i.kind = .pendingChange))).map fun i => i.prior

/-- A page's entry before the last group that wrote it, where the journal has it. -/
def State.lastPrior (s : State) (p : Nat) : Option TreeEntry :=
  (s.vault.journal.reverse.findSome? fun r => (r.items.find? fun i => i.page == p && decide (i.kind ≠ .keep) && decide (i.kind ≠ .rollBack))).map fun i => i.prior

/-! ## The path of a page read (R258) -/

/-- Entries of the 3 MiB area of verified nodes that levels 3 to 5 leave free. -/
def nodeArea (n : Nat) : Nat := 768 - (nodeCount n 3 + nodeCount n 4 + 1)

/-- A node in use: the youngest of the area, from which the least recently used goes. -/
def State.touchNode (s : State) (level index : Nat) : State :=
  let l := (s.vault.nodes.filter fun k => decide (k ≠ treeKey level index)) ++ [treeKey level index]
  { s with vault := { s.vault with nodes := l.drop (l.length - nodeArea s.pages) } }

/-- Levels of the nodes on a page's path that have to be read, the highest first: of levels 2 and 1 those not in the area, of the resident levels those that no drive could give at the start. A node that is not written is never read (R252). -/
def State.nodesNeeded (s : State) (page : Nat) : List Nat :=
  [4, 3, 2, 1].filter fun l =>
    let k := treeKey l (page / 128 ^ l)
    (s.entryAt l (page / 128 ^ l)).seq != 0 && (if 3 ≤ l then s.vault.lost.contains k else !s.vault.nodes.contains k)

/-- What a read fetches now: the next missing node of its path, else the page. -/
def State.nextLevel (s : State) (page : Nat) : Nat := (s.nodesNeeded page).headD 0

/-- The nodes of levels 1 and 2 that a page's path finds in the area, as used. -/
def State.touchPath (s : State) (page : Nat) : State :=
  [2, 1].foldl (fun st l => if st.vault.nodes.contains (treeKey l (page / 128 ^ l)) then st.touchNode l (page / 128 ^ l) else st) s

/-- The entry that a read is checked against, and the block it reads. -/
def State.readEntry (s : State) (r : VRead) : TreeEntry :=
  if r.level = 0 then (if r.prior then (s.priorEntry r.page).getD (s.pageEntry r.page) else s.pageEntry r.page) else s.entryAt r.level (r.page / 128 ^ r.level)
def State.readBlock (s : State) (r : VRead) : Nat :=
  if r.level = 0 then pageBlock s.pages r.page (s.readEntry r).frame else nodeBlock s.pages r.level (r.page / 128 ^ r.level) (s.readEntry r).frame

/-- Issue a read that waits: 2 credits (R41), which cover the reads of both drives, and a place in a queue. -/
def State.issueRead (s : State) (r : VRead) : State :=
  if r.issued ∨ (s.drive r.port).room = 0 then s
  else match (if r.second then some s else s.debit pageCredits) with
    | none => s
    | some st =>
      let st := { st with vault := { st.vault with reads := st.vault.reads.map fun x => if x = r then { r with issued := true, since := st.tick } else x } }
      st.submit r.port true (.read (s.readBlock r))
def State.issueReads (s : State) : State := s.vault.reads.foldl State.issueRead s

/-- A read begins, at the first missing node of its page's path. -/
def State.addRead (s : State) (r : VRead) : State := { s with vault := { s.vault with reads := s.vault.reads ++ [r] } }.issueReads
def State.beginRead (s : State) (page port : Nat) (prior : Bool) (jobs : List Nat) : State :=
  (s.touchPath page).addRead
    { page := page, port := port, second := false, jobs := jobs, since := s.tick, prior := prior, firstData := false, level := s.nextLevel page, issued := false }

/-- The page's pending change has been rolled back, and the group that restores its prior entry has not committed yet (R256). -/
def State.rollingBack (s : State) (p : Nat) : Bool := (s.vault.waiting ++ s.vault.group).any fun v => v.page == p && decide (v.kind = .rollBack)

/-! ## Objects on a page and their copies (R262, R263) -/

/-- The objects that a slot map marks in a content: first slots and lengths. -/
def objectsOn (content : List Bytes) (map : Nat) : Nat → Nat → List (Nat × Nat)
  | 0, _ => []
  | f + 1, i =>
    if 8 ≤ i then []
    else if bitOf map i then
      let k := max 1 (min (at8 4 (content.getD i zeroSlot)) (8 - i))
      (i, k) :: objectsOn content map f (i + k)
    else objectsOn content map f (i + 1)

/-- Key of the heart that a sealed object names, while that generation is live. -/
def State.keyFor (s : State) (b : Bytes) : Bytes :=
  let h := s.heart (headHeart b)
  if h.state = .live ∧ h.generation = headGen b then h.key else []

/-- An object's seal opens. -/
def State.opens (s : State) (slot : Nat) (b : Bytes) : Bool := (openObject (s.keyFor b) slot b).isSome

/-- The usable copy of each object of a page from two copies (R262), with the first slots of those in CONFLICT. -/
def State.reconcile (s : State) (p map : Nat) (c0 c1 : List Bytes) : List Bytes × List Nat :=
  let objs := objectsOn c0 map 8 0
  objs.foldl (fun (a : List Bytes × List Nat) o =>
    let b0 := ((List.range o.2).map fun i => c0.getD (o.1 + i) zeroSlot).flatten
    let b1 := ((List.range o.2).map fun i => c1.getD (o.1 + i) zeroSlot).flatten
    let ok0 := s.opens (8 * p + o.1) b0
    let ok1 := s.opens (8 * p + o.1) b1
    if ok0 && ok1 && decide (b0 ≠ b1) then (a.1, a.2 ++ [o.1])
    else if ok0 then a
    else if ok1 then ((List.range o.2).foldl (fun c i => c.set (o.1 + i) (c1.getD (o.1 + i) zeroSlot)) a.1, a.2)
    else (a.1, a.2 ++ [o.1])) (c0, [])

/-- The content of a page in CONFLICT as far as it is usable, and its objects in CONFLICT. -/
def State.conflictPage (s : State) (p : Nat) : List Bytes × List Nat :=
  let e := s.pageEntry p
  if s.vault.d0.inMirror && s.vault.d1.inMirror then s.reconcile p e.slotMap (s.pageOn 0 p e.frame) (s.pageOn 1 p e.frame)
  else
    let c := s.pageSlots p
    s.reconcile p e.slotMap c c

/-! ## The checks of Table 4.7 that look at keys and objects -/

/-- An object that a handle names is in CONFLICT, as far as its page's entry tells before it is read (R262). -/
def State.handleClash (s : State) (h : Nat) : Bool :=
  hKind h == 0 && (s.pageEntry (hSlot h / 8)).conflict && (s.conflictPage (hSlot h / 8)).2.contains (hSlot h % 8)

/-- Step 7: an object that the job names is in CONFLICT; KEY_QUERY and OBJECT_REPAIR pass. -/
def State.clashes (s : State) (j : Job) : Bool :=
  j.op != 0x0707 && j.op != 0x070C && (j.handle1.toList ++ j.handle2.toList).any s.handleClash

/-- Steps 3 to 9 with the keys at hand. -/
def State.parse39 (s : State) (j : Job) (k1 k2 : Option KeyMat) : Option Nat :=
  if !s.step3 j k1 k2 then some stInvalidInput
  else if !(j.checkedHandles.all (s.handleLive j.slice)) then some stUnknown
  else if !(j.checkedHandles.all s.handleFresh) then some stOrphaned
  else if !(j.permitted (s.num (Key.SLC_OPCODE_GROUPS j.slice)) k1 k2) then some stPolicyDenied
  else if s.clashes j then some stConflict
  else if !s.quotaOk j k1 then some stQuota
  else if j.desc.capacity < (j.shape k1 k2).out then some stInvalidInput
  else none

/-- The checks that an object decides, made again when it has been read (R228; assumption log 9). -/
def State.parseKeyed (s : State) (j : Job) (k1 k2 : Option KeyMat) : Option Nat :=
  if !s.step3 j k1 k2 then some stInvalidInput
  else if !(j.permitted (s.num (Key.SLC_OPCODE_GROUPS j.slice)) k1 k2) then some stPolicyDenied
  else if !s.quotaOk j k1 then some stQuota
  else if j.desc.capacity < (j.shape k1 k2).out then some stInvalidInput
  else none

/-! ## Versions -/

/-- Slots of a page taken by changes that wait or are being written. -/
def State.takenMap (s : State) (p : Nat) : Nat :=
  (s.vault.waiting ++ s.vault.group).foldl (fun m v =>
    if v.page = p then v.writes.foldl (fun m w => if w.2.isSome then m ||| 2 ^ w.1 else m) m else m) (s.pageEntry p).slotMap

/-- The lowest free run of `k` slots in a map. -/
def runAt (m k : Nat) : Option Nat := (List.range (9 - k)).find? fun i => (List.range k).all fun d => !bitOf m (i + d)

/-- The lowest page and run for an object of `k` slots (R257). -/
def State.allocate (s : State) (k : Nat) : Option Nat :=
  let pages := min s.pages (s.vault.tree.length + s.vault.waiting.length + s.vault.group.length + s.vault.locked.length + 1)
  (List.range pages).findSome? fun p =>
    if s.vault.locked.contains p || (s.pageEntry p).conflict then none else (runAt (s.takenMap p) k).map fun i => 8 * p + i

/-- Put a change in line for the next commit group: the frame of its coming is the present one. -/
def State.queueVersion (s : State) (v : Version) : State := { s with vault := { s.vault with waiting := s.vault.waiting ++ [{ v with since := s.tick }] } }

/-- Slot writes of a sealed object at a first slot. -/
def writesOf (slot : Nat) (b : Bytes) : List (Nat × Option Bytes) := (slotsOf b).zipIdx.map fun x => (slot % 8 + x.2, some x.1)

/-- Slot writes that free `n` slots from a first slot on. -/
def freesOf (slot n : Nat) : List (Nat × Option Bytes) := (List.range n).map fun i => (slot % 8 + i, none)

/-- The sealed bytes at a slot of a page's content, when the page's map marks it. -/
def sealedAt (content : List Bytes) (slot : Nat) : Bytes :=
  let first := content.getD (slot % 8) zeroSlot
  let k := at8 4 first
  ((List.range (min k (8 - slot % 8))).map fun i => content.getD (slot % 8 + i) zeroSlot).flatten

/-- The journal kind of a change with `k` acknowledgements needed (R256). -/
def changeKind (k : Nat) : ItemKind := if k = 0 then .change else .pendingChange

/-- K in force: CHN_K, or 0 without a domain (R341). -/
def State.kInForce (s : State) : Nat := if s.chain.domainKey.isSome then s.num Key.CHN_K else 0

/-! ## The key cache (R230 to R232) -/

/-- Entries of the cache that hold an object. -/
def State.cacheUsed (s : State) : Nat := s.keys.cache.foldl (fun a o => a + o.entries) 0

/-- Size of the key cache in entries: 32,768 of 512 bytes (Table 1.10). -/
def cacheSize : Nat := 32768

/-- Lowest session entry number that is free and not promised to a job (Table 9.4). -/
def State.freeEntry (s : State) : Nat :=
  let used := (s.keys.cache.filter fun o => o.session).map (fun o => o.entry) ++ (s.jobs.filter fun j => hKind j.newHandle == 2).map fun j => hSlot j.newHandle
  ((List.range cacheSize).find? fun i => !used.contains i).getD 0

/-- Objects that a replacement may evict: not session, not pinned, not the key of an admitted job (R231). -/
def State.evictable (s : State) (o : CacheObj) : Bool :=
  !o.session && !s.keys.pins.contains o.handle &&
    !(s.jobs.any fun j => j.admitted.isSome && decide (j.phase ≠ .staged) && (j.handle1 == some o.handle || j.handle2 == some o.handle))

/-- Evict the least recently used evictable object, at most `fuel` times, until `n` entries are free. -/
def State.makeRoom (s : State) (n : Nat) : Nat → State
  | 0 => s
  | f + 1 =>
    if s.cacheUsed + n ≤ cacheSize then s
    else
      match (s.keys.cache.filter s.evictable).foldl (fun (a : Option CacheObj) o => match a with
          | none => some o
          | some b => if o.used < b.used then some o else some b) none with
      | none => s
      | some v => ({ s with keys := { s.keys with cache := s.keys.cache.filter fun o => decide (o ≠ v) } }).makeRoom n f

/-- Put a stored object into the cache. -/
def State.cacheFill (s : State) (k : KeyMat) : State :=
  let s := { s with keys := { s.keys with cache := s.keys.cache.filter fun o => o.session || decide (o.handle ≠ k.handle) } }
  let s := s.makeRoom (objEntries k) cacheSize
  { s with keys := { s.keys with cache := s.keys.cache ++ [⟨k.handle, k, objEntries k, false, s.handleSlice k.handle, 0, s.tick⟩] } }

/-- Put a session object into the cache. -/
def State.cacheSession (s : State) (slice : Nat) (k : KeyMat) : State :=
  let s := s.makeRoom 1 cacheSize
  { s with keys := { s.keys with cache := s.keys.cache ++ [⟨k.handle, k, 1, true, slice, hSlot k.handle, s.tick⟩] } }

/-- Drop a stored object from the cache. -/
def State.cacheDrop (s : State) (h : Nat) : State :=
  { s with keys := { s.keys with cache := s.keys.cache.filter fun o => o.session || decide (o.handle ≠ h) } }

/-- Wipe the cache entry of a session object (R233). -/
def State.sessionDrop (s : State) (h : Nat) : State :=
  { s with keys := { s.keys with cache := s.keys.cache.filter fun o => !(o.session && o.handle == h) } }

def State.pin (s : State) (h : Nat) : State :=
  { s with keys := { s.keys with pins := if s.keys.pins.contains h then s.keys.pins else s.keys.pins ++ [h] } }
def State.unpin (s : State) (h : Nat) : State := { s with keys := { s.keys with pins := s.keys.pins.filter fun x => decide (x ≠ h) } }

/-! ## Hearts (R220, R222) -/

/-- Bytes 0 to 63 of a heart table entry (Table 9.1). -/
def HeartState.code : HeartState → Nat
  | .empty => 0
  | .live => 1
  | .spent => 2
  | .recovering => 3

def Heart.bytes (h : Heart) : Bytes :=
  fit 32 h.key ++ leBytes 2 h.generation ++ leBytes 2 h.owner ++ [byteOf h.state.code, byteOf (b2n h.certified), 0, 0] ++
    leBytes 8 h.lastChange ++ leBytes 8 h.imageCommit ++ List.replicate 8 0

def heartOf (b : Bytes) : Heart :=
  { key := if at8 36 b = 1 then b.take 32 else [], generation := le 32 2 b % 32768, owner := le 34 2 b,
    state := match at8 36 b with | 1 => .live | 2 => .spent | 3 => .recovering | _ => .empty,
    certified := bitOf (at8 37 b) 0, lastChange := le 40 8 b, imageCommit := le 48 8 b }

/-- Write a heart's table entry with its image in MRAM, the image commit number one higher (R220). -/
def State.putHeart (s : State) (n : Nat) (h : Heart) : State :=
  let h := { h with imageCommit := (s.heart n).imageCommit + 1 }
  let b := h.bytes
  let s := s.setHeart n h
  match s.keys.heartImageKey with
  | some k =>
    let ad := b.drop 32 ++ leBytes 4 n
    let c := gcmSeal k (leBytes 8 h.imageCommit ++ leBytes 4 n) ad (b.take 32)
    s.setImage n (some ⟨c.1, b.drop 32, c.2⟩)
  | none => s

/-- Open a heart's image (R221). -/
def openImage (key : Bytes) (n : Nat) (i : HeartImage) : Option Heart :=
  match gcmOpen key (cut 16 8 i.ad ++ leBytes 4 n) (i.ad ++ leBytes 4 n) i.cipher i.tag with
  | some p => some (heartOf (p ++ i.ad))
  | none => none

/-- A generation of a heart ends (R226): its cache entries, waiting ladder keys and pins go. -/
def State.dropGeneration (s : State) (n gen : Nat) : State :=
  let under (h : Nat) : Bool := decide (hKind h ≤ 1) && hHeart h == n && hGen h == gen
  { s with
    keys := { s.keys with cache := s.keys.cache.filter (fun o => o.session || !under o.handle), pins := s.keys.pins.filter (fun h => !under h) }
    lanes := { s.lanes with ladder := s.lanes.ladder.filter fun k => decide (k.heart ≠ n) } }

/-! ## DRBG service (R275, R280) -/

/-- Draws are refused (R277, R280): no live DRBG, WITHHELD, or DRBG_ONLY with the request counter at 2^20. -/
def State.withheld (s : State) : Bool :=
  !s.ent.drbg.live || s.ent.supply == 4 || (s.ent.supply == 3 && decide (2 ^ 20 ≤ s.ent.sinceReseed))

/-- Take `n` bytes from the DRBG for the unit's own use. -/
def State.draw (s : State) (n : Nat) : Bytes × State :=
  let r := drbgGenerate s.ent.drbg n
  (r.1, { s with ent := { s.ent with drbg := r.2, sinceReseed := s.ent.sinceReseed + 1 } })

end Sys2Proof.Machine
end

