-- ==== Sys2Proof/Machine/JobCore.lean ====
section
/-! DEFINITION. What every operation of a job shares: its outcome, the moment it may be performed, the key it creates. -/

namespace Sys2Proof.Machine

/-- OK with output bytes and a RESULT word. -/
def okOut (output : Bytes) (result : Nat) : Outcome := ⟨stOk, output, result, none, none⟩
/-- A status other than OK: no output, RESULT 0 (R91, R100). -/
def failWith (status : Nat) : Outcome := ⟨status, [], 0, none, none⟩
/-- OK with a created key and output bytes; RESULT becomes the handle once one is given. -/
def okKey (k : KeyMat) (output : Bytes) : Outcome := ⟨stOk, output, 0, none, some k⟩

/-- A key that the unit creates under a policy number (R234, R236): generated-inside, never-exportable, exportable-wrapped. -/
def newKey (alg policy : Nat) (inside : Bool) (bytes : Bytes) : KeyMat :=
  ⟨alg, policy, b2n inside + (if bitOf policy 7 then 4 else 2), bytes, 0, 0, 0⟩

/-- Key bytes of the first and second key. -/
def Job.k1 (j : Job) : Bytes := (j.key1.map fun k => k.bytes).getD []
def Job.k2 (j : Job) : Bytes := (j.key2.map fun k => k.bytes).getD []

/-- The input after its inline key, when there is one (R86). -/
def Job.inlineLen (j : Job) : Nat := if j.inlineKey then 4 + pubLen (j.hdr 0) else 0
def Job.body (j : Job) : Bytes := (j.input.take j.n).drop j.inlineLen
/-- The inline public key. -/
def Job.inlinePub (j : Job) : Bytes := (j.input.drop 4).take (pubLen (j.hdr 0))

/-- The job holds everything its operation needs: it is admitted, its keys and draws are loaded, its input is in, an attempt or candidate of it has been accepted where it makes such, and no status is fixed. -/
def Job.performable (j : Job) : Bool :=
  j.outcome.isNone && j.admitted.isSome && j.accepted && j.forced.isNone && j.inputDone && j.labelDone && j.drawsDone &&
    (decide (j.phase = .running) || decide (j.phase = .parkedLane) || decide (j.phase = .control))

/-- Fix a job's outcome. -/
def State.setOutcome (s : State) (id : Nat) (o : Outcome) : State := s.updJob id fun j => { j with outcome := some o }

/-- Perform an operation on the job `id`, when it is a job of this opcode that can be performed; else nothing changes. `f` gets the job and the number of a free value. -/
def State.perform (s : State) (op id : Nat) (f : Job → Nat → Outcome) : State :=
  match s.job? id with
  | some j => if j.op = op ∧ j.performable then { (s.setOutcome id (f j s.free)) with free := s.free + 1 } else s
  | none => s

/-- A second opcode that runs the same way (decrypt forms and the like) has its own operation; this is the shared guard for commands that name one of two opcodes. -/
def State.mayPerform (s : State) (op id : Nat) : Bool :=
  match s.job? id with
  | some j => j.op == op && j.performable
  | none => false

end Sys2Proof.Machine
end

