-- ==== Sys2Proof/Machine/ChainCore.lean ====
section
/-! DEFINITION. Shared operations of the chain (chapter 13): members and majority, messages and their wire form, replication records, this unit's changes in flight, and the effect of a change. -/

namespace Sys2Proof.Machine

/-! ## Members and majority (R338, R342, R347) -/

/-- Two-byte addresses of a byte string. -/
def addrsOf : Bytes → List Nat
  | a :: b :: r => (a.toNat + 256 * b.toNat) :: addrsOf r
  | _ => []

def addrBytes (l : List Nat) : Bytes := (l.map fun a => leBytes 2 a).flatten

/-- A list kept in nine entries of 478 addresses each (Table 13.11). -/
def State.addrList (s : State) (key : Nat → Nat) : List Nat := (List.range 9).flatMap fun i => addrsOf (s.oct (key i))
def State.setAddrList (s : State) (key : Nat → Nat) (l : List Nat) : State :=
  (List.range 9).foldl (fun st i => st.setOct (key i) (addrBytes ((l.drop (478 * i)).take 478))) s

def State.members (s : State) : List Nat := s.addrList Key.CHN_DOMAIN_MEMBERS

def State.setMembers (s : State) (l : List Nat) : State := s.setAddrList Key.CHN_DOMAIN_MEMBERS (l.foldl (fun acc a => insertAsc a acc) [])

/-- A member is reached: itself, or heard within the last 64 ticks. -/
def State.reaches (s : State) (m : Nat) : Bool :=
  m == s.chain.address || s.chain.heard.any fun h => h.1 == m && decide (s.tick < h.2 + 64)

/-- The unit of the domain whose transfer has not ended, where this unit takes part in it: it is counted in neither K nor the majority (R344; DEDUCED, assumption log 89). -/
def State.joiner (s : State) : Option Nat :=
  if s.chain.join = .transferring then some (if s.chain.joinIsMember then s.chain.transferTo else s.chain.address) else none

/-- The unit reaches a majority of its domain; half counts when it holds the lowest address. -/
def State.majority (s : State) : Bool :=
  let ms := s.members.filter fun m => s.joiner != some m
  let up := ms.filter s.reaches
  decide (ms.length < 2 * up.length) ||
    (decide (ms.length = 2 * up.length) && (match ms with | m :: _ => up.contains m | [] => true))

/-- A message from `src` was received in this frame. -/
def State.hear (s : State) (src : Nat) : State :=
  { s with chain := { s.chain with
      heard := s.chain.heard.filter (fun h => decide (h.1 ≠ src)) ++ [(src, s.tick)],
      unreachable := s.chain.unreachable.filter fun m => decide (m ≠ src) } }

/-! ## Messages (R317 to R322) -/

/-- Priority of a message type (Table 13.4). -/
def msgPriority (t : Nat) : Nat :=
  if t ≤ 0x03 then 0
  else if t = 0x10 ∨ t = 0x11 then 3
  else if t = 0x44 ∨ t = 0x50 then 4
  else if t = 0x30 ∨ t = 0x38 ∨ 0x40 ≤ t then 2
  else 1

/-- Body sealed under the chain key (1), under the join key (2), or in the clear (0). -/
def msgSeal (t : Nat) : Nat :=
  if (0x30 ≤ t ∧ t ≤ 0x35) ∨ t = 0x38 ∨ (0x43 ≤ t ∧ t ≤ 0x45) then 1 else if t = 0x42 then 2 else 0

/-- The chain key (R322). -/
def State.chainKey (s : State) : Bytes :=
  match s.chain.domainKey with
  | some k => kmac256 k (s.oct Key.CHN_DOMAIN_ID) 32 (ascii "ILYAR-CHAIN")
  | none => []

/-- Put a message in line (R317): its id is counted per source. -/
def State.sendMsg (s : State) (type dst : Nat) (body : Bytes) (record : Option ReplRecord) : State :=
  { s with chain := { s.chain with
      msgId := (s.chain.msgId + 1) % 2 ^ 32
      waiting := s.chain.waiting ++ [⟨type, dst, s.chain.msgId, 0, body, record, 0, none⟩] } }

/-- Bytes of a body that one fragment carries. -/
def fragRoom (t : Nat) : Nat := if msgSeal t = 0 then 1004 else 980

/-- Fragments of a message (R320); a tunnel datagram is one as it stands. -/
def ChainMsg.frags (m : ChainMsg) : Nat := if m.head.isSome then 1 else max 1 (ceilDiv m.body.length (fragRoom m.type))

/-- Length of a fragment on the line: header, body and CRC, padded to 8 bytes (R319). -/
def ChainMsg.fragLen (m : ChainMsg) (i : Nat) : Nat :=
  let room := fragRoom m.type
  let extra := if msgSeal m.type = 0 then 0 else 24
  if m.head.isSome then (m.body.length + 20 + 7) / 8 * 8 else (min room (m.body.length - room * i) + extra + 20 + 7) / 8 * 8

/-- Header of a fragment (Table 13.3). -/
def msgHeader (t src dst id frag last len tick : Nat) : Bytes :=
  [byteOf t, byteOf (16 * frag + last)] ++ leBytes 2 src ++ leBytes 2 dst ++ leBytes 2 len ++ leBytes 4 id ++ leBytes 4 tick

/-- One fragment as it stands on the line, without its CRC (R319, R322); the host's own header of a tunnel datagram stands. -/
def State.wireFrag (s : State) (m : ChainMsg) (i : Nat) : Bytes :=
  let room := fragRoom m.type
  let part := (m.body.drop (room * i)).take room
  let src := s.chain.address
  match m.head with
  | some h => h ++ m.body
  | none =>
  if msgSeal m.type = 0 then msgHeader m.type src m.dst m.id i (m.frags - 1) part.length s.tick ++ part
  else
    let hd := msgHeader m.type src m.dst m.id i (m.frags - 1) (part.length + 24) s.tick
    let nonce := leBytes 2 src ++ [0, byteOf (16 * i + (m.frags - 1))] ++ leBytes 4 m.id ++ leBytes 4 s.tick
    let key := if msgSeal m.type = 2 then s.chain.joinKey else s.chainKey
    let c := gcmSeal key nonce hd part
    hd ++ (if msgSeal m.type = 2 then List.replicate 8 0 else fit 8 (s.oct Key.CHN_DOMAIN_ID)) ++ c.1 ++ c.2

/-! ## Replication records (R334, Table 13.8) -/

/-- Kind of a change. -/
def changeCode : Change → Nat
  | .objectWrite _ _ => 1
  | .objectFree _ _ => 2
  | .pin _ => 3
  | .unpin _ => 4
  | .counter _ _ _ => 5
  | .heart _ _ => 6
  | .kValue _ => 7
  | .repair _ _ => 8
  | .imageTag _ _ => 9
  | .members _ => 10

/-- Target and payload. -/
def changeTarget : Change → Bytes
  | .objectWrite slot _ => leBytes 8 slot
  | .objectFree slot _ => leBytes 8 slot
  | .pin h => leBytes 8 (hSlot h)
  | .unpin h => leBytes 8 (hSlot h)
  | .counter sl c _ => leBytes 2 sl ++ [byteOf c] ++ List.replicate 5 0
  | .heart h _ => leBytes 8 h
  | .kValue k => leBytes 8 k
  | .repair slot _ => leBytes 8 slot
  | .imageTag _ tag => fit 8 tag
  | .members _ => List.replicate 8 0
def changePayload : Change → Bytes
  | .objectWrite _ b => b
  | .objectFree _ _ => []
  | .pin _ => []
  | .unpin _ => []
  | .counter _ _ n => leBytes 8 n
  | .heart _ e => fit 48 e
  | .kValue _ => []
  | .repair _ b => b
  | .imageTag _ _ => []
  | .members l => addrBytes l

def recordBytes (r : ReplRecord) : Bytes :=
  let p := changePayload r.change
  leBytes 8 r.seq ++ [byteOf (changeCode r.change), byteOf r.k] ++ List.replicate 6 0 ++ leBytes 8 r.tick ++ changeTarget r.change ++
    leBytes 4 p.length ++ p

/-- The 16 bytes of a replication notice (R460). -/
def noticeBody (writer seq : Nat) : Bytes := leBytes 2 writer ++ List.replicate 6 0 ++ leBytes 8 seq

def State.sendNotice (s : State) (type dst writer seq : Nat) : State := s.sendMsg type dst (noticeBody writer seq) none

/-- Broadcast address. -/
def bcast : Nat := 0xFFF

/-! ## Pages and conflicts of changes (R337) -/

/-- Slot run of a vault change: first slot and length. -/
def changeRun : Change → Option (Nat × Nat)
  | .objectWrite slot b => some (slot, sealedSlots b)
  | .objectFree slot n => some (slot, n)
  | .repair slot b => some (slot, sealedSlots b)
  | _ => none

/-- The object that a change names, by its first slot. -/
def changeObject : Change → Option Nat
  | .objectWrite slot _ => some slot
  | .objectFree slot _ => some slot
  | .repair slot _ => some slot
  | .pin h => some (hSlot h)
  | .unpin h => some (hSlot h)
  | _ => none

/-- Two changes conflict: same heart, same slice counter, same object, or slot runs that overlap. -/
def conflicts (a b : Change) : Bool :=
  (match a, b with
    | .heart x _, .heart y _ => x == y
    | .counter x c _, .counter y d _ => x == y && c == d
    | _, _ => false) ||
  (match changeObject a, changeObject b with
    | some x, some y => x == y
    | _, _ => false) ||
  (match changeRun a, changeRun b with
    | some x, some y => decide (x.1 < y.1 + y.2) && decide (y.1 < x.1 + x.2)
    | _, _ => false)

/-! ## The effect of a change where it applies -/

/-- Counter of a slice advanced (R97); an advance past 2^64 − 1 is not made. -/
def State.counterVal (s : State) (slice c : Nat) : Nat := SMap.get 0 (s.slice slice).counters c
def State.addCounter (s : State) (slice c n : Nat) : State :=
  s.updSlice slice fun x =>
    let v := SMap.get 0 x.counters c + n
    { x with counters := if v < 2 ^ 64 then SMap.set 0 c v x.counters else x.counters }

/-- A heart takes an entry (R220, R226): the old generation's cache entries, pins and ladder keys go when the generation changes; fields of the model's own sweep start anew. -/
def State.setHeartEntry (s : State) (n : Nat) (entry : Bytes) : State :=
  let old := s.heart n
  let h := heartOf (fit 64 entry)
  let s := s.putHeart n { h with lastChange := s.tick, certified := false }
  let s := if old.generation ≠ h.generation ∨ h.state ≠ .live then s.dropGeneration n old.generation else s
  { s with keys := { s.keys with
      sweepFresh := s.keys.sweepFresh.filter (fun x => decide (x ≠ n)), certifiedLast := s.keys.certifiedLast.filter (fun x => decide (x ≠ n)) } }

/-- A pin that has taken effect: an object that is not in the key cache is read into it (R232; assumption log 68). -/
def State.pinIn (s : State) (h : Nat) : State :=
  let s := s.pin h
  if hKind h = 0 ∧ (s.cached 0 h).isNone then { s with keys := { s.keys with reload := insertAsc h s.keys.reload } } else s

/-- A waiting job that names a freed object has lost it (R104). -/
def Job.loses (slot : Nat) (j : Job) : Job :=
  if j.admitted.isNone ∧ j.descDone ∧ (j.handle1.toList ++ j.handle2.toList).any (fun h => hKind h == 0 && hSlot h == slot) then { j with lost := true } else j

/-- The cache, pin list, counters, hearts and settings that a change alters when it applies; vault content goes through groups. -/
def State.applyEffect (s : State) (c : Change) : State :=
  match c with
  | .objectWrite slot b => s.cacheDrop (mkHandle 0 (headHeart b) (headGen b) slot)
  | .objectFree slot _ =>
    { s with
      jobs := s.jobs.map (Job.loses slot)
      keys := { s.keys with
        pins := s.keys.pins.filter (fun h => decide (hSlot h ≠ slot)),
        cache := s.keys.cache.filter fun o => o.session || decide (hSlot o.handle ≠ slot) } }
  | .pin h => s.pinIn h
  | .unpin h => s.unpin h
  | .counter sl n i => s.addCounter sl n i
  | .heart n e => s.setHeartEntry n e
  | .kValue k => s.setNum Key.CHN_K k
  | .repair slot b => s.cacheDrop (mkHandle 0 (headHeart b) (headGen b) slot)
  | .imageTag _ tag => { s with chain := { s.chain with peerTags := s.chain.peerTags ++ [tag] } }
  | .members l => s.setMembers l

/-- Runs on a page that the unit holds under dead hearts and that overlap a run: reclaimed in the same change (R257). -/
def State.deadRuns (s : State) (slot n : Nat) : List (Nat × Option Bytes) :=
  let page := slot / 8
  let content := s.pageSlots page
  (List.range 8).flatMap fun i =>
    let b := content.getD i zeroSlot
    let k := at8 4 b
    let live := (s.heart (headHeart b)).state == .live && (s.heart (headHeart b)).generation == headGen b
    if bitOf (s.pageEntry page).slotMap i && at8 0 b == 1 && !live && decide (i < slot % 8 + n) && decide (slot % 8 < i + k) then
      freesOf (8 * page + i) (min k (8 - i)) else []

/-- A peer's committed change put in line for the vault (R336: kind-0 items). -/
def State.queueChange (s : State) (c : Change) : State :=
  match c with
  | .objectWrite slot b => s.queueVersion ⟨slot / 8, .change, s.deadRuns slot (sealedSlots b) ++ writesOf slot b, none, none, 0⟩
  | .objectFree slot n => s.queueVersion ⟨slot / 8, .change, freesOf slot n, none, none, 0⟩
  | .repair slot b => s.queueVersion ⟨slot / 8, .repair, writesOf slot b, some false, none, 0⟩
  | _ => s

/-- A slot as the changes that wait or are being written leave it. -/
def State.slotNow (s : State) (slot : Nat) : Bytes :=
  let ws := (s.vault.group ++ s.vault.waiting).flatMap fun v => if v.page = slot / 8 then v.writes.filter fun w => w.1 == slot % 8 else []
  match ws.getLast? with
  | some w => w.2.getD zeroSlot
  | none => (s.pageSlots (slot / 8)).getD (slot % 8) zeroSlot

/-- A change as this unit applies it: its record names a pin's object, or a freed one, by its first slot alone (Table 13.8), and the object that stands there tells the rest. -/
def State.changeHere (s : State) (c : Change) : Change :=
  let here (slot : Nat) : Nat := let b := s.slotNow slot; mkHandle 0 (headHeart b) (headGen b) slot
  match c with
  | .pin h => .pin (here (hSlot h))
  | .unpin h => .unpin (here (hSlot h))
  | .objectFree slot n => let b := s.slotNow slot; .objectFree slot (if at8 0 b = 1 then max 1 (min (at8 4 b) (8 - slot % 8)) else n)
  | c => c

/-- A committed change applies on a peer (R336). -/
def State.applyRemote (s : State) (c : Change) : State := let d := s.changeHere c; (s.queueChange d).applyEffect d

/-! ## This unit's changes in flight (R99, R224) -/

/-- Put a change on the chain at frame E = the present frame. With no majority no record is sent (R338); with K = 0 the commit notice goes with it (R340). -/
def State.startOwn (s : State) (change : Change) (k : Nat) (job : Option Nat) (write : Option (Nat × Option DictReq)) (majority : Bool) : State :=
  let r : ReplRecord := ⟨s.chain.seq, k, s.tick, change⟩
  let o : OwnChange := { record := r, e := s.tick, acks := [], job := job, write := write,
                         applyAt := (if k = 0 then some (s.tick + 2) else none), queried := none, holders := [], restarted := false }
  let s := { s with chain := { s.chain with seq := s.chain.seq + 1, own := if k = 0 ∧ job.isNone ∧ write.isNone then s.chain.own else s.chain.own ++ [o] } }
  if s.chain.domainKey.isNone then s
  else if k ≠ 0 && !majority then s
  else
    let s := s.sendMsg 0x30 bcast (recordBytes r) (some r)
    if k = 0 then s.sendNotice 0x32 bcast s.chain.address r.seq else s

/-- The group that ends a pending page version (R256). -/
def State.resolvePage (s : State) (c : Change) (kind : ItemKind) : State :=
  match changeRun c with
  | some run => if s.vault.locked.contains (run.1 / 8) then s.queueVersion ⟨run.1 / 8, kind, [], none, none, 0⟩ else s
  | none => s

/-- Drop a change of this unit. -/
def State.dropOwn (s : State) (seq : Nat) : State :=
  { s with chain := { s.chain with own := s.chain.own.filter fun o => decide (o.record.seq ≠ seq) } }

/-- A change of this unit that has its K acknowledgements applies at a tick. -/
def State.applyOwnAt (s : State) (o : OwnChange) (t : Nat) : State :=
  { s with chain := { s.chain with own := s.chain.own.map fun x => if x.record.seq = o.record.seq then { o with applyAt := some t } else x } }

/-- The changes of a job whose record is released: those that stand have taken effect with it, any other goes on without it (R99, R109). -/
def State.endOwn (s : State) (id : Nat) : State :=
  { s with chain := { s.chain with own := (s.chain.own.filter fun o => !(o.job == some id && o.applyAt.isSome)).map fun o => if o.job = some id then { o with job := none } else o } }

/-- The K-th acknowledgement has arrived, or the peers have decided so (R99, R224, R336): commit notice, page resolved, and the job's record due two ticks on, or the write effective at the next tick. -/
def State.commitOwn (s : State) (o : OwnChange) : State :=
  let s := s.sendNotice 0x32 bcast s.chain.address o.record.seq
  let s := s.resolvePage o.record.change .keep
  match o.job with
  | some id =>
    (s.updJob id fun j => { j with phase := .output, due := s.tick + 2, replicated := true, acks := o.acks }).applyOwnAt o (s.tick + 2)
  | none =>
    if o.write.isSome then s.applyOwnAt o (s.tick + 1)
    else
      match o.record.change with
      | .imageTag sl _ => (s.updSlice sl fun c => { c with migDue := some (s.tick + 2) }).dropOwn o.record.seq
      | _ => (s.applyEffect o.record.change).dropOwn o.record.seq

/-- What rolling a change back does here, beside its job or write (R336, R256). -/
def State.undoOwn (s : State) (o : OwnChange) : State :=
  ((s.sendNotice 0x33 bcast s.chain.address o.record.seq).resolvePage o.record.change .rollBack).dropOwn o.record.seq

/-- A heart is no longer in flight. -/
def State.settleHeart (s : State) (c : Change) : State :=
  match c with
  | .heart n _ => { s with keys := { s.keys with inFlight := s.keys.inFlight.filter fun h => decide (h ≠ n) } }
  | _ => s

end Sys2Proof.Machine
end

