-- ==== Sys2Proof/Machine/PublicKey.lean ====
section
/-! DEFINITION. The operations of the public-key lanes on elliptic curves and RSA (chapter 06: R139 to R149). -/

namespace Sys2Proof.Machine

/-- The private scalar is outside 1 to n − 1 (Table 6.8). -/
def badScalar (c : Curve) (d : Nat) : Bool := d == 0 || decide (c.n ≤ d)

/-- The public point of a job: inline, or of the private key that the handle names. -/
def Job.ecPublic (j : Job) (c : Curve) : Option Jac :=
  c.decode (if j.inlineKey then j.inlinePub else c.publicOf j.blind (beNat j.k1))

/-- ECDSA_SIGN (R139, R149): d outside its range is INVALID_KEY; else r ‖ s under the extra-random-bits k. -/
def opEcdsaSign (j : Job) (_ : Nat) : Outcome :=
  let c := curveOf j.alg1
  let d := beNat j.k1
  if badScalar c d then failWith stInvalidKey else okOut (c.sign j.blind d (j.input.take j.n) (c.secrets j.draws)) 0

def execEcdsaSign (job : Nat) (s : State) : Res := .next (s.perform 0x0101 job opEcdsaSign)

/-- ECDSA_VERIFY (R139, R149). -/
def opEcdsaVerify (j : Job) (_ : Nat) : Outcome :=
  let c := curveOf j.alg1
  let b := j.body
  match j.ecPublic c with
  | none => failWith stInvalidPoint
  | some q => if c.verify j.blind q (b.take (ecDigest j.alg1)) (b.drop (ecDigest j.alg1)) then okOut [] 0 else failWith stVerifyFailed

def execEcdsaVerify (job : Nat) (s : State) : Res := .next (s.perform 0x0102 job opEcdsaVerify)

/-- EDDSA_SIGN (R140, R149): an all-zero seed is INVALID_KEY. -/
def opEddsaSign (j : Job) (_ : Nat) : Outcome :=
  if allZero j.k1 then failWith stInvalidKey else okOut (edSign j.blind j.k1 (j.input.take j.n)) 0

def execEddsaSign (job : Nat) (s : State) : Res := .next (s.perform 0x0103 job opEddsaSign)

/-- EDDSA_VERIFY (R140, R149): the point A first, then the cofactored equation. -/
def opEddsaVerify (j : Job) (_ : Nat) : Outcome :=
  let pub := if j.inlineKey then j.inlinePub else edPublic j.blind j.k1
  let b := j.body
  let m := b.take (b.length - 64)
  match edDecode pub with
  | none => failWith stInvalidPoint
  | some a =>
    if edSmall a then failWith stInvalidPoint
    else if edVerify j.blind a pub m (b.drop (b.length - 64)) then okOut [] 0 else failWith stVerifyFailed

def execEddsaVerify (job : Nat) (s : State) : Res := .next (s.perform 0x0104 job opEddsaVerify)

/-- EC_KEYGEN (R143, R149, Table 6.3): the private key as Table 6.4, its public key as output; a drawn Ed25519 seed of all zeros is refused. -/
def opEcKeygen (j : Job) (_ : Nat) : Outcome :=
  let a := j.hdr 0
  let b := j.draws.take 32
  if isEc a then
    let c := curveOf a
    let d := c.secretOf (j.draws.take c.drawLen)
    okKey (newKey a j.desc.policy true (beBytes c.bytes d)) (c.publicOf j.blind d)
  else if a = 4 ∧ allZero b then failWith stInvalidKey
  else okKey (newKey a j.desc.policy true b) (if a = 4 then edPublic j.blind b else x25519Public j.blind b)

def execEcKeygen (job : Nat) (s : State) : Res := .next (s.perform 0x0105 job opEcKeygen)

/-- ECDH_DERIVE (R141, R149, R235): the secret goes to a session object of code 0x4B. -/
def opEcdhDerive (j : Job) (_ : Nat) : Outcome :=
  let peer := j.input.take j.n
  let key (b : Bytes) := okKey (newKey 0x4B j.desc.policy true b) []
  if j.alg1 = 5 then
    let u := leNat peer
    if x25519PeerOk u then key (x25519 j.blind j.k1 u) else failWith stInvalidPoint
  else
    let c := curveOf j.alg1
    let d := beNat j.k1
    if badScalar c d then failWith stInvalidKey
    else match c.decode peer with
      | none => failWith stInvalidPoint
      | some q => key (c.cdh j.blind d q)

def execEcdhDerive (job : Nat) (s : State) : Res := .next (s.perform 0x0106 job opEcdhDerive)

/-- An RSA private key with dp = 0 or dq = 0 (Table 6.8). -/
def badRsa (k : RsaKey) : Bool := k.dp == 0 || k.dq == 0

/-- RSA_SIGN_PSS (R142): the salt is the job's fresh draw. -/
def opRsaSignPss (j : Job) (_ : Nat) : Outcome :=
  let k := rsaKeyOf j.k1
  let len := pubLen j.alg1
  if badRsa k then failWith stInvalidKey
  else okOut (beBytes len (k.priv j.blind (beNat (pssEncode len (j.input.take j.n) (j.draws.take j.n))))) 0

def execRsaSignPss (job : Nat) (s : State) : Res := .next (s.perform 0x0201 job opRsaSignPss)

/-- RSA_SIGN_PKCS1 (R142). -/
def opRsaSignPkcs1 (j : Job) (_ : Nat) : Outcome :=
  let k := rsaKeyOf j.k1
  let len := pubLen j.alg1
  if badRsa k then failWith stInvalidKey else okOut (beBytes len (k.priv j.blind (beNat (pkcs1Encode len (j.input.take j.n))))) 0

def execRsaSignPkcs1 (job : Nat) (s : State) : Res := .next (s.perform 0x0202 job opRsaSignPkcs1)

/-- The modulus of a job's RSA public key. -/
def Job.rsaN (j : Job) : Nat := if j.inlineKey then beNat j.inlinePub else (rsaKeyOf j.k1).n

/-- RSA_VERIFY (R142, R149): a representative of 0 or ≥ n is INVALID_INPUT. -/
def opRsaVerify (j : Job) (_ : Nat) : Outcome :=
  let b := j.body
  let dl := at8 1 b
  let digest := cut 4 dl b
  let sig := beNat (b.drop (4 + dl))
  let n := j.rsaN
  let len := pubLen j.alg1
  if sig = 0 ∨ n ≤ sig then failWith stInvalidInput
  else
    let em := beBytes len (rsaPub n sig)
    if (if at8 0 b = 1 then pssVerify len digest em else em == pkcs1Encode len digest) then okOut [] 0 else failWith stVerifyFailed

def execRsaVerify (job : Nat) (s : State) : Res := .next (s.perform 0x0203 job opRsaVerify)

/-- RSA_DECRYPT_OAEP (R142, R149): a decoding failure is VERIFY_FAILED. -/
def opRsaDecryptOaep (j : Job) (_ : Nat) : Outcome :=
  let k := rsaKeyOf j.k1
  let c := beNat (j.input.take j.n)
  if badRsa k then failWith stInvalidKey
  else if c = 0 ∨ k.n ≤ c then failWith stInvalidInput
  else match oaepDecode j.label (beBytes (pubLen j.alg1) (k.priv j.blind c)) with
    | some m => okOut m 0
    | none => failWith stVerifyFailed

def execRsaDecryptOaep (job : Nat) (s : State) : Res := .next (s.perform 0x0204 job opRsaDecryptOaep)

/-- RSA_ENCRYPT_OAEP (R142): the seed is the job's fresh draw. -/
def opRsaEncryptOaep (j : Job) (_ : Nat) : Outcome :=
  let len := pubLen j.alg1
  okOut (beBytes len (rsaPub j.rsaN (beNat (oaepEncode len j.label (j.draws.take 32) j.body)))) 0

def execRsaEncryptOaep (job : Nat) (s : State) : Res := .next (s.perform 0x0205 job opRsaEncryptOaep)

/-- Modulus bits of an RSA code. -/
def rsaBits (a : Nat) : Nat := 8 * pubLen a

/-- The search of an RSA key generation before its first round: candidates are expanded from its fresh draw (assumption log 27). -/
def Job.searchStart (j : Job) : RsaSearch := ⟨drbgInit (fit 48 j.draws), none, none⟩

/-- RSA_KEYGEN (R143, R146): the key that the job's search has found. -/
def opRsaKeygen (j : Job) (_ : Nat) : Outcome :=
  let a := j.hdr 0
  match j.search.bind fun r => r.key with
  | some b => okKey (newKey a j.desc.policy true b) (beBytes (pubLen a) (rsaKeyOf b).n)
  | none => failWith stFault

def execRsaKeygen (job : Nat) (s : State) : Res := .next (s.perform 0x0206 job opRsaKeygen)

/-- LOCKER_TOKEN_SIGN (R214): ILYAR-LKT1 and the body signed with Ed25519; the body then the signature is the output. -/
def opLockerTokenSign (j : Job) (_ : Nat) : Outcome :=
  let b := j.input.take j.n
  okOut (b ++ edSign j.blind j.k1 (ascii "ILYAR-LKT1" ++ b)) 0

def execLockerTokenSign (job : Nat) (s : State) : Res := .next (s.perform 0x0603 job opLockerTokenSign)

/-- The public key of a private key, in the encoding of Table 4.6; empty for symmetric codes. -/
def publicOf (a : Nat) (b : Bytes) : Bytes :=
  if isEc a then (curveOf a).publicOf [] (beNat b)
  else if a = 4 then edPublic [] b
  else if a = 5 then x25519Public [] b
  else if isRsa a then beBytes (pubLen a) (rsaKeyOf b).n
  else if isKem a then kemPublic (maskOfBytes []) a b
  else if isDsa a then dsaPublic (maskOfBytes []) a b
  else []

end Sys2Proof.Machine
end

