-- ==== Sys2Proof/Machine/Lattice.lean ====
section
/-! DEFINITION. The lattice operations and paired signatures (chapter 07: R165 to R171, R181 to R184). -/

namespace Sys2Proof.Machine

/-- The shares and the butterfly order of a job's run (R172). -/
def Job.mask (j : Job) : Mask := maskOfBytes (fit maskLen j.blind)

/-- The lattice public key of a job: inline, or expanded from the seed that the handle names (R167). -/
def Job.latPublic (j : Job) : Bytes :=
  if j.inlineKey then j.inlinePub else if isKem j.alg1 then kemPublic j.mask j.alg1 j.k1 else dsaPublic j.mask j.alg1 j.k1

/-- MLKEM_KEYGEN (R166). -/
def opMlkemKeygen (j : Job) (_ : Nat) : Outcome :=
  okKey (newKey (j.hdr 0) j.desc.policy true (j.draws.take 32)) (kemPublic j.mask (j.hdr 0) (j.draws.take 32))

def execMlkemKeygen (job : Nat) (s : State) : Res := .next (s.perform 0x0301 job opMlkemKeygen)

/-- MLKEM_ENCAPS (R169): m is the job's fresh draw. -/
def opMlkemEncaps (j : Job) (_ : Nat) : Outcome :=
  let r := kemEncaps j.mask j.alg1 j.latPublic (j.draws.take 32)
  okKey (newKey 0x4B j.desc.policy true r.2) r.1

def execMlkemEncaps (job : Nat) (s : State) : Res := .next (s.perform 0x0302 job opMlkemEncaps)

/-- MLKEM_DECAPS (R169, R95): an all-zero seed takes no status of its own. -/
def opMlkemDecaps (j : Job) (_ : Nat) : Outcome :=
  okKey (newKey 0x4B j.desc.policy true (kemDecaps j.mask j.alg1 j.k1 (j.input.take j.n))) []

def execMlkemDecaps (job : Nat) (s : State) : Res := .next (s.perform 0x0303 job opMlkemDecaps)

/-- MLDSA_KEYGEN (R166). -/
def opMldsaKeygen (j : Job) (_ : Nat) : Outcome :=
  okKey (newKey (j.hdr 0) j.desc.policy true (j.draws.take 32)) (dsaPublic j.mask (j.hdr 0) (j.draws.take 32))

def execMldsaKeygen (job : Nat) (s : State) : Res := .next (s.perform 0x0304 job opMldsaKeygen)

/-- The composite message M′ (Table 7.4). -/
def composite (classical dsa : Nat) (ctx m : Bytes) : Bytes :=
  ascii "ILYAR-PAIR-SIG01" ++ [byteOf classical, byteOf dsa, byteOf ctx.length, 0] ++ beBytes 4 m.length ++ ctx ++ sha3_512 m

/-- M′ of a paired job. -/
def Job.composite (j : Job) (m : Bytes) : Bytes := Sys2Proof.Machine.composite j.alg1 j.alg2 j.label m

/-- Attempt `n` of a signing job's ML-DSA part (R173), alone or as the half of a pair: the signature, where the attempt is accepted. -/
def Job.dsaAttemptAt (j : Job) (n : Nat) : Option Bytes :=
  if j.op = 0x0305 then dsaTry j.mask j.alg1 j.k1 j.label (j.input.take j.n) (j.draws.take 32) n
  else dsaTry j.mask j.alg2 j.k2 j.label (j.composite (j.input.take j.n)) (j.draws.take 32) n

/-- The signature of the last attempt that a job's plan holds: the accepted one. -/
def Job.dsaLast (j : Job) : Option Bytes := j.dsaAttemptAt (j.attempts - 1)

/-- MLDSA_SIGN (R170, R173): the signature of the attempt that was accepted. -/
def opMldsaSign (j : Job) (_ : Nat) : Outcome :=
  match j.dsaLast with
  | some b => okOut b 0
  | none => failWith stFault

def execMldsaSign (job : Nat) (s : State) : Res := .next (s.perform 0x0305 job opMldsaSign)

/-- MLDSA_VERIFY (R170). -/
def opMldsaVerify (j : Job) (_ : Nat) : Outcome :=
  let b := j.body
  let l := b.length - latOutLen j.alg1
  if dsaVerify j.mask j.alg1 j.latPublic j.label (b.take l) (b.drop l) then okOut [] 0 else failWith stVerifyFailed

def execMldsaVerify (job : Nat) (s : State) : Res := .next (s.perform 0x0306 job opMldsaVerify)

/-- Classical half of a paired signature over M′ (R182): ECDSA P-256 of SHA-256(M′), or Ed25519 of M′; none for a key that Table 6.8 refuses. -/
def classicalSign (bl : Bytes) (alg : Nat) (key draws m' : Bytes) : Option Bytes :=
  if alg = 1 then (if badScalar p256 (beNat key) then none else some (p256.sign bl (beNat key) (sha256 m') (p256.secrets draws)))
  else if allZero key then none else some (edSign bl key m')

/-- PAIRED_SIGN (R182, R183): the classical half, then ML-DSA; a bad classical key ends it with INVALID_KEY. -/
def opPairedSign (j : Job) (_ : Nat) : Outcome :=
  match classicalSign (j.blind.drop maskLen) j.alg1 j.k1 (cut 32 p256.drawLen j.draws) (j.composite (j.input.take j.n)), j.dsaLast with
  | none, _ => failWith stInvalidKey
  | some c, some d => okOut ([1, byteOf j.alg1, byteOf j.alg2, 0] ++ c ++ d) 0
  | some _, none => failWith stFault

def execPairedSign (job : Nat) (s : State) : Res := .next (s.perform 0x0307 job opPairedSign)

/-- PAIRED_VERIFY (R184): both halves over M′; INVALID_POINT for a classical public key that Table 6.8 refuses. -/
def opPairedVerify (j : Job) (_ : Nat) : Outcome :=
  let b := j.input.take j.n
  let l := b.length - (68 + latOutLen j.alg2)
  let m' := composite j.alg1 j.alg2 j.label (b.take l)
  let c := cut (l + 4) 64 b
  let bl := j.blind.drop maskLen
  let dsa := dsaVerify j.mask j.alg2 (dsaPublic j.mask j.alg2 j.k2) j.label m' (b.drop (l + 68))
  let classical : Option Bool :=
    if j.alg1 = 1 then (p256.decode (p256.publicOf bl (beNat j.k1))).map fun q => p256.verify bl q (sha256 m') c
    else match edDecode (edPublic bl j.k1) with
      | some a => if edSmall a then none else some (edVerify bl a (edPublic bl j.k1) m' c)
      | none => none
  match classical with
  | none => failWith stInvalidPoint
  | some ok => if ok && dsa then okOut [] 0 else failWith stVerifyFailed

def execPairedVerify (job : Nat) (s : State) : Res := .next (s.perform 0x0308 job opPairedVerify)

/-! ## Open-ended work (R146, R173) -/

/-- The next attempt or candidate of an open-ended job, at the end of the last one that its plan holds: it ends the work, or one more follows. -/
def Job.growOne (j : Job) (lt : Nat) : Job :=
  if j.op = 0x0206 then
    let r := rsaRound (rsaBits (j.hdr 0)) (j.search.getD j.searchStart)
    let j := { j with search := some r, accepted := r.key.isSome }
    if r.key.isSome then { j with plan := j.plan ++ j.tailStages lt } else { j with attempts := j.attempts + 1, plan := j.plan ++ [roundStage j.alg1] }
  else if (j.dsaLast).isSome then
    let j := { j with accepted := true }
    { j with plan := j.plan ++ j.tailStages lt }
  else { j with attempts := j.attempts + 1, plan := j.plan ++ [latAttempt (if j.op = 0x0305 then j.alg1 else j.alg2)] }

/-- The plan of an open-ended job made longer until it reaches past `segs` more segments, or to the end of the work. -/
def Job.grow (lt segs : Nat) : Nat → Job → Job
  | 0, j => j
  | f + 1, j => if j.accepted || decide (segs < planSegs lt j.plan) then j else Job.grow lt segs f (j.growOne lt)

/-- The plan reaches past the next segment: what a lane needs to know as that segment runs. -/
def Job.grown (j : Job) (lt : Nat) : Job := Job.grow lt 1 (lt + 1) j

/-! ## Fault checks (R150 to R152) -/

/-- The job of the second run: the same secret values, fresh blinding (R151). -/
def Job.second (j : Job) : Job := { j with blind := j.blind.drop j.blindLen }

/-- Blinding of the release check. -/
def Job.checkBlind (j : Job) : Bytes := j.blind.drop (j.blindLen * (1 + b2n (bitOf j.checks 1)))

/-- The fixed internal digest, message and representative of the checks of key generation; the spec does not give them. -/
def checkDigest : Bytes := Config.checkDigest

/-- The release check of a result (Table 6.9); an operation without one passes. -/
def Job.releaseCheck (j : Job) (o : Outcome) : Bool :=
  let bl := j.checkBlind
  let c := curveOf j.alg1
  let key := (o.created.map fun k => k.bytes).getD []
  let m := j.input.take j.n
  let edCheck (key msg sig : Bytes) : Bool := (edDecode (edPublic bl key)).any fun a => edVerify bl a (edPublic bl key) msg sig
  let rsa := rsaKeyOf j.k1
  let len := pubLen j.alg1
  if o.status ≠ stOk then true
  else match j.op with
    | 0x0101 => (c.decode (c.publicOf bl (beNat j.k1))).any fun q => c.verify bl q m o.output
    | 0x0103 => edCheck j.k1 m o.output
    | 0x0603 => edCheck j.k1 (ascii "ILYAR-LKT1" ++ m) (o.output.drop m.length)
    | 0x0307 => (let m' := j.composite m
        if j.alg1 = 1 then (p256.decode (p256.publicOf bl (beNat j.k1))).any fun q => p256.verify bl q (sha256 m') (cut 4 64 o.output)
        else edCheck j.k1 m' (cut 4 64 o.output))
    | 0x0105 => if isEc j.alg1 then
          (c.decode o.output).any fun q => c.verify bl q checkDigest (c.sign bl (beNat key) checkDigest (c.secrets bl))
        else if j.alg1 = 4 then edCheck key checkDigest (edSign bl key checkDigest) && edPublic bl key == o.output
        else x25519Public bl key == o.output
    | 0x0201 => pssVerify len m (beBytes len (rsaPub rsa.n (beNat o.output)))
    | 0x0202 => beBytes len (rsaPub rsa.n (beNat o.output)) == pkcs1Encode len m
    | 0x0204 => rsaPub rsa.n (rsa.priv j.blind (beNat m)) == beNat m
    | 0x0206 => (let k := rsaKeyOf key
        rsaPub k.n (k.priv bl (beNat checkDigest)) == beNat checkDigest % k.n)
    | _ => true

end Sys2Proof.Machine
end

