-- ==== Sys2Proof/Machine/Symmetric.lean ====
section
/-! DEFINITION. The operations of the symmetric lanes: ciphers, MACs, hashes, derivation, FF1, payment and locker functions, random bytes (chapter 08: R195 to R214, R284). -/

namespace Sys2Proof.Machine

/-- The bytes of the input from an offset, `n` of them. -/
def Job.at (j : Job) (o n : Nat) : Bytes := cut o n j.input

/-- AEAD_SEAL (R196, R197): a nonce length of 0 takes the drawn nonce and puts it first in the output. -/
def opAeadSeal (j : Job) (_ : Nat) : Outcome :=
  let aad := le 0 4 j.input
  let nl := j.hdr 4
  let nonce := if nl = 0 then j.draws.take 12 else j.at 8 12
  let pt := (j.input.take j.n).drop (8 + nl + aad)
  let r := if j.alg1 = 0x44 then chachaSeal j.k1 nonce (j.at (8 + nl) aad) pt else gcmSeal j.k1 nonce (j.at (8 + nl) aad) pt
  okOut ((if nl = 0 then nonce else []) ++ r.1 ++ r.2.take (j.hdr 5)) 0

def execAeadSeal (job : Nat) (s : State) : Res := .next (s.perform 0x0401 job opAeadSeal)

/-- AEAD_OPEN (R202): the plaintext only when the tag passes. -/
def opAeadOpen (j : Job) (_ : Nat) : Outcome :=
  let aad := le 0 4 j.input
  let tl := j.hdr 5
  let len := j.n - 20 - aad - tl
  let ct := j.at (20 + aad) len
  let tag := j.at (20 + aad + len) tl
  match (if j.alg1 = 0x44 then chachaOpen j.k1 (j.at 8 12) (j.at 20 aad) ct tag else gcmOpen j.k1 (j.at 8 12) (j.at 20 aad) ct tag) with
  | some m => okOut m 0
  | none => failWith stVerifyFailed

def execAeadOpen (job : Nat) (s : State) : Res := .next (s.perform 0x0402 job opAeadOpen)

/-- A CIPHER_ mode on the data after the IV (Table 8.4). -/
def Job.cipher (j : Job) (dec : Bool) : Bytes :=
  let iv := j.at 4 16
  let off := 4 + j.hdr 1
  let m := (j.input.take j.n).drop off
  match j.hdr 0 with
  | 1 => if dec then cbcDec j.k1 iv m else cbcEnc j.k1 iv m
  | 2 => ctrCrypt j.k1 iv m
  | 3 => xtsCrypt dec j.k1 iv m
  | _ => if dec then ecbDec j.k1 m else ecbEnc j.k1 m

/-- CIPHER_ENCRYPT (R196). -/
def opCipherEncrypt (j : Job) (_ : Nat) : Outcome := okOut (j.cipher false) 0
def execCipherEncrypt (job : Nat) (s : State) : Res := .next (s.perform 0x0403 job opCipherEncrypt)

/-- CIPHER_DECRYPT (R196). -/
def opCipherDecrypt (j : Job) (_ : Nat) : Outcome := okOut (j.cipher true) 0
def execCipherDecrypt (job : Nat) (s : State) : Res := .next (s.perform 0x0404 job opCipherDecrypt)

/-- The tag of a message under the job's MAC key, `n` bytes (Table 8.4). -/
def Job.mac (j : Job) (n : Nat) (m : Bytes) : Bytes :=
  let a := j.alg1
  if isAes a then (cmac j.k1 m).take n
  else if a = 0x45 then (hmacSha256 j.k1 m).take n
  else if a = 0x46 then (hmacSha512 j.k1 m).take n
  else kmac256 j.k1 m n []

/-- Tag length that the header gives, 0 for the full length. -/
def Job.tagLen (j : Job) : Nat := if j.hdr 0 = 0 then (macTag j.alg1).2.2 else j.hdr 0

/-- MAC_GENERATE (R196). -/
def opMacGenerate (j : Job) (_ : Nat) : Outcome := okOut (j.mac j.tagLen (j.at 4 (j.n - 4))) 0
def execMacGenerate (job : Nat) (s : State) : Res := .next (s.perform 0x0405 job opMacGenerate)

/-- MAC_VERIFY (R202). -/
def opMacVerify (j : Job) (_ : Nat) : Outcome :=
  let len := j.n - 4 - j.tagLen
  if j.mac j.tagLen (j.at 4 len) = j.at (4 + len) j.tagLen then okOut [] 0 else failWith stVerifyFailed

def execMacVerify (job : Nat) (s : State) : Res := .next (s.perform 0x0406 job opMacVerify)

/-- HASH (R196). -/
def opHash (j : Job) (_ : Nat) : Outcome :=
  let m := j.at 4 (j.n - 4)
  okOut (match j.hdr 0 with
    | 1 => sha256 m
    | 2 => sha384 m
    | 3 => sha512 m
    | 4 => sha3_256 m
    | 5 => sha3_384 m
    | _ => sha3_512 m) 0

def execHash (job : Nat) (s : State) : Res := .next (s.perform 0x0407 job opHash)

/-- KDF_DERIVE (R195): the ladder's construction under Label ILYK, into a session object. -/
def opKdfDerive (j : Job) (_ : Nat) : Outcome :=
  let c := j.hdr 0
  okKey (newKey c j.desc.policy true (ladderKey j.k1 (ascii "ILYK" ++ [byteOf c, 0, 0, 0]) j.label (keyLen c))) []

def execKdfDerive (job : Nat) (s : State) : Res := .next (s.perform 0x0408 job opKdfDerive)

/-- FF1 on the job's numerals (R210). -/
def Job.fpe (j : Job) (dec : Bool) : Bytes :=
  let t := j.hdr 1
  (ff1 dec j.k1 (j.at 4 t) (j.hdr 0) ((j.at (4 + t) (le 2 2 j.input)).map BitVec.toNat)).map byteOf

/-- FPE_ENCRYPT (R210). -/
def opFpeEncrypt (j : Job) (_ : Nat) : Outcome := okOut (j.fpe false) 0
def execFpeEncrypt (job : Nat) (s : State) : Res := .next (s.perform 0x0409 job opFpeEncrypt)

/-- FPE_DECRYPT (R210). -/
def opFpeDecrypt (j : Job) (_ : Nat) : Outcome := okOut (j.fpe true) 0
def execFpeDecrypt (job : Nat) (s : State) : Res := .next (s.perform 0x040A job opFpeDecrypt)

/-- PIN_TRANSLATE (R204): the same PIN field under the outgoing key. -/
def opPinTranslate (j : Job) (_ : Nat) : Outcome :=
  let f := j.hdr 0
  let pan := j.at 20 16
  let field := pinDecipher (pinKey (bitOf f 0) j.k1 (j.at 36 12)) (j.at 4 16) pan
  if pinOk field then okOut (pinEncipher (pinKey (bitOf f 1) j.k2 (j.at (36 + 12 * (f % 2)) 12)) field pan) 0 else failWith stVerifyFailed

def execPinTranslate (job : Nat) (s : State) : Res := .next (s.perform 0x0501 job opPinTranslate)

/-- PIN_VERIFY (R206). -/
def opPinVerify (j : Job) (_ : Nat) : Outcome :=
  let f := j.hdr 0
  let pan := j.at 20 16
  let field := pinDecipher (pinKey (bitOf f 0) j.k1 (j.at 36 12)) (j.at 4 16) pan
  if pinOk field && pinReference j.k2 field pan == j.at (36 + 12 * (f % 2)) 8 then okOut [] 0 else failWith stVerifyFailed

def execPinVerify (job : Nat) (s : State) : Res := .next (s.perform 0x0502 job opPinVerify)

/-- DUKPT_DERIVE (R205): mode 0 a working key to a session object with the usage of R235, mode 1 the initial key as a key block; the random fill of that block is a free value. -/
def opDukptDerive (j : Job) (fr : Nat) : Outcome :=
  let ksn := j.at 4 12
  let u := j.hdr 1
  if j.hdr 0 = 0 then
    okKey (newKey (j.alg1 - 7) (if u = 1 then 8 else if u = 2 then 5 else 4) true (dukptWorking j.k1 ksn (dukptUsage u))) []
  else
    let fill := fit 24 (Config.freeBytes fr)
    okOut (kbInitial j.k2 (dukptInitial j.k1 (ksn.take 8)) (ksn.take 8) (fill.take 8) (fill.drop 8)) 0

def execDukptDerive (job : Nat) (s : State) : Res := .next (s.perform 0x0503 job opDukptDerive)

/-- KEYBLOCK_IMPORT (R207, R208): the header's exportability decides the object's flags. -/
def opKeyblockImport (j : Job) (_ : Nat) : Outcome :=
  match keyBlockOf (j.input.take j.n) with
  | none => failWith stVerifyFailed
  | some kb =>
    match kbUnwrap j.k2 kb with
    | none => failWith stVerifyFailed
    | some key =>
      match kbCode kb.usage key.length with
      | some a => okKey { newKey a j.desc.policy false key with flags := if kb.exportable then 4 else 2 } []
      | none => failWith stVerifyFailed

def execKeyblockImport (job : Nat) (s : State) : Res := .next (s.perform 0x0504 job opKeyblockImport)

/-- KEYBLOCK_EXPORT (R209): the check value of an HMAC key, which the CMAC check value does not cover, is a free value. -/
def opKeyblockExport (j : Job) (fr : Nat) : Outcome :=
  let kcv := if j.alg1 = 0x45 ∨ j.alg1 = 0x46 then fit 5 (Config.freeBytes fr) else (cmac j.k1 (List.replicate 16 0)).take 5
  let uam := (j.key1.bind kbHeader).getD []
  okOut (kbExport j.k2 j.k1 uam kcv (j.draws.take 12) (j.draws.drop 12)) 0

def execKeyblockExport (job : Nat) (s : State) : Res := .next (s.perform 0x0505 job opKeyblockExport)

/-- LOCKER_CODE_ISSUE (R212). -/
def opLockerCodeIssue (j : Job) (_ : Nat) : Outcome := okOut (lockerCode j.k1 (le 40 4 j.label) (j.hdr 0)) 0
def execLockerCodeIssue (job : Nat) (s : State) : Res := .next (s.perform 0x0601 job opLockerCodeIssue)

/-- Step offsets in the order of R213. -/
def lockerOffsets : List Int := [0, -1, 1, -2, 2]

/-- LOCKER_CODE_CHECK (R213): the first offset whose step lies in the window and whose code matches. -/
def opLockerCodeCheck (j : Job) (_ : Nat) : Outcome :=
  let t : Int := le 40 4 j.label
  let hit := lockerOffsets.find? fun o =>
    decide ((le 32 4 j.label : Int) ≤ t + o) && decide (t + o ≤ (le 36 4 j.label : Int)) &&
      lockerCode j.k1 (t + o).toNat (j.hdr 0) == (j.input.take j.n).drop 4
  match hit with
  | some o => okOut [] (o % 256).toNat
  | none => failWith stVerifyFailed

def execLockerCodeCheck (job : Nat) (s : State) : Res := .next (s.perform 0x0602 job opLockerCodeCheck)

/-- RANDOM_BYTES (R284): the bytes that the software port served at admission. -/
def opRandomBytes (j : Job) (_ : Nat) : Outcome := okOut (fit j.desc.capacity j.draws) 0
def execRandomBytes (job : Nat) (s : State) : Res := .next (s.perform 0x0801 job opRandomBytes)

/-- The operation of a lane opcode, as the lane performs it when no command has. -/
def laneOp (op : Nat) : Job → Nat → Outcome :=
  match op with
  | 0x0101 => opEcdsaSign
  | 0x0102 => opEcdsaVerify
  | 0x0103 => opEddsaSign
  | 0x0104 => opEddsaVerify
  | 0x0105 => opEcKeygen
  | 0x0106 => opEcdhDerive
  | 0x0201 => opRsaSignPss
  | 0x0202 => opRsaSignPkcs1
  | 0x0203 => opRsaVerify
  | 0x0204 => opRsaDecryptOaep
  | 0x0205 => opRsaEncryptOaep
  | 0x0206 => opRsaKeygen
  | 0x0301 => opMlkemKeygen
  | 0x0302 => opMlkemEncaps
  | 0x0303 => opMlkemDecaps
  | 0x0304 => opMldsaKeygen
  | 0x0305 => opMldsaSign
  | 0x0306 => opMldsaVerify
  | 0x0307 => opPairedSign
  | 0x0308 => opPairedVerify
  | 0x0401 => opAeadSeal
  | 0x0402 => opAeadOpen
  | 0x0403 => opCipherEncrypt
  | 0x0404 => opCipherDecrypt
  | 0x0405 => opMacGenerate
  | 0x0406 => opMacVerify
  | 0x0407 => opHash
  | 0x0408 => opKdfDerive
  | 0x0409 => opFpeEncrypt
  | 0x040A => opFpeDecrypt
  | 0x0501 => opPinTranslate
  | 0x0502 => opPinVerify
  | 0x0503 => opDukptDerive
  | 0x0504 => opKeyblockImport
  | 0x0505 => opKeyblockExport
  | 0x0601 => opLockerCodeIssue
  | 0x0602 => opLockerCodeCheck
  | 0x0603 => opLockerTokenSign
  | _ => opRandomBytes

end Sys2Proof.Machine
end

