-- ==== Sys2Proof/Machine/KeyOps.lean ====
section
/-! DEFINITION. The key-management operations (chapters 04 and 09: R97 to R99, R232, R233, R236, R241, R263), and what follows an operation whose work has ended: the handle it creates, its vault change, its change on the chain, its record. -/

namespace Sys2Proof.Machine

/-- Perform an operation that also reads the unit's state. -/
def State.performAt (s : State) (op id : Nat) (f : State → Job → Nat → Outcome) : State := s.perform op id (f s)

/-- KEY_GENERATE (R97, R236). -/
def opKeyGenerate (j : Job) (_ : Nat) : Outcome := okKey (newKey (j.hdr 0) j.desc.policy true (fit (keyLen (j.hdr 0)) j.draws)) []

def execKeyGenerate (job : Nat) (s : State) : Res := .next (s.perform 0x0701 job opKeyGenerate)

/-- The import checks of Table 6.4 and R166. -/
def importOk (a : Nat) (b : Bytes) : Bool :=
  b.length == keyLen a &&
    (if isEc a then !badScalar (curveOf a) (beNat b)
     else if a = 5 then true
     else if isRsa a then (rsaKeyOf b).ok (rsaBits a)
     else if a = 4 ∨ isKem a ∨ isDsa a then !allZero b
     else true)

/-- KEY_IMPORT_WRAPPED (R97, R144, R166): a wrapping that does not open is VERIFY_FAILED, a key that fails its checks INVALID_KEY. -/
def opKeyImportWrapped (j : Job) (_ : Nat) : Outcome :=
  match kwpOpen j.k2 (j.at 4 (j.n - 4)) with
  | none => failWith stVerifyFailed
  | some b =>
    let a := j.hdr 0
    if importOk a b then okKey (newKey a j.desc.policy false b) (publicOf a b) else failWith stInvalidKey

def execKeyImportWrapped (job : Nat) (s : State) : Res := .next (s.perform 0x0702 job opKeyImportWrapped)

/-- KEY_EXPORT_WRAPPED (R236). -/
def opKeyExportWrapped (j : Job) (_ : Nat) : Outcome := okOut (kwpSeal j.k2 j.k1) 0

def execKeyExportWrapped (job : Nat) (s : State) : Res := .next (s.perform 0x0703 job opKeyExportWrapped)

/-- KEY_PIN (R232, R234): of a session object it changes nothing. -/
def opKeyPin (j : Job) (_ : Nat) : Outcome :=
  { okOut [] 0 with change := if j.stored1 then some (.pin j.desc.key1) else none }

def execKeyPin (job : Nat) (s : State) : Res := .next (s.perform 0x0704 job opKeyPin)

/-- KEY_UNPIN (R232, R234). -/
def opKeyUnpin (j : Job) (_ : Nat) : Outcome :=
  { okOut [] 0 with change := if j.stored1 then some (.unpin j.desc.key1) else none }

def execKeyUnpin (job : Nat) (s : State) : Res := .next (s.perform 0x0705 job opKeyUnpin)

/-- Slots of a stored object of these key bytes (R229). -/
def slotsUsed (b : Bytes) : Nat := ceilDiv (b.length + 60) 512

/-- KEY_DESTROY (R233): a stored object's slots are freed; a session object's entry is wiped when its record is released. -/
def opKeyDestroy (j : Job) (_ : Nat) : Outcome :=
  { okOut [] 0 with change := if j.stored1 then some (.objectFree (hSlot j.desc.key1) (slotsUsed j.k1)) else none }

def execKeyDestroy (job : Nat) (s : State) : Res := .next (s.perform 0x0706 job opKeyDestroy)

/-- A replicated change of this unit to the object is in flight (R83). -/
def State.objectInFlight (s : State) (h : Nat) : Bool :=
  hKind h == 0 && s.chain.own.any fun o => decide (o.record.k ≠ 0) && changeObject o.record.change == some (hSlot h)

/-- Bits 0 to 2 of an object's flags as records and statements show them: a session object or a derived key is never exportable, whatever its policy's bit 7 holds (R236). -/
def KeyMat.shownFlags (k : KeyMat) (h : Nat) : Nat := if hKind h = 0 then k.flags % 8 else k.flags % 2 + 2

/-- The query record (Table 4.12). Bytes 16 to 23 are the last-change tick of a stored object; for a derived key they are the last change of its heart, for a session object 0 (DESIGN CHOICE, assumption log 79). -/
def State.queryRecord (s : State) (j : Job) (k : KeyMat) (pub : Bytes) : Bytes :=
  let h := j.desc.key1
  let stored := j.stored1
  let conflict := decide (128 ≤ k.flags)
  [byteOf k.alg, byteOf (if conflict then 1 else if j.desc.noWait && s.objectInFlight h then 2 else 0)] ++ leBytes 2 k.policy ++
    [byteOf (k.shownFlags h + 8 * b2n (s.keys.pins.contains h) + 16 * b2n (hKind h == 2)),
     byteOf (if stored then (if conflict then max 1 (at8 4 k.bytes) else slotsUsed k.bytes) else 0)] ++ leBytes 2 pub.length ++
    leBytes 8 (if stored then (s.pageEntry (hSlot h / 8)).seq else 0) ++ leBytes 8 k.lastChange ++ List.replicate 8 0

/-- KEY_QUERY (R98): the record and the public key, if any; an object in CONFLICT answers OK with state 1. -/
def opKeyQuery (s : State) (j : Job) (_ : Nat) : Outcome :=
  match j.key1 with
  | some k =>
    let pub := if 128 ≤ k.flags then [] else publicOf k.alg k.bytes
    okOut (s.queryRecord j k pub ++ pub) j.desc.key1
  | none => failWith stUnknown

def execKeyQuery (job : Nat) (s : State) : Res := .next (s.performAt 0x0707 job opKeyQuery)

/-- LIFE_CYCLE code (Table 3.4, R389): from the fuse marks. -/
def Marks.isDone (m : Marks) : Bool := decide (2 ≤ popCount m.done)
def Marks.hasBegun (m : Marks) : Bool := decide (2 ≤ popCount m.begun)

/-- The lot's public keys, and KEY_LOT_ID (R240). -/
def lotEc : Bytes := p384.publicOf [] Config.lotKeyEc
def lotDsa : Bytes := dsaPublic (maskOfBytes []) 0x32 Config.lotKeyDsa
def lotIdOf (ec dsa : Bytes) : Bytes := (sha3_256 (ec ++ dsa)).take 8
def lotId : Bytes := lotIdOf lotEc lotDsa

/-- Signed bytes of an attestation statement (Table 9.7). -/
def State.attestBytes (s : State) (j : Job) (k : KeyMat) (life : Nat) : Bytes :=
  let h := j.desc.key1
  let nonce := j.input.take j.n
  let fl := byteOf (k.shownFlags h + 8 * b2n (hKind h == 2) + 16 * b2n (hKind h == 1))
  let pub := if 0x41 ≤ k.alg then sha3_256 (ascii "ILYAR-SYMPOL" ++ [byteOf k.alg, byteOf k.policy, fl]) else publicOf k.alg k.bytes
  ascii "ILYAR-ATTEST-V01" ++ [byteOf k.alg, fl, byteOf k.policy, byteOf life] ++ leBytes 2 (if hKind h = 2 then 0 else hGen h) ++
    leBytes 2 pub.length ++ fit 32 s.rst.fwMeasurement ++ lotId ++ [byteOf nonce.length, 0, 0, 0] ++ nonce ++ pub

/-- A lot signature pair: ECDSA P-384 over the SHA-384 of the bytes, and ML-DSA-65 with a context string; where the model's attempts do not end, a free value. -/
def lotSign (b ctx : Bytes) (ecDraw dsaDraw : Bytes) (fr : Nat) : Bytes :=
  p384.sign [] Config.lotKeyEc (sha384 b) (p384.secrets ecDraw) ++
    (match dsaSign 0x32 4096 Config.lotKeyDsa ctx b dsaDraw with
      | some r => r
      | none => fit 3309 (Config.freeBytes fr))

/-- LIFE_CYCLE as it reads (R389, Table 16.1). -/
def State.lifeCycle (s : State) : Nat :=
  let f := s.life.fuses
  if f.m4.isDone then 4 else if f.m3.isDone then 3 else if f.m2.isDone then 2 else if f.m1.isDone then 1 else 0

/-- ATTEST_KEY (R241). -/
def opAttestKey (s : State) (j : Job) (fr : Nat) : Outcome :=
  match j.key1 with
  | some k =>
    let b := s.attestBytes j k s.lifeCycle
    okOut (b ++ lotSign b (ascii "ILYAR-ATTEST") (j.draws.take p384.drawLen) (j.draws.drop p384.drawLen) fr) 0
  | none => failWith stUnknown

def execAttestKey (job : Nat) (s : State) : Res := .next (s.performAt 0x0708 job opAttestKey)

/-- RECORD_SEAL (R97, R229): over a stored record, its policy stands. -/
def opRecordSeal (j : Job) (_ : Nat) : Outcome :=
  let p := if j.overwrites then (j.key1.map fun k => k.policy).getD 0 else j.desc.policy
  okKey { newKey 0 p false (j.input.take j.n) with flags := 8 + (if bitOf p 7 then 4 else 2) } []

def execRecordSeal (job : Nat) (s : State) : Res := .next (s.perform 0x0709 job opRecordSeal)

/-- RECORD_OPEN (R97): a seal that failed to open is VERIFY_FAILED (R229). -/
def opRecordOpen (j : Job) (_ : Nat) : Outcome :=
  match j.key1 with
  | some k => if 128 ≤ k.flags then failWith stVerifyFailed else okOut k.bytes 0
  | none => failWith stUnknown

def execRecordOpen (job : Nat) (s : State) : Res := .next (s.perform 0x070A job opRecordOpen)

/-- COUNTER_INCREMENT (R97): the new value, or POLICY_DENIED past 2^64 − 1, is fixed when the change applies. -/
def opCounterIncrement (j : Job) (_ : Nat) : Outcome :=
  { okOut [] 0 with change := some (.counter j.slice (j.hdr 0) (le 4 4 j.input)) }

def execCounterIncrement (job : Nat) (s : State) : Res := .next (s.perform 0x070B job opCounterIncrement)

/-- OBJECT_REPAIR (R263): the copy of the drive named, or the slots freed and VERIFY_FAILED where its seal fails. -/
def opObjectRepair (j : Job) (_ : Nat) : Outcome :=
  match openObject j.heartKey (hSlot j.desc.key1) j.copy with
  | some _ => { okOut [] j.desc.key1 with change := some (.repair (hSlot j.desc.key1) j.copy) }
  | none => { failWith stVerifyFailed with change := some (.objectFree (hSlot j.desc.key1) (min (max 1 (at8 4 j.copy)) (8 - hSlot j.desc.key1 % 8))) }

def execObjectRepair (job : Nat) (s : State) : Res := .next (s.perform 0x070C job opObjectRepair)

/-- The operation of any opcode, as its engine performs it when no command has. -/
def State.jobOp (s : State) (op : Nat) : Job → Nat → Outcome :=
  match op with
  | 0x0701 => opKeyGenerate
  | 0x0702 => opKeyImportWrapped
  | 0x0703 => opKeyExportWrapped
  | 0x0704 => opKeyPin
  | 0x0705 => opKeyUnpin
  | 0x0706 => opKeyDestroy
  | 0x0707 => opKeyQuery s
  | 0x0708 => opAttestKey s
  | 0x0709 => opRecordSeal
  | 0x070A => opRecordOpen
  | 0x070B => opCounterIncrement
  | 0x070C => opObjectRepair
  | _ => laneOp op

/-! ## After the work (R28, R91, R99) -/

/-- The work of a job has ended with no change to make: its output frame is the next one, its record due two ticks on (R28). -/
def State.toOutput (s : State) (id : Nat) : State := s.updJob id fun j => { j with phase := .output, due := s.tick + 2 }

/-- End the work with a status and nothing else. -/
def State.workFails (s : State) (id status result : Nat) : State :=
  (s.updJob id fun j => { j with outcome := some ⟨status, [], result, none, none⟩ }).toOutput id

/-- Put a job's change in the next commit group; its vault frame E is still to come (R254). -/
def State.toCommit (s : State) (id : Nat) (change : Change) (o : Outcome) (kind : ItemKind) (page : Nat) (writes : List (Nat × Option Bytes)) (conflict : Option Bool) : State :=
  (s.queueVersion ⟨page, kind, writes, conflict, some id, 0⟩).updJob id fun j =>
    { j with phase := .committing, degraded := j.degraded || decide (s.vault.state = .degraded), outcome := some { o with change := some change } }

/-- The change of a job goes on the chain in frame E, the present one (R99). -/
def State.replicateJob (s : State) (id : Nat) : State :=
  match s.job? id with
  | some j =>
    match j.outcome.bind fun o => o.change with
    | some c =>
      let s' := s.startOwn c j.replK (some id) none (!j.noMajority)
      if j.replK = 0 then s'.toOutput id
      else s'.updJob id fun i => { i with phase := .replicating, replSeq := some s.chain.seq, replE := s.tick }
    | none => s.toOutput id
  | none => s

/-- The sealed object of a created key at a slot, under the heart and generation that the job's target named (R226, R229). -/
def Job.sealFor (j : Job) (k : KeyMat) (slot tick : Nat) : Nat × Bytes :=
  let h := mkHandle 0 (hHeart j.desc.key1) (hGen j.desc.key1) slot
  (h, sealObject j.heartKey { k with handle := h } slot tick)

/-- A vault change can be taken: the vault serves writes, and the page is not in CONFLICT. -/
def State.vaultRefuses (s : State) (page : Nat) (repair : Bool) : Option Nat :=
  if !s.vaultUp then some stVault else if (s.pageEntry page).conflict && !repair then some stConflict else none

/-- The work of job `id` ended in this frame with its outcome (R28, R99). -/
def State.workDone (s : State) (id : Nat) : State :=
  match s.job? id with
  | none => s
  | some j =>
    let o := match j.forced with
      | some f => ⟨f.1, [], f.2, none, none⟩
      | none => j.outcome.getD (failWith stFault)
    let s := s.updJob id fun i => { i with outcome := some o }
    match o.created with
    | some k =>
      if j.changing then
        let slot? := if j.overwrites then some (hSlot j.desc.key1) else s.allocate (slotsUsed k.bytes)
        match slot? with
        | none => s.workFails id stVault 0
        | some slot =>
          match s.vaultRefuses (slot / 8) false with
          | some st => s.workFails id st 0
          | none =>
            let sealed := j.sealFor k slot s.tick
            let s := s.updJob id fun i => { i with newHandle := sealed.1 }
            s.toCommit id (.objectWrite slot sealed.2) { o with result := sealed.1, created := some { k with handle := sealed.1 } }
              (changeKind j.replK) (slot / 8) (writesOf slot sealed.2) none
      else
        let h := mkHandle 2 j.slice (s.epoch j.slice) s.freeEntry
        (s.updJob id fun i => { i with newHandle := h, outcome := some { o with result := h, created := some { k with handle := h } } }).toOutput id
    | none =>
      match o.change with
      | some c =>
        match changeRun c with
        | some run =>
          let repair := j.op == 0x070C
          match s.vaultRefuses (run.1 / 8) repair with
          | some st => s.workFails id st 0
          | none =>
            let w := match c with
              | .repair slot b => writesOf slot b
              | _ => freesOf run.1 run.2
            s.toCommit id c o (if repair && j.replK == 0 then .repair else changeKind j.replK) (run.1 / 8) w (if repair then some false else none)
        | none => s.replicateJob id
      | none => s.toOutput id

end Sys2Proof.Machine
end

