-- ==== Sys2Proof/Machine/Jobs.lean ====
section
/-! DEFINITION. Jobs before and beside their lanes: reads and their failures, parsing, vault fetches of their keys, control work, aborts, waits that expire (chapters 03 and 04: R76 to R78, R87, R88, R103 to R107; R281). -/

namespace Sys2Proof.Machine

/-! ## Keys of a job -/

/-- A stored handle whose object is not in the key cache. -/
def State.missing (s : State) (j : Job) (h : Nat) : Bool := hKind h == 0 && (s.cached j.slice h).isNone

/-- The job with the keys that its handles name now. -/
def State.withKeys (s : State) (j : Job) : Job :=
  { j with key1 := (match j.key1 with | some k => some k | none => s.key1Of j),
           key2 := (match j.key2 with | some k => some k | none => s.key2Of j),
           heartKey := if j.stored1 then (s.heart (hHeart j.desc.key1)).key else [] }

/-- Every key that the job's handles name is at hand; OBJECT_REPAIR needs its copy only. -/
def Job.hasKeys (j : Job) : Bool :=
  (j.op == 0x070C || (j.handle1.isNone || j.key1.isSome)) && (j.handle2.isNone || j.key2.isSome)

/-- A vault read or an unwrap for the job is in progress. -/
def State.waitsRead (s : State) (id : Nat) : Bool :=
  s.vault.reads.any (fun r => r.jobs.contains id) || s.lanes.unwraps.any fun u => u.jobs.contains id

/-- A stored handle whose creating job has not released its record (R103). -/
def State.creating (s : State) (h : Nat) : Bool := hKind h == 0 && s.jobs.any fun i => i.newHandle == h && i.changing && !i.overwrites

/-- The job waits for a replicated change of its object (R83). -/
def State.waitsChange (s : State) (j : Job) : Bool :=
  !j.desc.noWait && (j.handle1.toList ++ j.handle2.toList).any fun h => s.objectInFlight h && !s.creating h

/-- The handles of a waiting job name what they named: generations that live (R105), objects that have come to be (R103) and that no job has destroyed (R104). -/
def State.freshKeys (s : State) (j : Job) : Bool :=
  j.checkedHandles.all s.handleFresh && !j.lost &&
    (j.handle1.toList ++ j.handle2.toList).all fun h => !s.creating h && (decide (hKind h ≠ 2) || (s.cached j.slice h).isSome)

/-- The status of a job whose handles do not (R103 to R105). -/
def State.lostStatus (s : State) (j : Job) : Nat := if j.checkedHandles.all s.handleFresh then stUnknown else stOrphaned

/-- Ask for a page for a job: from the port named, or from a drive of the mirror (R259); `prior` for the version before a pending change. A page never written holds no object (R228, R252). The read waits for its 2 credits (R41). -/
def State.startRead (s : State) (page : Nat) (port : Option Nat) (prior : Bool) (id : Nat) : State :=
  let p := port.getD (if s.vault.d0.inMirror then 0 else 1)
  if !s.vaultUp || !(s.drive p).inMirror then s.finish id stVault 0 (s.tick + 2)
  else if (s.pageEntry page).seq = 0 ∧ s.nodesNeeded page = [] then s.finish id stUnknown 0 (s.tick + 2)
  else
    let s := s.updJob id fun j => { j with degraded := j.degraded || decide (s.vault.state = .degraded) }
    if s.vault.reads.any fun r => r.page == page && r.port == p && r.prior == prior then
      { s with vault := { s.vault with reads := s.vault.reads.map fun r =>
          if r.page = page ∧ r.port = p ∧ r.prior = prior then { r with jobs := if r.jobs.contains id then r.jobs else r.jobs ++ [id] } else r } }
    else s.beginRead page p prior [id]

/-- An object is read through its page's prior entry while the page is locked: under NO_REPLICATE_WAIT while its change is in flight, and once the page's change stands rolled back (R83, R256). -/
def State.readsPrior (s : State) (j : Job) (h : Nat) : Bool :=
  s.vault.locked.contains (hSlot h / 8) && ((j.desc.noWait && s.objectInFlight h) || s.rollingBack (hSlot h / 8)) && (s.priorEntry (hSlot h / 8)).isSome

/-- The reads that a parsed job needs, once no change of its objects is in its way (R83). -/
def State.fetchKeys (s : State) (id : Nat) : State :=
  match s.job? id with
  | none => s
  | some j =>
    if s.waitsChange j || !s.freshKeys j then s
    else if j.op = 0x070C then s.startRead (hSlot j.desc.key1 / 8) (some (j.hdr 0)) false id
    else ((j.handle1.toList ++ j.handle2.toList).filter (s.missing j)).foldl (fun st h =>
      if (st.job? id).any (fun i => decide (i.phase ≠ .staged)) then
        st.startRead (hSlot h / 8) none (st.readsPrior j h) id else st) s

/-! ## Pieces of an input (R76, R200) -/

/-- The input read up to the end of piece `k`: the read of what has not been asked for is issued. -/
def State.askPiece (s : State) (id k : Nat) : State :=
  match s.job? id with
  | none => s
  | some j =>
    let e := j.pieceEnd (j.key1.orElse fun _ => s.key1Of j) s.laneTime k
    if e ≤ j.asked then s
    else (s.updJob id fun i => { i with asked := e, readSince := s.tick }).emit (.read id .input (j.desc.inputAddr + j.asked) (e - j.asked) (s.dmaPasid j.slice))

/-- The label's read is issued; a label of at most 8 bytes stands in the descriptor. -/
def State.askLabel (s : State) (id : Nat) : State :=
  match s.job? id with
  | none => s
  | some j =>
    if j.labelDone then s
    else (s.updJob id fun i => { i with labelSince := s.tick }).emit (.read id .label (leNat j.desc.labelField) j.desc.labelLength (s.dmaPasid j.slice))

/-! ## Control and Keeper jobs (R93, R99, R281) -/

/-- A debug halt holds the engine of a job (R308). -/
def State.engineHalted (s : State) (eng : Nat) : Bool := (eng == engCt && s.keeper.haltNormal) || (eng == engKp && s.keeper.haltSecure)

/-- Start the work of a CT or KP job in this frame, when its keys and draws are at hand; a refused draw makes it wait from frame F + 1 on. -/
def State.controlStart (s : State) (id : Nat) : State :=
  match s.job? id with
  | none => s
  | some j =>
    if j.phase ≠ .ready ∨ opEngine j.op < engCt ∨ s.waitsRead id ∨ s.waitsChange j ∨ s.tick < j.notBefore ∨ s.engineHalted (opEngine j.op) then s
    else if !s.freshKeys j then s.finish id (s.lostStatus j) 0 (s.tick + 2)
    else
      let k := s.withKeys j
      if !(k.hasKeys) then s.fetchKeys id
      else if k.drawLen ≠ 0 ∧ s.withheld then s.updJob id fun i => { i with firstHeld := some (i.firstHeld.getD (j.frameF + 1)) }
      else
        let d := if k.drawLen = 0 then ([], s) else s.draw k.drawLen
        d.2.updJob id fun _ => { k with phase := .control, admitted := some s.tick, draws := d.1, drawsDone := true, replK := s.kInForce,
                                        noMajority := !s.majority, lastSeg := s.tick }

/-! ## Reads (R76 to R78, R88) -/

/-- All that the parse needs has arrived; of a streaming input, its first piece (R200). -/
def Job.canParse (j : Job) : Bool := j.descDone && j.labelDone && (j.inputDone || (opStream j.op && decide (0 < j.asked) && decide (j.asked ≤ j.input.length)))

/-! ## Buffers (R290) -/

/-- Granules that live contexts hold, with their colours. -/
def State.usedGranules (s : State) : List (Nat × Nat) := s.jobs.flatMap fun j => j.granules.map fun g => (g, j.colour)

/-- A used granule put into the list of used ones, ascending. -/
def insertUsed (u : Nat × Nat) : List (Nat × Nat) → List (Nat × Nat)
  | [] => [u]
  | v :: r => if u.1 < v.1 then u :: v :: r else v :: insertUsed u r

/-- The lowest start from `g` on of `k` granules of region 4 that are free and have no neighbour of the colour, past used granules in ascending order. -/
def freeRunFrom (colour k : Nat) : List (Nat × Nat) → Nat → Option Nat
  | [], g => if g + k ≤ 0x10000 then some g else none
  | u :: r, g => if g + k < u.1 ∨ (g + k = u.1 ∧ u.2 ≠ colour) then some g else freeRunFrom colour k r (if u.2 = colour then u.1 + 2 else u.1 + 1)

/-- The lowest run that fits in region 4. -/
def lowestRun (used : List (Nat × Nat)) (colour k : Nat) : Option Nat :=
  freeRunFrom colour k (used.foldr insertUsed []) 0x8000

/-- One buffer of `n` bytes placed for a job, its words written in the job's colour; what they hold is the firmware's. -/
def State.placeBuf (s : State) (id n : Nat) : Option State :=
  match s.job? id with
  | none => none
  | some j =>
    let k := ceilDiv n 64
    if k = 0 then some (s.updJob id fun i => { i with bufs := i.bufs ++ [(0, 0)] })
    else (lowestRun s.usedGranules j.colour k).map fun g =>
      let s := s.updJob id fun i => { i with granules := i.granules ++ ((List.range k).map fun d => g + d), bufs := i.bufs ++ [(64 * g, n)] }
      s.setWords (16 * g) ((List.range (16 * k)).map fun w => ⟨j.colour, Config.bufferWord id (16 * g + w) % 2 ^ 32⟩)

/-- Place every buffer of a list, or none. -/
def State.placeAll (s : State) (id : Nat) : List Nat → Option State
  | [] => some s
  | n :: r => match s.placeBuf id n with
    | some st => st.placeAll id r
    | none => none

/-- Bytes of the input buffer: the whole input, or of a streaming one the greatest piece with its header and tag (R200). -/
def State.inputRoom (s : State) (j : Job) : Nat :=
  if opStream j.op then
    let rate := match s.key1Of j with
      | some k => keyRate k.alg
      | none => if j.op = 0x0407 then (17, 3) else (8, 7)
    min j.n (capacityOf s.laneTime rate + 80)
  else j.n

/-- The context has no placement in this frame: its job waits, and a class-0 job is no longer bounded. -/
def State.noRoom (s : State) (id : Nat) : State := s.updJob id fun i => { i with phase := .noRoom, boundVoid := true }

/-- Buffers up to stage `stage`, or the wait for room. -/
def State.placeTo (s : State) (id stage : Nat) (sizes : List Nat) (f : State → State) : State :=
  match s.placeAll id sizes with
  | some st => f (st.updJob id fun i => { i with placed := stage, phase := .fetching })
  | none => s.noRoom id

/-! ## Host-link DMA (R288, R298) -/

/-- What a host-link DMA access to the first `n` bytes of buffer `k` of a job meets: 0 nothing, 1 a word of another colour, 2 the guard, with the region that refuses it. -/
def State.dmaMeets (s : State) (j : Job) (k n : Nat) (write : Bool) : Nat × Option Nat :=
  let a := (j.bufs.getD k (0, 0)).1
  let words := ceilDiv n 4
  let mine := s.wm.filter fun w => decide (a / 4 ≤ w.1) && decide (w.1 < a / 4 + words) && decide (w.2.colour = j.colour)
  match (List.range (ceilDiv n 64)).findSome? fun i =>
      (regionAt s.keeper.regions (a + 64 * i)).filter fun r => !bitOf (s.region r).perm (if write then 3 else 2) with
  | some r => (2, some r)
  | none => if mine.length = words then (0, none) else (1, none)

/-- A DMA access checked: whether it is performed; a fault is counted and recorded, and the job ends with FAULT_DETECTED at its normal completion tick. -/
def State.dmaCheck (s : State) (j : Job) (k n : Nat) (write : Bool) : Bool × State :=
  match s.dmaMeets j k n write with
  | (0, _) => (true, s)
  | (1, _) => (false, ((s.count Key.KPR_COLOUR_FAULTS).event 0x2504).force j.id stFault (0xF3 + 256))
  | (_, r) => (false, ((s.count Key.KPR_GUARD_FAULTS).guardFault 1 r (some 0) (some 1)).force j.id stFault (0xF3 + 512))

/-- The 32-bit words of a byte string. -/
def wordsLe : Bytes → List Nat
  | a :: b :: c :: d :: r => leNat [a, b, c, d] :: wordsLe r
  | _ => []

/-- Bytes written into buffer `k` of a job, from its first byte on, in the job's colour. -/
def State.fillBuf (s : State) (j : Job) (k : Nat) (b : Bytes) : State :=
  let x := j.bufs.getD k (0, 0)
  let b := b.take x.2
  let full := b ++ (List.range ((4 - b.length % 4) % 4)).map fun i => s.wmByte (x.1 + b.length + i)
  s.setWords (x.1 / 4) ((wordsLe full).map fun v => ⟨j.colour, v⟩)

/-- Data of a read enter the job's buffer. -/
def State.dmaFill (s : State) (j : Job) (k : Nat) (b : Bytes) : State :=
  let d := s.dmaCheck j k (min b.length (j.bufs.getD k (0, 0)).2) true
  if d.1 then d.2.fillBuf j k b else d.2

/-! ## Parsing -/

/-- Parse a job in its frame F (Table 4.7): it fails at F + 2, or its output buffer is placed and its token is passed on. -/
def State.parseJob (s : State) (id : Nat) : State :=
  match s.job? id with
  | none => s
  | some j =>
    match s.parse39 j (s.key1Of j) (s.key2Of j) with
    | some st => s.finish id st 0 (s.tick + 2)
    | none => s.placeTo id 3 [j.outRoom (s.key1Of j) (s.key2Of j)] fun st =>
        ((st.updJob id fun i => { i with phase := .ready, cls := i.desc.cls, class0 := i.desc.cls == 0 }).fetchKeys id).controlStart id

/-- A halted command core parses nothing (R308). -/
def State.parseIfReady (s : State) (id : Nat) : State :=
  match s.job? id with
  | some j => if j.phase = .fetching ∧ j.placed = 2 ∧ j.canParse ∧ !s.keeper.haltNormal then s.parseJob id else s
  | none => s

/-- The buffers of input and label placed, their reads issued. -/
def State.placeInput (s : State) (id : Nat) : State :=
  match s.job? id with
  | some j => s.placeTo id 2 [s.inputRoom j, if 8 < j.desc.labelLength then j.desc.labelLength else 0] fun st =>
      ((st.askPiece id 1).askLabel id).parseIfReady id
  | none => s

/-- The descriptor has arrived: an abort asked for before its fetch ends it (Table 4.14), steps 1 and 2 come next, then its reads are issued. -/
def State.descArrived (s : State) (j : Job) (b : Bytes) : State :=
  let d := descOf (fit 64 b)
  let s := s.updJob j.id fun i =>
    { i with desc := d, descDone := true, inputDone := decide (d.inputLength = 0 ∨ 16777216 < d.inputLength),
             labelDone := decide (d.labelLength ≤ 8 ∨ 64 < d.labelLength), label := d.labelField.take d.labelLength }
  if (s.ring j.ring).abortMarks.contains j.index then
    (s.updRing j.ring fun r => { r with abortMarks := r.abortMarks.filter fun i => decide (i ≠ j.index) }).finish j.id stAborted 0 (s.tick + 2)
  else match j.forced with
  | some f => s.finish j.id f.1 f.2 (s.tick + 2)
  | none => match s.parse12 { j with desc := d } with
    | some st => s.finish j.id st 0 (s.tick + 2)
    | none => s.placeInput j.id

/-- A failed read is reported through AER (R76). -/
def State.readFault (s : State) (ring : Nat) : State :=
  ({ s with host := { s.host with aer := s.host.aer ||| 2 ^ 14 } } : State).emit (.readFailed ring)

/-- A failed descriptor read (R78, R125): ERROR 1 at the second tick on, nothing more is fetched, no record for the job; SH stays at its index, and the later descriptors of the ring pair whose reads are outstanding go with it (DESIGN CHOICE, assumption log 79). Of a parked job fetched again, only those not yet fetched again go with it. -/
def State.descFailed (s : State) (j : Job) : State :=
  let s := s.readFault j.ring
  let gone := s.jobs.filter fun i => i.id == j.id || (!j.refetch && i.ring == j.ring && !i.refetch && !i.descDone && decide (j.id ≤ i.id))
  let s := gone.foldl (fun st i => (st.scrubJob i).abandon i.id) s
  let s := s.updRing j.ring fun r => { r with errorDue := some (s.tick + 2, 1), sh := if j.refetch then r.sh else j.index }
  if j.refetch then s.updSlice j.slice fun c => { c with parked := c.parked.filter fun p => decide (p.ring ≠ j.ring) } else s

/-- A failed input or label read (R77, R88). -/
def State.bufferFault (s : State) (j : Job) : State := (s.readFault j.ring).finish j.id stBuffer 0 (s.tick + 2)

/-- The job can still take data of its reads. -/
def Job.reading (j : Job) : Bool := [Phase.fetching, Phase.ready, Phase.running, Phase.parkedLane].contains j.phase

/-- A read of this kind is outstanding. -/
def Job.outstanding (j : Job) (what : ReadKind) : Bool :=
  match what with
  | .descriptor => !j.descDone && decide (j.phase = .fetching)
  | .input => j.descDone && decide (2 ≤ j.placed) && decide (j.input.length < j.asked) && j.reading
  | .label => j.descDone && decide (2 ≤ j.placed) && !j.labelDone && j.reading

/-- A read of a job has ended, with its data or failed. -/
def State.readEnds (s : State) (id : Nat) (what : ReadKind) (data : Option Bytes) : State :=
  match s.job? id with
  | none => s
  | some j =>
    if !(j.outstanding what) then s
    else match what, data with
      | .descriptor, none => s.descFailed j
      | .descriptor, some b =>
        let d := s.dmaCheck j 0 64 true
        if d.1 then (s.fillBuf j 0 (fit 64 b)).descArrived j b else d.2.finish j.id stFault (if (s.dmaMeets j 0 64 true).1 = 1 then 0xF3 + 256 else 0xF3 + 512) (s.tick + 2)
      | _, none => s.bufferFault j
      | .input, some b =>
        let inp := (j.input ++ b).take j.asked
        let s := (s.dmaFill j 1 b).updJob id fun i => { i with input := inp, inputDone := decide (i.n ≤ inp.length) }
        (if opStream j.op ∧ j.admitted.isNone then s.askPiece id 1 else s).parseIfReady id
      | .label, some b => ((s.dmaFill j 2 (fit j.desc.labelLength b)).updJob id fun i => { i with label := fit i.desc.labelLength b, labelDone := true }).parseIfReady id

/-- DMA_READ_COMPLETE (R76 to R78, R83 to R88); held while the guard is off (R300). -/
def execDmaReadComplete (job : Nat) (what : ReadKind) (data : Option Bytes) (s : State) : Res :=
  .next (s.guarded (.dmaReadComplete job what data) fun s => s.readEnds job what data)

/-- The tick at which a read was issued. -/
def Job.issued (j : Job) (what : ReadKind) : Nat := match what with | .label => j.labelSince | _ => j.readSince

/-- READ_TIMEOUT (R76): the read is outstanding for HST_READ_TIMEOUT. -/
def execReadTimeout (job : Nat) (what : ReadKind) (s : State) : Res :=
  match s.job? job with
  | some j =>
    if j.outstanding what && decide (j.issued what + s.ticksOf (s.num Key.HST_READ_TIMEOUT) ≤ s.tick) then .next (s.readEnds job what none) else .next s
  | none => .next s

/-! ## Aborts (R106, R107) -/

/-- ABORT_INDEX_WRITE (R106): recorded, and acted on at the next tick. -/
def execAbortIndexWrite (ring index : Nat) (s : State) : Res :=
  if (s.ring ring).enabled then .next (s.updRing ring fun r => { r with abortWritten := some index }) else .next s

/-- The page versions of a job given up, waiting or not yet committed. A group that loses one is written anew (assumption log 87). -/
def State.dropVersions (s : State) (id : Nat) : State :=
  let s := { s with vault := { s.vault with waiting := s.vault.waiting.filter (fun v => decide (v.job ≠ some id)) } }
  if s.inGroup id then
    ({ s with vault := { s.vault with
        group := s.vault.group.filter (fun v => decide (v.job ≠ some id)), groupIssued := 0, groupFlushed := false, groupEnded := false } } : State).endWrites
  else s

/-- The record of a job's change has not left the unit: none is sent without a majority (R338), and one that found no room in the chain frame of its tick waits still. -/
def State.unsent (s : State) (j : Job) (o : OwnChange) : Bool :=
  j.noMajority || (decide (j.replE + 2 ≤ s.tick) && s.chain.waiting.any fun m => m.record == some o.record)

/-- A change in flight withdrawn before its record is sent: no notice goes out. -/
def State.withdrawOwn (s : State) (o : OwnChange) : State :=
  let s := (s.resolvePage o.record.change .rollBack).dropOwn o.record.seq
  { s with chain := { s.chain with waiting := s.chain.waiting.filter fun m => decide (m.record ≠ some o.record) } }

/-- The version that takes a change without a domain back from the vault, once its group has committed: the slots as the page's entry before that group names them; after a repair the entry itself comes back (Table 4.14). -/
def State.takeBack (s : State) (c : Change) : State :=
  match changeRun c with
  | none => s
  | some run =>
    let p := run.1 / 8
    match (match c with | .repair _ _ => none | _ => s.lastPrior p) with
    | none => s.queueVersion ⟨p, .rollBack, [], none, none, 0⟩
    | some e =>
      let old := s.slotsUnder p e
      let w := (List.range run.2).map fun i =>
        let x := run.1 % 8 + i
        (x, if bitOf e.slotMap x then some (old.getD x zeroSlot) else none)
      s.queueVersion ⟨p, .change, w, none, none, 0⟩

/-- An abort observed at the present tick T acts on a fetched job (Table 4.14); it stands before a lane fault of the frame that ends at T (Table 4.15). -/
def State.abortJob (s : State) (j : Job) : State :=
  let gone (st : State) : State := (st.dropVersions j.id).finish j.id stAborted 0 (st.tick + 1)
  match j.phase with
  | .staged => if j.faultTick.any fun f => decide (f + 1 = s.tick) then gone s else s
  | .replicating =>
    match s.chain.own.find? fun o => o.job == some j.id with
    | some o => if s.unsent j o then gone (s.withdrawOwn o) else s
    | none => s
  | .output =>
    match j.outcome.bind fun o => o.change with
    | none => gone s
    | some c => if j.replK = 0 ∧ s.chain.domainKey.isNone then gone ((s.endOwn j.id).takeBack c) else s
  | _ => gone s

/-- The job that the ring pair holds at an index. -/
def State.jobAt (s : State) (ring index : Nat) : Option Job := s.jobs.find? fun j => j.ring == ring && j.index == index

/-- An ABORT_INDEX value observed at a tick: outside SH − 2^K to TL it is ignored; before its fetch the job is marked. DESIGN CHOICE (assumption log 79): an abort of a job whose descriptor read is outstanding is held and ends it two ticks after the descriptor has come; one of a job that a slice freeze has parked is ignored. -/
def State.abortIndex (s : State) (ring index : Nat) : State :=
  let r := s.ring ring
  let m := 2 ^ (r.k + 1)
  if m ≤ index then s
  else match s.jobAt ring index with
    | some j => if j.descDone then s.abortJob j else s.setRing ring { r with abortMarks := r.abortMarks ++ [index] }
    | none =>
      if ringDist r.k r.sh index < ringDist r.k r.sh r.tl then s.setRing ring { r with abortMarks := r.abortMarks ++ [index] } else s

/-! ## Waits that end (R99, R201, R281) -/

/-- ENTROPY_WAIT_EXPIRY (R281): 64 frames of waiting for a draw, from frame A on; the record is due at A + 64. -/
def execEntropyWaitExpiry (job : Nat) (s : State) : Res :=
  match s.job? job with
  | some j =>
    match j.firstHeld with
    | some a =>
      if j.phase = .ready ∧ a + 63 ≤ s.tick then
        .next (((s.count Key.WSP_WITHHELD_JOBS).finish job stEntropy 0 (max (a + 64) (s.tick + 1))).updJob job fun i => { i with boundVoid := i.class0 || i.boundVoid })
      else .next s
    | none => .next s
  | none => .next s

/-- A change of this unit is refused for want of acknowledgements (R99, R224): the record at E + 66 for a job. -/
def State.ownTimesOut (s : State) (o : OwnChange) : State :=
  let s := ((s.undoOwn o).settleHeart o.record.change).count Key.CHN_REPL_TIMEOUTS
  match o.job with
  | some id => s.finish id stReplTimeout (o.acks.length % 4) (max (o.e + 66) (s.tick + 1))
  | none => s

/-- HOST_LINK_RETRAIN (R51, R201): the link has trained to a speed and width of Table 3.1, no wider than CFG_SEL selects; the next tick follows it. An operand outside the table changes nothing. -/
def execHostLinkRetrain (gen width : Nat) (s : State) : Res :=
  if 1 ≤ gen ∧ gen ≤ 5 ∧ [1, 2, 4, 8].contains width ∧ width ≤ strapWidth s.rst.strap then
    .next { s with host := { s.host with trainedGen := gen, trainedWidth := width, linkUp := true } }
  else .next s

end Sys2Proof.Machine
end

