-- ==== Sys2Proof/Machine/CheckValue.lean ====
section
/-! DEFINITION. Check-value units (chapter 17): the CRC, the commands and states, how a scan stops and ends. -/

namespace Sys2Proof.Machine

/-! ## The computation (R409) -/

/-- One bit of input. -/
def crcBit (w poly reg : Nat) (b : Bool) : Nat :=
  let s := 2 * reg % 2 ^ w
  if bitOf reg (w - 1) == b then s else s ^^^ poly

/-- One byte of input, its bits taken from bit 7 down, or from bit 0 up when input is reflected. -/
def crcByte (w poly : Nat) (reflect : Bool) (reg : Nat) (b : Byte) : Nat :=
  (List.range 8).foldl (fun r i => crcBit w poly r (bitOf b.toNat (if reflect then i else 7 - i))) reg

def crcBytes (w poly : Nat) (reflect : Bool) (reg : Nat) (bs : Bytes) : Nat := bs.foldl (crcByte w poly reflect) reg

/-- The `w` bits of a number in reverse order. -/
def reflectBits (w n : Nat) : Nat := (List.range w).foldl (fun a i => 2 * a + b2n (bitOf n i)) 0

/-- The result of a running value. -/
def crcResult (w reg : Nat) (reflect invert : Bool) : Nat :=
  let r := if reflect then reflectBits w reg else reg
  if invert then r ^^^ (2 ^ w - 1) else r

/-! ## The settings of a unit (Table 17.4) -/

def State.chkWidth (s : State) (u : Nat) : Nat := s.num (Key.CHK_WIDTH u)
def State.chkFlag (s : State) (u i : Nat) : Bool := bitOf (s.num (Key.CHK_FLAGS u)) i
def State.chkVault (s : State) (u : Nat) : Bool := s.num (Key.CHK_SOURCE u) == 1
/-- An entry's low w bits. -/
def State.chkLow (s : State) (u v : Nat) : Nat := v % 2 ^ s.chkWidth u
def State.chkFold (s : State) (u reg : Nat) (bs : Bytes) : Nat :=
  crcBytes (s.chkWidth u) (s.chkLow u (s.num (Key.CHK_POLY u))) (s.chkFlag u 0) reg bs

/-- The range lies within its source (R410). -/
def State.chkRange (s : State) (u : Nat) : Bool :=
  let start := s.num (Key.CHK_START u)
  let len := s.num (Key.CHK_LENGTH u)
  if s.chkVault u then decide (start + len ≤ s.num Key.VLT_PAGES) else decide (1 ≤ len) && decide (start + len ≤ 0x800000)

/-- Bytes of the scan that remain. -/
def State.chkRemaining (s : State) (u : Nat) : Nat :=
  (s.num (Key.CHK_LENGTH u) - (s.chkUnit u).position) * (if s.chkVault u then 4096 else 1)

/-- The scan needs leave (R412). -/
def State.chkHeavy (s : State) (u : Nat) : Bool := decide (0x100000 < s.chkRemaining u)

/-- The number under which a unit's leave stands. -/
def chkLeaveId (u : Nat) : Nat := 2 ^ 64 + u
/-- The number under which the leave of a scrub pass or a resilver stands. -/
def copyLeaveId : Nat := 2 ^ 64 + 4
/-- The number under which the leave of a transfer to a joining unit stands (R344). -/
def transferLeaveId : Nat := 2 ^ 64 + 5

/-- The leave of one of the two. -/
def State.copyOf (s : State) (id : Nat) : CopyLeave := if id = copyLeaveId then s.sched.copyLeave else s.sched.transferLeave
def State.setCopy (s : State) (id : Nat) (c : CopyLeave) : State :=
  { s with sched := if id = copyLeaveId then { s.sched with copyLeave := c } else { s.sched with transferLeave := c } }

/-- A command that Table 17.2 accepts; START and CONTINUE need a range within its source, START of unit 3 no vault scrub (R410, R411, R414). -/
def State.chkAccepts (s : State) (u cmd : Nat) : Bool :=
  let c := s.chkUnit u
  let free := !(s.block u).keeperOwns
  free && (match cmd with
    | 1 => c.state != 1 && s.chkRange u && !(u == 3 && s.num Key.VLT_SCRUB_ENABLE != 0)
    | 2 => (c.state == 2 || (c.state == 5 && c.fault == 5)) && s.chkRange u
    | 3 => c.state == 1
    | _ => false)

/-- A unit's settings can be written (R411, R414). -/
def State.chkWritable (s : State) (u : Nat) : Bool := !(s.block u).keeperOwns && (s.chkUnit u).state != 1

/-! ## Commands (R411) -/

/-- A scan begins, or goes on, at a running value and a position. -/
def State.chkBegin (s : State) (u reg position : Nat) : State :=
  let s := s.updChk u fun c => { c with
    state := 1, reg := reg, position := position, running := reg, shown := position, fault := 0, hit := 0, next := none, leaveUntil := none, leaveAsked := none }
  if s.chkHeavy u then s.updChk u fun c => { c with leaveAsked := some (s.tick + 1) } else s

/-- The unit stops: it shows the scan as it stands, and its leave ends. -/
def State.chkStop (s : State) (u state fault : Nat) : State :=
  (s.updChk u fun c => { c with
    state := state, fault := fault, running := c.reg, shown := c.position, hit := 0, next := none, leaveAsked := none, leaveUntil := none }).endLeave (chkLeaveId u)

/-- A CHK_COMMAND as it takes effect. -/
def State.chkCommand (s : State) (u cmd : Nat) : State :=
  match cmd with
  | 1 => s.chkBegin u (s.chkLow u (s.num (Key.CHK_INIT u))) 0
  | 2 => s.chkBegin u (s.chkLow u (s.chkUnit u).running) (s.chkUnit u).shown
  | _ => s.chkStop u 2 0

/-! ## Ends and stops (R413, R415) -/

/-- A mismatch event: counted and recorded. -/
def State.chkMismatch (s : State) : State := (s.count Key.CHK_MISMATCHES).event 0x2601

/-- CHK_SCAN_END (R413): the last byte is folded, or the scan has met a fault; the end shows at the next tick. -/
def execChkScanEnd (unit : Nat) (s : State) : Res :=
  let c := s.chkUnit unit
  if c.state ≠ 1 ∨ c.next.isSome then .next s
  else if c.hit ≠ 0 then .next (s.chkMismatch.setChk unit { c with next := some (5, c.hit) })
  else if c.position < s.num (Key.CHK_LENGTH unit) then .next s
  else
    let r := crcResult (s.chkWidth unit) c.reg (s.chkFlag unit 1) (s.chkFlag unit 2)
    if !s.chkFlag unit 3 then .next (s.setChk unit { c with result := r, next := some (5, 0) })
    else if r = s.chkLow unit (s.num (Key.CHK_EXPECTED unit)) then .next (s.setChk unit { c with result := r, next := some (3, 0) })
    else .next (s.chkMismatch.setChk unit { c with result := r, next := some (4, 0) })

/-- What shows of the units changes at the tick (R411). -/
def State.chkTick (s : State) : State :=
  (List.range 4).foldl (fun st u =>
    let c := st.chkUnit u
    match c.next with
    | some n => st.chkStop u n.1 n.2
    | none => if c.state = 1 then st.setChk u { c with running := c.reg, shown := c.position } else st) s

/-- A scan stops with cause 5 (R415). -/
def State.chkHalt (s : State) (u : Nat) : State := if (s.chkUnit u).state = 1 then (s.chkStop u 5 5).chkMismatch else s

/-- A tamper zeroise: scans stop, every unit is wiped (R305, R415). -/
def State.chkZeroise (s : State) : State :=
  (List.range 4).foldl (fun st u => (st.chkHalt u).updChk u fun c => { c with reg := 0, position := 0 }) s

/-- A FUNCTION reset stops the scans of the normal world (R415). -/
def State.chkFunctionReset (s : State) : State :=
  (List.range 4).foldl (fun st u => if (st.block u).keeperOwns then st else st.chkHalt u) s

/-- The window of a hand-over: a scan is suspended, the unit wiped (R415). -/
def State.chkHandOver (s : State) (u : Nat) : State :=
  let c := s.chkUnit u
  let s := if c.state = 1 ∧ c.next.isNone then s.chkStop u 2 0 else s
  s.updChk u fun c => { c with reg := 0, position := 0 }

/-- An uncorrectable word that a scan read in this frame stops it with cause 3 (Table 17.3). -/
def State.chkUncorrectable (s : State) (word : Nat) : State :=
  (List.range 4).foldl (fun st u =>
    let c := st.chkUnit u
    let a := st.num (Key.CHK_START u)
    if c.state = 1 ∧ !st.chkVault u ∧ a + c.shown < 4 * word + 4 ∧ 4 * word < a + c.position then st.setChk u { c with hit := 3 } else st) s

end Sys2Proof.Machine
end

