-- ==== Sys2Proof/Machine/Keeper.lean ====
section
/-! DEFINITION. The Keeper and what stands around it (chapter 12): colour and guard faults, uncorrectable memory errors, the weirs, the region guard, the debug master, hand-over of shared blocks, the watchdogs. -/

namespace Sys2Proof.Machine

/-! ## Regions (R298, R299) -/

/-- Enabled sub-regions, as (start, length). -/
def Region.parts (r : Region) : List (Nat × Nat) :=
  if r.enable then
    let w := 2 ^ r.size / 8
    ((List.range 8).filter fun i => !bitOf r.subOff i).map fun i => (r.base + i * w, w)
  else []

/-- Two regions have an enabled sub-region in common. -/
def Region.meets (a b : Region) : Bool := a.parts.any fun x => b.parts.any fun y => decide (x.1 < y.1 + y.2) && decide (y.1 < x.1 + x.2)

/-- The first two enabled regions that overlap (R299). -/
def overlapOf (rs : List (Nat × Region)) : Option (Nat × Nat) :=
  (List.range 16).findSome? fun i =>
    ((List.range 16).find? fun j => decide (i < j) && (SMap.get Region.none rs i).meets (SMap.get Region.none rs j)).map fun j => (i, j)

/-! ## Colour and guard faults (R288, R291) -/

/-- A fault that stops a job's context: in its frame F its record is due at F + 2, else at its normal completion tick. -/
def State.trapJob (s : State) (id detail : Nat) : State :=
  match s.job? id with
  | some j =>
    if j.phase = .staged then s
    else if s.tick ≤ j.frameF then s.finish id stFault (0xF3 + 256 * detail) (s.tick + 2)
    else s.force id stFault (0xF3 + 256 * detail)
  | none => s

/-- A command core leaves the context that trapped (R291). -/
def State.leaveCore (s : State) (core : Nat) : State :=
  { s with keeper := { s.keeper with cores := s.keeper.cores.filter fun c => decide (c.1 ≠ core) } }

/-- COLOUR_FAULT (R288, R291). -/
def execColourFault (core job : Nat) (guardCause : Bool) (s : State) : Res :=
  let s := if guardCause then (s.count Key.KPR_GUARD_FAULTS).guardFault 1 none (some 0) (some 0) else (s.count Key.KPR_COLOUR_FAULTS).event 0x2504
  .next ((s.trapJob job (if guardCause then 2 else 1)).leaveCore core)

/-! ## Uncorrectable errors (R12, Table 1.2; R292) -/

/-- Give up the vault group being written: its jobs end with VAULT_UNAVAILABLE at tick `due`, and nothing of it is committed. -/
def State.failGroup (s : State) (due : Nat) : State :=
  let ids := s.vault.group.filterMap fun v => v.job
  let s := { s with vault := { s.vault with group := [], groupIssued := 0, groupFlushed := false, groupEnded := false } }
  ids.foldl (fun st id => st.finish id stVault 0 due) s.endWrites

/-- Every vault read in progress fails on both ports. -/
def State.failReads (s : State) (due : Nat) : State :=
  let ids := s.vault.reads.flatMap fun r => r.jobs
  let s := { s with vault := { s.vault with reads := [] } }
  ids.foldl (fun st id => st.finish id stVault 0 due) s

/-- The job whose buffers own a word, by the allocator's record (R292). -/
def State.ownerOf (s : State) (word : Nat) : Option Job := s.jobs.find? fun j => j.granules.contains (word / 16)

/-- WM_UNCORRECTABLE (R292, Table 1.2). -/
def execWmUncorrectable (word : Nat) (s : State) : Res :=
  if 2097152 ≤ word then .fault (.noSuchWord word)
  else
    let s := ((s.count Key.KPR_WM_UE).eventOf 292).chkUncorrectable word
    match s.ownerOf word with
    | some j => .next (s.force j.id stFault 0xF0)
    | none =>
      match (s.word word).colour with
      | 0 => .next (s.resetDue 2 14)
      | 13 => .next (s.resetDue 1 7)
      | 14 => .next ((s.failGroup (s.tick + 2)).failReads (s.tick + 2))
      | _ => .next (s.setWord word Word36.free)

/-- KEY_CACHE_UNCORRECTABLE (R12): the entry is dropped and refetched; the pin is kept. -/
def execKeyCacheUncorrectable (handle : Nat) (s : State) : Res :=
  if s.keys.cache.any fun o => o.handle == handle then
    let s := s.count Key.KEY_CACHE_UE
    let s := { s with keys := { s.keys with
        cache := s.keys.cache.filter (fun o => decide (o.handle ≠ handle)),
        reload := if s.keys.pins.contains handle && !s.keys.reload.contains handle then s.keys.reload ++ [handle] else s.keys.reload } }
    .next s
  else .next s

/-- A heart whose image does not open (R221): RECOVERING in a domain, else SPENT with generation 32,767; the other fields as the image's plain part names them. -/
def State.heartFails (s : State) (n : Nat) (i : HeartImage) : State :=
  let h := heartOf (List.replicate 32 0 ++ i.ad)
  (s.setHeart n h).putHeart n (if !allZero (s.oct Key.CHN_DOMAIN_ID) then { h with key := [], state := .recovering, lastChange := s.tick }
    else { h with key := [], state := .spent, generation := 32767, certified := false, lastChange := s.tick })

/-- A heart's entry reloaded from its image (R12, R221); one without an image is EMPTY. -/
def State.reloadHeart (s : State) (n : Nat) : State :=
  match s.image n with
  | none => s.setHeart n Heart.reset
  | some i =>
    match s.keys.heartImageKey.bind fun k => openImage k n i with
    | some h => s.setHeart n h
    | none => (s.heartFails n i).eventOf 221

/-- Jobs on a heart that are not admitted wait one frame for the entry, and carry BOUND_VOID; a class-0 job keeps its class (R12, Table 2.5). -/
def State.delayHeart (s : State) (n : Nat) : State :=
  { s with jobs := s.jobs.map fun j =>
      if j.admitted.isNone ∧ j.phase ≠ .staged ∧ j.descDone ∧ (j.checkedHandles.any fun h => decide (hKind h ≤ 1) && hHeart h == n) then
        { j with boundVoid := true, notBefore := s.tick + (if s.window then 3 else 2) } else j }

/-- HEART_TABLE_UNCORRECTABLE (R12): the entry is to be reloaded from its MRAM image in the next housekeeping window. -/
def execHeartTableUncorrectable (heart : Nat) (s : State) : Res :=
  let s := s.delayHeart heart
  .next (if s.keys.heartsLost.contains heart then s else { s with keys := { s.keys with heartsLost := s.keys.heartsLost ++ [heart] } })

/-- The reloads of a window; under secure invasive debug the Keeper loads no heart (R308). -/
def State.reloadHearts (s : State) : State :=
  if bitOf s.keeper.debugState 3 then s
  else s.keys.heartsLost.foldl State.reloadHeart { s with keys := { s.keys with heartsLost := [] } }

/-- KEEPER_SRAM_UNCORRECTABLE (R12): a WARM reset. -/
def execKeeperSramUncorrectable (s : State) : Res := .next (s.resetDue 2 14)

/-! ## The weirs (R294 to R297) -/

/-- The job on a command core. -/
def State.coreJob (s : State) (core : Nat) : Option Job := (s.keeper.cores.find? fun c => c.1 == core).bind fun c => s.job? c.2

/-- The access colour of a core: that of the context it runs; the firmware's 13 with none. -/
def State.coreColour (s : State) (core : Nat) : Nat := ((s.coreJob core).map fun j => j.colour).getD 13

/-- The cause of Table 12.3 that a gateway call meets, 0 for none. -/
def State.gateCause (s : State) (core weir addr length : Nat) (direct : Bool) : Nat :=
  let words := (List.range (if length = 0 then 0 else (addr % 4 + min length 512 + 3) / 4)).map fun i => s.word (addr / 4 + i)
  if direct then 2
  else if 64 ≤ weir ∨ !bitOf (s.num Key.KPR_WEIR_VALID) weir then 1
  else if words.any fun w => decide (w.colour ≠ s.coreColour core) then 3
  else if addr < 0x200000 ∨ 0x400000 < addr + length then 4
  else if 512 < length then 5
  else 0

def State.setReturn (s : State) (core v : Nat) : State :=
  { s with keeper := { s.keeper with gateReturn := SMap.set 0 core v s.keeper.gateReturn } }

/-- A gateway fault (R295): recorded and counted, and the core traps. -/
def State.gateFault (s : State) (core cause : Nat) : State :=
  let s := ((s.count Key.KPR_GATE_FAULTS).setNum Key.KPR_LAST_GATE_FAULT (core + 256 * cause + 65536 * (s.tick % 2 ^ 48))).event 0x2503
  let s := { s with keeper := { s.keeper with gateFaultTicks := s.keeper.gateFaultTicks ++ [s.tick] } }
  let f := s.takeNat
  let detail := if cause = 3 then 1 else if cause = 4 then 2 else 1 + f.1 % 2
  let s := f.2.setReturn core 3
  match s.coreJob core with
  | some j => (s.trapJob j.id detail).leaveCore core
  | none => s

/-- Argument bytes of a call. -/
def State.argBytes (s : State) (addr length : Nat) : Bytes := (List.range length).map fun i => s.wmByte (addr + i)

/-- GATEWAY_CALL (R294): checked, then queued, or busy at 16 calls. -/
def execGatewayCall (core weir addr length : Nat) (direct : Bool) (s : State) : Res :=
  if !s.keeper.coresRunning then .next s
  else
    let cause := s.gateCause core weir addr length direct
    if cause ≠ 0 then .next (s.gateFault core cause)
    else if 16 ≤ (s.keeper.weirCalls.filter fun c => c.weir == weir).length then .next (s.setReturn core 2)
    else
      let call : WeirCall := ⟨weir, core, ((s.coreJob core).map fun j => j.id).getD 0, s.argBytes addr length, addr, false⟩
      let s := { s with keeper := { s.keeper with weirCalls := s.keeper.weirCalls ++ [call] } }
      .next (s.setReturn core 1)

/-- GATEWAY_FAULT_LIMIT (R295): sixteen gateway faults within 65,536 ticks. -/
def execGatewayFaultLimit (s : State) : Res :=
  let recent := s.keeper.gateFaultTicks.filter fun t => decide (s.tick < t + 65536)
  if 16 ≤ recent.length then .next ({ s with keeper := { s.keeper with gateFaultTicks := [] } }.resetDue 1 5) else .next s

/-- The context of a call still lives. -/
def State.callLives (s : State) (c : WeirCall) : Bool :=
  c.job == 0 || (match s.job? c.job with | some j => decide (j.phase ≠ .staged) | none => false)

/-- Write a call's result into the caller's buffer with the caller's colour; on words of another colour the access is not performed, and counts as a colour fault (R288, R296). -/
def State.writeResult (s : State) (colour addr : Nat) (result : Bytes) : State :=
  let fits (st : State) (i : Nat) : Bool := decide ((st.word ((addr + i) / 4)).colour = colour)
  let s' := result.zipIdx.foldl (fun st x => if fits st x.2 then st.wmStore colour (addr + x.2) [x.1] else st) s
  if (List.range result.length).all (fits s) then s' else (s'.count Key.KPR_COLOUR_FAULTS).event 0x2504

/-- KEEPER_CALL_SERVE (R296), not while the Keeper is halted (R308): calls of ended contexts are withdrawn, then the oldest is served. -/
def execKeeperCallServe (result : Bytes) (s : State) : Res :=
  if !s.keeper.running || s.keeper.haltSecure then .next s
  else
    let live := s.keeper.weirCalls.filter s.callLives
    match live with
    | [] => .next { s with keeper := { s.keeper with weirCalls := [] } }
    | c :: rest =>
      let colour := ((s.job? c.job).map fun j => j.colour).getD 13
      let s := { s with keeper := { s.keeper with weirCalls := rest, completions := s.keeper.completions ++ [(c.core, c.weir, 1, result.take 512)] } }
      .next (s.writeResult colour c.addr (result.take 512))

/-- WEIR_INVALIDATE (R297): the bit is cleared, and the calls queued on the weir are reported as refused. -/
def execWeirInvalidate (weir : Nat) (s : State) : Res :=
  let gone := s.keeper.weirCalls.filter fun c => c.weir == weir
  let v := s.num Key.KPR_WEIR_VALID
  let s := s.setNum Key.KPR_WEIR_VALID (if bitOf v weir then v - 2 ^ weir else v)
  .next { s with keeper := { s.keeper with
    weirCalls := s.keeper.weirCalls.filter (fun c => decide (c.weir ≠ weir)),
    completions := s.keeper.completions ++ gone.map fun c => (c.core, c.weir, 2, []) } }

/-! ## The region guard (R299, R300) -/

/-- The guard goes off; the rule set that stood is kept (R299, R300). -/
def State.guardOff (s : State) : State :=
  { s with keeper := { s.keeper with guardOn := false, guardSaved := s.keeper.regions, regionsNew := s.keeper.regions, guardOffSince := s.tick, guardDisableHeld := false } }

/-- GUARD_DISABLE (R300, R313): at once in lane time; in the window, held until the next lane time. -/
def execGuardDisable (s : State) : Res :=
  if !s.keeper.guardOn then .next s
  else if s.window then .next { s with keeper := { s.keeper with guardDisableHeld := true } }
  else .next s.guardOff

/-- Re-enable: the new fields, or the saved rule set where they overlap (R299). -/
def State.guardOnAgain (s : State) : State :=
  match overlapOf s.keeper.regionsNew with
  | some o =>
    ({ s with keeper := { s.keeper with guardOn := true, regions := s.keeper.guardSaved, regionsNew := s.keeper.guardSaved } }).guardFault 3 (some o.1) (some o.2) none
  | none => { s with keeper := { s.keeper with guardOn := true, regions := s.keeper.regionsNew } }

/-! ## The debug master (R301, R307) -/

/-- The poison word. -/
def poison : Nat := 0xDEADC0DE

/-- A debug right, the invasive right of a world including its non-invasive one (R307). -/
def State.debugRight (s : State) (bit : Nat) : Bool :=
  bitOf s.keeper.debugState bit || (bit % 2 == 0 && decide (bit < 4) && bitOf s.keeper.debugState (bit + 1))

/-- What a debug read answers that is not permitted: the poison word for a word of colour 0, else a free word (R301). -/
def State.debugDenied (s : State) (word : Nat) : State :=
  if (s.word word).colour = 0 ∧ !s.debugRight 2 then s.emit (.debug poison)
  else let f := s.takeNat; f.2.emit (.debug (f.1 % 2 ^ 36))

/-- An access of the debug master that the guard checks (R301, R307). A read that is not permitted answers a free word, of a word of colour 0 the poison word. -/
def State.debugAccess (s : State) (write : Bool) (word data : Nat) (allBits : Bool) : State :=
  let fault (st : State) (cause : Nat) (r : Nat) : State := (st.count Key.KPR_GUARD_FAULTS).guardFault cause (some r) (some 0) (some 4)
  let refuse (st : State) : State := if write then st else st.debugDenied word
  match regionAt s.keeper.regions (4 * word) with
  | none => refuse s
  | some n =>
    let r := s.region n
    let w := s.word word
    if r.lock then (if write then fault s 2 n else (fault s 2 n).emit (.debug poison))
    else if !bitOf r.perm (if write then 9 else 8) then refuse (fault s 1 n)
    else if !s.debugRight (if write then 1 else if w.colour = 0 then 2 else 0) then refuse s
    else if write then s.setWord word ⟨if allBits then data / 2 ^ 32 % 16 else w.colour, data % 2 ^ 32⟩
    else s.emit (.debug (w.colour * 2 ^ 32 + w.data))

/-- DEBUG_MASTER_ACCESS (R301, R307); held while the guard is off (R300). -/
def execDebugMasterAccess (write : Bool) (word data : Nat) (allBits : Bool) (s : State) : Res :=
  .next (s.guarded (.debugMasterAccess write word data allBits) fun s => s.debugAccess write word data allBits)

/-- DEBUG_HALT (R308): a debug master with the invasive right of the world halts it. -/
def execDebugHalt (secure : Bool) (s : State) : Res :=
  if secure then .next (if s.debugRight 3 then { s with keeper := { s.keeper with haltSecure := true } } else s)
  else .next (if s.debugRight 1 then { s with keeper := { s.keeper with haltNormal := true } } else s)

/-- DEBUG_RESUME (R308). -/
def execDebugResume (secure : Bool) (s : State) : Res :=
  if secure then .next { s with keeper := { s.keeper with haltSecure := false } }
  else .next { s with keeper := { s.keeper with haltNormal := false } }

/-! ## Hand-over of shared blocks (R303 to R306) -/

/-- The `n`-th Keeper-reservable lane: the highest-numbered unfenced lanes (R303). -/
def State.reservable (s : State) (n : Nat) : Option Nat :=
  (((List.range 8).reverse.filter fun l => !(s.symLane l).fenced).drop n).head?

/-- The lane of block 5 or 6: the one the Keeper holds or drains for it, else the one it may take. -/
def State.blockLane (s : State) (b : Nat) : Option Nat :=
  if b = 5 ∨ b = 6 then (match (s.block b).lane with | some l => some l | none => s.reservable (b - 5)) else none

/-- KEEPER_HANDOVER_REQUEST (R304): of a block that the normal world owns, with no hand-over in progress; granted at tick G + 2. -/
def execKeeperHandoverRequest (block : Nat) (s : State) : Res :=
  let b := s.block block
  let may := block ≤ 4 || (decide (block ≤ 6) && decide (block - 5 < s.num Key.KPR_SYM_RESERVE) && (s.blockLane block).isSome)
  if may && !b.keeperOwns && b.handDue.isNone then .next (s.setBlock block { b with handDue := some (s.tick + 2, true), normalAsks := false, lane := s.blockLane block })
  else .next s

/-- KEEPER_HANDOVER_RELEASE (R305): the block is wiped in the window of this frame and returns at the next tick. -/
def execKeeperHandoverRelease (block : Nat) (s : State) : Res :=
  let b := s.block block
  if b.keeperOwns && b.handDue.isNone then .next (s.setBlock block { b with hand := .releasing, handDue := some (s.tick + 1, false) }) else .next s

/-- NORMAL_HANDOVER_REQUEST (R305): recorded for a block that the Keeper holds; refused while a hand-over of it is in progress. -/
def execNormalHandoverRequest (block : Nat) (s : State) : Res :=
  let b := s.block block
  if b.keeperOwns && b.handDue.isNone then .next (s.setBlock block { b with normalAsks := true }) else .next s

/-- A job that runs again from its first segment, its buffers placed and its descriptor, input and label fetched afresh from the next tick on (R125, R304). -/
def Job.afresh (j : Job) (frame : Nat) : Job :=
  { j with frameF := frame, descDone := false, input := [], inputDone := false, label := [], labelDone := false, asked := 0, labelSince := frame,
           readSince := frame, phase := .noRoom, granules := [], bufs := [], placed := 0, plan := [], segsRun := 0, attempts := 1, accepted := true, search := none, blind := [], admitted := none,
           key1 := none, key2 := none, draws := [], drawsDone := false, outcome := none, leaveN := 0, leaveUntil := none,
           leaveAsked := none, boundVoid := j.boundVoid || j.class0, refetch := true }

/-- The jobs on a symmetric lane stop and run again from the start on another lane (R304). -/
def State.moveLaneJobs (s : State) (lane : Nat) : State :=
  let l := s.symLane lane
  (l.running.toList ++ l.parked).foldl (fun st id =>
    let st := match st.job? id with
      | some j => st.scrubJob j
      | none => st
    (st.stopJob id).updJob id fun j => j.afresh (st.tick + 1)) s

/-- Reset and wipe of a block's own state (R304, R305). -/
def State.wipeBlock (s : State) (b : Nat) : State :=
  if b ≤ 3 then s.chkHandOver b
  else if b = 4 then { s with ent := { s.ent with portBytesUsed := 0 } }
  else match s.blockLane b with
    | some l => (s.moveLaneJobs l).updSym l fun x => { x with running := none, parked := [], usedCycles := 0 }
    | none => s

/-- Whether the Keeper owns block `b`, written into the block and into what it is. -/
def State.setOwner (s : State) (b : Nat) (keeper : Bool) : State :=
  let lane := s.blockLane b
  let s := s.updBlock b fun x => { x with keeperOwns := keeper, hand := .settled, handDue := none, normalAsks := x.normalAsks && keeper, lane := if keeper then x.lane else none }
  if b = 4 then { s with ent := { s.ent with keeperPort := keeper } }
  else match lane with
    | some l => s.updSym l fun x => { x with keeper := keeper, draining := false }
    | none => s

/-- A block is gated at once (R442). -/
def State.gateNow (s : State) (b : Nat) : State :=
  let s := s.updBlock b fun x => { x with gated := true, gateDraining := false, deferred := false }
  if b = 4 then { s with ent := { s.ent with gatedPort := true } }
  else match s.blockLane b with
    | some l => (s.updBlock b fun x => { x with lane := some l }).updSym l fun y => { y with gated := true, draining := false }
    | none => s

/-- A block is ungated, and a pending gate request cleared (R306, R442). -/
def State.ungateNow (s : State) (b : Nat) : State :=
  let lane := s.blockLane b
  let s := s.updBlock b fun x => { x with gated := false, gateDraining := false, deferred := false, lane := if x.keeperOwns || x.handDue.isSome then x.lane else none }
  if b = 4 then { s with ent := { s.ent with gatedPort := false } }
  else match lane with
    | some l => s.updSym l fun y => { y with gated := false, draining := y.draining && (s.block b).handDue.isSome }
    | none => s

/-- A gate request as it takes effect (R306, R442): deferred while the Keeper holds the block or a hand-over runs; a symmetric lane drains first. -/
def State.gateRequest (s : State) (b : Nat) : State :=
  let x := s.block b
  if x.keeperOwns || x.handDue.isSome then s.setBlock b { x with deferred := true }
  else if b ≤ 4 then s.gateNow b
  else match s.blockLane b with
    | some l => (s.setBlock b { x with gateDraining := !x.gated, lane := some l }).updSym l fun y => { y with draining := !y.gated }
    | none => s

/-- LANE_GATE_DRAINED (R442): a draining lane that holds no job is gated. -/
def execLaneGateDrained (block : Nat) (s : State) : Res :=
  let x := s.block block
  match x.lane with
  | some l =>
    let y := s.symLane l
    if x.gateDraining ∧ y.running = none ∧ y.parked = [] then .next (s.gateNow block) else .next s
  | none => .next s

/-- Hand-overs at the start of frame `tick`: those due end; those that begin to release stop taking work. A block granted to the Keeper is ungated; a pending gate request applies when the block returns (R306). -/
def State.handTick (s : State) : State :=
  (List.range 7).foldl (fun st n =>
    let b := st.block n
    match b.handDue with
    | none => st
    | some d =>
      if d.1 ≤ st.tick then
        let st := st.setOwner n d.2
        if d.2 then st.ungateNow n else if (st.block n).deferred then st.gateNow n else st
      else if d.1 = st.tick + 1 ∧ d.2 then
        let st := st.updBlock n fun x => { x with hand := .releasing }
        match st.blockLane n with
        | some l => st.updSym l fun x => { x with draining := true }
        | none => st
      else st) s

/-- Hand-overs in the window: blocks due at the next tick are reset and wiped (R304, R305). -/
def State.handWindow (s : State) : State :=
  (List.range 7).foldl (fun st n =>
    match (st.block n).handDue with
    | some d => if d.1 = st.tick + 1 then (st.wipeBlock n).updBlock n (fun x => { x with hand := .wiping }) else st
    | none => st) s

/-! ## Watchdogs (R309 to R311) -/

/-- SWDT_REFRESH (R309): 0x5A, then 0xA5 with no other write between; a new period counts from here. -/
def execSwdtRefresh (value : Nat) (s : State) : Res :=
  let good := decide (s.keeper.swdtLast = 0x5A) && decide (value = 0xA5)
  let s := { s with keeper := { s.keeper with swdtLast := value } }
  .next (if good then { s with keeper := { s.keeper with swdtUs := 0, swdtPeriodNow := s.num Key.KPR_SWDT_PERIOD } } else s)

/-- Expiries within the last 600 operating seconds, this one included. -/
def State.recentExpiries (s : State) (l : List Nat) : List Nat := l.filter fun t => decide (s.rst.seconds < t + 600)

/-- SWDT_EXPIRY (R310): a WARM reset; LOCK follows it at the third within 600 seconds. -/
def execSwdtExpiry (s : State) : Res :=
  if s.keeper.swdtArmed && !s.keeper.haltSecure && decide (1000 * s.keeper.swdtPeriodNow ≤ s.keeper.swdtUs) then
    let l := s.recentExpiries (s.keeper.swdtExpiries ++ [s.rst.seconds])
    let s := { s with keeper := { s.keeper with swdtExpiries := l, swdtUs := 0, swdtArmed := false } }
    .next ((s.event 0x2501).resetDue 2 9)
  else .next s

/-- NWDT_CHECKIN (R311): the watchdog refreshes when every core that is not halted has checked in. -/
def execNwdtCheckin (core : Nat) (s : State) : Res :=
  if !s.keeper.coresRunning || s.keeper.haltNormal then .next s
  else
    let l := insertAsc core s.keeper.checkins
    if (List.range 8).all fun n => l.contains n then .next { s with keeper := { s.keeper with checkins := [], nwdtUs := 0 } }
    else .next { s with keeper := { s.keeper with checkins := l } }

/-- NWDT_EXPIRY (R311): a FUNCTION reset; a WARM reset at the third within 600 seconds. -/
def execNwdtExpiry (s : State) : Res :=
  if s.keeper.coresRunning && !s.keeper.haltNormal && decide (1000 * s.num Key.KPR_NWDT_PERIOD ≤ s.keeper.nwdtUs) then
    let l := s.recentExpiries (s.keeper.nwdtExpiries ++ [s.rst.seconds])
    let s := { s with keeper := { s.keeper with nwdtExpiries := l, nwdtUs := 0 } }
    let s := s.event 0x2502
    .next (if 3 ≤ l.length then s.resetDue 2 13 else s.resetDue 1 4)
  else .next s

end Sys2Proof.Machine
end

