-- ==== Sys2Proof/Machine/LaneFaults.lean ====
section
/-! DEFINITION. Lanes and their faults (chapters 02, 06, 07, 08: R37 to R39, R134, R135, R153 to R159, R179, R190, R215): fences, the spare, self-tests, and their returns. -/

namespace Sys2Proof.Machine

/-! ## Jobs that a fault stops (R38, R39, R155, R156) -/

/-- Segments that a job still had to run after the present frame. -/
def State.segsLeft (s : State) (j : Job) : Nat := if j.plan = [] then 0 else planSegs s.laneTime j.plan

/-- A job back before its first segment, to be run again ahead of every admission; `void` where it carries BOUND_VOID. -/
def Job.rerunNow (j : Job) (lt : Nat) (void : Bool) : Job :=
  { j with phase := .ready, plan := j.planOf lt, segsRun := 0, outcome := none, rerun := true, boundVoid := j.boundVoid || void }

/-- The word that names the fault (R91, R153): the lane that faulted last; a fault of a FIFO entry or a memory word that has already fixed the job's status keeps its own (DESIGN CHOICE, assumption log 71). -/
def Job.faultWord (j : Job) (src : Nat) : Nat := match j.forced with | some f => if f.1 = stFault then f.2 else src | none => src

/-- A parked or waiting job that a lane's fault ends outright, with FAULT_DETECTED at tick `due`; its record names this lane, the last that faulted (R153). -/
def State.endByFault (s : State) (src due id : Nat) : State :=
  (s.finish id stFault (((s.job? id).map fun j => j.faultWord src).getD src) due).updJob id fun i => { i with faultTick := some s.tick }

/-- A job whose lane faulted in this frame: of class 0 and not yet run again, it runs again; else FAULT_DETECTED at R39's tick, with the lane that faulted last (R153). -/
def State.faultJob (s : State) (j : Job) (src : Nat) (void : Bool) : State :=
  if j.cls = 0 ∧ !j.rerun then (s.offLane j.id).updJob j.id fun i => i.rerunNow s.laneTime void
  else
    let due := if j.rerun then max (s.tick + 1) (j.frameF + 2 * planSegs s.laneTime (j.planOf s.laneTime) + 2) else s.tick + s.segsLeft j + 2
    (s.finish j.id stFault (j.faultWord src) due).updJob j.id fun i => { i with faultTick := some s.tick }

/-- Jobs of an engine that a fault of their lane meets: those that stand on it, also at a checkpoint, and those parked that ran a segment in this frame. -/
def State.ranOn (s : State) (eng lane : Nat) : List Job :=
  s.jobs.filter fun j => opEngine j.op == eng && j.lane == lane && j.admitted.isSome &&
    (decide (j.phase = .running) || (decide (j.phase = .parkedLane) && decide (j.ranFrame = s.tick)))

/-! ## Public-key lanes -/

/-- Record of a fault of a public-key lane or of a cluster's shared units (Table 6.12). -/
def State.recordPkFault (s : State) (lane cause : Nat) : State := s.setNum Key.PKE_LAST_FAULT (lane + 256 * cause + 65536 * (s.tick % 2 ^ 48))

/-- A fault of public-key lane `n` in this frame (R154, R155): stopped at once, its banks left to be wiped within the frame (R161), fenced at the next tick. -/
def State.pkFault (s : State) (n cause : Nat) : State :=
  let l := s.pkLane n
  let s := (((s.recordPkFault n cause).count (Key.PKE_FAULT_COUNT n)).event 0x2001)
  let ran := s.ranOn engPk n
  let s := ran.foldl (fun st j => st.faultJob j n false) s
  let s := match l.parked with
    | some id => if ran.any fun j => j.id == id then s else s.endByFault n (s.tick + 2) id
    | none => s
  s.updPk n fun l => { l with running := none, parked := none, test := none, due := .fence }

/-- LANE_FAULT (R153 to R155): causes 1 to 6 of Table 6.10; a fenced lane runs nothing. -/
def execLaneFault (lane cause : Nat) (s : State) : Res :=
  let l := s.pkLane lane
  if l.role = .fenced ∨ l.due = .fence ∨ cause = 0 ∨ 6 < cause then .next s else .next (s.pkFault lane cause)

/-- Spares and coming spares (R158). -/
def State.sparesHeld (s : State) : Nat := (s.pkWith .spare).length + (s.pkWith .comingSpare).length

/-- Take the highest-numbered active lane as a coming spare while the count asks for one and the class-0 total fits the cap of one active lane fewer (R37). -/
def State.takeSpare (s : State) : State :=
  let act := s.activePk
  if s.sparesHeld < s.num Key.PKE_SPARE_COUNT ∧ s.totalPk ≤ capOf (act.length - 1) then
    match act.getLast? with
    | some n => s.updPk n fun l => { l with role := .comingSpare }
    | none => s
  else s

/-- The fences and returns that are due take effect at the tick (R37, R155, R158). A lane that is fenced, unless it was itself a spare, is followed by a spare becoming active. -/
def State.pkDue (s : State) (n : Nat) : State :=
  let l := s.pkLane n
  match l.due with
  | .none => s
  | .fence =>
    let s := s.setPk n { l with role := .fenced, due := .none }
    if l.role ≠ .spare then
      match (s.pkWith .spare).getLast? with
      | some p => s.updPk p fun x => { x with role := .active, test := none }
      | none => s
    else s
  | .unfence =>
    let fits := decide (s.sparesHeld < s.num Key.PKE_SPARE_COUNT) && decide (s.totalPk ≤ capOf s.activePk.length)
    let s := s.setPk n { l with role := .active, due := .none }
    if fits then
      match s.activePk.getLast? with
      | some h => if h = n then s.updPk n fun x => { x with role := .spare } else s.updPk h fun x => { x with role := .comingSpare }
      | none => s
    else s

/-- A coming spare that holds no job becomes a spare (R134). -/
def State.settleSpare (s : State) (lane : Nat) : State :=
  let l := s.pkLane lane
  if l.role = .comingSpare ∧ l.running = none ∧ l.parked = none ∧ s.ranOn engPk lane = [] then s.setPk lane { l with role := .spare }
  else s

/-- A re-run on a public-key lane is due (R37): it takes the spare that the fence made active. -/
def State.rerunDue (s : State) : Bool := s.jobs.any fun j => j.rerun && decide (j.phase = .ready) && j.admitted.isSome && opEngine j.op == engPk

/-- Public-key roles at a tick: fences and returns in lane order, then the spare of R37, which serves as one at once where its lane holds no job (R134). A pool that comes to have no spare is recorded. -/
def State.pkRoles (s : State) : State :=
  let had := s.pkWith .spare
  let s := (List.range 24).foldl (fun st n => st.pkDue n) s
  let s := s.takeSpare.takeSpare
  let held := if s.rerunDue then had else []
  let s := ((s.pkWith .comingSpare).filter fun n => !held.contains n).foldl State.settleSpare s
  if !had.isEmpty && (s.pkWith .spare).isEmpty then s.event 0x2002 else s

/-- COMING_SPARE_SETTLE (R134). -/
def execComingSpareSettle (lane : Nat) (s : State) : Res := .next (s.settleSpare lane)

/-! ## Tests of public-key lanes (R157, R158) -/

/-- One frame of a lane's test at the public-key rate. -/
def State.testSegment (s : State) (n : Nat) : State :=
  match (s.pkLane n).test with
  | some t =>
    let c := min s.laneTime t.cyclesLeft
    if c = 0 ∨ s.tick < t.since then s
    else match s.debit (ceilDiv (c * rPk) 100000) with
      | some s => s.updPk n fun l => { l with test := some { t with cyclesLeft := t.cyclesLeft - c } }
      | none => s
  | none => s

/-- A spare starts its known-answer test, in banks 2 and 3, at a multiple of the interval, where it has no test and no job (R157). -/
def State.startSpareTest (s : State) (n : Nat) : State :=
  let l := s.pkLane n
  if l.test.isSome ∨ l.running.isSome ∨ (l.tested = some s.tick) then s
  else s.setPk n { l with test := some ⟨206000, s.tick⟩, tested := some s.tick, banks := l.banks ++ [⟨0, 2, 2, []⟩] }

/-- The tests that fall due at this tick: each spare starts its own. -/
def State.spareTests (s : State) : State :=
  let iv := s.num Key.PKE_SPARE_TEST_INTERVAL
  if iv ≠ 0 ∧ s.tick % iv = 0 then (s.pkWith .spare).foldl State.startSpareTest s else s

/-- SPARE_TEST_DUE (R157): at a multiple of the interval, each spare starts its known-answer test, whose segments the tick debits ahead of classes 1 to 3; a test that the tick itself has started stands. -/
def execSpareTestDue (s : State) : Res := .next s.spareTests

/-- SPARE_TEST_END (R157): the test has run its whole schedule; a failure is a fault of cause 6. -/
def execSpareTestEnd (lane : Nat) (pass : Bool) (s : State) : Res :=
  let l := s.pkLane lane
  if l.role = .spare ∧ (l.test.any fun t => t.cyclesLeft == 0) then
    .next (if pass then s.setPk lane { l with test := none } else s.pkFault lane 6)
  else .next s

/-- A fenced lane is under its unfence test. -/
def State.unfenceRuns (s : State) : Bool := (s.pkWith .fenced).any fun n => (s.pkLane n).test.isSome

/-- A write of PKE_UNFENCE takes effect (R158): each fenced lane that it names starts a test in the next frame; while a test runs, a write has no effect. -/
def State.unfencePk (s : State) (v : Nat) : State :=
  if s.unfenceRuns then s
  else (List.range 24).foldl (fun st n =>
    let l := st.pkLane n
    if bitOf v n && decide (l.role = .fenced) then st.setPk n { l with test := some ⟨19107000, st.tick + 1⟩, banks := [⟨0, 0, 4, []⟩] } else st) s

/-- UNFENCE_TEST_END (R158). -/
def execUnfenceTestEnd (lane : Nat) (pass : Bool) (s : State) : Res :=
  let l := s.pkLane lane
  if l.role = .fenced ∧ (l.test.any fun t => t.cyclesLeft == 0) then
    let s := s.setPk lane { l with test := none, due := if pass then .unfence else .none }
    .next (if pass then s else (((s.recordPkFault lane 6).count (Key.PKE_FAULT_COUNT lane)).event 0x2001))
  else .next s

/-- Active lanes under a new spare count: all that are not fenced, less the count. -/
def State.activeUnder (s : State) (count : Nat) : Nat := 24 - (s.pkWith .fenced).length - count

/-- One lane more or fewer among the spares (R159). -/
def State.lowerSpare (s : State) : State :=
  match (s.pkWith .spare).getLast? with
  | some n => s.updPk n fun l => { l with role := .active, test := none }
  | none => match (s.pkWith .comingSpare).getLast? with
    | some n => s.updPk n fun l => { l with role := .active }
    | none => s
def State.raiseSpare (s : State) : State :=
  match s.activePk.getLast? with
  | some n => s.updPk n fun l => { l with role := .comingSpare }
  | none => s

/-- A write of PKE_SPARE_COUNT takes effect (R159). -/
def State.setSpareCount (s : State) (v : Nat) : State :=
  let s := s.setNum Key.PKE_SPARE_COUNT v
  let held := s.sparesHeld
  if v < held then
    let t := (List.range (held - v)).foldl (fun st _ => st.lowerSpare) s
    if !(s.pkWith .spare).isEmpty && (t.pkWith .spare).isEmpty then t.eventNext 0x2002 else t
  else (List.range (v - held)).foldl (fun st _ => st.raiseSpare) s

/-! ## Shared units (R179) -/

/-- Lattice opcodes: those whose schedule meets a cluster's shared units. -/
def latticeOp (op : Nat) : Bool := decide (0x0301 ≤ op) && decide (op ≤ 0x0308)

/-- SHARED_UNIT_FAULT (R179): the cluster's lattice jobs that ran in this frame stop, those of class 0 to run again in another cluster; those parked or held at a checkpoint end at the second tick. -/
def execSharedUnitFault (cluster : Nat) (s : State) : Res :=
  let c := s.cluster cluster
  if c.fenced ∨ c.due = .fence then .next s
  else
    let s := (s.recordPkFault (0x80 + cluster) 7).event 0x2003
    let here := s.jobs.filter fun j => latticeOp j.op && j.lane / 4 == cluster && j.admitted.isSome && (decide (j.phase = .running) || decide (j.phase = .parkedLane))
    let ran := here.filter fun j => decide (j.ranFrame = s.tick)
    let s := ran.foldl (fun st j => st.faultJob j (0x80 + cluster) true) s
    let held := here.filter fun j => decide (j.ranFrame ≠ s.tick)
    let s := held.foldl (fun st j => st.endByFault (0x80 + cluster) (st.tick + 2) j.id) s
    .next (s.setCluster cluster { c with test := none, due := .fence })

/-- A write of PKE_LAT_UNFENCE takes effect (R179). -/
def State.unfenceLat (s : State) (v : Nat) : State :=
  (List.range 6).foldl (fun st n =>
    let c := st.cluster n
    if bitOf v n && c.fenced && c.test.isNone then st.setCluster n { c with test := some ⟨2487000, st.tick + 1⟩ } else st) s

/-- LAT_UNFENCE_TEST_END (R179). -/
def execLatUnfenceTestEnd (cluster : Nat) (pass : Bool) (s : State) : Res :=
  let c := s.cluster cluster
  if c.fenced && (c.test.any fun t => t.cyclesLeft == 0) then
    let s := s.setCluster cluster { c with test := none, due := if pass then .unfence else .none }
    .next (if pass then s else (s.recordPkFault (0x80 + cluster) 7).event 0x2003)
  else .next s

def State.clusterDue (s : State) : State :=
  (List.range 6).foldl (fun st n =>
    let c := st.cluster n
    match c.due with
    | .none => st
    | .fence => st.setCluster n { c with fenced := true, due := .none }
    | .unfence => st.setCluster n { c with fenced := false, due := .none }) s

/-! ## Symmetric lanes (R190, R215) -/

/-- A fault of symmetric lane `n`: stopped, its windows and staged outputs wiped, fenced at the next tick. -/
def State.symFault (s : State) (n cause : Nat) : State :=
  let l := s.symLane n
  let s := ((s.setNum Key.SYM_LAST_FAULT (n + 256 * cause + 65536 * (s.tick % 2 ^ 48))).count (Key.SYM_FAULT_COUNT n)).event 0x2101
  let ran := s.ranOn engSym n
  let s := ran.foldl (fun st j => (st.freeWindows j.id).faultJob j (0x20 + n) false) s
  let s := (l.parked.filter fun id => !(ran.any fun j => j.id == id)).foldl (fun st id => st.endByFault (0x20 + n) (st.tick + 2) id) s
  s.updSym n fun l => { l with running := none, parked := [], test := none, due := .fence }

/-- SYM_LANE_FAULT (R215): causes 3 to 6. -/
def execSymLaneFault (lane cause : Nat) (s : State) : Res :=
  let l := s.symLane lane
  if l.fenced ∨ l.due = .fence ∨ cause < 3 ∨ 6 < cause then .next s else .next (s.symFault lane cause)

/-- A write of SYM_UNFENCE takes effect (R215): the test runs in two frames. -/
def State.unfenceSym (s : State) (v : Nat) : State :=
  (List.range 8).foldl (fun st n =>
    let l := st.symLane n
    if bitOf v n && l.fenced && l.test.isNone then st.setSym n { l with test := some ⟨2, st.tick + 1⟩ } else st) s

/-- SYM_UNFENCE_TEST_END (R215): after the test's two frames have run. -/
def execSymUnfenceTestEnd (lane : Nat) (pass : Bool) (s : State) : Res :=
  let l := s.symLane lane
  if l.fenced && (l.test.any fun t => decide (t.since + 1 ≤ s.tick)) then
    let s := s.setSym lane { l with test := none, due := if pass then .unfence else .none }
    .next (if pass then s
      else ((s.setNum Key.SYM_LAST_FAULT (lane + 256 * 6 + 65536 * (s.tick % 2 ^ 48))).count (Key.SYM_FAULT_COUNT lane)).event 0x2101)
  else .next s

/-- Symmetric fences and returns at a tick; a fenced lane returns to no owner (R303). -/
def State.symDue (s : State) : State :=
  (List.range 8).foldl (fun st n =>
    let l := st.symLane n
    match l.due with
    | .none => st
    | .fence =>
      let held := (List.range 2).find? fun b => l.keeper && st.blockLane (5 + b) == some n
      let st := match held with
        | some b => st.updBlock (5 + b) fun x => { x with keeperOwns := false, hand := .settled, handDue := none, lane := none }
        | none => st
      st.setSym n { l with fenced := true, keeper := false, draining := false, due := .none }
    | .unfence => st.setSym n { l with fenced := false, due := .none }) s

/-- REGISTER_PAGE_WIPE (R190): the page wiped; every job that holds a window of it takes FAULT_DETECTED at its normal completion tick. -/
def execRegisterPageWipe (slice : Nat) (s : State) : Res :=
  let ids := (s.slice slice).windows.map fun w => w.2
  .next ((ids.foldl (fun st id => st.force id stFault 0xF2) s).wipePage slice)

end Sys2Proof.Machine
end

