-- ==== Sys2Proof/Machine/Vault.lean ====
section
/-! DEFINITION. The vault at work (chapter 10): groups and the two-phase commit, reads and copies that disagree, drives that come and go, resilver, scrub, sweep, formatting; the unwraps of the key ladder. -/

namespace Sys2Proof.Machine

/-! ## State of the vault (R264, R267) -/

/-- Drives in the mirror. -/
def State.mirror (s : State) : List Nat := (List.range 2).filter fun p => (s.drive p).inMirror

/-- VLT_STATE as drives and format leave it (Table 10.7). -/
def State.vaultNow (s : State) : VaultState :=
  if strapDrives s.rst.strap = 0 then .absent
  else if s.vault.formatting.isSome then .formatting
  else match s.vault.state with
    | .unformatted => .unformatted
    | .rootConflict => .rootConflict
    | _ => if s.mirror.length = 2 then .online else if s.mirror.length = 1 then .degraded else .unavailable

/-! ## Groups (R254 to R257) -/

/-- A version writes a data page: all but resolutions and a CONFLICT mark. -/
def Version.writesPage (v : Version) : Bool :=
  decide (v.kind ≠ .keep) && decide (v.kind ≠ .rollBack) && !(v.writes.isEmpty && v.conflict == some true)

/-- A resolution of a pending page: kind 2 or 3 (R256). -/
def Version.resolves (v : Version) : Bool := decide (v.kind = .keep) || decide (v.kind = .rollBack)

/-- Versions of the next group, in order: at most 24 pages; a locked page takes only its resolution; a page with a pending change takes nothing beside it; a page in CONFLICT takes only a repair. -/
def State.pickGroup (s : State) : List Version → List Version → List Version
  | [], g => g
  | v :: r, g =>
    let same := g.filter fun w => w.page == v.page
    let ok := (v.resolves || !s.vault.locked.contains v.page) &&
      (same.isEmpty || (decide (v.kind ≠ .pendingChange) && !v.resolves && same.all fun w => decide (w.kind ≠ .pendingChange) && !w.resolves)) &&
      decide (((g.map fun w => w.page).eraseDups ++ (if same.isEmpty then [v.page] else [])).length ≤ 24)
    s.pickGroup r (if ok then g ++ [v] else g)

/-- The pages of a group, each once, in order. -/
def groupPages (g : List Version) : List Nat := (g.map fun v => v.page).eraseDups

/-- Pages whose pending item a record holds, unless a later record resolves it (R255). -/
def pendingIn (r : JRecord) (later : List JRecord) : List Nat :=
  (r.items.filter fun i => decide (i.kind = .pendingChange) &&
    !(later.any fun l => l.items.any fun x => x.page == i.page && (decide (x.kind = .keep) || decide (x.kind = .rollBack)))).map fun i => i.page

/-- Pages whose pending item the next journal record would overwrite: the ring of 512 is full, and its oldest record holds them (R255). -/
def State.journalHeld (s : State) : List Nat :=
  match s.vault.journal with
  | r :: later => if 512 ≤ s.vault.journal.length then pendingIn r later else []
  | [] => []

/-- The versions that the next group takes: those that came before the present frame, the resolutions that the journal waits for ahead of all others. -/
def State.nextGroup (s : State) : List Version :=
  let ws := s.vault.waiting.filter fun v => decide (v.since ≠ s.tick)
  let first (v : Version) : Bool := v.resolves && s.journalHeld.contains v.page
  s.pickGroup (ws.filter first ++ ws.filter fun v => !first v) []

/-- A group would overwrite a pending item that it does not resolve (R255). -/
def State.journalFull (s : State) (g : List Version) : Bool := s.journalHeld.any fun p => !(g.any fun v => v.page == p && v.resolves)

/-- A group opens at a tick and begins phase 1: no group is in phase 1, a version waits, the vault takes writes, the journal has room (R254, R255). -/
def State.openGroup (s : State) : State :=
  let g := s.nextGroup
  if s.vault.group ≠ [] ∨ s.vault.coming.isSome ∨ !s.vaultUp ∨ g = [] ∨ s.journalFull g then s
  else { s with vault := { s.vault with
      group := g, groupSince := s.tick, groupIssued := 0, groupFlushed := false, groupEnded := false, waiting := s.vault.waiting.filter fun v => !g.contains v } }

/-- A slot run of a page's content written or freed. -/
def applyWrites (content : List Bytes) (w : List (Nat × Option Bytes)) : List Bytes :=
  w.foldl (fun c x => c.set x.1 (fit 512 (x.2.getD []))) content
def mapAfter (m : Nat) (w : List (Nat × Option Bytes)) : Nat :=
  w.foldl (fun m x => if x.2.isSome then m ||| 2 ^ x.1 else if bitOf m x.1 then m - 2 ^ x.1 else m) m

/-! ## The commit (R254 to R257) -/

/-- The page's new entry and the frame that its version writes; a group that writes nothing to the page marks its conflict. -/
def State.commitWrites (s : State) (seq p : Nat) (kind : ItemKind) (vs : List Version) : State × List (Nat × Bytes) :=
  let e := s.pageEntry p
  if vs.filter Version.writesPage = [] then (s.setPageEntry p seq { e with conflict := true }, [])
  else
    let base := if e.conflict then (s.conflictPage p).1 else s.pageSlots p
    let w := vs.flatMap fun v => v.writes
    let map := mapAfter e.slotMap w
    let content := (maskSlots map (applyWrites base w)).flatten
    let left := if e.conflict then (s.conflictPage p).2.filter fun i => !(w.any fun x => x.1 == i) else []
    let e' : TreeEntry := ⟨(vaultHash 0 p content).take 22, !e.frame, decide (left ≠ []), map, seq⟩
    let s := s.setPageEntry p seq e'
    (if kind = .pendingChange then { s with vault := { s.vault with locked := s.vault.locked ++ [p] } } else s, [(pageBlock s.pages p (!e.frame), content)])

/-- A page's pending change is settled: its page takes versions again (R254). -/
def State.unlockPage (s : State) (p : Nat) : State := { s with vault := { s.vault with locked := s.vault.locked.filter fun x => decide (x ≠ p) } }

/-- The page's entry as it stood before the change that is taken back, where the journal has it. -/
def State.entryBack (s : State) (seq p : Nat) : State :=
  match s.lastPrior p with
  | some old => s.setPageEntry p seq old
  | none => s

/-- What a group commits: its journal items, the state with the new tree, root and locks, and the block writes of phase 1. -/
structure GroupPlan where
  items : List JItem
  after : State
  writes : List (Nat × Bytes)

/-- One page of the group at sequence `seq`, added to the plan. A rollback writes no data page, a kept change writes nothing. -/
def GroupPlan.page (g : GroupPlan) (seq p : Nat) (vs : List Version) : GroupPlan :=
  let s := g.after
  let kind := (vs.head?.map fun v => v.kind).getD .change
  let items := g.items ++ [⟨p, kind, s.pageEntry p⟩]
  match kind with
  | .keep => ⟨items, s.unlockPage p, g.writes⟩
  | .rollBack => ⟨items, (s.entryBack seq p).unlockPage p, g.writes⟩
  | _ =>
    let c := s.commitWrites seq p kind vs
    ⟨items, c.1, g.writes ++ c.2⟩

/-- The frame bit of a node as a tree and its root name it. -/
def State.nodeFrame (s : State) (level index : Nat) : Bool := if level = 5 then s.vault.root.frame else (s.entryAt level index).frame

/-- Writes of the nodes on the paths from some pages to level 5, each once. -/
def State.nodeWrites (s : State) (pages : List Nat) : List (Nat × Bytes) :=
  (List.range 5).flatMap fun l => ((pages.map fun p => p / 128 ^ (l + 1)).eraseDups).map fun i =>
    (nodeBlock s.pages (l + 1) i (s.nodeFrame (l + 1) i), s.nodeBytes (l + 1) i)

/-- The open group, as it commits at sequence S + 1. It depends on the committed tree and on the group alone, neither of which phase 1 changes. -/
def State.groupPlan (s : State) : GroupPlan :=
  let g := s.vault.group
  let seq := s.vault.root.seq + 1
  let pl := (groupPages g).foldl (fun (a : GroupPlan) p => a.page seq p (g.filter fun v => v.page == p)) ⟨[], s, []⟩
  { pl with writes := pl.writes ++ pl.after.nodeWrites (groupPages (g.filter fun v => decide (v.kind ≠ .keep))) }

/-- Credits of the open group: 2 for each page and node written (R254; a kept change writes nothing, assumption log 42). -/
def State.groupCost (s : State) : Nat := pageCredits * s.groupPlan.writes.length

/-- Ports whose drives take writes. -/
def State.writers (s : State) : List Nat := (List.range 2).filter fun p => (s.drive p).writable

/-- One block written to every drive that takes writes. -/
def State.writeBlock (s : State) (w : Nat × Bytes) : State :=
  s.writers.foldl (fun st p => (st.updDrive p fun d => d.setCell w.1 w.2).submit p true (.write w.1)) s

/-- The region that keeps the vault controller from its area, region 5 of the shipped map; `bit` 4 for reads of it, 5 for writes (R298, Table 12.5). -/
def State.vaultDenied (s : State) (bit : Nat) : Option Nat :=
  (List.range 64).findSome? fun i => (regionAt s.keeper.regions (0x400000 + 65536 * i)).filter fun r => !bitOf (s.region r).perm bit

/-- A guard fault of the vault controller, counted and recorded (R288). -/
def State.vaultFault (s : State) (region : Nat) : State := (s.count Key.KPR_GUARD_FAULTS).guardFault 1 (some region) (some 0) (some 2)

/-- Issue the writes of the open group whose credits fit the frame, and after the last one the Flush (R254). -/
def State.issueWrites (s : State) : State :=
  if s.vault.group = [] ∨ !s.keeper.guardOn then s
  else match s.vaultDenied 4 with
  | some g => (s.vaultFault g).failGroup (s.tick + 2)
  | none =>
    let ws := s.groupPlan.writes.drop s.vault.groupIssued
    let room := s.writers.foldl (fun a p => min a (s.drive p).room) 1024
    let k := min ws.length (min (s.remainder / pageCredits) (room - 1))
    let s := (ws.take k).foldl State.writeBlock s
    let s := { s with sched := { s.sched with debited := s.sched.debited + pageCredits * k }, vault := { s.vault with groupIssued := s.vault.groupIssued + k } }
    if k < ws.length ∨ s.vault.groupFlushed ∨ room = 0 then s
    else s.writers.foldl (fun st p => st.submit p true .flush) { s with vault := { s.vault with groupFlushed := true } }

/-- COMMIT_GROUP_OPEN (R254): the group opens, and the writes that fit the frame go out. A tick does so by itself. -/
def execCommitGroupOpen (s : State) : Res := .next (if s.vault.group = [] then s.openGroup.issueWrites else s)

/-- Phase 2 (R254): the journal record of sequence S + 1, both battery copies; the tree comes into force at the next tick; the jobs of the group reach frame E. -/
def State.phase2 (s : State) : State :=
  let seq := s.vault.root.seq + 1
  let g := s.vault.group
  let pl := s.groupPlan
  let root : Root := { pl.after.vault.root with seq := seq }
  let old := if 512 ≤ s.vault.journal.length then s.vault.journal.drop 1 else s.vault.journal
  let v := pl.after.vault
  let dead := (groupPages g).filter fun p => decide ((pl.after.pageEntry p).slotMap = 0) && !v.locked.contains p
  let s := { s with vault := { s.vault with
    battery0 := some (RootCopy.of root), battery1 := some (RootCopy.of root), journal := old ++ [JRecord.of root pl.items (s.tick + 1)],
    coming := some ⟨v.tree, root, v.locked, dead⟩, group := [], groupIssued := 0, groupFlushed := false, groupEnded := false } }
  let s := (groupPages g).foldl (fun st p => (st.touchNode 2 (p / 128 ^ 2)).touchNode 1 (p / 128)) s
  let s := s.writers.foldl (fun st p => st.setNum (Key.VLT_PORT_SYNC_SEQ p) seq) s
  (g.filterMap fun v => v.job).eraseDups.foldl (fun st id =>
    (st.updJob id fun j => { j with degraded := j.degraded || decide (st.vault.state = .degraded) }).replicateJob id) s

/-- Phase 2 in the window of the first frame by whose window every command of phase 1 has completed. -/
def State.groupWindow (s : State) : State := if s.vault.group ≠ [] ∧ s.vault.groupEnded then s.phase2 else s

/-- COMMIT_PHASE2 (R254): every write of the open group has been issued and has completed, and so has the Flush; phase 2 is done in the window. -/
def execCommitPhase2 (s : State) : Res :=
  if s.vault.group ≠ [] ∧ s.vault.groupFlushed then
    let s := { s with vault := { s.vault with groupEnded := true } }.endWrites
    .next (if s.window then s.groupWindow else s)
  else .next s

/-- Both frames of a page deallocated on both drives (R257). -/
def State.deallocatePage (s : State) (p : Nat) : State :=
  let b := pageBlock s.pages p false
  s.writers.foldl (fun st port => (st.updDrive port fun d => (d.setCell b zeroBlock).setCell (b + 1) zeroBlock).submit port false (.deallocate b 2)) s

/-- The new tree is the committed tree from the tick on (R254). -/
def State.comeIntoForce (s : State) : State :=
  match s.vault.coming with
  | some c =>
    c.dead.foldl State.deallocatePage { s with vault := { s.vault with tree := c.tree, root := c.root, locked := c.locked, coming := none } }
  | none => s

/-! ## Unwraps (R83, R193, R228, R229, R259) -/

/-- Derivations and unwraps of one frame: two ladder lanes of 100 at 20 µs (R193). -/
def State.ladderRoom (s : State) : Nat := 200 * 2 ^ s.period / 2

/-- One credit and one place of the ladder in this frame, when there are. -/
def State.ladderTake (s : State) : Option State :=
  if s.lanes.ladderUsed < s.ladderRoom then
    (s.debit 1).map fun st => { st with lanes := { st.lanes with ladderUsed := st.lanes.ladderUsed + 1 } }
  else none

/-- Give a job a key that a read brought. -/
def State.giveKey (s : State) (id h : Nat) (k : KeyMat) : State :=
  s.updJob id fun j => { j with key1 := (if j.handle1 = some h then some k else j.key1), key2 := (if j.handle2 = some h then some k else j.key2) }

/-- The page read holds no object of the handle's heart and generation at its slot (R228). -/
def State.absent (s : State) (u : Unwrap) (h : Nat) : Bool :=
  let slot := hSlot h
  let b := sealedAt u.content slot
  let e := if u.prior then (s.priorEntry u.page).getD (s.pageEntry u.page) else s.pageEntry u.page
  !(bitOf e.slotMap (slot % 8)) || at8 0 b != 1 || headHeart b != hHeart h || headGen b != hGen h

/-- An object read for a job at a slot of a page's content (R228, R229, R259): into the key cache, or the job's end. A handle whose generation is over brings nothing; its job ends at admission (R105). -/
def State.openFor (s : State) (u : Unwrap) (id h : Nat) : State :=
  match s.job? id with
  | none => s
  | some j =>
    let slot := hSlot h
    let b := sealedAt u.content slot
    let e := if u.prior then (s.priorEntry u.page).getD (s.pageEntry u.page) else s.pageEntry u.page
    if !s.handleFresh h then s
    else if s.absent u h then s.finish id stUnknown 0 (s.tick + 2)
    else
      let opened := if u.bad.contains (slot % 8) then none else openObject (s.keyFor b) slot b
      match opened with
      | some k =>
        let k := { k with handle := h, commitSeq := e.seq }
        let s := s.count Key.SYM_LADDER_UNWRAPS
        if u.prior then s.giveKey id h k else s.cacheFill k
      | none =>
        let mark : KeyMat := ⟨at8 1 b, at8 2 b, 128 + at8 3 b, b, h, e.seq, le 16 8 b⟩
        if j.op = 0x0707 ∨ (j.op = 0x070A ∧ (openObject (s.keyFor b) slot b).isNone) then s.giveKey id h mark else (s.event 0x2301).finish id stConflict 0 (s.tick + 2)

/-- After its reads: the checks that the object decides, made again (assumption log 9). -/
def State.checkKeyed (s : State) (id : Nat) : State :=
  match s.job? id with
  | some j =>
    if j.phase ≠ .ready then s
    else
      let k := s.withKeys j
      if !k.hasKeys then s
      else match s.parseKeyed j k.key1 k.key2 with
        | some st => s.finish id st 0 (s.tick + 2)
        | none => s
  | none => s

/-- Unwrap for one job; false where the ladder has no room or no credit left. -/
def State.unwrapJob (s : State) (u : Unwrap) (id : Nat) : State × Bool :=
  match s.job? id with
  | none => (s, true)
  | some j =>
    if j.phase ≠ .ready then (s, true)
    else
      let hs := (j.handle1.toList ++ j.handle2.toList).filter fun h => hSlot h / 8 == u.page && (u.prior || s.missing j h)
      let r := hs.foldl (fun (a : State × Bool) h =>
        if !a.2 then a else match a.1.ladderTake with
          | some st => (st.openFor u id h, true)
          | none => (a.1, false)) (s, true)
      (if r.2 then r.1.checkKeyed id else r.1, r.2)

/-- Pins on a page that are still to be reloaded (R232). -/
def State.reloadsOn (s : State) (page : Nat) : List Nat := s.keys.reload.filter fun h => decide (hSlot h / 8 = page)

/-- Reload one pinned object from its page (R232); false where the ladder has no room or no credit left. -/
def State.reloadPin (s : State) (u : Unwrap) (h : Nat) : State × Bool :=
  match s.ladderTake with
  | none => (s, false)
  | some st =>
    let slot := hSlot h
    let b := sealedAt u.content slot
    let st := { st with keys := { st.keys with reload := st.keys.reload.filter fun x => decide (x ≠ h) } }
    let here := bitOf (s.pageEntry u.page).slotMap (slot % 8) && at8 0 b == 1 && headHeart b == hHeart h && headGen b == hGen h && !u.bad.contains (slot % 8)
    match (if here then openObject (s.keyFor b) slot b else none) with
    | some k => ((st.count Key.SYM_LADDER_UNWRAPS).cacheFill { k with handle := h, commitSeq := (s.pageEntry u.page).seq }, true)
    | none => (st, true)

/-- The jobs and pins that wait for one page: those for which the ladder has no more room are answered. -/
def State.unwrapOne (s : State) (u : Unwrap) : State × List Nat :=
  let r := u.jobs.foldl (fun (a : State × List Nat) id =>
    let x := a.1.unwrapJob u id
    (x.1, if x.2 then a.2 else a.2 ++ [id])) (s, [])
  if u.prior then r else ((r.1.reloadsOn u.page).foldl (fun (a : State) h => (a.reloadPin u h).1) r.1, r.2)

/-- The ladder's unwraps of the frame, oldest first; what does not fit waits. -/
def State.unwrapAll (s : State) : State :=
  let us := s.lanes.unwraps
  let s := { s with lanes := { s.lanes with unwraps := [] } }
  us.foldl (fun st u =>
    let r := st.unwrapOne u
    if r.2 = [] ∧ (u.prior ∨ r.1.reloadsOn u.page = []) then r.1
    else { r.1 with lanes := { r.1.lanes with unwraps := r.1.lanes.unwraps ++ [{ u with jobs := r.2 }] } }) s

/-- The read of the next pinned object to be reloaded, in ascending handle order, one page at a time (R232). -/
def State.pinReads (s : State) : State :=
  match s.keys.reload with
  | [] => s
  | h :: rest =>
    let page := hSlot h / 8
    let p := if s.vault.d0.inMirror then 0 else 1
    if (s.cached 0 h).isSome || ((s.pageEntry page).seq == 0 && (s.nodesNeeded page).isEmpty) then { s with keys := { s.keys with reload := rest } }
    else if !s.vaultUp || s.vault.reads.any (fun r => r.page == page && !r.prior) || s.lanes.unwraps.any (fun u => u.page == page && !u.prior) then s
    else s.beginRead page p false []

/-! ## Reads (R259, R262, R264) -/

def State.dropRead (s : State) (r : VRead) : State := { s with vault := { s.vault with reads := s.vault.reads.filter fun x => decide (x ≠ r) } }

/-- The read cannot be served: its jobs end with VAULT_UNAVAILABLE. -/
def State.readLost (s : State) (jobs : List Nat) (due : Nat) : State := jobs.foldl (fun st id => st.finish id stVault 0 due) s

/-- The same read of the other drive. -/
def State.readOther (s : State) (r : VRead) (data : Bool) : State :=
  s.addRead { r with port := 1 - r.port, second := true, firstData := data, since := s.tick, issued := false }

/-- The copy of the other drive is written anew: a kind-4 item of the next group for the page, whose path it rewrites (R259). -/
def State.repairCopy (s : State) (r : VRead) : State :=
  (s.queueVersion ⟨r.page, .repair, [], none, none, 0⟩).count (Key.VLT_PORT_REPAIRS (1 - r.port))

/-- A verified node goes into the area; where the tree lacked it, its entries are taken up. -/
def State.takeNode (s : State) (level index : Nat) (b : Bytes) : State :=
  let s := if level < 3 then s.touchNode level index else s
  let s := { s with vault := { s.vault with lost := s.vault.lost.filter fun k => decide (k ≠ treeKey level index) } }
  if s.nodeBytes level index = b then s
  else (List.range 128).foldl (fun st i =>
    let e := entryOf (cut (32 * i) 32 b)
    if e.seq = 0 then st else st.setEntry (level - 1) (128 * index + i) e) s

/-- A page turns out never to have been written: it holds no object (R228, R252). -/
def State.readEmpty (s : State) (jobs : List Nat) : State := jobs.foldl (fun st id => st.finish id stUnknown 0 (st.tick + 2)) s

/-- A node of a page's path has been read (R258, R259): checked against the entry above it, then the next one, or the other drive's copy. -/
def State.nodeDone (s : State) (r : VRead) (data : Option Bytes) : State :=
  let index := r.page / 128 ^ r.level
  match data with
  | some b =>
    if (vaultHash r.level index b).take 22 = (s.entryAt r.level index).hash then
      let s := (if r.second then s.repairCopy r else s).takeNode r.level index b
      let next := s.nextLevel r.page
      if next = 0 ∧ (s.pageEntry r.page).seq = 0 then s.readEmpty r.jobs
      else s.addRead { r with level := next, second := false, firstData := false, since := s.tick, issued := false }
    else if !r.second && (s.drive (1 - r.port)).inMirror then s.readOther r true
    else s.readLost r.jobs (s.tick + 2)
  | none => if !r.second && (s.drive (1 - r.port)).inMirror then s.readOther r false else s.readLost r.jobs (s.tick + 2)

/-- A job whose slot, as read, holds no object of its handle ends (R228): its record is due at the second tick after the frame of the read. -/
def State.refuseAbsent (u : Unwrap) (s : State) (id : Nat) : State :=
  match s.job? id with
  | some j =>
    let hs := (j.handle1.toList ++ j.handle2.toList).filter fun h => hKind h == 0 && hSlot h / 8 == u.page && (u.prior || s.missing j h)
    if j.phase = .ready ∧ hs.any (fun h => s.handleFresh h && s.absent u h) then s.finish id stUnknown 0 (s.tick + 2) else s
  | none => s

/-- A page's content goes to the ladder for the jobs that wait, which unwraps it in its turn (R193). -/
def State.deliver (s : State) (u : Unwrap) : State :=
  u.jobs.foldl (State.refuseAbsent u) { s with lanes := { s.lanes with unwraps := s.lanes.unwraps ++ [u] } }

/-- The repairs that read this drive's own copy (R263). -/
def State.takeCopies (s : State) (jobs : List Nat) (data : Option Bytes) : State :=
  jobs.foldl (fun st id =>
    match data with
    | none => st.finish id stVault 0 (st.tick + 2)
    | some b => (st.updJob id fun j =>
        let c := sealedAt (slotsOfPage b) (hSlot j.desc.key1)
        { j with copy := c, heartKey := (st.heart (hHeart j.desc.key1)).key }).controlStart id) s

/-- The check of a copy has failed on both drives, or on the only one (R262, R264). -/
def State.bothFail (s : State) (r : VRead) (e : TreeEntry) : State :=
  let c := if r.prior then (s.pageSlots r.page, []) else s.conflictPage r.page
  let s := if e.conflict || r.prior then s else (s.queueVersion ⟨r.page, .change, [], some true, none, 0⟩).event 0x2301
  s.deliver ⟨r.page, c.1, r.jobs, r.prior, c.2⟩

/-- A page has been read (R259, R262): to the ladder where it matches its entry; else the other drive's copy. -/
def State.pageDone (s : State) (r : VRead) (data : Option Bytes) : State :=
  let isRepair (id : Nat) : Bool := (s.job? id).any fun j => j.op == 0x070C
  let s := s.takeCopies (r.jobs.filter isRepair) data
  let jobs := r.jobs.filter fun id => !isRepair id
  if jobs = [] ∧ (r.prior ∨ s.reloadsOn r.page = []) then s
  else
    let r := { r with jobs := jobs }
    let e := s.readEntry r
    match data with
    | some b =>
      if matchesEntry r.page e (slotsOfPage b) then
        (if r.second && !r.prior then s.repairCopy r else s).deliver ⟨r.page, slotsOfPage b, jobs, r.prior, []⟩
      else
        let s := s.updDrive r.port fun d => d.setCell (s.readBlock r) b
        if r.second then (if r.firstData then s.bothFail r e else s.readLost jobs (s.tick + 2))
        else if (s.drive (1 - r.port)).inMirror then s.readOther r true
        else s.bothFail r e
    | none => if !r.second && (s.drive (1 - r.port)).inMirror then s.readOther r false else s.readLost jobs (s.tick + 2)

/-- A read ended on its port (R259); an error counts for the port. -/
def State.readDone (s : State) (r : VRead) (data : Option Bytes) : State :=
  let s := (s.dropRead r).endRead r.port (s.readBlock r)
  let s := if data.isNone then s.count (Key.VLT_PORT_ERRORS r.port) else s
  if r.level = 0 then s.pageDone r data else s.nodeDone r data

/-- The read of a page, or of a node on its path, that a port has in hand. -/
def State.readOf (s : State) (page port : Nat) : Option VRead := s.vault.reads.find? fun r => r.page == page && r.port == port && r.issued

/-- A read has ended: of the one in progress for a page, the node of its path or the page itself. -/
def State.readComplete (s : State) (page port : Nat) (data : Option Bytes) : State :=
  match s.readOf page port with
  | some r =>
    match s.vaultDenied 5 with
    | some g => (((s.dropRead r).endRead r.port (s.readBlock r)).vaultFault g).readLost r.jobs (s.tick + 2)
    | none => s.readDone r data
  | none => s

/-- VAULT_READ_COMPLETE (R258, R259); held while the guard is off (R300). -/
def execVaultReadComplete (page port : Nat) (data : Option Bytes) (s : State) : Res :=
  .next (s.guarded (.vaultReadComplete page port data) fun s => s.readComplete page port data)

/-! ## Drives (R246, R247, R264, R265) -/

/-- Reads of a port that has gone are read from the other drive, or fail; their records are due at the next tick. -/
def State.rereads (s : State) (port : Nat) : State :=
  (s.vault.reads.filter fun r => r.port == port).foldl (fun st r =>
    let st := st.dropRead r
    if !r.second && (st.drive (1 - port)).inMirror then st.readOther r false
    else st.readLost r.jobs (st.tick + 1)) s

/-- A drive is to leave: its port takes the state at the next tick (R247). -/
def State.driveLost (s : State) (port : Nat) (next : PortState) : State :=
  s.updDrive port fun d => { d with next := some (if d.writable ∨ next ≠ .out then next else d.state) }

/-- The journal still holds every record above a sequence. -/
def State.journalHolds (s : State) (seq : Nat) : Bool :=
  decide (s.vault.root.seq ≤ seq) || s.vault.journal.any fun r => r.root.seq == seq + 1

/-- The root record of a sequence, where the unit still holds it. -/
def State.rootAt (s : State) (seq : Nat) : Option Root :=
  if s.vault.root.seq = seq then some s.vault.root else (s.vault.journal.find? fun r => decide (r.root.seq = seq)).map fun r => r.root

/-- A resilver of the port stands unfinished. -/
def State.unfinished (s : State) (port : Nat) : Bool := s.vault.copyPort == some port && decide (s.num Key.VLT_RESILVER_CURSOR < s.vault.copyKeys.length)

/-- An incremental resilver applies (R265): the headers are valid, the level-5 node matches the root of the last commit that the drive took, and the journal holds every later record; no resilver of the drive stands unfinished. -/
def State.resilverPart (s : State) (port : Nat) : Bool :=
  let sync := s.num (Key.VLT_PORT_SYNC_SEQ port)
  let d := s.drive port
  d.headerPages == some s.pages && (s.rootAt sync).any d.holdsRoot && s.journalHolds sync && !s.unfinished port

/-- One block copied from the other drive to a port. -/
def State.copyBlock (s : State) (port block : Nat) : State :=
  let x := (s.drive (1 - port)).cell block
  ((s.updDrive port fun d => d.setCell block x).submit (1 - port) false (.read block)).submit port false (.write block)

/-- A resilver of a port begins (R265): the pages and nodes changed since the last commit that the drive took, or all that are written, the headers first. -/
def State.startCopy (s : State) (port : Nat) : State :=
  let sync := s.num (Key.VLT_PORT_SYNC_SEQ port)
  let part := s.resilverPart port
  let keys := (s.vault.tree.filter fun e => if part then decide (sync < e.2.seq) else decide (e.2.seq ≠ 0)).map fun e => e.1
  let s := if part then s else (s.copyBlock port 0).copyBlock port 1
  ({ s with vault := { s.vault with copyPort := some port, copyKeys := keys } } : State).setNum Key.VLT_RESILVER_CURSOR 0

/-- Where a drive stands that is found on a port (R246, R247, R265, R267). -/
def State.joinState (s : State) (port : Nat) (formatOk : Bool) : PortState :=
  let d := s.drive port
  if s.num (Key.VLT_PORT_OFFLINE port) ≠ 0 then .offline
  else if !formatOk then .out
  else if d.size < blocksFor (s.vault.formatting.getD s.pages) then .out
  else if s.vault.formatting.isSome ∨ s.vault.state = .unformatted then .inMirror
  else if (s.drive (1 - port)).inMirror then .resilvering
  else if d.headerPages = some s.pages ∧ d.holdsRoot s.vault.root then .inMirror
  else .out

/-- A drive has appeared (R245, R246): Identify, its first blocks, the queues; it joins, is resilvered, or stays out. -/
def State.driveFound (s : State) (port : Nat) (i : DriveIdent) : State :=
  let s := s.updDrive port fun d =>
    ({ d with link := true, ident := none, gen := i.gen, width := i.width, size := (if i.formatOk then i.blocks else 0) } : Drive).setCell 0 i.header0
      |>.setCell 1 i.header1 |>.setCell 16 i.node0 |>.setCell 17 i.node1
  let s := s.submitAll port [.identifyController, .identifyNamespace, .read 0, .read 1, .read 16, .read 17]
  let joined := s.joinState port i.formatOk
  let s := s.updDrive port fun d => { d with state := joined, next := none }
  let s := if joined = .inMirror ∨ joined = .resilvering then s.submitAll port queuesUp else s
  if joined = .resilvering then s.startCopy port else s

/-- A port leaves the mirror, or its resilver ends without joining: its queues are deleted and its reads go to the other drive; when the mirror is empty, the group in phase 1 fails (R247, R264). -/
def State.portLeaves (s : State) (port : Nat) (next : PortState) : State :=
  let was := (s.drive port).inMirror
  let s := if (s.drive port).linkNow then s.submitAll port queuesDown else s
  let s := s.updDrive port fun d => { d with state := next, cmds := [] }
  if was then
    let s := s.rereads port
    if (s.drive (1 - port)).inMirror then s else s.failGroup (s.tick + 1)
  else s

/-- A port at the tick (R245, R247, R265): the commands that no later command tells of have completed; PERST_N is released; the link is sampled; a state that is due is taken. -/
def State.portTick (s : State) (port : Nat) : State :=
  let s := s.updDrive port fun d => { d with cmds := d.cmds.filter (fun c => c.told), perst := d.perst && !d.refclk }
  let d := s.drive port
  if d.linkNow ∧ ¬ d.link then (match d.ident with
    | some i => s.driveFound port i
    | none => s)
  else if d.link ∧ ¬ d.linkNow then (s.updDrive port fun d => { d with link := false, next := none }).portLeaves port .absent
  else match d.next with
    | some n =>
      let s := s.updDrive port fun d => { d with next := none }
      if n = .inMirror ∨ n = .resilvering then
        let s := if d.state = .resilvering then s else s.submitAll port queuesUp
        let s := s.updDrive port fun d => { d with state := n }
        if n = .resilvering then s.startCopy port else s
      else s.portLeaves port n
    | none => s

/-- The ports and the vault at the tick: entering and leaving DEGRADED raises unit event 4,098 (R264); the health logs are asked for at every 65,536th tick (R246). -/
def State.driveTick (s : State) : State :=
  let s := (s.portTick 0).portTick 1
  let s := if s.tick % 65536 = 0 then (List.range 2).foldl (fun st p => if (st.drive p).link then st.submit p false .healthLog else st) s else s
  let v := s.vaultNow
  if v = s.vault.state then s
  else
    let s := if v = .degraded ∨ s.vault.state = .degraded then s.raise 4098 else s
    let s := if v = .unavailable then s.event 0x2301 else s
    { s with vault := { s.vault with state := v } }

/-- DRIVE_LINK_UP (R245, R246, R265): seen at the next tick, at which the drive joins, is resilvered, or stays out. -/
def execDriveLinkUp (port : Nat) (drive : DriveIdent) (s : State) : Res :=
  if (s.drive port).linkNow ∨ strapDrives s.rst.strap ≤ port then .next s
  else .next (s.updDrive port fun d => { d with linkNow := true, ident := if d.link then none else some drive })

/-- DRIVE_LINK_DOWN (R245, R247): seen at the next tick. -/
def execDriveLinkDown (port : Nat) (s : State) : Res :=
  .next (s.updDrive port fun d => { d with linkNow := false, ident := none })

/-- VAULT_CMD_ERROR (R247): of a read of one page, counted and read from the other drive; of any other command, the drive is taken out. -/
def execVaultCmdError (port : Nat) (readPage : Option Nat) (s : State) : Res :=
  if !(s.drive port).link then .next s
  else match readPage with
    | some p =>
      match s.readOf p port with
      | some r => .next (s.readDone r none)
      | none => .next s
    | none => .next (s.driveLost port .out)

/-- A command of a port has been outstanding for VLT_CMD_TIMEOUT milliseconds. -/
def State.cmdLate (s : State) (port : Nat) : Bool :=
  (s.drive port).cmds.any fun c => decide (c.since + s.ticksOf (1000 * s.num Key.VLT_CMD_TIMEOUT) ≤ s.tick)

/-- VAULT_CMD_TIMEOUT (R247): a command does not complete within VLT_CMD_TIMEOUT, and the drive is taken out. -/
def execVaultCmdTimeout (port : Nat) (s : State) : Res := .next (if (s.drive port).link ∧ s.cmdLate port then s.driveLost port .out else s)

/-- SMART_POLL (R246, R247): at every 65,536th tick. -/
def execSmartPoll (port warning : Nat) (s : State) : Res :=
  if s.tick % 65536 = 0 ∧ (s.drive port).link then
    let s := s.setNum (Key.VLT_PORT_HEALTH port) (warning % 256)
    let s := if bitOf warning 2 || bitOf warning 3 then s.driveLost port .out else s
    .next (if (List.range 8).any fun i => bitOf warning i && decide (i ≠ 2) && decide (i ≠ 3) then s.eventOf 247 else s)
  else .next s

/-! ## Resilver (R265) -/

/-- The port that is being resilvered. -/
def State.resilvering (s : State) : Option Nat := (List.range 2).find? fun p => decide ((s.drive p).state = .resilvering) && (s.drive (1 - p)).inMirror

/-- RESILVER_DONE (R265): the copy has ended, the level-5 node with it; the drive joins at the next tick. -/
def execResilverDone (port : Nat) (s : State) : Res :=
  if s.resilvering = some port ∧ s.vault.copyPort = some port ∧ s.vault.copyKeys.length ≤ s.num Key.VLT_RESILVER_CURSOR then
    let s := s.copyBlock port (16 + b2n s.vault.root.frame)
    let s := { s with vault := { s.vault with copyPort := none, copyKeys := [] } }
    .next ((s.updDrive port fun d => { d with next := some .inMirror }).setNum (Key.VLT_PORT_SYNC_SEQ port) s.vault.root.seq)
  else .next s

/-! ## Sweep (R237 to R239) -/

/-- Allocated pages from a page on, ascending. -/
def State.allocatedFrom (s : State) (p : Nat) : List Nat :=
  (s.vault.tree.filter fun e => decide (e.1 < 2 ^ 32) && decide (p ≤ e.1) && decide (e.2.slotMap ≠ 0) && decide (e.2.seq ≠ 0)).map fun e => e.1

/-- The sweep reads one page: dead runs reclaimed, SPENT hearts named there seen (R238, R239). -/
def State.sweepPage (s : State) (p : Nat) : State :=
  let e := s.pageEntry p
  let content := s.pageSlots p
  let s := s.submit (if s.vault.d0.inMirror then 0 else 1) false (.read (pageBlock s.pages p e.frame))
  let objs := objectsOn content e.slotMap 8 0
  let named := objs.map fun o => headHeart (content.getD o.1 zeroSlot)
  let spent := named.filter fun h => decide ((s.heart h).state = .spent)
  let s := spent.foldl (fun st h => if (st.heart h).certified then st.putHeart h { st.heart h with certified := false } else st) s
  let s := { s with keys := { s.keys with
      sweepSeen := s.keys.sweepSeen ++ spent.filter (fun h => !s.keys.sweepSeen.contains h),
      certifiedLast := s.keys.certifiedLast.filter fun h => !spent.contains h } }
  if s.vault.locked.contains p || e.conflict then s
  else
    let dead := objs.filter fun o =>
      let b := content.getD o.1 zeroSlot
      decide ((s.heart (headHeart b)).state ≠ .live) || (s.heart (headHeart b)).generation != headGen b
    if dead = [] then s
    else (s.queueVersion ⟨p, .sweep, dead.flatMap fun o => freesOf o.1 o.2, none, none, 0⟩).count Key.KEY_SWEEP_RECLAIMED (dead.foldl (fun a o => a + o.2) 0)

/-- The sweep's pages of a frame, while credits last (R237). -/
def State.sweepFrame (s : State) : State :=
  if s.num Key.KEY_SWEEP_ENABLE = 0 ∨ !s.vaultUp then s
  else
    ((s.allocatedFrom (s.num Key.KEY_SWEEP_CURSOR)).take (s.num Key.KEY_SWEEP_PAGES_PER_FRAME)).foldl (fun st p =>
      if p < st.num Key.KEY_SWEEP_CURSOR then st
      else match st.debit 2 with
        | some st => (st.sweepPage p).setNum Key.KEY_SWEEP_CURSOR (p + 1)
        | none => st) s

/-- The end of a pass for a SPENT heart (R239). -/
def State.certify (s : State) (n : Nat) : State :=
  let h := s.heart n
  if s.keys.sweepSeen.contains n then s.putHeart n { h with certified := false }
  else if s.keys.certifiedLast.contains n then
    let s := s.putHeart n { Heart.reset with lastChange := s.tick }
    { s with keys := { s.keys with certifiedLast := s.keys.certifiedLast.filter fun x => decide (x ≠ n) } }
  else if s.keys.sweepFresh.contains n then
    let s := s.putHeart n { h with certified := true }
    { s with keys := { s.keys with certifiedLast := s.keys.certifiedLast ++ [n] } }
  else s

/-- SWEEP_PASS_END (R237, R239): the sweep has passed the last allocated page. -/
def execSweepPassEnd (s : State) : Res :=
  if s.num Key.KEY_SWEEP_ENABLE ≠ 0 ∧ s.vaultUp ∧ s.allocatedFrom (s.num Key.KEY_SWEEP_CURSOR) = [] then
    let s := ((s.keys.hearts.filter fun e => decide (e.2.state = .spent)).map fun e => e.1).foldl (fun st n => st.certify n) s
    let fresh := (s.keys.hearts.filter fun e => decide (e.2.state = .spent)).map fun e => e.1
    let s := { s with keys := { s.keys with sweepSeen := [], sweepFresh := fresh } }
    .next ((s.count Key.KEY_SWEEP_PASSES).setNum Key.KEY_SWEEP_CURSOR 0)
  else .next s

/-! ## Scrub (R266) -/

/-- The scrub runs: enabled, two drives in the mirror, no resilver, check-value unit 3 with the normal world and IDLE or ended (R414). -/
def State.scrubOn (s : State) : Bool :=
  let u := (s.chkUnit 3).state
  s.num Key.VLT_SCRUB_ENABLE != 0 && decide (s.vault.state = .online) && s.resilvering.isNone && u != 1 && u != 2 &&
    !(s.block 3).keeperOwns && (s.block 3).handDue.isNone

/-- Written pages and nodes from the cursor on (the cursor counts them in ascending order). -/
def State.scrubList (s : State) : List (Nat × TreeEntry) := (s.vault.tree.filter fun e => decide (e.2.seq ≠ 0)).drop (s.num Key.VLT_SCRUB_CURSOR)

/-- Both copies of a page compared; a difference is checked against the tree. -/
def State.scrubPage (s : State) (p : Nat) : State :=
  let e := s.pageEntry p
  let c0 := s.pageOn 0 p e.frame
  let c1 := s.pageOn 1 p e.frame
  let b := pageBlock s.pages p e.frame
  let s := (s.submit 0 false (.read b)).submit 1 false (.read b)
  if s.vault.locked.contains p || e.conflict || decide (c0 = c1) then s
  else
    let m0 := matchesEntry p e c0
    let m1 := matchesEntry p e c1
    if m0 || m1 then (s.queueVersion ⟨p, .repair, [], none, none, 0⟩).count (Key.VLT_PORT_REPAIRS (if m0 then 1 else 0))
    else (s.queueVersion ⟨p, .change, [], some true, none, 0⟩).event 0x2301

/-- Objects and slot maps that a member has still to send to a joining unit, once its hearts are sent (R344). -/
def State.transferLeft (s : State) : Nat :=
  let c := s.chain
  if c.join = .transferring ∧ c.joinIsMember ∧ c.transferHearts = [] then c.transferObjects.length + c.transferMaps.length else 0

/-- Pages that work under leave has still to read, and its most pages in a frame: of a scrub pass or a resilver, which never run together (R265, R266), or of a transfer (R344). -/
def State.copyLeft (s : State) (id : Nat) : Nat :=
  if id = transferLeaveId then s.transferLeft
  else match s.resilvering with
    | some _ => s.vault.copyKeys.length - s.num Key.VLT_RESILVER_CURSOR
    | none => if s.scrubOn then s.scrubList.length else 0
def State.copyRate (s : State) (id : Nat) : Nat :=
  s.num (if id = transferLeaveId then Key.CHN_COPY_OBJECTS_PER_FRAME
    else if s.resilvering.isSome then Key.VLT_RESILVER_PAGES_PER_FRAME else Key.VLT_SCRUB_PAGES_PER_FRAME)

/-- Pages of the present frame under leave: 2 credits each, what is left of N falls free; none in a frame without leave. -/
def State.copyPay (s : State) (id : Nat) : Nat × State :=
  let c := s.copyOf id
  if c.last.any fun u => decide (s.tick ≤ u) then
    let n := min (min (s.copyLeft id) (s.copyRate id)) (c.n / 2)
    (n, { s with sched := { s.sched with committed := s.sched.committed - (c.n - 2 * n) } })
  else (0, s)

/-- The block that a tree key names in the committed tree. -/
def State.keyBlock (s : State) (k : Nat) : Nat :=
  let level := k / 2 ^ 32
  let i := k % 2 ^ 32
  let f := (s.entryAt level i).frame
  if level = 0 then pageBlock s.pages i f else nodeBlock s.pages level i f

/-- Both copies of a node compared; one that fails its entry is written anew with a page below it. -/
def State.scrubNode (s : State) (k : Nat) : State :=
  let level := k / 2 ^ 32
  let i := k % 2 ^ 32
  let b := s.keyBlock k
  let c0 := s.vault.d0.cell b
  let c1 := s.vault.d1.cell b
  let s := (s.submit 0 false (.read b)).submit 1 false (.read b)
  if c0 = c1 then s
  else
    let ok (c : Bytes) : Bool := (vaultHash level i c).take 22 == (s.entryAt level i).hash
    if ok c0 || ok c1 then (s.queueVersion ⟨128 ^ level * i, .repair, [], none, none, 0⟩).count (Key.VLT_PORT_REPAIRS (if ok c0 then 1 else 0))
    else s.event 0x2301

/-- The scrub's pages of a frame, under leave (Table 2.8). -/
def State.scrubFrame (s : State) : State :=
  if !s.scrubOn then s
  else
    let l := s.scrubList
    let p := s.copyPay copyLeaveId
    (l.take p.1).foldl (fun st e =>
      (if e.1 < 2 ^ 32 then st.scrubPage e.1 else st.scrubNode e.1).setNum Key.VLT_SCRUB_CURSOR (st.num Key.VLT_SCRUB_CURSOR + 1)) p.2

/-- SCRUB_PASS_END (R266). -/
def execScrubPassEnd (s : State) : Res :=
  if s.scrubOn ∧ s.scrubList = [] then .next ((s.count Key.VLT_SCRUB_PASSES).setNum Key.VLT_SCRUB_CURSOR 0) else .next s

/-- A frame of resilver copies (R265), under leave. -/
def State.resilverFrame (s : State) : State :=
  match s.resilvering with
  | some port =>
    let p := s.copyPay copyLeaveId
    let at_ := p.2.num Key.VLT_RESILVER_CURSOR
    (((p.2.vault.copyKeys.drop at_).take p.1).foldl (fun st k => st.copyBlock port (st.keyBlock k)) p.2).setNum Key.VLT_RESILVER_CURSOR (at_ + p.1)
  | none => s

/-! ## Formatting and the root (R260, R267) -/

/-- A write of VLT_FORMAT takes effect: FORMATTING, and vault jobs end with VAULT_UNAVAILABLE. -/
def State.startFormat (s : State) (n : Nat) : State :=
  let s := (s.failGroup (s.tick + 2)).failReads (s.tick + 2)
  let ids := s.vault.waiting.filterMap fun v => v.job
  let s := ids.foldl (fun st id => st.finish id stVault 0 (st.tick + 2)) s
  { s with vault := { s.vault with formatting := some n, state := .formatting, waiting := [], locked := [], coming := none, copyPort := none, copyKeys := [] } }

/-- A drive formatted (R267): every block deallocated, the headers, and the level-5 node of the all-unwritten tree of sequence 1. -/
def State.formatDrive (s : State) (p n : Nat) : State :=
  let h := headerBytes n 1
  let s := s.updDrive p fun d => ((({ d with cells := [] } : Drive).setCell 0 h).setCell 1 h).setCell 16 (s.nodeBytes 5 0)
  s.submitAll p [.deallocate 0 (s.drive p).size, .write 0, .write 1, .write 16, .flush]

/-- FORMAT_DONE (R267): with a drive in the mirror, the all-unwritten tree is committed as sequence 1. -/
def execFormatDone (s : State) : Res :=
  match s.vault.formatting with
  | some n =>
    if s.mirror = [] then .next s
    else
      let s := s.setNum Key.VLT_PAGES n
      let s := { s with vault := { s.vault with tree := [], journal := [], nodes := [], lost := [] } }
      let root : Root := ⟨1, vaultHash 5 0 (s.nodeBytes 5 0), false⟩
      let s := { s with vault := { s.vault with
        root := root, battery0 := some (RootCopy.of root), battery1 := some (RootCopy.of root),
        journal := [JRecord.of root [] (s.tick + 1)], formatting := none, waiting := [], group := [], locked := [], coming := none } }
      let s := s.mirror.foldl (fun st p => (st.formatDrive p n).setNum (Key.VLT_PORT_SYNC_SEQ p) 1) s
      .next ((s.setNum Key.KEY_SWEEP_CURSOR 0).setNum Key.VLT_SCRUB_CURSOR 0)
  | none => .next s

/-! ## The tree that a root names (R258, R260) -/

/-- A node's bytes on a drive that is linked, when they match the entry above it. -/
def State.nodeCopy (s : State) (level index : Nat) (e : TreeEntry) : Option Bytes :=
  ((List.range 2).filter fun p => (s.drive p).link).findSome? fun p =>
    let b := (s.drive p).cell (nodeBlock s.pages level index e.frame)
    if (vaultHash level index b).take 22 = e.hash then some b else none

/-- The entries below a node, level by level, and the keys of the nodes that no drive gives. -/
def State.loadNode (s : State) : Nat → Nat → Bytes → List (Nat × TreeEntry) × List Nat → List (Nat × TreeEntry) × List Nat
  | 0, _, _, a => a
  | l + 1, index, b, a =>
    (List.range 128).foldl (fun a i =>
      let c := 128 * index + i
      let e := entryOf (cut (32 * i) 32 b)
      if e.seq = 0 then a
      else
        let t := SMap.set TreeEntry.unwritten (treeKey l c) e a.1
        if l = 0 then (t, a.2)
        else match s.nodeCopy l c e with
          | some b => s.loadNode l c b (t, a.2)
          | none => (t, a.2 ++ [treeKey l c])) a

/-- The level-5 node of a root on a drive that holds it. -/
def State.topNode (s : State) (r : Root) : Option Bytes :=
  ((List.range 2).filter fun p => (s.drive p).link && (s.drive p).holdsRoot r).head?.map fun p => (s.drive p).cell (16 + b2n r.frame)

/-- Pages locked under a root: the kind-1 items of records up to it that no record up to it resolves (R260). -/
def lockedAt (journal : List JRecord) (seq : Nat) : List Nat :=
  (journal.filter fun r => decide (r.root.seq ≤ seq)).foldl (fun l r => r.items.foldl (fun l i =>
    match i.kind with
    | .pendingChange => l ++ [i.page]
    | .keep => l.filter fun p => decide (p ≠ i.page)
    | .rollBack => l.filter fun p => decide (p ≠ i.page)
    | _ => l) l) []

/-- A root becomes the committed root: its tree as the drives hold it, its locks; records above it go. -/
def State.takeRoot (s : State) (r : Root) : State :=
  let t := match s.topNode r with
    | some b => s.loadNode 5 0 b ([], [])
    | none => ([], [])
  { s with vault := { s.vault with
    root := r, battery0 := some (RootCopy.of r), battery1 := some (RootCopy.of r), tree := t.1, lost := t.2.filter (fun k => decide (3 * 2 ^ 32 ≤ k)), nodes := [],
    coming := none, locked := lockedAt s.vault.journal r.seq, journal := s.vault.journal.filter fun j => decide (j.root.seq ≤ r.seq) } }

/-- Root candidates (R260): the battery copies and the newest journal record, whose CRC holds. -/
def State.rootCandidates (s : State) : List Root :=
  ((s.vault.battery0.toList ++ s.vault.battery1.toList).filter RootCopy.holds).map (fun c => c.root) ++
    ((s.vault.journal.filter JRecord.holds).getLast?.toList.map fun r => r.root)

/-- The candidate of highest sequence that meets a test. -/
def State.bestRoot (s : State) (ok : Root → Bool) : Option Root :=
  (s.rootCandidates.filter ok).foldl (fun (a : Option Root) r => match a with
    | some b => if b.seq < r.seq then some r else a
    | none => some r) none

/-- A write of VLT_ROOT_SELECT takes effect (R260): the root on the drive named stands, that drive alone forms the mirror, the other is resilvered. -/
def State.rootSelect (s : State) (port : Nat) : State :=
  match s.vault.state, s.bestRoot fun r => (s.drive port).link && (s.drive port).holdsRoot r with
  | .rootConflict, some r =>
    let s := (s.updDrive port fun d => { d with state := .inMirror }).updDrive (1 - port) fun d => { d with state := if d.link then .resilvering else d.state }
    let s := ({ s with vault := { s.vault with state := .degraded } } : State).takeRoot r
    if (s.drive (1 - port)).state = .resilvering then s.startCopy (1 - port) else s
  | _, _ => s

/-- A write of VLT_PORT_OFFLINE takes effect (R265). -/
def State.portOffline (s : State) (port v : Nat) : State :=
  let s := s.setNum (Key.VLT_PORT_OFFLINE port) v
  let d := s.drive port
  if v ≠ 0 then s.driveLost port .offline
  else if d.link ∧ (d.state = .offline ∨ d.state = .out) then
    let joined := s.joinState port (d.size != 0)
    s.updDrive port fun d => { d with next := some joined }
  else if d.link then s else s.updDrive port fun d => { d with next := some .absent }

end Sys2Proof.Machine
end

