-- ==== Sys2Proof/Machine/Entropy.lean ====
section
/-! DEFINITION. Wellsprings, supply and DRBG (chapter 11): blocks and their health tests, declared failures, settling, reseeds, the request limit, the raw-sample tap. -/

namespace Sys2Proof.Machine

/-- Cutoffs of the health tests (Table 11.1). -/
def rctCutoff : Nat := 81
def aptCutoff : Nat := 832

/-- The repetition count test over a block: the run at its end, and whether a run reached the cutoff (R271). -/
def rctBlock : List Bool → Bool → Nat → Bool → Bool × Nat × Bool
  | [], v, n, t => (v, n, t)
  | x :: r, v, n, t =>
    let n' := if x == v && decide (0 < n) then n + 1 else 1
    rctBlock r x n' (t || decide (rctCutoff ≤ n'))

/-- The adaptive proportion test over a block: the recurrences of its first sample. -/
def aptFails (b : List Bool) : Bool :=
  match b with
  | x :: _ => decide (aptCutoff ≤ (b.filter fun y => y == x).length)
  | [] => false

/-- 1,024 samples as 128 bytes, the first in the most significant bit of byte 0 (R274). -/
def sampleBytes (b : List Bool) : Bytes :=
  (List.range 128).map fun i => byteOf ((List.range 8).foldl (fun a j => 2 * a + b2n (b.getD (8 * i + j) false)) 0)

/-- A passing block conditioned (R274). -/
def condition (source : Nat) (b : List Bool) : Bytes := sha3_256 (ascii "ILYAR-WSP" ++ [byteOf source] ++ sampleBytes b)

/-- Put an output into a pool of at most 4; the oldest is discarded. -/
def poolPut (p : List Bytes) (o : Bytes) : List Bytes := let q := p ++ [o]; if 4 < q.length then q.drop 1 else q

/-- Failed blocks among the last 1,024. -/
def Wellspring.fails (w : Wellspring) : Nat := (w.window.filter fun x => x).length

/-- A wellspring delivers to conditioning. -/
def Wellspring.delivers (w : Wellspring) : Bool := decide (w.state = .starting) || decide (w.state = .healthy)

/-- WSP_BLOCK (R270 to R274, R278, R285): while the oscillators run; the blocks of a tapped wellspring go to the tap. -/
def execWspBlock (source : Nat) (samples : List Bool) (s : State) : Res :=
  if s.noTick then .next s
  else
    let w := s.wsp source
    let s := if w.state = .tapped then s.emit (.tap source samples) else s
    let r := rctBlock samples w.runValue w.runLength false
    let w := { w with runValue := r.1, runLength := if r.2.2 then 0 else r.2.1 }
    if !w.settled then .next (s.setWsp source w)
    else if r.2.2 || aptFails samples then
      let w := { w with window := (true :: w.window).take 1024, passCount := 0 }
      .next ((s.count (Key.WSP_SRC_FAILS source)).setWsp source w)
    else
      let pool := if w.delivers then poolPut w.pool (condition source samples) else w.pool
      let n := w.passCount + 1
      let w := { w with window := (false :: w.window).take 1024, passCount := n, pool := pool, state := if w.state = .starting ∧ 4 ≤ n then .healthy else w.state }
      .next ((s.count (Key.WSP_SRC_BLOCKS source)).setWsp source w)

/-- WSP_DECLARED_FAILED (R273): the ninth failed block within 1,024; it takes effect at the next tick. -/
def execWspDeclaredFailed (source : Nat) (s : State) : Res :=
  let w := s.wsp source
  if 9 ≤ w.fails ∧ w.state ≠ .failed ∧ !w.failDue then .next (s.setWsp source { w with failDue := true }) else .next s

/-- WSP_SETTLED (R278): the count of four passing blocks begins. -/
def execWspSettled (source : Nat) (s : State) : Res :=
  let w := s.wsp source
  if !s.noTick && !w.settled && decide (w.state = .starting) then .next (s.setWsp source { w with settled := true, passCount := 0 }) else .next s

/-- A declared failure takes effect at the tick; during a COLD start it holds the unit in STARTING (R273, R278). -/
def State.wspFail (s : State) (n : Nat) : State :=
  let w := s.wsp n
  if w.failDue ∨ (9 ≤ w.fails ∧ w.state ≠ .failed) then
    let s := (s.setWsp n { w with state := .failed, pool := [], failDue := false }).event 0x2201
    if !s.ent.drbg.live ∧ s.rst.starting = 3 then
      { s with ent := { s.ent with held := true }, tamper := { s.tamper with batLog := s.tamper.batLog ++ [⟨0, 0, 0, s.rst.seconds, s.rst.powerCycles, 0⟩] } }
    else s
  else s

/-- The supply state (Table 11.2) at a tick. -/
def State.supplyNow (s : State) : Nat :=
  let e := s.ent
  let f0 := decide (e.w0.state = .failed)
  let f1 := decide (e.w1.state = .failed)
  if e.held then 0
  else if e.supply = 0 ∧ !e.drbg.live ∧ !e.katFailed then 0
  else if !e.drbg.live || e.katFailed then 4
  else if f0 && f1 then (if e.limited || e.supply == 4 || decide (2 ^ 20 ≤ e.sinceReseed) then 4 else 3)
  else if f0 || f1 || decide (e.w0.state = .tapped) || decide (e.w1.state = .tapped) then 2
  else 1

/-- Wellsprings and supply at a tick; the port's allowance starts anew. -/
def State.entropyTick (s : State) : State :=
  let s := (s.wspFail 0).wspFail 1
  { s with ent := { s.ent with supply := s.supplyNow, framesSinceReseed := s.ent.framesSinceReseed + 1, portBytesUsed := 0 } }

/-- DRBG_REQUEST_LIMIT (R277): the counter has reached 2^20 in DRBG_ONLY; WITHHELD from the next tick. -/
def execDrbgRequestLimit (s : State) : Res :=
  if s.ent.supply = 3 ∧ 2 ^ 20 ≤ s.ent.sinceReseed then .next { s with ent := { s.ent with limited := true } } else .next s

/-! ## Reseed and instantiation (R275, R276, R278, R279, R283) -/

/-- A wellspring whose outputs serve the DRBG. -/
def Wellspring.healthy (w : Wellspring) : Bool := decide (w.state = .healthy)

/-- The entropy input, and for an instantiation the nonce: the outputs used, and the pools left (R275, R283). -/
def State.takeSeed (s : State) (nonce : Bool) : Option (List Bytes × List Bytes × List Bytes) :=
  let p0 := s.ent.w0.pool
  let p1 := s.ent.w1.pool
  let n := b2n nonce
  if s.ent.w0.healthy && s.ent.w1.healthy then
    if nonce then
      (if 2 ≤ p0.length ∧ 1 ≤ p1.length then some (p0.take 1 ++ p1.take 1 ++ (p0.drop 1).take 1, p0.drop 2, p1.drop 1)
       else if 1 ≤ p0.length ∧ 2 ≤ p1.length then some (p0.take 1 ++ p1.take 2, p0.drop 1, p1.drop 2)
       else none)
    else if 1 ≤ p0.length ∧ 1 ≤ p1.length then some (p0.take 1 ++ p1.take 1, p0.drop 1, p1.drop 1) else none
  else if s.ent.w0.healthy then (if 2 + n ≤ p0.length then some (p0.take (2 + n), p0.drop (2 + n), p1) else none)
  else if s.ent.w1.healthy then (if 2 + n ≤ p1.length then some (p1.take (2 + n), p0, p1.drop (2 + n)) else none)
  else none

/-- An instantiation is wanted: at a start, or after a zeroise. A COLD start needs both wellsprings to pass, a WARM one needs those that are not declared failed (R278, R279). -/
def State.wantsInit (s : State) : Bool :=
  !s.ent.drbg.live && !s.ent.held &&
    (if s.ent.supply = 0 then
      (if s.rst.starting = 3 then s.ent.w0.healthy && s.ent.w1.healthy
       else (s.ent.w0.healthy || decide (s.ent.w0.state = .failed)) && (s.ent.w1.healthy || decide (s.ent.w1.state = .failed)))
     else true)

/-- A reseed is due (R276): every interval in FULL, every second one in HALF; or a failed test is to be tried again. -/
def State.reseedDueNow (s : State) : Bool :=
  s.ent.drbg.live && (s.ent.katFailed || s.ent.reseedDue ||
    (s.ent.supply == 1 && decide (s.num Key.WSP_RESEED_INTERVAL ≤ s.ent.framesSinceReseed)) ||
    (s.ent.supply == 2 && decide (2 * s.num Key.WSP_RESEED_INTERVAL ≤ s.ent.framesSinceReseed)))

/-- The DRBG is seeded when an instantiation or a reseed is due and the pools hold its input; a failed known-answer test discards the material and the supply is WITHHELD (R275, R276). -/
def State.reseed (s : State) (testPasses : Bool) : State :=
  let init := s.wantsInit
  if !init && !s.reseedDueNow then s
  else match s.takeSeed init with
    | none => { s with ent := { s.ent with reseedDue := !init } }
    | some r =>
      let w0 := { s.ent.w0 with pool := r.2.1 }
      let w1 := { s.ent.w1 with pool := r.2.2 }
      let s := { s with ent := { s.ent with w0 := w0, w1 := w1 } }
      if !testPasses then
        let s := (s.count Key.WSP_DRBG_KAT_FAILS).event 0x2202
        { s with ent := { s.ent with katFailed := true, supply := 4 } }
      else
        let seed := (r.1.take 2).flatten
        let d := if init then drbgInit (drbgDf (seed ++ ((r.1.drop 2).flatten).take 16 ++ ascii "ILYAR-DRBG")) else drbgReseed s.ent.drbg (drbgDf seed)
        let s := if init then s else s.count Key.WSP_RESEEDS
        { s with ent := { s.ent with drbg := d, sinceReseed := 0, framesSinceReseed := 0, reseedDue := false, katFailed := false, limited := false } }

/-- The reseed of the window, after the work of Table 2.2 (R276). -/
def State.reseedWindow (s : State) : State :=
  match s.ent.reseedTest with
  | some t => ({ s with ent := { s.ent with reseedTest := none } } : State).reseed t
  | none => s

/-- RESEED_DUE (R276): the reseed runs in the window, at once in the one that stands, else in the next; `testPasses` is what its known-answer test gives. -/
def execReseedDue (testPasses : Bool) (s : State) : Res :=
  if !s.live then .next s
  else if s.window then .next (s.reseed testPasses)
  else .next { s with ent := { s.ent with reseedTest := some testPasses } }

/-! ## The raw-sample tap (R285) -/

/-- RAW_SAMPLE_TAP_OPEN (R285): in MAKER and RETURNED, under a grant with the tap right and non-invasive rights, on one wellspring. -/
def execRawSampleTapOpen (source : Nat) (s : State) : Res :=
  let life := s.lifeCycle
  let w := s.wsp source
  if (life = 0 ∨ life = 3) ∧ bitOf s.life.grantRights 5 ∧ (s.debugRight 0 ∨ s.debugRight 2) ∧ w.state = .healthy ∧
      s.ent.w0.state ≠ .tapped ∧ s.ent.w1.state ≠ .tapped then
    .next (s.setWsp source { w with state := .tapped })
  else .next s

/-! ## The end of a debug grant (R404) -/

/-- A grant ends at the next tick; one with right 3 or 4 causes a WARM reset at that tick. -/
def State.endGrantNext (s : State) : State :=
  if !s.life.granted then s
  else
    let s := { s with life := { s.life with endDue := true } }
    if bitOf s.life.grantRights 3 || bitOf s.life.grantRights 4 then s.resetDue 2 10 else s

/-- The grant is over: its enables clear, its tap closes. -/
def State.dropGrant (s : State) : State :=
  let cs := if s.life.certState = 2 then 0 else s.life.certState
  let s := { s with life := { s.life with granted := false, endDue := false, grantRights := 0, grantEnds := 0, certState := cs } }
  ({ s with keeper := { s.keeper with debugState := 0, haltNormal := false, haltSecure := false } } : State).closeTap

end Sys2Proof.Machine
end

