-- ==== Sys2Proof/Machine/Guard.lean ====
section
/-! DEFINITION. The region guard comes back: re-enable, the hold limit, and the accesses that were held (R299, R300). -/

namespace Sys2Proof.Machine

/-- A held access is carried out. -/
def State.serveOne (s : State) (c : Instr) : State :=
  let r : Res := match c with
    | .dmaReadComplete job what data => execDmaReadComplete job what data s
    | .vaultReadComplete page port data => execVaultReadComplete page port data s
    | .debugMasterAccess write word data allBits => execDebugMasterAccess write word data allBits s
    | _ => .next s
  match r with
  | .next t => t
  | _ => s

/-- The held accesses, in the order of their arrival (R300). -/
def State.serveHeld (s : State) : State := s.keeper.held.foldl State.serveOne { s with keeper := { s.keeper with held := [] } }

/-- GUARD_ENABLE (R299, R300): of a guard that is off; it also ends a disable that is still held. -/
def execGuardEnable (s : State) : Res :=
  if s.keeper.guardOn then .next { s with keeper := { s.keeper with guardDisableHeld := false } } else .next s.guardOnAgain.serveHeld

/-- A guard off for 4,096 Keeper cycles re-enables itself with cause 4; not during a start (R300, R302). -/
def State.guardLimit (s : State) : State :=
  if s.keeper.guardOn || !s.keeper.coresRunning then s
  else
    let o := overlapOf s.keeper.regionsNew
    (s.guardOnAgain.guardFault 4 (o.map fun x => x.1) (o.map fun x => x.2) none).serveHeld

/-- GUARD_HOLD_LIMIT (R300, R302). -/
def execGuardHoldLimit (s : State) : Res := .next s.guardLimit

end Sys2Proof.Machine
end

