-- ==== Sys2Proof/Machine/DictBase.lean ====
section
/-! DEFINITION. The object dictionary's service, as far as no single entry's rule is concerned (chapter 14): values and their encodings, role proofs, replies, refusals, acknowledgements. -/

namespace Sys2Proof.Machine

/-! ## Values (R349, Table 14.1) -/

/-- Bytes of a value of a type; none for a byte string of any length. -/
def VType.size : VType → Option Nat
  | .bool => some 1
  | .u8 => some 1
  | .u16 => some 2
  | .u32 => some 4
  | .u64 => some 8
  | .u36 => some 8
  | .i32 => some 4
  | .octets => none
  | .string => none

def Attr.octets (a : Attr) : Bool := a.typ.size.isNone

/-- A value read from a request's value field. -/
def Attr.valueOf (a : Attr) (b : Bytes) : DVal := if a.octets then .octets b else .num (leNat b)

/-- A value's bytes in a datagram. -/
def Attr.bytesOf (a : Attr) (v : DVal) : Bytes :=
  match v with
  | .num n => leBytes (a.typ.size.getD 8) n
  | .octets b => b

/-- The length fits (R349). -/
def Attr.lengthOk (a : Attr) (b : Bytes) : Bool :=
  match a.typ.size with
  | some n => b.length == n
  | none => decide (a.minLen ≤ b.length) && decide (b.length ≤ a.maxLen)

/-- The value lies in the entry's range, and sets no reserved bit (R349, R353). -/
def Attr.rangeOk (a : Attr) (v : DVal) : Bool :=
  match v with
  | .num n => decide (a.lo ≤ n) && decide (n ≤ a.hi) && (a.mask == 0 || n &&& a.mask == n) && (a.acc != .rw0 || n == 0)
  | .octets b => decide (a.minLen ≤ b.length) && decide (b.length ≤ a.maxLen) &&
      (a.typ != .string || b.all fun x => decide (0x20 ≤ x.toNat) && decide (x.toNat ≤ 0x7E))

/-! ## Roles (R353, R354) -/

def roleOf (c : Nat) : Option Role :=
  match c with
  | 0 => some .observer
  | 1 => some .operator
  | 2 => some .maintenance
  | 3 => some .officer
  | 4 => some .keeper
  | _ => none

/-- An entry can be read (R353). -/
def Attr.readable (a : Attr) : Bool := a.acc != .wo && a.acc != .woq

/-- A role may write an entry; the officer's is a quorum write (R353, R354). -/
def Attr.mayWrite (a : Attr) (r : Role) : Bool :=
  match a.acc with
  | .ro => false
  | .rwq => decide (r = .officer)
  | .woq => decide (r = .officer)
  | _ =>
    match r with
    | .observer => false
    | .operator => decide (a.writer = .operator)
    | .maintenance => decide (a.writer = .maintenance) || decide (a.writer = .operator)
    | .officer => decide (a.writer ≠ .keeper)
    | .keeper => decide (a.writer = .keeper)

/-! ## Role proofs (R356, R366, R367) -/

/-- The set key slots of a role: slot numbers of Table 14.7. -/
def State.keySlots (s : State) (role : Nat) : List Nat :=
  (if role = 1 then [0, 1] else if role = 2 then [2, 3] else []).filter fun n => !allZero (s.oct (Key.OFC_ROLE_KEY n))

/-- Bytes 0 to 15 of a datagram's body (Table 13.6). -/
def bodyHead (reqId op role index sub reason len : Nat) : Bytes :=
  leBytes 4 reqId ++ [byteOf op, byteOf role] ++ leBytes 2 index ++ [byteOf sub, byteOf reason] ++ leBytes 2 len ++ [0, 0, 0, 0]

/-- The proof of a datagram under a role key (R356). -/
def proofOf (key : Bytes) (src dst tick : Nat) (head value : Bytes) : Bytes :=
  kmac256 key (leBytes 2 src ++ leBytes 2 dst ++ leBytes 4 tick ++ head ++ value) 32 (ascii "ILYAR-ROLE")

/-- The key slot under which a request's proof matches; `op` 1 read, 2 write. -/
def State.proofSlot (s : State) (r : DictReq) (op : Nat) : Option Nat :=
  let head := bodyHead r.reqId op r.role r.index r.sub 0 r.value.length
  (s.keySlots r.role).find? fun n => proofOf (s.oct (Key.OFC_ROLE_KEY n)) r.hdr.src r.hdr.dst r.hdr.insTick head r.value == r.proof

/-- The header's tick lies within the 64 ticks up to the unit's own. -/
def State.freshTick (s : State) (r : DictReq) : Bool := decide ((s.tick % 2 ^ 32 + 2 ^ 32 - r.hdr.insTick) % 2 ^ 32 < 64)

/-- The (source, request id) pair was accepted within the last 128 ticks. -/
def State.replayed (s : State) (r : DictReq) : Bool :=
  s.dict.seenReqs.any fun p => p.1 == r.hdr.src && p.2.1 == r.reqId && decide (s.tick < p.2.2 + 128)

def State.enrolmentOpen (s : State) : Bool := s.num Key.OFC_ENROLMENT_OPEN != 0

/-- A request's role proof is good: reads of role 3 are not checked; a role 3 write's challenge is judged later (R360). -/
def State.proofOk (s : State) (r : DictReq) (op : Nat) : Bool :=
  match r.role with
  | 0 => allZero r.proof
  | 3 => true
  | 4 => r.weir
  | _ =>
    if (s.keySlots r.role).isEmpty then s.enrolmentOpen && r.role == 2 && allZero r.proof && s.freshTick r && !s.replayed r
    else (s.proofSlot r op).isSome && s.freshTick r && !s.replayed r

/-- Remember an accepted request of a role with a proof: the last 1,024. -/
def State.seeReq (s : State) (r : DictReq) : State :=
  if r.role = 1 ∨ r.role = 2 then { s with dict := { s.dict with seenReqs := (s.dict.seenReqs ++ [(r.hdr.src, r.reqId, s.tick)]).drop (s.dict.seenReqs.length + 1 - 1024) } }
  else s

/-! ## Replies, refusals, acknowledgements (R332, R357, R358) -/

/-- A reply to a request: operation, reason, value; a request through a weir has no message. -/
def State.reply (s : State) (r : DictReq) (slot : Option Nat) (op reason : Nat) (value : Bytes) : State :=
  if r.weir then s
  else
    let head := bodyHead r.reqId op r.role r.index r.sub reason value.length
    let proof := match slot with
      | some n => proofOf (s.oct (Key.OFC_ROLE_KEY n)) s.chain.address r.hdr.src ((s.tick + 1) % 2 ^ 32) head value
      | none => List.replicate 32 0
    s.sendMsg 0x11 r.hdr.src (head ++ proof ++ value) none

/-- Record a refusal (R358). -/
def State.refused (s : State) (key reason : Nat) : State :=
  let s := (s.count Key.UNIT_DICT_REFUSALS).setNum Key.UNIT_LAST_REFUSAL
    (key / 256 + 65536 * (key % 256) + 2 ^ 24 * reason + 2 ^ 32 * (s.tick % 2 ^ 32))
  { s with dict := { s.dict with answer := .refused reason } }

/-- Record a refusal and answer the request, when there is one. -/
def State.refuse (s : State) (key reason : Nat) (req : Option (DictReq × Option Nat)) : State :=
  let s := s.refused key reason
  match req with
  | some q => s.reply q.1 q.2 5 reason []
  | none => s

/-- An acknowledged write: it is applied in this frame's window (R357). -/
def State.ackWrite (s : State) (key : Nat) (v : DVal) (req : Option (DictReq × Option Nat)) : State :=
  let s := s.count Key.UNIT_DICT_WRITES
  let s := { s with dict := { s.dict with acked := s.dict.acked ++ [(key, v)], answer := .acked } }
  match req with
  | some q => s.reply q.1 q.2 4 0 []
  | none => s

/-- The end of a replicated write that is refused: its heart is free again, its request answered (R224, R363). -/
def State.refuseOwn (s : State) (o : OwnChange) (reason : Nat) : State :=
  let s := s.settleHeart o.record.change
  match o.write with
  | some w => s.refuse w.1 reason (w.2.map fun r => (r, s.proofSlot r 2))
  | none => s

/-- The end of a replicated write that applies (R224): acknowledged, and answered at its effect tick. -/
def State.finishOwnWrite (s : State) (o : OwnChange) : State :=
  let s := ((s.applyEffect o.record.change).settleHeart o.record.change).dropOwn o.record.seq
  match o.write with
  | some w =>
    let s := s.count Key.UNIT_DICT_WRITES
    let s := { s with dict := { s.dict with answer := .acked } }
    match w.2 with
    | some r => s.reply r (s.proofSlot r 2) 4 0 []
    | none => s
  | none => s

end Sys2Proof.Machine
end

