-- ==== Sys2Proof/Machine/Migration.lean ====
section
/-! DEFINITION. Migration of slices (chapter 05, R122 to R132): freeze and thaw, the slice image, save and restore, the consumption of image tags. -/

namespace Sys2Proof.Machine

/-! ## Parked jobs (R123 to R126) -/

/-- A job becomes a parked job: its context ends, and its place in its ring is kept. -/
def State.park (s : State) (j : Job) : State :=
  ((s.scrubJob j).abandon j.id).updSlice j.slice fun c => { c with parked := c.parked ++ [⟨j.ring, j.index, j.descDone && j.desc.cls == 0⟩] }

/-- A fetched job that is not admitted, and whose record the next tick does not release. -/
def Job.unadmitted (now : Nat) (j : Job) : Bool :=
  j.admitted.isNone && (decide (j.phase = .fetching) || decide (j.phase = .noRoom) || decide (j.phase = .ready) || (decide (j.phase = .staged) && decide (now + 1 < j.due)))

/-- An admitted job of a lane that has segments left to run (R124). -/
def Job.stoppable (j : Job) : Bool :=
  j.admitted.isSome && decide (opEngine j.op < engCt) && decide (j.plan ≠ []) &&
    (decide (j.phase = .ready) || decide (j.phase = .running) || decide (j.phase = .parkedLane))

/-- Park the jobs of a slice that satisfy `p`. -/
def State.parkWhere (s : State) (n : Nat) (p : Job → Bool) : State := (s.jobs.filter fun j => j.slice == n && p j).foldl State.park s

/-- An accepted migration command: its state, error 0, its frame (R122). -/
def State.migTo (s : State) (n : Nat) (m : MigState) : State := s.updSlice n fun c => { c with mig := m, migError := 0, migTick := s.tick }

/-- A migration command that is not carried out (R122). -/
def State.migRefuse (s : State) (n code : Nat) : State := s.updSlice n fun c => { c with migError := code }

/-- FREEZE, from the tick on (R123). -/
def State.freeze (s : State) (n : Nat) : State := (s.migTo n .freezing).parkWhere n (Job.unadmitted s.tick)

/-- FREEZE_NOW, from the tick on (R124). -/
def State.freezeNow (s : State) (n : Nat) : State := (s.freeze n).parkWhere n Job.stoppable

/-- The outstanding tag of a slice's image. -/
def State.tagOf (s : State) (n : Nat) : Option Bytes :=
  match (s.slice n).imageTag with
  | some t => if s.chain.tags.any fun x => x.1 == t then some t else none
  | none => none

def State.dropTag (s : State) (t : Bytes) : State := { s with chain := { s.chain with tags := s.chain.tags.filter fun x => decide (x.1 ≠ t) } }

/-- A slice MOVED (R131): its ring pairs show ENABLED 0 and BUSY 0, and nothing of it runs. -/
def State.markMoved (s : State) (n : Nat) : State :=
  let s := s.dropSliceJobs n
  let s := (s.sliceRings n).foldl (fun st r => st.updRing r fun p => { p with enabled := false, enableBit := false, errorDue := none }) s
  s.updSlice n fun c => { c with mig := .moved, parked := [], migDue := none }

/-- The next tick finds the image of a SAVED slice consumed: the slice is MOVED from then on (R131). -/
def State.movesNext (s : State) (n : Nat) : State := s.updSlice n fun c => { c with migDue := some (s.tick + 1), imageTag := none }

/-- THAW (R126, R131): of a SAVED slice it consumes the image, or finds it consumed. -/
def State.thaw (s : State) (n : Nat) : State :=
  if (s.slice n).mig = .saved then
    match s.tagOf n with
    | some t => ((s.migTo n .running).dropTag t).updSlice n fun c => { c with imageTag := none }
    | none => (s.updSlice n fun c => { c with migError := 0, migTick := s.tick }).movesNext n
  else s.migTo n .running

/-! ## The image (Tables 5.6, 5.7) -/

/-- Chunk `c` of a slice's image. -/
def State.imageChunk (s : State) (n c : Nat) : Bytes := SMap.get zeroSlot (s.slice n).image c

/-- Bytes of a chunk beyond the image length read as zero and are ignored on writing (R128). -/
def State.chunkSeen (s : State) (n c : Nat) : Bytes := fit 512 ((s.imageChunk n c).take (s.num (Key.SLC_IMAGE_LENGTH n) - 512 * c))

/-- SLC_IMAGE_WINDOW written (R128). -/
def State.imageWrite (s : State) (n : Nat) (v : Bytes) : State :=
  s.updSlice n fun c => { c with image := SMap.set zeroSlot (s.num (Key.SLC_IMAGE_CURSOR n)) (fit 512 v) c.image }

/-- The image as SLC_IMAGE_LENGTH bounds it. -/
def State.imageBytes (s : State) (n : Nat) : Bytes :=
  let len := s.num (Key.SLC_IMAGE_LENGTH n)
  (((List.range (ceilDiv len 512)).map (s.imageChunk n)).flatten).take len

def State.setImageBytes (s : State) (n : Nat) (b : Bytes) : State :=
  let chunks := (List.range (ceilDiv b.length 512)).foldl (fun m i => SMap.set zeroSlot i (cut (512 * i) 512 b) m) []
  (s.updSlice n fun c => { c with image := chunks }).setNum (Key.SLC_IMAGE_LENGTH n) b.length

/-- The domain migration key (R342). -/
def State.migrateKey (s : State) : Bytes :=
  match s.chain.domainKey with
  | some k => kmac256 k (s.oct Key.CHN_DOMAIN_ID) 32 (ascii "ILYAR-MIGRATE")
  | none => []

/-- The key of one image, from the ladder (Table 5.7): Label "ILYM", Context the image tag (assumption log 16). -/
def State.imageKey (s : State) (tag : Bytes) : Bytes := ladderKey s.migrateKey (ascii "ILYM") tag 32

/-- Pins of a slice: stored objects under its hearts. -/
def State.slicePins (s : State) (n : Nat) : List Nat := s.keys.pins.filter fun h => decide (s.handleSlice h = n)

/-- A ring record (Table 5.7). -/
def State.ringRecord (s : State) (r : Nat) : Bytes :=
  let p := s.ring r
  leBytes 8 p.sqBase ++ leBytes 8 p.cqBase ++ leBytes 8 p.shadowBase ++
    leBytes 4 p.tl ++ leBytes 4 p.sh ++ leBytes 4 p.cp ++ leBytes 4 p.ch ++ leBytes 4 p.limit ++
    [byteOf p.k, byteOf (b2n p.irqEnable)] ++ leBytes 2 (s.num (Key.RNG_CREDIT_MAX r))

/-- A parked job's record (Table 5.7). -/
def parkedRecord (rings : List Nat) (p : Parked) : Bytes :=
  leBytes 2 (rings.findIdx fun r => r == p.ring) ++ leBytes 4 p.index ++ [byteOf (b2n p.class0), 0]

/-- The plain body of a slice's image. -/
def State.imageBody (s : State) (n : Nat) : Bytes :=
  let rings := s.sliceRings n
  ((List.range 64).map fun c => leBytes 8 (s.counterVal n c)).flatten ++ (rings.map s.ringRecord).flatten ++
    ((s.slicePins n).map fun h => leBytes 8 h).flatten ++ ((s.slice n).parked.map (parkedRecord rings)).flatten

/-- The header of a slice's image (Table 5.6). -/
def State.imageHeader (s : State) (n : Nat) (tag nonce : Bytes) : Bytes :=
  leBytes 2 1 ++ leBytes 2 s.chain.address ++ leBytes 2 n ++ leBytes 2 (s.sliceRings n).length ++ tag ++ leBytes 8 s.tick ++
    leBytes 2 (s.slicePins n).length ++ leBytes 2 (s.slice n).parked.length ++ [byteOf (s.num (Key.SLC_FAULT_POLICY n)), 0] ++
    leBytes 2 (s.num (Key.SLC_OPCODE_GROUPS n)) ++ leBytes 4 (64 + (s.imageBody n).length + 16) ++ nonce ++ List.replicate 16 0

/-- The image would exceed its limits (Table 5.5, 2). -/
def State.imageTooBig (s : State) (n : Nat) : Bool :=
  decide (256 < (s.sliceRings n).length) || decide (4096 < (s.slicePins n).length) || decide (1024 < (s.slice n).parked.length)

/-- No chain address or no domain (Table 5.5, 7). -/
def State.unjoined (s : State) : Bool := decide (s.chain.address = 0) || s.chain.domainKey.isNone

/-! ## SAVE (R127) -/

/-- SAVE as it takes effect. -/
def State.saveStart (s : State) (n : Nat) : State :=
  if s.withheld then s.migRefuse n 1
  else if s.unjoined then s.migRefuse n 7
  else if s.imageTooBig n then s.migRefuse n 2
  else s.migTo n .saving

/-- The image built and sealed in frame G + 1, and its tag announced. -/
def State.saveBuild (s : State) (n : Nat) : State :=
  let t := s.draw 8
  let nc := t.2.takeBytes 12
  let s := nc.2
  let hd := s.imageHeader n t.1 nc.1
  let c := gcmSeal (s.imageKey t.1) nc.1 hd (s.imageBody n)
  let k := s.kInForce
  let maj := s.majority
  let s := { s with chain := { s.chain with tags := s.chain.tags ++ [(t.1, n)] } }
  let s := s.updSlice n fun x => { x with imageTag := some t.1, imageNew := some (hd ++ c.1 ++ c.2), migDue := if k = 0 then some (s.tick + 2) else none }
  s.startOwn (.imageTag n t.1) k none none maj

/-! ## RESTORE (R129, R130) -/

/-- RESTORE as it takes effect: the slice is mapped, and there is an image. -/
def State.restoreStart (s : State) (n : Nat) : State :=
  if s.mapped n && s.num (Key.SLC_IMAGE_LENGTH n) != 0 then s.migTo n .restoring else s.migRefuse n 1

/-- A held slice reset begins when the restore ends (R132). -/
def State.releaseReset (s : State) (n : Nat) : State := if (s.slice n).resetHeld then s.sliceReset n else s

/-- A restore ends without effect. -/
def State.restoreFails (s : State) (n code : Nat) : State :=
  (s.updSlice n fun c => { c with mig := .running, migError := code, migDue := none, imageTag := none, opened := none, migFail := none }).releaseReset n

/-- A restore ends without effect at the next tick (R129). -/
def State.restoreFailsNext (s : State) (n code : Nat) : State := s.updSlice n fun c => { c with migFail := some code, migDue := some (s.tick + 1) }

/-- The source's answer to a consume request (R129): the tag is outstanding, or the same target consumed it before. -/
def State.consumable (s : State) (tag : Bytes) (src target : Nat) : Bool := (s.chain.tags.any fun t => t.1 == tag) || s.chain.consumed.contains (tag, src, target)

/-- The source consumes an outstanding tag; its slice is MOVED at the next tick (R131). -/
def State.consumeTag (s : State) (tag : Bytes) (src target : Nat) : State :=
  match s.chain.tags.find? fun t => t.1 == tag with
  | some t =>
    let s := (s.dropTag tag).movesNext t.2
    { s with chain := { s.chain with consumed := s.chain.consumed ++ [(tag, src, target)] } }
  | none => s

/-- The reply to a restore's request: it completes two ticks on, or fails with error 4. -/
def State.restoreAnswered (s : State) (n : Nat) (accepted : Bool) : State :=
  if accepted then s.updSlice n fun c => { c with migDue := some (s.tick + 2) } else s.restoreFailsNext n 4

/-- The image opened: its header and its plain body. -/
def State.openImageOf (s : State) (n : Nat) : Option (Bytes × Bytes) :=
  let b := s.imageBytes n
  let hd := b.take 64
  if b.length < 592 ∨ le 0 2 hd ≠ 1 ∨ le 32 4 hd ≠ b.length ∨ 4096 ≤ le 2 2 hd ∨ s.chain.domainKey.isNone then none
  else
    let ct := (b.drop 64).take (b.length - 80)
    match gcmOpen (s.imageKey (cut 8 8 hd)) (cut 36 12 hd) hd ct (b.drop (b.length - 16)) with
    | some p => if p.length = 512 + 48 * le 6 2 hd + 8 * le 24 2 hd + 8 * le 26 2 hd then some (hd, p) else none
    | none => none

/-- Pins that an image's body names. -/
def imagePins (i : Bytes × Bytes) : List Nat := (List.range (le 24 2 i.1)).map fun o => le (512 + 48 * le 6 2 i.1 + 8 * o) 8 i.2

/-- The target does not match the image (Table 5.5, 5); a pin's use is in cache entries (R230). -/
def State.targetDiffers (s : State) (n : Nat) (i : Bytes × Bytes) : Bool :=
  let hd := i.1
  let rings := s.sliceRings n
  decide (rings.length ≠ le 6 2 hd) || rings.any (fun r => (s.ring r).enabled || s.busy r) ||
    decide (s.num (Key.SLC_QUOTA_PINS n) < ((imagePins i).map s.pinEntries).foldl (· + ·) 0) || decide (s.num (Key.SLC_QUOTA_RINGS n) < le 6 2 hd)

/-- The checks of frame G + 1, and the consume request. -/
def State.restoreCheck (s : State) (n : Nat) : State :=
  if s.unjoined then s.restoreFailsNext n 7
  else match s.openImageOf n with
    | none => s.restoreFailsNext n 3
    | some i =>
      if s.targetDiffers n i then s.restoreFailsNext n 5
      else
        let tag := cut 8 8 i.1
        let s := s.updSlice n fun c => { c with imageTag := some tag, opened := some i }
        if le 2 2 i.1 = s.chain.address then s else s.sendMsg 0x38 (le 2 2 i.1) (Config.bodyLayout 0x38 [tag, leBytes 2 n, [0]]) none

/-- A restore of an image of this unit's own: its request and the answer stay in the unit, in the frame that a chain frame would carry them (R129). -/
def State.restoreOwn (s : State) (n : Nat) : State :=
  let c := s.slice n
  match c.imageTag, c.opened with
  | some tag, some i =>
    if le 2 2 i.1 = s.chain.address ∧ c.migDue.isNone then
      let ok := s.consumable tag s.chain.address n
      (s.consumeTag tag s.chain.address n).restoreAnswered n ok
    else s
  | _, _ => s

/-- One ring pair takes a ring record (R130). -/
def State.takeRing (s : State) (r : Nat) (b : Bytes) : State :=
  let s := s.setNum (Key.RNG_CREDIT_MAX r) (max 1 (le 46 2 b))
  let s := s.updRing r fun p =>
    { p with sqBase := le 0 8 b, cqBase := le 8 8 b, shadowBase := le 16 8 b, tl := bits (le 24 4 b) 16 0, sh := bits (le 28 4 b) 16 0,
             cp := bits (le 32 4 b) 16 0, ch := bits (le 36 4 b) 16 0, limit := bits (le 40 4 b) 16 0, k := at8 44 b,
             irqEnable := bitOf (at8 45 b) 0, enableBit := true, enabled := true, enableWritten := none, startDue := none, error := 0, errorDue := none,
             tailWritten := none, headWritten := none, abortWritten := none, abortMarks := [], moveDue := false }
  s

/-- The restore completes, at tick H (R130), from the image that its checks opened. -/
def State.restoreDone (s : State) (n : Nat) : State :=
  match (s.slice n).opened with
  | none => s.restoreFails n 3
  | some i =>
    let nr := le 6 2 i.1
    let np := le 24 2 i.1
    let rings := s.sliceRings n
    let ringAt (o : Nat) : Bytes := cut (512 + 48 * o) 48 i.2
    let s := rings.zipIdx.foldl (fun st r => st.takeRing r.1 (ringAt r.2)) s
    let counters := (List.range 64).foldl (fun m c => SMap.set 0 c (le (8 * c) 8 i.2) m) []
    let parkAt (o : Nat) : Bytes := cut (512 + 48 * nr + 8 * np + 8 * o) 8 i.2
    let parked := (List.range (le 26 2 i.1)).map fun o => ({ ring := rings.getD (le 0 2 (parkAt o)) 0, index := le 2 4 (parkAt o), class0 := bitOf (at8 6 (parkAt o)) 0 } : Parked)
    let pins := imagePins i
    let s := pins.foldl (fun st h => st.pin h) s
    let wanted := pins.filter fun h => (s.cached n h).isNone && !s.keys.reload.contains h
    let s := { s with keys := { s.keys with reload := s.keys.reload ++ wanted } }
    let s := (s.setNum (Key.SLC_FAULT_POLICY n) (at8 28 i.1)).setNum (Key.SLC_OPCODE_GROUPS n) (le 30 2 i.1)
    let s := s.updSlice n fun c => { c with mig := .running, counters := counters, parked := parked, migDue := none, imageTag := none, opened := none }
    (rings.foldl State.writeShadow s).releaseReset n

/-! ## Commands and their later steps -/

/-- SLC_MIG_CMD as it takes effect (Table 5.4): a command that the state does not accept changes nothing but the error. -/
def State.migCommand (s : State) (n v : Nat) : State :=
  match (s.slice n).mig, v with
  | .running, 1 => s.freeze n
  | .running, 2 => s.freezeNow n
  | .running, 5 => s.restoreStart n
  | .frozen, 3 => s.saveStart n
  | .frozen, 4 => s.thaw n
  | .saved, 4 => s.thaw n
  | _, _ => s.migRefuse n 1

/-- Work of the Keeper in the frame after a SAVE or RESTORE took effect, and in the next of a restore whose source is this unit. -/
def State.migWindow (s : State) : State :=
  let s := (s.slices.filter fun e => e.2.mig == .restoring && decide (e.2.migTick + 2 = s.tick)).foldl (fun st e => st.restoreOwn e.1) s
  (s.slices.filter fun e => decide (e.2.migTick + 1 = s.tick)).foldl (fun st e =>
    match (st.slice e.1).mig with
    | .saving => st.saveBuild e.1
    | .restoring => st.restoreCheck e.1
    | _ => st) s

/-- At a tick: the SAVE or RESTORE that completes (R127, R130). -/
def State.migTickDue (s : State) : State :=
  (s.slices.filter fun e => match e.2.migDue with | some t => decide (t ≤ s.tick) | none => false).foldl (fun st e =>
    match (st.slice e.1).mig with
    | .saving => (st.setImageBytes e.1 (e.2.imageNew.getD [])).updSlice e.1 fun c => { c with mig := .saved, migDue := none, imageNew := none }
    | .restoring => match e.2.migFail with
      | some code => st.restoreFails e.1 code
      | none => st.restoreDone e.1
    | .saved => st.markMoved e.1
    | _ => st.updSlice e.1 fun c => { c with migDue := none }) s

/-- FREEZE_DRAINED (R123): no admitted job of the slice lacks a released record. -/
def execFreezeDrained (slice : Nat) (s : State) : Res :=
  let c := s.slice slice
  if c.mig = .freezing ∧ c.migTick < s.tick ∧ ¬ (s.jobs.any fun j => j.slice == slice && j.admitted.isSome) then
    .next ((s.updSlice slice fun c => { c with mig := .frozen }).showSlice slice)
  else .next s

/-- MIGRATION_TIMEOUT (R127, R129): error 6 once 64 ticks have passed. -/
def execMigrationTimeout (slice : Nat) (s : State) : Res :=
  let c := s.slice slice
  if c.migDue.isSome ∨ s.tick < c.migTick + 66 then .next s
  else
    match c.mig with
    | .saving =>
      let s := match s.chain.own.find? fun o => match o.record.change with | .imageTag sl _ => sl == slice | _ => false with
        | some o => s.undoOwn o
        | none => s
      let s := match c.imageTag with
        | some t => s.dropTag t
        | none => s
      .next (s.updSlice slice fun c => { c with mig := .frozen, migError := 6, imageTag := none, imageNew := none })
    | .restoring => .next (s.restoreFails slice 6)
    | _ => .next s

end Sys2Proof.Machine
end

