-- ==== Sys2Proof/Machine/Chain.lean ====
section
/-! DEFINITION. The chain (chapter 13): the receipt of messages, tick markers, loop-back and holdover, roll calls and addresses, replication between peers, the consumption of image tags. -/

namespace Sys2Proof.Machine

/-! ## Receipt of a message (R318, R320, R321) -/

/-- A message that is discarded (R321). -/
def State.badMessage (s : State) : State := (s.count Key.CHN_BAD_MESSAGES).event 0x1101

/-- A fragment has arrived; true when the message is whole. -/
def State.addFragment (s : State) (h : MsgHdr) : State × Bool :=
  if h.last = 0 then (s, true)
  else
    let old := s.chain.partials.find? fun p => p.src == h.src && p.id == h.id
    let p : Partial := match old with
      | some p => { p with have_ := p.have_ ++ [(h.frag, [])] }
      | none => ⟨h.src, h.id, s.tick, [(h.frag, [])], h.last⟩
    let rest := s.chain.partials.filter fun q => !(q.src == h.src && q.id == h.id)
    let whole := (List.range (p.last + 1)).all fun i => p.have_.any fun x => x.1 == i
    ({ s with chain := { s.chain with partials := if whole then rest else rest ++ [p] } }, whole)

/-- The relay inserts no message: from a WARM reset, or a COLD one, until step 11 of the start (R425, Table 19.6). -/
def State.relayOff (s : State) : Bool := decide (s.rst.starting ≠ 0) || (decide (s.rst.power = .held) && decide (2 ≤ s.rst.reach))

/-- What is addressed to the unit is discarded: from a WARM reset until the relay inserts again (R425). -/
def State.deaf (s : State) : Bool := (decide (s.rst.power = .held) && decide (s.rst.reach = 2)) || decide (s.rst.starting = 2)

/-- Take a message of a type: `f` acts once, when it is whole. A failed check, or a seal that the unit cannot open, discards it; own messages that return and later copies are dropped; other units' messages pass on. -/
def State.receive (s : State) (type : Nat) (h : MsgHdr) (f : State → State) : State :=
  if s.deaf then s
  else if h.check ≠ .good ∨ (msgSeal type = 1 ∧ s.chain.domainKey.isNone) then s.badMessage
  else if h.src = s.chain.address ∧ s.chain.address ≠ 0 then s
  else if s.chain.seen.contains (h.src, h.id, h.frag) then s
  else if h.dst ≠ bcast ∧ (h.dst ≠ s.chain.address ∨ s.chain.address = 0) then s
  else
    let s := { s with chain := { s.chain with seen := s.chain.seen ++ [(h.src, h.id, h.frag)] } }
    let r := (s.hear h.src).addFragment h
    if r.2 then f r.1 else r.1

/-- A message to a block of the unit (R25, R357): received in lane time it waits for step 4 of the frame's window, where it acts; in the window it acts as it comes. -/
def State.atStep4 (s : State) (c : Instr) (f : State → State) : State := if s.window then f s else { s with inbox := s.inbox ++ [c] }

/-- FRAGMENT_TIMEOUT (R320): 64 ticks after the first fragment. -/
def execFragmentTimeout (source id : Nat) (s : State) : Res :=
  .next { s with chain := { s.chain with partials := s.chain.partials.filter fun p => !(p.src == source && p.id == id && decide (p.since + 64 ≤ s.tick)) } }

/-! ## Tick markers (R22, R326, R330, R331) -/

/-- Picoseconds of a seiche. -/
def periodPs (p : Nat) : Nat := periodUs p * 1000000

/-- The signed distance of `x` from the nearest multiple of `m`. -/
def nearOffset (x : Int) (m : Nat) : Int :=
  let r := x % (m : Int)
  if (m : Int) < 2 * r then r - m else r

/-- The master's own marker is back: the round trip of ring 0, and the chain comes up (R323, R326). -/
def State.ownMarker (s : State) (m : Marker) : State :=
  let s := { s with chain := { s.chain with markerSeen := true } }
  if m.ring = 0 ∧ ¬ m.wrapped then { s with chain := { s.chain with roundTrip := m.arrivalPs.toNat } } else s

/-- The period fields of a frame header whose check is good (R49, R316). -/
def State.takeHeader (s : State) (m : Marker) : State :=
  if m.headerOk then
    let s := (s.setNum Key.SEI_PERIOD m.period).setNum Key.SEI_PERIOD_NEXT (if m.switchArmed then m.periodNext else m.period)
    let s := s.setNum Key.SEI_SWITCH_TICK m.switchTick
    { s with chain := { s.chain with roundTrip := m.roundTrip } }
  else s

/-- Δ and the delays from the master, once both unwrapped markers of a tick are in (R326). -/
def State.measure (s : State) : State :=
  match s.chain.arrival0, s.chain.arrival1 with
  | some a0, some a1 =>
    let delta := a1 - a0
    let d0 := ((s.chain.roundTrip : Int) - 180000 - delta) / 2
    (s.setNum Key.CHN_DELAY_0 (d0 / 1000).toNat).setNum Key.CHN_DELAY_1 ((d0 + delta) / 1000).toNat
  | _, _ => s

/-- A port on which a marker arrives has block lock (R314): ring 0 enters on port B, ring 1 on port A (assumption log 69). -/
def State.portLocks (s : State) (ring : Nat) : State :=
  if ring = 0 then { s with chain := { s.chain with lockB := true } } else { s with chain := { s.chain with lockA := true } }

/-- The marker that the unit follows: its tick number and its offset (R4, R326). -/
def State.follow (s : State) (m : Marker) : State :=
  let s := s.takeHeader m
  let arr := if m.wrapped then none else some m.arrivalPs
  let s := if m.ring = 0 then { s with chain := { s.chain with arrival0 := arr.or s.chain.arrival0 } }
    else { s with chain := { s.chain with arrival1 := arr.or s.chain.arrival1 } }
  let s := s.measure
  let d := 1000 * s.num (if m.ring = 0 then Key.CHN_DELAY_0 else Key.CHN_DELAY_1)
  let uses := !m.wrapped && (m.ring == 0 || s.chain.arrival0.isNone)
  let s := { s with chain := { s.chain with
    missed := 0, markerSeen := true, holdover := false, acting := false, tickSource := true, master := m.source,
    offset := if uses then nearOffset (m.arrivalPs - (d : Int)) (periodPs s.period) else s.chain.offset } }
  if m.headerOk then { s with tick := (m.tickNo + d / periodPs s.period) % 2 ^ 64 } else s

/-- CHAIN_TICK_MARKER (R326, R330, R331): a strapped master follows no marker once it originates; an acting master follows a lower source or a strapped one. -/
def execChainTickMarker (marker : Marker) (s : State) : Res :=
  let s := s.portLocks marker.ring
  if (s.chain.origin ∨ s.chain.acting) ∧ marker.source = s.chain.address then .next (s.ownMarker marker)
  else if s.chain.origin then .next s
  else if s.chain.acting ∧ ¬ marker.strapped ∧ s.chain.address ≤ marker.source then .next s
  else .next (s.follow marker)

/-- CHAIN_UP (R323, R324): the master's marker has returned to it; it is address 1, and its roll call goes out. -/
def execChainUp (s : State) : Res :=
  if s.chain.origin ∧ ¬ s.chain.up ∧ s.chain.markerSeen then
    .next { s with chain := { s.chain with up := true, address := 1, rollCallDue := true } }
  else .next s

/-- PORT_BROKEN (R328, R329): the unit loops back at the port. -/
def execPortBroken (portB : Bool) (s : State) : Res :=
  let s := if portB then { s with chain := { s.chain with loopB := true, lockB := false } } else { s with chain := { s.chain with loopA := true, lockA := false } }
  .next (s.raise 4099)

/-- LOOPBACK_RESTORE (R329). -/
def execLoopbackRestore (portB : Bool) (s : State) : Res :=
  if portB then
    (if s.chain.loopB then .next (({ s with chain := { s.chain with loopB := false, lockB := true } } : State).raise 4099) else .next s)
  else (if s.chain.loopA then .next (({ s with chain := { s.chain with loopA := false, lockA := true } } : State).raise 4099) else .next s)

/-- HOLDOVER_ENTRY (R330): a unit that follows markers has missed those of two consecutive ticks; with an address it acts as master. -/
def execHoldoverEntry (s : State) : Res :=
  if s.chain.tickSource ∧ 2 ≤ s.chain.missed then
    .next { s with chain := { s.chain with holdover := true, tickSource := false, acting := decide (s.chain.address ≠ 0) } }
  else .next s

/-! ## Roll calls (R323 to R325) -/

/-- Body of a roll call. -/
def rollBody (count : Nat) (entries : List Nat) : Bytes := leBytes 2 count ++ leBytes 2 entries.length ++ addrBytes entries

/-- Pass a message on, as this unit has changed it. -/
def State.forward (s : State) (type : Nat) (h : MsgHdr) (body : Bytes) : State := s.emit (.forwarded type h body)

/-- The unit's address seen in another unit's entry: it gives it up (R325). -/
def State.dropAddress (s : State) (entries : List Nat) : State :=
  if s.chain.address ≠ 0 ∧ entries.contains s.chain.address then { s with chain := { s.chain with address := 0, helloDue := true } } else s

def State.setRingOrder (s : State) (l : List Nat) : State := s.setAddrList Key.CHN_RING_ORDER l
def State.ringOrder (s : State) : List Nat := s.addrList Key.CHN_RING_ORDER

/-- Greatest address. -/
def lastAddress : Nat := 4094

/-- A roll call at a unit that it passes (R324). -/
def State.rollCall (s : State) (h : MsgHdr) (count : Nat) (entries : List Nat) : State :=
  let s := s.dropAddress entries
  let a := s.chain.address
  if a ≠ 0 then s.forward 1 h (rollBody (max count (a + 1)) (entries ++ [a]))
  else if count ≤ lastAddress then
    ({ s with chain := { s.chain with address := count } }).forward 1 h (rollBody (count + 1) (entries ++ [count]))
  else (s.raise 4099).forward 1 h (rollBody count (entries ++ [0]))

/-- ROLL_CALL (R324): back at the master it is the ring order. -/
def execRollCall (hdr : MsgHdr) (count : Nat) (entries : List Nat) (s : State) : Res :=
  if hdr.check = .good ∧ s.chain.origin ∧ hdr.src = s.chain.address ∧ hdr.frag = hdr.last then .next (s.setRingOrder entries)
  else .next (s.receive 1 hdr fun st => st.rollCall hdr count entries)

/-- Body of a fill roll call. -/
def fillBody (order entries : List Nat) : Bytes := rollBody order.length order ++ leBytes 2 entries.length ++ addrBytes entries

/-- A fill roll call at a unit that it passes (R325). -/
def State.fillCall (s : State) (h : MsgHdr) (order entries : List Nat) : State :=
  let s := s.dropAddress entries
  let a := order.getD entries.length 0
  let s := if s.chain.address = 0 ∧ a ≠ 0 ∧ ¬ entries.contains a then { s with chain := { s.chain with address := a } } else s
  s.forward 2 h (fillBody order (entries ++ [s.chain.address]))

/-- FILL_CALL (R325): back at the master, a ring order that no longer holds asks for a full roll call. -/
def execFillCall (hdr : MsgHdr) (order entries : List Nat) (s : State) : Res :=
  if hdr.check = .good ∧ s.chain.origin ∧ hdr.src = s.chain.address ∧ hdr.frag = hdr.last then
    .next { s with chain := { s.chain with rollCallDue := s.chain.rollCallDue || decide (entries ≠ order) } }
  else .next (s.receive 2 hdr fun st => st.fillCall hdr order entries)

/-- HELLO (R325): the master sends a fill roll call. -/
def execHello (hdr : MsgHdr) (s : State) : Res :=
  .next (s.atStep4 (.hello hdr) fun s => s.receive 3 hdr fun st => if st.chain.origin then { st with chain := { st.chain with fillCallDue := true } } else st)

/-! ## Replication at a peer (R335 to R340) -/

/-- Bytes of the replica log (R335). -/
def replicaLogSize : Nat := 524288

/-- Bytes that the log holds. -/
def State.logUsed (s : State) : Nat := (s.chain.log ++ s.chain.joinLogged).foldl (fun a r => a + (recordBytes r.record).length) 0

/-- A live object of this unit, other than the one a change names, lies on the change's slot run (R337). -/
def State.runTaken (s : State) (c : Change) : Bool :=
  match changeRun c with
  | none => false
  | some run =>
    let page := run.1 / 8
    let content := s.pageSlots page
    (List.range 8).any fun i =>
      let b := content.getD i zeroSlot
      let live := (s.heart (headHeart b)).state == .live && (s.heart (headHeart b)).generation == headGen b
      bitOf (s.pageEntry page).slotMap i && at8 0 b == 1 && live && decide (i < run.1 % 8 + run.2) && decide (run.1 % 8 < i + at8 4 b) &&
        decide (8 * page + i ≠ run.1)

/-- The assignment of a heart that was SPENT, while this unit's own entry is not EMPTY with generation 0 (R225). -/
def State.heartNotReady (s : State) (c : Change) : Bool :=
  match c with
  | .heart n e =>
    let new := heartOf (fit 64 e)
    let own := s.heart n
    new.state == .live && new.generation == 1 && !(own.state == .empty && own.generation == 0)
  | _ => false

/-- This unit's own change gives way to one of a lower address (R225, R337). -/
def State.abandonOwn (s : State) (o : OwnChange) : State :=
  let s := s.undoOwn o
  match o.job with
  | some id => s.finish id stReplTimeout (o.acks.length % 4) (s.tick + 2)
  | none => s.refuseOwn o 12

/-- Log a record and acknowledge it in the next chain frame (R335). -/
def State.logRecord (s : State) (src : Nat) (r : ReplRecord) : State :=
  let early := s.chain.early.contains (src, r.seq)
  let e : LogRecord := ⟨src, r, s.tick, early, false, none, []⟩
  let s := { s with chain := { s.chain with log := s.chain.log ++ [e], early := s.chain.early.filter fun x => decide (x ≠ (src, r.seq)) } }
  s.sendNotice 0x31 src src r.seq

/-- Jobs of this unit whose change of the vault is being committed, so that its record has not been sent, and which a change conflicts with: in flight as the others are (R337; DEDUCED, assumption log 88). -/
def State.forming (s : State) (c : Change) : List Job :=
  if s.kInForce = 0 then [] else s.jobs.filter fun j => decide (j.phase = .committing) && (j.outcome.bind fun o => o.change).any fun x => conflicts x c

/-- Such a job abandons its change. -/
def State.abandonForming (s : State) (j : Job) : State := (s.dropVersions j.id).finish j.id stReplTimeout 0 (s.tick + 2)

/-- A replication record at a peer. -/
def State.replicate (s : State) (src : Nat) (r : ReplRecord) : State :=
  if replicaLogSize < s.logUsed + (recordBytes r).length then s
  else if s.chain.join = .transferring ∧ ¬ s.chain.joinIsMember then
    { s with chain := { s.chain with joinLogged := s.chain.joinLogged ++ [⟨src, r, s.tick, false, false, none, []⟩] } }
  else if s.runTaken r.change then s.event 0x1102
  else if s.heartNotReady r.change then s
  else
    let mine := s.chain.own.filter fun o => conflicts o.record.change r.change
    let forming := s.forming r.change
    if mine = [] ∧ forming = [] then s.logRecord src r
    else if mine.any fun o => o.applyAt.isSome then (if mine.any fun o => o.record.k == 0 then s.event 0x1102 else s)
    else if src < s.chain.address then (forming.foldl State.abandonForming (mine.foldl State.abandonOwn s)).logRecord src r
    else s

/-- REPLICATE (R335). -/
def execReplicate (hdr : MsgHdr) (record : ReplRecord) (s : State) : Res := .next (s.atStep4 (.replicate hdr record) fun s => s.receive 0x30 hdr fun st => st.replicate hdr.src record)

/-- Rewrite a change of this unit in flight. -/
def State.updOwn (s : State) (seq : Nat) (f : OwnChange → OwnChange) : State :=
  let one (x : OwnChange) : OwnChange := if x.record.seq = seq then f x else x
  { s with chain := { s.chain with own := s.chain.own.map one } }

def State.findOwn (s : State) (writer seq : Nat) : Option OwnChange :=
  if writer = s.chain.address then s.chain.own.find? fun o => decide (o.record.seq = seq) else none

/-- An acknowledgement of this unit's change (R99, R336): counted once per member, until the timeout. -/
def State.takeAck (s : State) (src : Nat) (o : OwnChange) : State :=
  if o.applyAt.isSome ∨ o.acks.contains src ∨ src = s.chain.address ∨ ¬ s.members.contains src ∨ s.joiner = some src ∨ o.e + 65 ≤ s.tick then s
  else
    let o := { o with acks := o.acks ++ [src] }
    let s := s.updOwn o.record.seq fun _ => o
    if o.record.k ≤ o.acks.length ∧ s.majority then s.commitOwn o else s

/-- REPL_ACK (R336). -/
def execReplAck (hdr : MsgHdr) (writer seq : Nat) (s : State) : Res :=
  .next (s.atStep4 (.replAck hdr writer seq) fun s => s.receive 0x31 hdr fun st => match st.findOwn writer seq with
    | some o => st.takeAck hdr.src o
    | none => st)

def State.logHas (s : State) (writer seq : Nat) : Bool := s.chain.log.any fun r => r.writer == writer && r.record.seq == seq

def State.updLog (s : State) (writer seq : Nat) (f : LogRecord → LogRecord) : State :=
  let one (r : LogRecord) : LogRecord := if r.writer = writer ∧ r.record.seq = seq then f r else r
  { s with chain := { s.chain with log := s.chain.log.map one, joinLogged := s.chain.joinLogged.map one } }

def State.dropLog (s : State) (writer seq : Nat) : State :=
  let keep (r : LogRecord) : Bool := !(r.writer == writer && r.record.seq == seq)
  { s with chain := { s.chain with log := s.chain.log.filter keep, joinLogged := s.chain.joinLogged.filter keep } }

/-- The change of this unit that has lost its job and its write commits or goes back, as its peers decided (R339). -/
def State.settleOrphan (s : State) (o : OwnChange) (commit : Bool) : State :=
  if commit then s.commitOwn o else s.undoOwn o

/-- The change is the announcement of an image tag (R127). -/
def OwnChange.isTag (o : OwnChange) : Bool := match o.record.change with | .imageTag _ _ => true | _ => false

/-- A commit notice (R336): it marks the logged record, or waits for it. -/
def State.takeCommit (s : State) (writer seq : Nat) : State :=
  match s.findOwn writer seq with
  | some o => if o.restarted then s.settleOrphan o true else s
  | none =>
    if s.logHas writer seq || s.chain.joinLogged.any (fun r => r.writer == writer && r.record.seq == seq) then
      s.updLog writer seq fun r => { r with committed := true }
    else { s with chain := { s.chain with early := s.chain.early ++ [(writer, seq)] } }

/-- REPL_COMMIT (R336). -/
def execReplCommit (hdr : MsgHdr) (writer seq : Nat) (s : State) : Res := .next (s.atStep4 (.replCommit hdr writer seq) fun s => s.receive 0x32 hdr fun st => st.takeCommit writer seq)

/-- REPL_ROLLBACK (R336). -/
def execReplRollback (hdr : MsgHdr) (writer seq : Nat) (s : State) : Res :=
  .next (s.atStep4 (.replRollback hdr writer seq) fun s => s.receive 0x33 hdr fun st => match st.findOwn writer seq with
    | some o => if o.restarted then st.settleOrphan o false else st
    | none => st.dropLog writer seq)

/-- A tick at which a query may go out: none yet, or 64 ticks since the last. -/
def queryFree (q : Option Nat) (now : Nat) : Bool :=
  match q with
  | some t => decide (t + 64 ≤ now)
  | none => true

/-- REPL_QUERY_DUE (R339): a record held 128 ticks without a notice; or a change of this unit left pending by a restart. -/
def execReplQueryDue (writer seq : Nat) (s : State) : Res :=
  match s.findOwn writer seq with
  | some o =>
    if o.restarted && queryFree o.queried s.tick then
      .next ((s.updOwn seq fun x => { x with queried := some s.tick, holders := [] }).sendNotice 0x34 bcast writer seq)
    else .next s
  | none =>
    match s.chain.log.find? fun r => r.writer == writer && r.record.seq == seq with
    | some r =>
      if !r.committed && decide (r.since + 128 ≤ s.tick) && r.queried.isNone then
        let s := s.updLog writer seq fun x => { x with queried := some s.tick }
        .next ((s.sendNotice 0x34 bcast writer seq).sendNotice 0x35 bcast writer seq)
      else .next s
    | none => .next s

/-- A query at a holder: it says that it holds the record, and counts from now; one that has the commit notice passes it on. -/
def State.answerQuery (s : State) (writer seq : Nat) : State :=
  match s.chain.log.find? fun r => r.writer == writer && r.record.seq == seq with
  | some r =>
    if r.committed then s.sendNotice 0x32 bcast writer seq
    else (s.updLog writer seq fun x => { x with queried := some (x.queried.getD s.tick) }).sendNotice 0x35 bcast writer seq
  | none => s

/-- REPL_QUERY (R339). -/
def execReplQuery (hdr : MsgHdr) (writer seq : Nat) (s : State) : Res := .next (s.atStep4 (.replQuery hdr writer seq) fun s => s.receive 0x34 hdr fun st => st.answerQuery writer seq)

/-- A holder heard of, once each; the writer is never counted. -/
def addHolder (src writer : Nat) (l : List Nat) : List Nat := if src = writer ∨ l.contains src then l else l ++ [src]

/-- A holder's answer to a query is counted (R339). -/
def State.countHolder (s : State) (src writer seq : Nat) : State :=
  match s.findOwn writer seq with
  | some _ => s.updOwn seq fun x => { x with holders := addHolder src writer x.holders }
  | none => s.updLog writer seq fun r => { r with holders := addHolder src writer r.holders }

/-- REPL_STATE (R339). -/
def execReplState (hdr : MsgHdr) (writer seq : Nat) (s : State) : Res := .next (s.atStep4 (.replState hdr writer seq) fun s => s.receive 0x35 hdr fun st => st.countHolder hdr.src writer seq)

/-- REPL_DECISION (R339): at the tick after the frame in which 64 ticks have passed since the query. -/
def execReplDecision (writer seq : Nat) (s : State) : Res :=
  match s.findOwn writer seq with
  | some o =>
    match o.queried with
    | some q =>
      if !o.restarted || decide (s.tick < q + 65) || o.holders.isEmpty then .next s
      else .next (s.settleOrphan o (decide (o.record.k ≤ o.holders.length)))
    | none => .next s
  | none =>
    match s.chain.log.find? fun r => r.writer == writer && r.record.seq == seq with
    | some r =>
      match r.queried with
      | some q =>
        if r.committed || decide (s.tick < q + 65) then .next s
        else if r.record.k ≤ 1 + r.holders.length then .next (s.updLog writer seq fun x => { x with committed := true })
        else .next (s.dropLog writer seq)
      | none => .next s
    | none => .next s

/-- MEMBER_UNREACHABLE (R338): a member of the domain unheard for 64 ticks. -/
def execMemberUnreachable (member : Nat) (s : State) : Res :=
  if s.members.contains member && !s.reaches member && !s.chain.unreachable.contains member then
    .next { s with chain := { s.chain with unreachable := s.chain.unreachable ++ [member] } }
  else .next s

/-- REPLICATION_TIMEOUT (R99, R224): fewer than K acknowledgements by tick E + 65. -/
def execReplicationTimeout (seq : Nat) (s : State) : Res :=
  match s.chain.own.find? fun o => decide (o.record.seq = seq) with
  | some o =>
    if o.applyAt.isSome ∨ s.tick < o.e + 65 ∨ o.restarted ∨ o.isTag then .next s
    else .next (if o.write.isSome then (s.ownTimesOut o).refuseOwn o 9 else s.ownTimesOut o)
  | none => .next s

/-- At a tick: logged records with their commit notice apply, in the order of the log; a vault change waits while the vault refuses writes, and its entry is freed once its page has no version in line (R335, R336). -/
def State.applyLogged (s : State) : State :=
  let s := s.chain.log.foldl (fun (st : State) r =>
    if !r.committed || r.applied then st
    else if (changeRun r.record.change).isSome && !st.vaultUp then st
    else (st.applyRemote r.record.change).updLog r.writer r.record.seq fun x => { x with applied := true }) s
  let busy (r : LogRecord) : Bool := match changeRun r.record.change with
    | some run => (s.vault.waiting ++ s.vault.group).any fun v => v.page == run.1 / 8
    | none => false
  { s with chain := { s.chain with log := s.chain.log.filter fun r => !r.applied || busy r } }

/-! ## Image tags (R129, R131) -/

/-- The source's answer to a consume request: accepted for an outstanding tag, or for the target that consumed it before. -/
def State.consume (s : State) (src : Nat) (tag : Bytes) (target : Nat) : State :=
  let answer (st : State) (ok : Bool) : State := st.sendMsg 0x38 src (Config.bodyLayout 0x38 [tag, leBytes 2 target, [byteOf (1 + b2n (!ok))]]) none
  answer (s.consumeTag tag src target) (s.consumable tag src target)

/-- MIG_CONSUME (R131). -/
def execMigConsume (hdr : MsgHdr) (tag : Bytes) (targetSlice : Nat) (s : State) : Res :=
  .next (s.atStep4 (.migConsume hdr tag targetSlice) fun s => s.receive 0x38 hdr fun st => st.consume hdr.src tag targetSlice)

/-- The reply to a restore's request. -/
def State.migAnswered (s : State) (tag : Bytes) (accepted : Bool) : State :=
  match s.slices.find? fun e => e.2.mig == .restoring && e.2.imageTag == some tag && e.2.migDue.isNone with
  | some e => s.restoreAnswered e.1 accepted
  | none => s

/-- MIG_REPLY (R129): the restore completes at the second tick after this frame, or fails with error 4. -/
def execMigReply (hdr : MsgHdr) (tag : Bytes) (accepted : Bool) (s : State) : Res :=
  .next (s.atStep4 (.migReply hdr tag accepted) fun s => s.receive 0x38 hdr fun st => st.migAnswered tag accepted)

end Sys2Proof.Machine
end

