-- ==== Sys2Proof/Machine/Fifo.lean ====
section
/-! DEFINITION. The clock-crossing FIFOs (R74, R75): 256 entries of 72 bits under a SECDED code, 9-bit pointers that cross Gray-coded through two flops, and the full and empty flags of their two sides. -/

namespace Sys2Proof.Machine

/-! ## The code over an entry -/

/-- Positions 1 to 71 of an extended Hamming code that carry data: those that are no power of two. Which SECDED code the entry has is the model's choice (assumption log 85). -/
def hammingData : List Nat := ((List.range 72).filter fun p => decide (p ≠ 0) && decide (2 ^ Nat.log2 p ≠ p))

/-- The syndrome of the data bits: the exclusive or of the positions that hold a 1. -/
def syndromeOf (data : BitVec 64) : Nat := (hammingData.zipIdx.filter fun x => data.getLsbD x.2).foldl (fun a x => a ^^^ x.1) 0

/-- Parity of a number's bits. -/
def parity (n w : Nat) : Nat := ((List.range w).map fun i => b2n (bitOf n i)).foldl (fun a b => (a + b) % 2) 0

/-- The 8 check bits of 64 data bits: 7 of the syndrome, and the parity over all 71. -/
def checkBits (data : BitVec 64) : BitVec 8 :=
  let s := syndromeOf data
  BitVec.ofNat 8 (s + 128 * ((parity data.toNat 64 + parity s 7) % 2))

/-- An entry of the FIFO: check bits above its data. -/
def fifoEntry (data : BitVec 64) : BitVec 72 := checkBits data ++ data

/-- What the read side finds in an entry (R75): the data as they stand, one wrong bit, or an error that it cannot correct. -/
inductive EntryCheck where
  | clean | corrected | uncorrectable
  deriving DecidableEq, Repr

def checkEntry (e : BitVec 72) : EntryCheck :=
  let data : BitVec 64 := e.truncate 64
  let held : Nat := e.toNat / 2 ^ 64
  let s := syndromeOf data ^^^ (held % 128)
  let p := (parity data.toNat 64 + parity held 8) % 2
  if s = 0 ∧ p = 0 then .clean else if p = 1 ∧ s < 72 then .corrected else .uncorrectable

/-! ## Pointers and flags -/

/-- A pointer Gray-coded for its crossing, and back. -/
def gray (p : BitVec 9) : BitVec 9 := p ^^^ (p >>> 1)
def ungray (g : BitVec 9) : BitVec 9 := g ^^^ (g >>> 1) ^^^ (g >>> 2) ^^^ (g >>> 3) ^^^ (g >>> 4) ^^^ (g >>> 5) ^^^ (g >>> 6) ^^^ (g >>> 7) ^^^ (g >>> 8)

/-- Entries between two pointers, under the convention of R60. -/
def fifoDist (r w : BitVec 9) : Nat := (w - r).toNat

/-- Full, as the write side computes it from its own pointer and the synchronised read pointer. -/
def Fifo.full (f : Fifo) : Bool := decide (256 ≤ fifoDist (ungray f.rdGray1) f.wr)

/-- Empty, as the read side computes it from its own pointer and the synchronised write pointer. -/
def Fifo.empty (f : Fifo) : Bool := decide (ungray f.wrGray1 = f.rd)

/-- One edge of each domain's clock: the pointers move on through their two flops. -/
def Fifo.clock (f : Fifo) : Fifo := { f with wrGray1 := f.wrGray0, wrGray0 := gray f.wr, rdGray1 := f.rdGray0, rdGray0 := gray f.rd }

/-- An entry is written, where the write side does not see the FIFO full. -/
def Fifo.push (f : Fifo) (e : BitVec 72) : Fifo :=
  if f.full then f else { f with wr := f.wr + 1, cells := SMap.set 0 (f.wr.toNat % 256) e f.cells }

/-- An entry leaves, where the read side does not see the FIFO empty; its place is free. -/
def Fifo.pop (f : Fifo) : Option (BitVec 72) × Fifo :=
  if f.empty then (none, f)
  else (some (SMap.get 0 f.cells (f.rd.toNat % 256)), { f with rd := f.rd + 1, cells := SMap.set 0 (f.rd.toNat % 256) 0 f.cells })

/-- An entry crosses an idle FIFO: written, seen two edges later, and read. -/
def Fifo.cross (f : Fifo) (e : BitVec 72) : Option (BitVec 72) × Fifo :=
  let r := (f.push e).clock.clock.pop
  (r.1, r.2.clock.clock)

/-- A FIFO of the unit. -/
def State.fifo (s : State) (n : Nat) : Fifo := SMap.get Fifo.reset s.host.fifos n

/-- An entry that fails its check passes FIFO `n`: its pointers advance as for any other. -/
def State.crossFifo (s : State) (n : Nat) (e : BitVec 72) : State :=
  { s with host := { s.host with fifos := SMap.set Fifo.reset n ((s.fifo n).cross e).2 s.host.fifos } }

end Sys2Proof.Machine
end

