-- ==== Sys2Proof/Machine/HostLink.lean ====
section
/-! DEFINITION. The host link: BAR writes, doorbells, ring enable and disable, the tunnel window, MSI-X unmasking, FIFO errors (chapter 03). -/

namespace Sys2Proof.Machine

/-- SQ_TAIL_WRITE (R64): recorded, and sampled at the next tick; ignored while ENABLED is 0 (R62). -/
def execSqTailWrite (ring value : Nat) (s : State) : Res :=
  if (s.ring ring).enabled then .next (s.updRing ring fun r => { r with tailWritten := some value }) else .next s

/-- CQ_HEAD_WRITE (R64): recorded, and sampled at the next tick; ignored while ENABLED is 0 (R62). -/
def execCqHeadWrite (ring value : Nat) (s : State) : Res :=
  if (s.ring ring).enabled then .next (s.updRing ring fun r => { r with headWritten := some value }) else .next s

/-- The conditions of Table 3.9 codes 4 to 7, the lowest code first (assumption log 7); 0 when none holds. -/
def State.enableRefusal (s : State) (ring : Nat) : Nat :=
  let r := s.ring ring
  let sl := s.ringSlice ring
  let c := s.slice sl
  if r.k < 4 ∨ 16 < r.k then 4
  else if 1024 ≤ sl ∨ c.mig ≠ .running ∨ c.resetting.isSome then 5
  else if r.sqBase % 4096 ≠ 0 ∨ r.cqBase % 4096 ≠ 0 ∨ r.shadowBase % 64 ≠ 0 then 6
  else if ¬ s.host.pasidEnable ∧ sl ≠ 0 then 7
  else 0

/-- The credit limit of a ring pair just enabled: CH + min(2^K − 1, RNG_CREDIT_MAX), clipped under the slice's ceiling (R66, R114). -/
def State.firstLimit (s : State) (ring : Nat) : Nat :=
  let sl := s.ringSlice ring
  min (min (2 ^ (s.ring ring).k - 1) (s.num (Key.RNG_CREDIT_MAX ring))) (s.creditCeiling sl - s.creditOut sl)

/-- A write of ENABLE = 1 (R62, R63): dropped while BUSY; the next tick observes it (R24). -/
def State.ringEnable (s : State) (ring : Nat) : State :=
  let r := s.ring ring
  if s.seen.busy ring || r.enabled || r.startDue.isSome then s else s.setRing ring { r with enableBit := true, enableWritten := some true }

/-- RING_ENABLE (R62). -/
def execRingEnable (ring : Nat) (s : State) : Res := .next (s.ringEnable ring)

/-- A write of ENABLE = 0 (R63): the next tick observes it (R24). -/
def State.ringDisable (s : State) (ring : Nat) : State :=
  s.updRing ring fun r => { r with enableBit := false, enableWritten := some false }

/-- RING_DISABLE (R63). -/
def execRingDisable (ring : Nat) (s : State) : Res := .next (s.ringDisable ring)

/-- The tick T that observes a write of ENABLE (R62, R63). Of 1: refused with an ERROR code from T+1, or accepted, to show at T+1 with the first limit; an ERROR left over clears then (DESIGN CHOICE, assumption log 79). Of 0: nothing is fetched at T or later, ERROR clears at T+1. -/
def State.enableSample (s : State) (n : Nat) : State :=
  let r := s.ring n
  match r.enableWritten with
  | none => s
  | some false =>
    s.setRing n { r with enableWritten := none, enabled := false, startDue := none, errorDue := some (s.tick + 1, 0),
                         tailWritten := none, headWritten := none, abortWritten := none }
  | some true =>
    if r.enabled then s.setRing n { r with enableWritten := none }
    else
      let code := s.enableRefusal n
      if code ≠ 0 then s.setRing n { r with enableWritten := none, errorDue := some (s.tick + 1, code) }
      else s.setRing n { r with enableWritten := none, startDue := some (s.tick + 1, s.firstLimit n), errorDue := some (s.tick + 1, 0) }

/-- The bases and K of a ring pair whose slice has changed (R133). -/
def RingPair.moves (r : RingPair) : RingPair := if r.moveDue then { r with sqBase := 0, cqBase := 0, shadowBase := 0, k := 0, moveDue := false } else r

def State.moveFrame (s : State) : State := { s with rings := SMap.mapVals RingPair.reset RingPair.moves s.rings }

def State.enableFrame (s : State) : State := (s.rings.map fun e => e.1).foldl State.enableSample s

/-- An accepted ENABLE shows: the indices are 0, the limit is the first (R62). -/
def State.enableShows (s : State) (n : Nat) : State :=
  let r := s.ring n
  match r.startDue with
  | none => s
  | some d =>
    if s.tick < d.1 then s
    else s.setRing n { r with enabled := true, startDue := none, tl := 0, sh := 0, cp := 0, ch := 0, limit := d.2, tailWritten := none,
                              headWritten := none, abortWritten := none, abortMarks := [], lastShadow := [] }

def State.enablesShow (s : State) : State := (s.rings.map fun e => e.1).foldl State.enableShows s

/-- Writing 1 to OUT_GO (R57). With TUNNEL 0 the write is dropped. -/
def State.outGo (s : State) : State :=
  if s.tunnelOn then { s with host := { s.host with tunnel := { s.host.tunnel with outGo := true } } } else s

/-- OUT_GO (R57). -/
def execOutGo (s : State) : Res := .next s.outGo

/-- Writing 1 to IN_FULL (R57): the buffer is free; the next held datagram is delivered at the next tick. -/
def State.inFullClear (s : State) : State :=
  if s.tunnelOn then { s with host := { s.host with tunnel := { s.host.tunnel with inFull := false } } } else s

/-- IN_FULL_CLEAR (R57). -/
def execInFullClear (s : State) : Res := .next s.inFullClear

/-- Unmask a vector (R72): with its pending bit set, its message goes out at the next tick and the bit clears then. -/
def State.msixUnmask (s : State) (vector : Nat) : State :=
  let s := s.setMsix vector { s.msixVector vector with masked := false }
  if s.host.msixPending.contains vector && !s.host.unmasked.contains vector then
    { s with host := { s.host with unmasked := s.host.unmasked ++ [vector] } }
  else s

/-- MSIX_UNMASK (R72). -/
def execMsixUnmask (vector : Nat) (s : State) : Res := .next (s.msixUnmask vector)

/-- Byte `o` of a byte string set to `b`. -/
def setByte (bs : Bytes) (o : Nat) (b : Byte) : Bytes := bs.take o ++ [b] ++ bs.drop (o + 1)

/-- Store `n` bytes of `v` at offset `o` of a buffer of `len` bytes. -/
def storeLe (len : Nat) (buf : Bytes) (o n v : Nat) : Bytes :=
  (leBytes n v).zipIdx.foldl (fun acc bi => if o + bi.2 < len then setByte acc (o + bi.2) bi.1 else acc) (fit len buf)

/-- The tunnel window's control word (Table 3.5): OUT_LENGTH while OUT_GO is 0; OUT_DISCARDED and IN_FULL by writing 1; OUT_GO. -/
def State.tunnelControl (s : State) (v : Nat) : State :=
  let t := s.host.tunnel
  let t := if t.outGo then t else { t with outLength := bits v 31 16 }
  let t := if bitOf v 2 then { t with outDiscarded := false } else t
  let s := { s with host := { s.host with tunnel := t } }
  let s := if bitOf v 1 then s.inFullClear else s
  if bitOf v 0 then s.outGo else s

/-- A 4-byte write inside BAR0 (Tables 3.3, 3.5): the tunnel window and the MSI-X table; all else is read-only or undefined and drops it. -/
def State.bar0Write (s : State) (o v : Nat) : State :=
  if 0x2000 ≤ o ∧ o < 0x4000 then
    if ¬ s.tunnelOn then s
    else if o = 0x2000 then s.tunnelControl v
    else if 0x2400 ≤ o ∧ o < 0x2800 then
      (if s.host.tunnel.outGo then s
       else { s with host := { s.host with tunnel := { s.host.tunnel with
                outBuffer := storeLe 1024 s.host.tunnel.outBuffer (o - 0x2400) 4 v } } })
    else s
  else if 0x8000 ≤ o ∧ o < 0x10000 then
    let n := (o - 0x8000) / 16
    let e := s.msixVector n
    match (o - 0x8000) % 16 / 4 with
    | 0 => s.setMsix n { e with addr := e.addr / 2 ^ 32 * 2 ^ 32 + v }
    | 1 => s.setMsix n { e with addr := e.addr % 2 ^ 32 + v * 2 ^ 32 }
    | 2 => s.setMsix n { e with data := v }
    | _ => if bitOf v 0 then s.setMsix n { e with masked := true } else if e.masked then s.msixUnmask n else s
  else s

/-- A 4-byte write inside a slice page (Table 3.6): SLC_RESET and RESET_DONE; dropped while no PASID is mapped (R58). -/
def State.bar2Write (s : State) (o v : Nat) : State :=
  let n := o / 4096
  if ¬ s.seen.mapped n then s
  else match o % 4096 with
    | 0 => if bitOf v 0 then s.slcWrite n else s
    | 4 => if bitOf v 0 then s.updSlice n fun c => { c with resetDone := false } else s
    | _ => s

/-- Low or high half of a 64-bit register replaced. -/
def setHalf (old : Nat) (high : Bool) (v : Nat) : Nat :=
  if high then old % 2 ^ 32 + v * 2 ^ 32 else old / 2 ^ 32 * 2 ^ 32 + v

/-- RING_CONFIG written (Table 3.8, R62, R63): K only while ENABLE and BUSY are 0; IRQ_ENABLE always; then ENABLE. -/
def State.ringConfig (s : State) (n v : Nat) : State :=
  let r := s.ring n
  let free := !r.enableBit && !s.seen.busy n
  let s := s.setRing n { r with irqEnable := bitOf v 8, k := if free then v % 32 else r.k }
  if bitOf v 31 then s.ringEnable n else s.ringDisable n

/-- A 4-byte write inside a ring page (Table 3.7). -/
def State.bar4Write (s : State) (o v : Nat) : State :=
  let n := o / 4096
  let r := s.ring n
  let free := !r.enableBit && !s.seen.busy n
  match o % 4096 with
  | 0x000 => if r.enabled then s.setRing n { r with tailWritten := some v } else s
  | 0x008 => if r.enabled then s.setRing n { r with headWritten := some v } else s
  | 0x010 => if r.enabled then s.setRing n { r with abortWritten := some v } else s
  | 0x040 => s.ringConfig n v
  | 0x048 => if free then s.setRing n { r with sqBase := setHalf r.sqBase false v } else s
  | 0x04C => if free then s.setRing n { r with sqBase := setHalf r.sqBase true v } else s
  | 0x050 => if free then s.setRing n { r with cqBase := setHalf r.cqBase false v } else s
  | 0x054 => if free then s.setRing n { r with cqBase := setHalf r.cqBase true v } else s
  | 0x058 => if free then s.setRing n { r with shadowBase := setHalf r.shadowBase false v } else s
  | 0x05C => if free then s.setRing n { r with shadowBase := setHalf r.shadowBase true v } else s
  | _ => s

/-- A 4-byte write to a BAR. -/
def State.barWrite32 (s : State) (bar o v : Nat) : State :=
  if bar = 0 then s.bar0Write o v else if bar = 2 then s.bar2Write o v else s.bar4Write o v

/-- Sizes of the BARs (Table 3.2); 0 for one that does not exist. -/
def barSize (bar : Nat) : Nat := if bar = 0 then 0x10000 else if bar = 2 then 0x400000 else if bar = 4 then 0x1000000 else 0

/-- An access completed with Unsupported Request, reported through AER (R54). -/
def State.badAccess (s : State) (bar offset : Nat) : State :=
  ({ s with host := { s.host with aer := s.host.aer ||| 2 ^ 20 } } : State).emit (.unsupported bar offset)

/-- BAR_REGISTER_WRITE (R54): 4 or 8 bytes, naturally aligned, else Unsupported Request; an 8-byte write is its low half, then its high half. -/
def execBarRegisterWrite (bar offset size value : Nat) (s : State) : Res :=
  if (size = 4 ∨ size = 8) ∧ offset % size = 0 ∧ offset < barSize bar then
    let s := s.barWrite32 bar offset (value % 2 ^ 32)
    .next (if size = 8 then s.barWrite32 bar (offset + 4) (value / 2 ^ 32 % 2 ^ 32) else s)
  else .next (s.badAccess bar offset)

/-- PASID_ENABLE (R52): ring pairs of slices other than 0 can be enabled while it is set. -/
def execPasidEnable (on : Bool) (s : State) : Res := .next { s with host := { s.host with pasidEnable := on } }

/-- FIFO_UNCORRECTABLE (R75, Table 3.15): the entry, whose check fails, leaves its FIFO, and the unit acts on what it carried. -/
def execFifoUncorrectable (fifo : Nat) (content : FifoContent) (s : State) : Res :=
  let s := (((s.crossFifo fifo (fifoEntry 0 ^^^ 3)).count Key.HST_FIFO_UE).setNum Key.HST_FIFO_LAST_UE fifo).event 0x1301
  let s := s.raise 4103
  match content with
  | .job id => .next (s.force id stFault (0xF1 + 256 * fifo))
  | .chainMessage => .next s
  | .keeperTraffic => .next (s.resetDue 2 14)
  | .hostWrite => .next s

end Sys2Proof.Machine
end

