-- ==== Sys2Proof/Machine/Join.lean ====
section
/-! DEFINITION. Domain setup (chapter 13, R342 to R345): founding, the join of Table 13.9 on both sides, the transfer and the recovery of hearts and objects. -/

namespace Sys2Proof.Machine

/-! ## Offers and answers (Table 13.9) -/

/-- The fields of an offer before its signatures. -/
def offerFields (o : Offer) : Bytes := o.nonce ++ o.ecKey ++ o.kemKey ++ o.lotEc ++ o.lotDsa ++ o.recovery
def offerBody (o : Offer) : Bytes := offerFields o ++ o.sigEc ++ o.sigDsa
def answerFields (a : Answer) : Bytes := a.nonce ++ a.ecKey ++ a.kemCt ++ a.lotEc ++ a.lotDsa
def answerBody (a : Answer) : Bytes := answerFields a ++ a.sigEc ++ a.sigDsa

/-- What the lot key signs in an offer and in an answer. -/
def offerDigest (o : Offer) : Bytes := sha3_256 (ascii "ILYAR-JOIN-1" ++ offerFields o)
def answerDigest (o : Offer) (a : Answer) : Bytes := sha3_256 (offerBody o ++ answerFields a)

/-- The lot's two signatures over a digest, under context ILYAR-JOIN. -/
def joinSign (digest ecDraw dsaDraw free : Bytes) : Bytes × Bytes :=
  (p384.sign [] Config.lotKeyEc digest (p384.secrets ecDraw),
   match dsaSign 0x32 4096 Config.lotKeyDsa (ascii "ILYAR-JOIN") digest dsaDraw with
   | some r => r
   | none => free)

/-- A peer's lot signatures verify over a digest. -/
def joinVerify (ec dsa digest sigEc sigDsa : Bytes) : Bool :=
  (match p384.decode ec with
    | some q => p384.verify [] q digest sigEc
    | none => false) &&
    dsaVerify (maskOfBytes []) 0x32 dsa (ascii "ILYAR-JOIN") digest sigDsa

/-- Lot ids of CHN_LOT_ALLOW. -/
def lotsOf : Nat → Bytes → List Bytes
  | 0, _ => []
  | n + 1, b => if b.length < 8 then [] else b.take 8 :: lotsOf n (b.drop 8)

/-- The unit accepts a lot (R343). -/
def State.lotAllowed (s : State) (ec dsa : Bytes) : Bool := (lotsOf 16 (s.oct Key.CHN_LOT_ALLOW)).contains (lotIdOf ec dsa)

/-- The end of a join: its keys are wiped. -/
def State.joinWipe (s : State) (j : JoinState) : State :=
  { s with chain := { s.chain with
    join := j, joinSecret := [], joinKey := [], joinOffer := none, joinConfirmed := false, joinGrant := none } }

/-- A failed check ends the join (R343). -/
def State.joinFails (s : State) : State := (s.joinWipe .failed).eventOf 343

/-- Step 4 on either side: the join key and the transcript. -/
def State.joinAgree (s : State) (ec kem transcript : Bytes) : State :=
  let key := kmac256 (ec ++ kem) transcript 32 (ascii "ILYAR-JOIN")
  let s := s.setOct Key.CHN_SETUP_TRANSCRIPT (fit 8 transcript)
  { s with chain := { s.chain with join := .confirming, joinSince := s.tick, joinKey := key, joinTranscript := transcript, joinConfirmed := false, joinSecret := [] } }

/-! ## Founding (R342) -/

/-- CHN_DOMAIN_FOUND as it takes effect. -/
def State.foundDomain (s : State) : State :=
  let k := s.draw 32
  let i := k.2.draw 8
  let s := ({ i.2 with chain := { i.2.chain with domainKey := some k.1 } } : State).setOct Key.CHN_DOMAIN_ID i.1
  s.setMembers [s.chain.address]

/-! ## The joining unit -/

/-- The tick of the last commit of the vault root (R345, Table 10.4). -/
def State.lastCommitTick (s : State) : Nat :=
  match s.vault.journal.reverse.find? fun r => decide (r.root = s.vault.root) with
  | some r => r.tick
  | none => 0

/-- The unit keeps the domain of which it has lost the key (R345). -/
def State.recovering (s : State) : Bool := s.chain.domainKey.isNone && !allZero (s.oct Key.CHN_DOMAIN_ID)

/-- CHN_DOMAIN_JOIN as it takes effect: steps 1 and 2. -/
def State.joinStart (s : State) (peer : Nat) : State :=
  let nonce := s.draw 32
  let ec := nonce.2.draw p384.drawLen
  let kem := ec.2.draw 32
  let r1 := kem.2.draw p384.drawLen
  let r2 := r1.2.draw 32
  let fr := r2.2.takeBytes 3309
  let s := fr.2
  let recovery := if s.recovering then fit 8 (s.oct Key.CHN_DOMAIN_ID) ++ leBytes 8 s.lastCommitTick else List.replicate 16 0
  let o : Offer := ⟨nonce.1, p384.publicOf [] (p384.secretOf ec.1), kemPublic (maskOfBytes []) 0x22 kem.1, lotEc, lotDsa, recovery, [], []⟩
  let sig := joinSign (offerDigest o) r1.1 r2.1 fr.1
  let o := { o with sigEc := sig.1, sigDsa := sig.2 }
  let s := { s with chain := { s.chain with
    join := .attesting, joinSince := s.tick, joinPeer := peer, joinIsMember := false, joinSecret := ec.1 ++ kem.1, joinOffer := some o,
    joinConfirmed := false, joinGrant := none, joinLogged := [], joinSlots := [] } }
  s.sendMsg 0x40 peer (offerBody o) none

/-- The answer at the joining unit (step 3, step 4). -/
def State.takeAnswer (s : State) (a : Answer) : State :=
  match s.chain.joinOffer with
  | none => s
  | some o =>
    let d := p384.secretOf (s.chain.joinSecret.take p384.drawLen)
    let seed := s.chain.joinSecret.drop p384.drawLen
    match p384.decode a.ecKey with
    | none => s.joinFails
    | some q =>
      if !s.lotAllowed a.lotEc a.lotDsa || !joinVerify a.lotEc a.lotDsa (answerDigest o a) a.sigEc a.sigDsa || a.kemCt.length != 1088 then s.joinFails
      else s.joinAgree (p384.cdh [] d q) (kemDecaps (maskOfBytes []) 0x22 seed a.kemCt) (fit 32 (Config.transcriptHash (offerBody o) (answerBody a)))

/-- ATTEST_ANSWER (R343): to a unit that waits for it, from the member it named. -/
def execAttestAnswer (hdr : MsgHdr) (answer : Answer) (s : State) : Res :=
  .next (s.atStep4 (.attestAnswer hdr answer) fun s => s.receive 0x41 hdr fun st =>
    if st.chain.join = .attesting ∧ ¬ st.chain.joinIsMember ∧ hdr.src = st.chain.joinPeer then st.takeAnswer answer else st)

/-- Step 6 at the joining unit, once it has confirmed: the domain is taken, the transfer follows. -/
def State.takeDomain (s : State) (g : DomainGrant) : State :=
  let s := { s with chain := { s.chain with domainKey := some (fit 32 g.key), join := .transferring, joinSince := s.tick, joinGrant := none } }
  (s.setOct Key.CHN_DOMAIN_ID (fit 8 g.id)).setMembers g.members |>.setNum Key.CHN_K g.k

/-- DOMAIN_KEY (R343): sealed under the join key; kept until this unit has confirmed. -/
def execDomainKey (hdr : MsgHdr) (grant : DomainGrant) (s : State) : Res :=
  .next (s.atStep4 (.domainKey hdr grant) fun s => s.receive 0x42 hdr fun st =>
    if st.chain.join = .confirming ∧ ¬ st.chain.joinIsMember ∧ hdr.src = st.chain.joinPeer then
      (if st.chain.joinConfirmed then st.takeDomain grant else { st with chain := { st.chain with joinGrant := some grant } })
    else st)

/-! ## The member -/

/-- What a transfer sends: every heart that is not EMPTY; every object, or for a former member those changed after its tick T, and the slot maps of pages changed since (R344, R345). -/
def State.objectsIn (s : State) : List Nat :=
  (s.allocatedFrom 0).flatMap fun p => (objectsOn (s.pageSlots p) (s.pageEntry p).slotMap 8 0).map fun o => 8 * p + o.1

/-- Last-change tick of the object at a slot. -/
def State.changedAt (s : State) (slot : Nat) : Nat := le 16 8 ((s.pageSlots (slot / 8)).getD (slot % 8) zeroSlot)

/-- The journal still holds every record later than a tick. -/
def State.journalSince (s : State) (t : Nat) : Bool :=
  match s.vault.journal with
  | r :: _ => decide (r.tick ≤ t) || decide (r.root.seq ≤ 1)
  | [] => true

/-- The transfer to a joining unit is laid out. -/
def State.transferStart (s : State) (o : Offer) : State :=
  let former := !allZero (o.recovery.take 8) && o.recovery.take 8 == fit 8 (s.oct Key.CHN_DOMAIN_ID)
  let t := le 8 8 o.recovery
  let part := former && s.journalSince t
  let hearts := (s.keys.hearts.filter fun e => decide (e.2.state ≠ .empty)).map fun e => e.1
  let objs := if part then s.objectsIn.filter fun x => decide (t < s.changedAt x) else s.objectsIn
  let maps := if part then ((s.vault.journal.filter fun r => decide (t < r.tick)).flatMap fun r => r.items.map fun i => i.page).eraseDups else []
  { s with chain := { s.chain with
    transferHearts := hearts, transferObjects := objs, transferMaps := maps, sentHearts := 0, sentObjects := 0, transferFull := former && !part,
    transferTo := s.chain.joinPeer } }

/-- DOMAIN_KEY and the kind-10 record, once this member has confirmed (steps 6 and 7). -/
def State.grantDomain (s : State) : State :=
  match s.chain.joinOffer, s.chain.domainKey with
  | some o, some k =>
    let body := Config.bodyLayout 0x42 [fit 8 (s.oct Key.CHN_DOMAIN_ID), k, addrBytes s.members, [byteOf (s.num Key.CHN_K)]]
    let s := s.sendMsg 0x42 s.chain.joinPeer body none
    let s := (s.transferStart o)
    let s := { s with chain := { s.chain with join := .transferring, joinSince := s.tick } }
    s.startOwn (.members (insertAsc s.chain.joinPeer s.members)) s.kInForce none none s.majority
  | _, _ => s

/-- CHN_DOMAIN_CONFIRM as it takes effect, on either side (step 5). -/
def State.joinConfirm (s : State) : State :=
  let s := { s with chain := { s.chain with joinConfirmed := true } }
  if s.chain.joinIsMember then s.grantDomain
  else match s.chain.joinGrant with
    | some g => s.takeDomain g
    | none => s

/-- The offer at a member: its checks, and the answer (steps 2 to 4). -/
def State.takeOffer (s : State) (src : Nat) (o : Offer) : State :=
  if s.chain.domainKey.isNone then s
  else
    let s := { s with chain := { s.chain with joinPeer := src, joinIsMember := true } }
    match p384.decode o.ecKey with
    | none => s.joinFails
    | some q =>
      if !s.lotAllowed o.lotEc o.lotDsa || !joinVerify o.lotEc o.lotDsa (offerDigest o) o.sigEc o.sigDsa || o.kemKey.length != 1184 || !kemEkOk 0x22 o.kemKey ||
          s.withheld || bitOf s.keeper.debugState 3 then s.joinFails
      else
        let nonce := s.draw 32
        let ec := nonce.2.draw p384.drawLen
        let m := ec.2.draw 32
        let r1 := m.2.draw p384.drawLen
        let r2 := r1.2.draw 32
        let fr := r2.2.takeBytes 3309
        let s := fr.2
        let d := p384.secretOf ec.1
        let kem := kemEncaps (maskOfBytes []) 0x22 o.kemKey m.1
        let a : Answer := ⟨nonce.1, p384.publicOf [] d, kem.1, lotEc, lotDsa, [], []⟩
        let sig := joinSign (answerDigest o a) r1.1 r2.1 fr.1
        let a := { a with sigEc := sig.1, sigDsa := sig.2 }
        let s := { s with chain := { s.chain with joinOffer := some o } }
        (s.joinAgree (p384.cdh [] d q) kem.2 (fit 32 (Config.transcriptHash (offerBody o) (answerBody a)))).sendMsg 0x41 src (answerBody a) none

/-- ATTEST_OFFER (R343): one join at a time. -/
def execAttestOffer (hdr : MsgHdr) (offer : Offer) (s : State) : Res :=
  .next (s.atStep4 (.attestOffer hdr offer) fun s => s.receive 0x40 hdr fun st =>
    if st.chain.join = .attesting ∨ st.chain.join = .confirming ∨ st.chain.join = .transferring then st else st.takeOffer hdr.src offer)

/-- JOIN_TIMEOUT (R343): a step not followed within 4,096 ticks. -/
def execJoinTimeout (s : State) : Res :=
  if (s.chain.join = .attesting ∨ s.chain.join = .confirming) ∧ s.chain.joinSince + 4096 ≤ s.tick then .next s.joinFails else .next s

/-- The next object of a transfer, or the next slot map (R344, R345). -/
def State.transferOne (s : State) (peer : Nat) : State :=
  match s.chain.transferObjects, s.chain.transferMaps with
  | x :: r, _ =>
    let page := x / 8
    let b := sealedAt (s.pageSlots page) x
    let pinned := s.keys.pins.any fun h => decide (hSlot h = x)
    let body := Config.bodyLayout 0x44 [leBytes 8 x, b, [byteOf (b2n pinned)], [byteOf (s.pageEntry page).slotMap]]
    ({ s with chain := { s.chain with transferObjects := r, sentObjects := s.chain.sentObjects + 1 } } : State).sendMsg 0x44 peer body none
  | [], p :: r =>
    let body := Config.bodyLayout 0x44 [leBytes 8 (8 * p), [], [0], [byteOf (s.pageEntry p).slotMap]]
    ({ s with chain := { s.chain with transferMaps := r } } : State).sendMsg 0x44 peer body none
  | [], [] => s

/-- The transfer's messages of one frame (R344): hearts first, then objects and slot maps at most CHN_COPY_OBJECTS_PER_FRAME under leave of 2 credits each, then its end. -/
def State.transferFrame (s : State) : State :=
  if s.chain.join ≠ .transferring ∨ ¬ s.chain.joinIsMember then s
  else if s.chain.transferHearts ≠ [] then
    let peer := s.chain.transferTo
    let hs := s.chain.transferHearts
    let s := hs.foldl (fun st h => st.sendMsg 0x43 peer (Config.bodyLayout 0x43 [leBytes 4 h, ((st.heart h).bytes).take 48]) none) s
    { s with chain := { s.chain with transferHearts := [], sentHearts := hs.length } }
  else if s.chain.transferObjects ≠ [] ∨ s.chain.transferMaps ≠ [] then
    let peer := s.chain.transferTo
    let p := s.copyPay transferLeaveId
    (List.range p.1).foldl (fun st _ => st.transferOne peer) p.2
  else
    let body := Config.bodyLayout 0x45 [leBytes 8 s.chain.sentHearts, leBytes 8 s.chain.sentObjects, [byteOf (b2n s.chain.transferFull)]]
    (s.sendMsg 0x45 s.chain.transferTo body none).joinWipe .done

/-! ## The transfer at the joining unit (R344, R345) -/

/-- A message of the transfer is taken: from the member, while the transfer runs. -/
def State.fromMember (s : State) (h : MsgHdr) : Bool :=
  decide (s.chain.join = .transferring) && !s.chain.joinIsMember && h.src == s.chain.joinPeer

/-- HEART_TRANSFER (R344, R345): the heart takes the entry. -/
def execHeartTransfer (hdr : MsgHdr) (heart : Nat) (entry : Bytes) (s : State) : Res :=
  .next (s.atStep4 (.heartTransfer hdr heart entry) fun s => s.receive 0x43 hdr fun st => if st.fromMember hdr then st.putHeart heart (heartOf (fit 64 (entry.take 48))) else st)

/-- Slot runs of this unit on a page that a map does not hold, freed (R345). -/
def State.freeOutside (s : State) (page map : Nat) : State :=
  let gone := (objectsOn (s.pageSlots page) (s.pageEntry page).slotMap 8 0).filter fun o => !bitOf map o.1
  if gone = [] then s else s.queueVersion ⟨page, .change, gone.flatMap fun o => freesOf o.1 o.2, none, none, 0⟩

/-- An object or a slot map that arrives. -/
def State.takeObject (s : State) (slot : Nat) (b : Bytes) (pinned : Bool) (map : Nat) : State :=
  if b = [] then s.freeOutside (slot / 8) map
  else
    let s := s.applyRemote (.objectWrite slot b)
    let s := if pinned then s.pin (mkHandle 0 (headHeart b) (headGen b) slot) else s
    { s with chain := { s.chain with joinSlots := s.chain.joinSlots ++ [(slot, le 16 8 b)] } }

/-- OBJECT_TRANSFER (R344, R345). -/
def execObjectTransfer (hdr : MsgHdr) (slot : Nat) (sealed : Bytes) (pinned : Bool) (slotMap : Nat) (s : State) : Res :=
  .next (s.atStep4 (.objectTransfer hdr slot sealed pinned slotMap) fun s => s.receive 0x44 hdr fun st => if st.fromMember hdr then st.takeObject slot sealed pinned slotMap else st)

/-- The copy already holds a record's effect (R344). -/
def State.copyHolds (s : State) (r : ReplRecord) : Bool :=
  let at_ (slot : Nat) : Option Nat := (s.chain.joinSlots.find? fun x => x.1 == slot).map fun x => x.2
  match r.change with
  | .objectWrite slot b => match at_ slot with | some t => decide (le 16 8 b ≤ t) | none => false
  | .repair slot b => match at_ slot with | some t => decide (le 16 8 b ≤ t) | none => false
  | .objectFree slot _ => match at_ slot with | some t => decide (r.tick < t) | none => false
  | _ => false

/-- Every heart still RECOVERING is SPENT (R345). -/
def State.spendRecovering (s : State) : State :=
  ((s.keys.hearts.filter fun e => decide (e.2.state = .recovering)).map fun e => e.1).foldl (fun st n => st.putHeart n { st.heart n with state := .spent, key := [], generation := 32767, certified := false, lastChange := st.tick }) s

/-- Slot runs of the vault that a full transfer did not name, freed (R345). -/
def State.freeUnnamed (s : State) : State :=
  (s.objectsIn.filter fun x => !(s.chain.joinSlots.any fun y => y.1 == x)).foldl (fun st x =>
    let n := min (at8 4 ((st.pageSlots (x / 8)).getD (x % 8) zeroSlot)) (8 - x % 8)
    st.queueVersion ⟨x / 8, .change, freesOf x n, none, none, 0⟩) s

/-- The end of the transfer: the logged records are taken up, in their order; the unit is a member; its pins are loaded (R344, R345). -/
def State.transferDone (s : State) (full : Bool) : State :=
  let s := if full then s.freeUnnamed else s
  let s := s.spendRecovering
  let recs := s.chain.joinLogged.filter fun r => !(s.copyHolds r.record)
  let s := { s with chain := { s.chain with log := s.chain.log ++ recs, joinLogged := [], joinSlots := [] } }
  let s := s.joinWipe .done
  { s with keys := { s.keys with reload := (s.keys.pins.filter fun h => (s.cached 0 h).isNone).foldl (fun l h => insertAsc h l) [] } }

/-- TRANSFER_END (R344, R345). -/
def execTransferEnd (hdr : MsgHdr) (hearts objects : Nat) (full : Bool) (s : State) : Res :=
  .next (s.atStep4 (.transferEnd hdr hearts objects full) fun s => s.receive 0x45 hdr fun st => if st.fromMember hdr then st.transferDone full else st)

end Sys2Proof.Machine
end

