-- ==== Sys2Proof/Machine/Tamper.lean ====
section
/-! DEFINITION. Tamper and environment monitors (chapter 15): samples, alarms, the union of a frame's responses, zeroise, LOCK, the battery domain and its log. -/

namespace Sys2Proof.Machine

/-! ## Samples (R373 to R375) -/

/-- The condition of a source at a reading (Table 15.1). -/
def State.tamperCondition (s : State) (r : Reading) (n : Nat) : Bool :=
  let v (k : Nat) : Nat := s.num k
  if n < 4 then bitOf r.meshDiffers n
  else if n < 8 then bitOf r.enclosure (n - 4) == bitOf (v Key.TMP_ENCL_POLARITY) (n - 4)
  else
    match n with
    | 8 => decide (r.vbat < v Key.TMP_VBAT_LOW)
    | 9 => r.onHold && decide (r.vbat < 2200)
    | 10 => decide ((v Key.TMP_TEMP_HIGH : Int) < r.temp) || decide (r.temp < (v Key.TMP_TEMP_LOW : Int))
    | 11 => decide (v Key.TMP_VDD_CORE_HIGH < r.core)
    | 12 => decide (r.core < v Key.TMP_VDD_CORE_LOW)
    | 13 => decide (v Key.TMP_VDD_SRAM_HIGH < r.sram)
    | 14 => decide (r.sram < v Key.TMP_VDD_SRAM_LOW)
    | 15 => decide (v Key.TMP_VDD_IO_HIGH < r.io)
    | 16 => decide (r.io < v Key.TMP_VDD_IO_LOW)
    | 17 => decide (20000 < r.ppm25.natAbs) || decide (5000 < r.ppm100.natAbs) || decide (50000 < r.ppm32k.natAbs)
    | 22 => bitOf r.light 0
    | 23 => bitOf r.light 1
    | _ => bitOf r.glitch (n - 18)

/-- The unit is in start-up: the rails are up, and the Keeper has not loaded its configuration (R383); a FUNCTION reset leaves the Keeper as it is. -/
def State.startUp (s : State) : Bool := (decide (s.rst.power = .held) && decide (2 ≤ s.rst.reach)) || decide (2 ≤ s.rst.starting)

/-- K of a source, and the samples of its window: the entries, or K = 2 and W = 4 in start-up (R375, R383). -/
def State.tamperK (s : State) (n : Nat) : Nat := if s.startUp then 2 else s.num (Key.TMP_SRC_K n)
def windowSamples (battery : Bool) (w : Nat) : Nat := if battery then 1024 * w / 1000 else 1000 * w
def State.tamperW (s : State) (n : Nat) : Nat := windowSamples (decide (n ≤ 10)) (if s.startUp then 4 else s.num (Key.TMP_SRC_W n))

/-- A source counts: its arm bit, and in STANDBY not glitch detector 0 (Table 15.1). -/
def State.tamperArmed (s : State) (n : Nat) : Bool :=
  bitOf (s.num Key.TMP_ARM) n && !(n == 18 && s.rst.power == .standby)

/-- One source at one sample: its condition, and one event while it is armed. -/
def State.sampleSource (s : State) (r : Reading) (n : Nat) : State :=
  let c := s.tamperCondition r n
  let t := s.tmpSrc n
  let now := if n ≤ 10 then s.tamper.sampleBattery else s.tamper.sampleMain
  let recent := t.events.filter fun e => decide (now < e + s.tamperW n)
  s.setTmpSrc n ⟨if c && s.tamperArmed n then recent ++ [now] else recent, c⟩

/-- TAMPER_SAMPLE (R374): the sources of one domain; the main domain samples while the rails are up. -/
def execTamperSample (battery : Bool) (reading : Reading) (s : State) : Res :=
  if !battery && (decide (s.rst.power = .battery) || !s.rst.railsDown.isEmpty) then .next s
  else
    let ns := if battery then List.range 11 else (List.range 13).map fun i => i + 11
    let s := if battery then
        { s with tamper := { s.tamper with sampleBattery := s.tamper.sampleBattery + 1 }, rst := { s.rst with junction := reading.temp } }
      else { s with tamper := { s.tamper with sampleMain := s.tamper.sampleMain + 1 } }
    .next (ns.foldl (fun st n => st.sampleSource reading n) s)

/-! ## Zeroise (Table 15.2) -/

/-- Regions 1, 2 and 4 of Table 12.5, by word index. -/
def zeroRegion (word : Nat) : Bool :=
  (decide (0x20000 ≤ word) && decide (word < 0x40000)) || (decide (0x80000 ≤ word) && decide (word < 0x100000))

/-- A job without the keys, draws and blinding that it held: those stand in the memories that a zeroise wipes. -/
def Job.wiped (j : Job) : Job := { j with key1 := none, key2 := none, heartKey := [], draws := [], blind := [], search := none }

/-- ZEROISE_WORKING. -/
def State.zeroiseWorking (s : State) : State :=
  let s := { s with jobs := s.jobs.map Job.wiped }
  let s := { s with keys := { s.keys with cache := [] } }
  let s := { s with lanes := { s.lanes with pk := SMap.mapVals PkLane.reset (fun l => { l with banks := [] }) s.lanes.pk, ladder := [], unwraps := [] } }
  let s := { s with slices := SMap.mapVals SliceCtx.reset (fun c => { c with windows := [] }) s.slices }
  let s := { s with ent := { s.ent with drbg := ⟨[], [], false⟩, w0 := { s.ent.w0 with pool := [] }, w1 := { s.ent.w1 with pool := [] } } }
  s.scrubWords zeroRegion

/-- The battery domain's part of ZEROISE_ALL. -/
def State.zeroiseBattery (s : State) : State := { s with keys := { s.keys with baseSecret := none, baseSecret2 := none } }

/-- ZEROISE_ALL. -/
def State.zeroiseAll (s : State) : State :=
  let s := s.zeroiseWorking.zeroiseBattery
  let s := { s with keys := { s.keys with mramKey := none, hearts := [], baseKey := none, heartImageKey := none } }
  { s with chain := { s.chain with domainKey := none } }

/-! ## Alarms (R375, R380, R383) -/

/-- The response set of an alarm: the fused one in start-up; a latched source applies LOG and EVENT only (R380). -/
def State.tamperSet (s : State) (n : Nat) : Nat :=
  let r := if s.startUp then s.num Key.TMP_FUSED_RESPONSE else s.num (Key.TMP_SRC_RESPONSE n)
  if s.tamper.latched.contains n then r % 4 else r

/-- A set latches its source: it holds LOCK, a reset or a zeroise. -/
def setLatches (r : Nat) : Bool := decide (r / 4 % 32 ≠ 0)

def State.latch (s : State) (n r : Nat) : State :=
  if setLatches r && !s.tamper.latched.contains n then { s with tamper := { s.tamper with latched := insertAsc n s.tamper.latched } } else s

/-- A battery log record; the 65th takes the place of the oldest (R384). -/
def State.batRecord (s : State) (sources applied held state : Nat) : State :=
  let r : BatLog := ⟨sources, applied, held, s.rst.seconds % 2 ^ 40, s.rst.powerCycles % 2 ^ 24, state⟩
  let s := if 64 ≤ s.tamper.batLog.length then s.count Key.TMP_BATLOG_OVERWRITTEN else s
  { s with tamper := { s.tamper with batLog := (s.tamper.batLog ++ [r]).drop (s.tamper.batLog.length + 1 - 64) } }

/-- The record of an alarm: alarms of one sample combine in one (R384). -/
def State.batAlarmRecord (s : State) (n applied held state : Nat) : State :=
  match s.tamper.batLog.getLast? with
  | some b =>
    if s.tamper.batSample = some s.tamper.sampleBattery ∧ b.state = state then
      let b := { b with sources := b.sources ||| 2 ^ n, applied := b.applied ||| applied, held := b.held ||| held }
      { s with tamper := { s.tamper with batLog := s.tamper.batLog.dropLast ++ [b] } }
    else { s.batRecord (2 ^ n) applied held state with tamper := { (s.batRecord (2 ^ n) applied held state).tamper with batSample := some s.tamper.sampleBattery } }
  | none => { s.batRecord (2 ^ n) applied held state with tamper := { (s.batRecord (2 ^ n) applied held state).tamper with batSample := some s.tamper.sampleBattery } }

/-- The battery domain's own part of a response, at once: its zeroise, the latch, a battery log record (R383, R384). -/
def State.batteryPart (s : State) (n r held state : Nat) : State :=
  let all := bitOf r 6
  let s := if all then s.zeroiseBattery else s
  let s := if setLatches r then s.endGrantNext else s
  (s.latch n r).batAlarmRecord n (64 * b2n all) held state

/-- An alarm on BATTERY, or of the battery domain in STANDBY: the rest of its set is pending (R383). -/
def State.batteryAlarm (s : State) (n r state : Nat) : State :=
  let s := s.batteryPart n r r state
  { s with tamper := { s.tamper with pendingActions := s.tamper.pendingActions ||| r } }

/-- An alarm for the Keeper, with its response set. -/
def State.keeperAlarm (s : State) (n r : Nat) : State := { s with tamper := { s.tamper with alarms := s.tamper.alarms ++ [(n, r)] } }

/-- TAMPER_ALARM (R375, R376, R383): the source's events reach K within its window. -/
def execTamperAlarm (source : Nat) (s : State) : Res :=
  let t := s.tmpSrc source
  if !s.tamperArmed source || t.events.length < s.tamperK source || t.events.isEmpty then .next s
  else
    let s := s.setTmpSrc source { t with events := [] }
    let r := s.tamperSet source
    match s.rst.power with
    | .battery => if source ≤ 10 then .next ((s.batteryAlarm source r 0).count (Key.TMP_SRC_ALARMS source)) else .next s
    | .standby =>
      if source ≤ 10 then .next ((s.batteryAlarm source r 1).count (Key.TMP_SRC_ALARMS source))
      else .next (s.keeperAlarm source r)
    | _ =>
      if source ≤ 10 then .next ((if s.startUp then s.batteryPart source r 0 2 else if bitOf r 6 then s.zeroiseBattery else s).keeperAlarm source r)
      else if s.rst.railsDown = [] then .next (s.keeperAlarm source r) else .next s

/-! ## The response of a frame (R378 to R382) -/

/-- A response whose set ends every record from the next tick on (R382). -/
def silences (r : Nat) : Bool := bitOf r 3 || bitOf r 4 || bitOf r 6

/-- No completion record is released. -/
def State.silenced (s : State) : Bool := s.tamper.respond.any fun r => silences r.2.1

/-- Nothing is fetched or admitted: a zeroise or a reset of a response is under way. -/
def State.tamperStops (s : State) : Bool := s.tamper.respond.any fun r => silences r.2.1 || bitOf r.2.1 5

/-- A job meets a LOCK or a zeroise without a reset (R381): it keeps its own status when its output is out, or, under LOCK alone, when its output frame is the present one. One whose descriptor has not arrived ends so once it has (DEDUCED, assumption log 91). -/
def State.tamperJob (s : State) (zero : Bool) (j : Job) : State :=
  if j.phase = .staged ∨ (¬ zero ∧ j.phase = .output ∧ j.due ≤ s.tick + 1) then s
  else if !j.descDone then s.force j.id stTamperAbort 0
  else (((s.dropVersions j.id).orphanOwn j.id).finish j.id stTamperAbort 0 (s.tick + 1))

/-- The union of the alarms that reached the Keeper in this frame. -/
def State.respond (s : State) : State :=
  let as := s.tamper.alarms
  let u := as.foldl (fun a x => a ||| x.2) 0
  let all := bitOf u 6
  let zero := all || bitOf u 5
  let z := s.takeNat
  let s := z.2
  let frame := if zero then s.tick + z.1 % (32 / periodUs s.period + 2) else s.tick
  let s := { s with tamper := { s.tamper with alarms := [], respond := s.tamper.respond ++ [(frame, u, as)] } }
  let s := if setLatches u then s.endGrantNext else s
  let s := if silences u then s else if bitOf u 2 || zero then s.jobs.foldl (fun st j => st.tamperJob zero j) s else s
  if all then s.chkZeroise.zeroiseAll else if zero then s.chkZeroise.zeroiseWorking else s

/-- TAMPER_RESPONSE (R378): by the Keeper, once it runs (R383). -/
def execTamperResponse (s : State) : Res :=
  if s.tamper.alarms = [] ∨ s.rst.power = .battery ∨ (s.rst.power = .held ∧ 2 ≤ s.rst.reach) then .next s else .next s.respond

/-- Pinned objects are to be reloaded, in ascending handle order (R232, R381). -/
def State.reloadPins (s : State) : State :=
  { s with keys := { s.keys with reload := (s.keys.pins.filter fun h => (s.cached 0 h).isNone).foldl (fun l h => insertAsc h l) [] } }

/-- LOCK is entered under a cause (Table 15.6). -/
def State.enterLock (s : State) (cause : Nat) : State :=
  let s := s.setNum Key.TMP_LOCK_CAUSE (s.num Key.TMP_LOCK_CAUSE ||| 2 ^ cause)
  if s.tamper.locked then s else ({ s with tamper := { s.tamper with locked := true } }).raise 4097

/-- Steps 2 to 4 of a response, in the window of its frame Z (R378, R379). -/
def State.respondEnd (s : State) (r : Nat × Nat × List (Nat × Nat)) : State :=
  let u := r.2.1
  let s := r.2.2.foldl (fun st x =>
    let st := st.count (Key.TMP_SRC_ALARMS x.1)
    let st := if bitOf u 1 then st.eventSent (0x2701 + x.1) else if bitOf u 0 then st.event (0x2701 + x.1) else st
    st.latch x.1 x.2) s
  let s := if bitOf u 1 then { s with tamper := { s.tamper with alert := true } } else s
  let s := if bitOf u 2 then s.enterLock 0 else s
  let zero := bitOf u 5 || bitOf u 6
  let s := if zero && !bitOf u 2 then s.reloadPins else s
  if bitOf u 4 then s.resetDue 3 19 else if bitOf u 3 || bitOf u 6 then s.resetDue 2 12 else s

/-- The responses whose frame Z is this one. -/
def State.respondWindow (s : State) : State :=
  let now := s.tamper.respond.filter fun r => decide (r.1 ≤ s.tick)
  let s := { s with tamper := { s.tamper with respond := s.tamper.respond.filter fun r => decide (s.tick < r.1) } }
  now.foldl State.respondEnd s

/-- The same in a start, once the Keeper runs (R383). -/
def State.respondStart (s : State) : State := if s.rst.starting ≠ 0 then s.respondWindow else s

/-! ## Pending actions (R385, R386) -/

/-- The battery log goes to the sillage log (R385, R394). -/
def State.copyBatLog (s : State) : State :=
  let s := s.tamper.batLog.foldl (fun st b =>
    { st with sil := { st.sil with queue := st.sil.queue ++ [⟨0x2720, st.tick, false, some b, none⟩] } }) s
  { s with tamper := { s.tamper with batLog := [], batSample := none } }

/-- What is pending beside a zeroise (R385): the battery log is copied, a pending LOCK entered. -/
def State.applyPending (s : State) : State :=
  let p := s.tamper.pendingActions
  let s := s.copyBatLog
  let s := if bitOf p 2 then s.enterLock 4 else s
  { s with tamper := { s.tamper with pendingActions := 0 } }

/-- The battery-backed memory loses its content. -/
def State.batteryLost (s : State) : State :=
  let s := s.zeroiseBattery
  let s := { s with vault := { s.vault with battery0 := none, battery1 := none } }
  { s with tamper := { s.tamper with sources := [], latched := [], pendingActions := 0, batLog := [], batSample := none, batteryBlank := true },
           rst := { s.rst with seconds := 0, powerCycles := 0 } }

/-- BATTERY_REMOVAL (R386): with the main rails off. -/
def execBatteryRemoval (s : State) : Res := if s.rst.power = .battery then .next s.batteryLost else .next s

/-! ## Clearing (R387) -/

/-- TMP_CLEAR as it takes effect. -/
def State.clearLatches (s : State) (v : Nat) : State :=
  { s with tamper := { s.tamper with latched := s.tamper.latched.filter fun n => !bitOf v n } }

/-- TMP_LOCK_CLEAR as it takes effect. -/
def State.clearLock (s : State) : State :=
  if !s.tamper.locked then s.setNum Key.TMP_LOCK_CAUSE 0
  else (({ s with tamper := { s.tamper with locked := false } } : State).setNum Key.TMP_LOCK_CAUSE 0).raise 4097 |>.reloadPins

/-- TMP_CONDITION. -/
def State.conditions (s : State) : Nat := maskOf ((List.range 24).filter fun n => (s.tmpSrc n).condition)

end Sys2Proof.Machine
end

