-- ==== Sys2Proof/Machine/LifeCycle.lean ====
section
/-! DEFINITION. Life cycle and debug grants (chapter 16): states, progress marks and transitions, challenges, certificates, grants, the trim choice. -/

namespace Sys2Proof.Machine

/-! ## States and marks (R389 to R391) -/

/-- Four fuse bits, blown. -/
def blown : Nat := 15
def Marks.isWiped (m : Marks) : Bool := decide (2 ≤ popCount m.wiped)
def Marks.isProvisioned (m : Marks) : Bool := decide (2 ≤ popCount m.provisioned)

def Fuses.marks (f : Fuses) (n : Nat) : Marks := if n = 1 then f.m1 else if n = 2 then f.m2 else if n = 3 then f.m3 else f.m4
def Fuses.setMarks (f : Fuses) (n : Nat) (m : Marks) : Fuses :=
  if n = 1 then { f with m1 := m } else if n = 2 then { f with m2 := m } else if n = 3 then { f with m3 := m } else { f with m4 := m }

def State.marks (s : State) (n : Nat) : Marks := s.life.fuses.marks n
def State.setMarks (s : State) (n : Nat) (m : Marks) : State := { s with life := { s.life with fuses := s.life.fuses.setMarks n m } }

/-- The transition that has BEGUN and is not DONE (R393). -/
def State.begunTransition (s : State) : Option Nat := [4, 3, 2, 1].find? fun n => (s.marks n).hasBegun && !(s.marks n).isDone

/-- LCS_PROGRESS (Table 16.10). -/
def State.progress (s : State) : Nat :=
  match (match s.life.transition with | some t => some t.1 | none => s.begunTransition) with
  | some n =>
    let m := s.marks n
    n + 16 * b2n m.hasBegun + 32 * b2n m.isWiped + 64 * b2n m.isProvisioned + 128 * b2n m.isDone
  | none => 0

/-- The transition of Table 16.2 from a state to a target. -/
def transitionOf (life target : Nat) : Option Nat :=
  if life = 0 ∧ target = 1 then some 1
  else if life = 1 ∧ target = 2 then some 2
  else if life < 3 ∧ target = 3 then some 3
  else if life < 4 ∧ target = 15 then some 4
  else none

/-- Bytes of the certificate, as LCS_CERT_LENGTH bounds them (R399). -/
def State.certBytes (s : State) : Bytes :=
  (((List.range 11).map fun i => SMap.get zeroSlot s.life.cert i).flatten).take (s.num Key.LCS_CERT_LENGTH)

/-- The further conditions of Table 16.2. -/
def State.transitionAllowed (s : State) (n : Nat) : Bool :=
  if n = 1 then !allZero (cut 40 32 s.certBytes) else if n = 2 then !s.enrolmentOpen else true

/-- A write of LCS_TRANSITION has its authority (R390): in FIELDED a quorum write, elsewhere a certificate for this transition. -/
def State.transitionAuthorised (s : State) (n target : Nat) (quorum : Bool) : Bool :=
  if s.lifeCycle = 2 then quorum
  else decide (s.life.certState = 3) && s.life.authorised == some (n, target)

/-! ## Transitions (R392 to R395) -/

/-- Every job in flight ends without a record; changes on the chain are left to the peers (R70, R339). -/
def State.endAllJobs (s : State) : State := s.jobs.foldl (fun st j => (st.scrubJob j).abandon j.id) s

/-- LCS_TRANSITION as it takes effect (R392): no service, no challenge, no grant. -/
def State.transitionStart (s : State) (target : Nat) : State :=
  match transitionOf s.lifeCycle target with
  | none => s
  | some n =>
    let s := s.endGrantNext.endAllJobs
    let h := if n = 1 then cut 40 32 s.certBytes else s.life.newHash
    let s := { s with life := { s.life with transition := some (n, target), challenge := none, newHash := h } }
    ({ s with host := { s.host with ready := false } } : State).raise 4096

/-- Stored values whose reach satisfies `p` return to their defaults; the keys that `keep` holds stay. -/
def State.dropEntries (s : State) (p : Reach → Bool) (keep : Nat → Bool) : State :=
  let drops (k : Nat) : Bool := !keep k && (match attrOfKey k with | some a => p a.reach | none => false)
  { s with dict := { s.dict with nums := s.dict.nums.filter (fun e => !drops e.1), octs := s.dict.octs.filter fun e => !drops e.1 } }

/-- Fence maps and fault counts, which transition 3 keeps (R395). -/
def fenceEntry (k : Nat) : Bool :=
  k == Key.PKE_FENCE_MAP || k == Key.PKE_LAT_FENCE_MAP || k == Key.SYM_FENCE_MAP ||
    ((List.range 24).any fun n => k == Key.PKE_FAULT_COUNT n) || ((List.range 8).any fun n => k == Key.SYM_FAULT_COUNT n)

/-- The wipe of transition 1. -/
def State.wipeKeys (s : State) : State :=
  let s := s.zeroiseAll
  { s with keys := { s.keys with hearts := [], images := [], pins := [], reload := [], inFlight := [], sweepSeen := [], sweepFresh := [], certifiedLast := [] } }

/-- Every block of an attached drive is deallocated. -/
def State.deallocateDrive (s : State) (p : Nat) : State :=
  if (s.drive p).link then (s.updDrive p fun d => { d with cells := [] }).submitAll p [.deallocate 0 (s.drive p).size] else s

/-- LOCK ends with the entry that holds its causes. -/
def State.endLock (s : State) : State :=
  let s := { s with tamper := { s.tamper with latched := [], pendingActions := 0 } }
  if s.tamper.locked then ({ s with tamper := { s.tamper with locked := false } } : State).raise 4097 else s

/-- The wipe of transition 3. -/
def State.wipeCustomer (s : State) : State :=
  let s := s.wipeKeys.copyBatLog
  let s := ((s.setOct Key.CHN_DOMAIN_ID (List.replicate 8 0)).setMembers []).joinWipe .none
  let s := { s with chain := { s.chain with log := [], early := [], own := [], tags := [], consumed := [], peerTags := [] } }
  let s := s.dropEntries (fun r => decide (r = .cold) || decide (r = .batteryLoss)) fenceEntry
  let s := { s with sil := { s.sil with suppressed := [] } }
  (s.endLock.deallocateDrive 0).deallocateDrive 1

/-- The vault is UNFORMATTED: no tree, no root, no journal. -/
def State.unformat (s : State) : State :=
  { s with vault := { s.vault with
      state := .unformatted, tree := [], root := Root.none, battery0 := none, battery1 := none, journal := [], formatting := none,
      waiting := [], group := [], groupIssued := 0, groupFlushed := false, groupEnded := false, coming := none,
      nodes := [], lost := [], locked := [], reads := [], copyPort := none, copyKeys := [] } }

/-- Step 2 of a transition (Table 16.4). -/
def State.transitionWipe (s : State) (n : Nat) : State :=
  if n = 1 then s.wipeKeys
  else if n = 2 then { s with life := { s.life with fuses := { s.life.fuses with vendorTest := false } } }
  else if n = 3 then s.wipeCustomer
  else
    let s := s.wipeCustomer
    let s := { s with sil := Sillage.reset, dict := { s.dict with nums := [], octs := [] }, chain := { s.chain with seq := 0 } }
    s.batteryLost

/-- Step 3 of a transition (Table 16.4). -/
def State.transitionProvision (s : State) (n : Nat) : State :=
  if n = 1 then { s with life := { s.life with fuses := { s.life.fuses with integratorHash := some s.life.newHash } } }
  else if n = 2 then s
  else if n = 3 then s.unformat.setNum Key.OFC_ENROLMENT_OPEN 1
  else { s with life := { s.life with fuses := { s.life.fuses with allBlown := true } } }

/-- The steps of Table 16.3 that follow the last mark reached, each with its mark: one of them. -/
def State.transitionNext (s : State) (n : Nat) : State :=
  let m := s.marks n
  if !m.hasBegun then s.setMarks n { m with begun := blown }
  else if !m.isWiped then (s.transitionWipe n).setMarks n { m with wiped := blown }
  else if !m.isProvisioned then (s.transitionProvision n).setMarks n { m with provisioned := blown }
  else s.setMarks n { m with done := blown }

/-- TRANSITION_STEP (R391, R392): step 1 checks the conditions again, and a check that fails ends the transition with a WARM reset into the old state; DONE is followed by a WARM reset into the new one. -/
def execTransitionStep (s : State) : Res :=
  match s.life.transition with
  | none => .next s
  | some t =>
    let n := t.1
    if s.rst.power ≠ .run then .next s
    else if !(s.marks n).hasBegun then
      let s := s.dropGrant
      if transitionOf s.lifeCycle t.2 = some n ∧ s.transitionAllowed n then .next (s.transitionNext n)
      else .next (({ s with life := { s.life with transition := none } }.event 0x2803).resetDue 2 10)
    else if (s.marks n).isProvisioned then .next ((s.transitionNext n).resetDue 2 10)
    else .next (s.transitionNext n)

/-- What is left of a transition that an interruption stopped (R393, Table 16.5). -/
def State.transitionResume (s : State) : State :=
  match s.begunTransition with
  | none => { s with life := { s.life with transition := none } }
  | some n =>
    let s := ((s.transitionNext n).transitionNext n)
    let s := if (s.marks n).isDone then s else s.transitionNext n
    { s with life := { s.life with transition := none } }

/-! ## Challenges (R397) -/

/-- LCS_CHALLENGE_DRAW as it takes effect. -/
def State.lifeChallenge (s : State) : State :=
  let d := s.draw 16
  { d.2 with life := { d.2.life with challenge := some (d.1, s.rst.seconds) } }

/-- LCS_CHALLENGE_EXPIRY (R397): 86,400 operating seconds after the draw. -/
def execLcsChallengeExpiry (s : State) : Res :=
  match s.life.challenge with
  | some c => if c.2 + 86400 ≤ s.rst.seconds then .next { s with life := { s.life with challenge := none } } else .next s
  | none => .next s

/-! ## Certificates (R398 to R401) -/

/-- LCS_CERT_WINDOW written: the chunk that LCS_CERT_CURSOR names. -/
def State.certWrite (s : State) (v : Bytes) : State :=
  { s with life := { s.life with cert := SMap.set zeroSlot (s.num Key.LCS_CERT_CURSOR) (fit 512 v) s.life.cert } }

/-- The authority of a state (Table 16.1): 1 vendor, 2 integrator. -/
def authorityOf (life : Nat) : Nat := if life = 0 ∨ life = 3 then 1 else 2

/-- The fuse hash of an authority, once blown. -/
def State.authorityHash (s : State) (a : Nat) : Option Bytes :=
  let f := s.life.fuses
  if f.allBlown then none
  else if a = 1 then some (fit 32 Config.vendorHash)
  else match f.integratorHash with
    | some h => some (fit 32 h)
    | none => if f.m1.isDone then some (fit 32 Config.orderHash) else none

/-- Rights that a state admits (Table 16.8). -/
def rightsCeiling (life : Nat) : Nat := if life = 0 then 0x3F else if life = 1 then 0x1F else if life = 2 then 0x07 else 0x7F

/-- The first check of Table 16.7 that fails; 0 when all pass. -/
def State.certCheck (s : State) : Nat :=
  let b := s.certBytes
  let life := s.lifeCycle
  let kind := at8 16 b
  let target := at8 19 b
  let rights := at8 20 b
  let hours := le 22 2 b
  let reserved := at8 18 b < 16 && at8 21 b == 0 && (kind != 2 || rights == 0) && decide (rights < 128) &&
    (allZero (cut 40 32 b) || (kind == 2 && target == 1))
  let trans := decide (life ≠ 2) && at8 18 b == 2 ^ life && (transitionOf life target).isSome
  let digest := sha384 (b.take 2121)
  let ec := match p384.decode (cut 72 97 b) with
    | some q => p384.verify [] q digest (cut 2121 96 b)
    | none => false
  if !(s.num Key.LCS_CERT_LENGTH == 5526 && b.take 16 == ascii "ILYAR-LCS-CERT01" && reserved) then 1
  else if !((kind == 1 && target == 0 || kind == 2 && trans) && decide (1 ≤ hours) && decide (hours ≤ 720) && at8 17 b == authorityOf life) then 2
  else if s.authorityHash (at8 17 b) ≠ some (sha3_256 (cut 72 2049 b)) then 3
  else if !(ec && dsaVerify (maskOfBytes []) 0x32 (cut 169 1952 b) (ascii "ILYAR-LCS") (b.take 2121) (cut 2217 3309 b)) then 4
  else if !(s.life.challenge.any fun c => c.1 == cut 24 16 b && decide (s.rst.seconds < c.2 + 86400)) then 5
  else if kind == 1 && !bitOf (at8 18 b) life then 6
  else if kind == 1 && !(rights &&& rightsCeiling life == rights && (rights / 32 % 4 == 0 || bitOf rights 2)) then 7
  else if s.life.granted || s.life.authorised.isSome then 8
  else 0

/-- LCS_CERT_APPLY as it takes effect (R400). -/
def State.certApply (s : State) : State := { s with life := { s.life with certState := 1 } }

/-- CERT_CHECK_END (R400, R403): the result of the check shows at the next tick; the wipes of R308 and R15 are made in this frame. -/
def execCertCheckEnd (s : State) : Res :=
  if s.life.certState ≠ 1 ∨ s.life.verdict.isSome then .next s
  else
    let v := s.certCheck
    let b := s.certBytes
    let grant := decide (v = 0) && at8 16 b == 1
    let s := ({ s with life := { s.life with verdict := some v } } : State).event 0x2801
    let s := if grant && (bitOf (at8 20 b) 3 || bitOf (at8 20 b) 4) then s.jobs.foldl (fun st j => st.tamperJob true j) s else s
    let s := if grant && bitOf (at8 20 b) 3 then
        let z := s.zeroiseWorking
        ({ z with keys := { z.keys with baseKey := none, heartImageKey := none } } : State).event 0x2802
      else s
    .next (if grant && bitOf (at8 20 b) 4 then s.zeroiseWorking.event 0x2802 else s)

/-- The result of a check, and the end of a grant, at the tick (R400, R403, R404). -/
def State.lifeTick (s : State) : State :=
  let s := if s.life.endDue then s.dropGrant else s
  match s.life.verdict with
  | none => s
  | some v =>
    let b := s.certBytes
    let rights := at8 20 b
    let ends := s.rst.seconds + 3600 * le 22 2 b
    let s := { s with life := { s.life with verdict := none, challenge := none } }
    if v ≠ 0 then { s with life := { s.life with certState := 4, certError := v } }
    else if at8 16 b = 1 then
      let s := { s with life := { s.life with certState := 2, granted := true, grantRights := rights, grantEnds := ends } }
      let s := { s with keeper := { s.keeper with debugState := rights % 32 } }
      if bitOf rights 3 then ({ s with host := { s.host with ready := false } } : State).raise 4096 else s
    else
      let t := at8 19 b
      let a := (transitionOf s.lifeCycle t).map fun n => (n, t)
      { s with life := { s.life with certState := 3, authorised := a, grantEnds := ends } }

/-- TRANSITION_LAPSE (R401): the certificate's lifetime is over. -/
def execTransitionLapse (s : State) : Res :=
  if s.life.authorised.isSome ∧ s.life.transition.isNone ∧ s.life.grantEnds ≤ s.rst.seconds then
    .next { s with life := { s.life with authorised := none, certState := 0 } }
  else .next s

/-- GRANT_EXPIRY (R404): the grant's lifetime is over. -/
def execGrantExpiry (s : State) : Res :=
  if s.life.granted ∧ s.life.grantEnds ≤ s.rst.seconds then .next s.endGrantNext else .next s

/-- LCS_GRANT_REMAINING. -/
def State.grantRemaining (s : State) : Nat := if s.life.granted then s.life.grantEnds - s.rst.seconds else 0

/-- A challenge, an authorised transition, a grant and the certificate's registers end at a reset of WARM reach or wider (R397, R401, R404). -/
def State.lifeReset (s : State) : State :=
  let s := s.dropGrant
  { s with life := { s.life with challenge := none, cert := [], certState := 0, certError := 0, authorised := none, verdict := none } }

/-! ## Trim choice (R406) -/

/-- LCS_TRIM_SELECT is permitted: in RETURNED, under a grant with right 6, once. -/
def State.trimAllowed (s : State) : Bool :=
  decide (s.lifeCycle = 3) && s.life.granted && bitOf s.life.grantRights 6 && s.life.fuses.trimChoice.isNone

/-- LCS_TRIM_SELECT as it takes effect. -/
def State.trimSelect (s : State) (v : Nat) : State :=
  { s with life := { s.life with fuses := { s.life.fuses with trimChoice := some v } } }

end Sys2Proof.Machine
end

