-- ==== Sys2Proof/Machine/Sillage.lean ====
section
/-! DEFINITION. The sillage log (chapter 18): records and their bytes, rate limits, the window's writing, the two areas, reading. -/

namespace Sys2Proof.Machine

/-! ## Records (R417, R418) -/

/-- Bytes 0 to 27 of a battery log record (Table 15.4). -/
def BatLog.bytes (b : BatLog) : Bytes :=
  leBytes 3 b.sources ++ [0, byteOf b.applied, byteOf b.held, 0, 0] ++ leBytes 5 b.seconds ++ leBytes 3 b.cycles ++ [byteOf b.state] ++
    List.replicate 11 0

/-- The 64 bytes of a record (Table 18.1). -/
def SilRecord.bytes (r : SilRecord) : Bytes :=
  let b := leBytes 2 r.code ++ leBytes 5 r.seconds ++ leBytes 3 r.cycles ++ leBytes 8 r.tick ++ leBytes 2 r.suppressed ++
    [byteOf r.snapCount, byteOf r.flags, 0, 0] ++ fit 32 r.snapshot ++ leBytes 4 r.seq
  b ++ leBytes 4 (crc32c b)

/-- The record of an event, at a sequence. -/
def State.silRecord (s : State) (e : SilEvent) (suppressed seq : Nat) : SilRecord :=
  let late := 2 * b2n (decide (e.tick < s.tick))
  match e.copy with
  | some b => ⟨e.code, b.seconds, b.cycles, e.tick, suppressed, 1 + late, 0, b.bytes, seq⟩
  | none =>
    let m := e.made.getD (s.rst.seconds, 0, [])
    ⟨e.code, m.1, s.rst.powerCycles, e.tick, suppressed, late, m.2.1, m.2.2, seq⟩

/-! ## Rate limits (R421) -/

/-- N and W of a code. -/
def State.silN (s : State) (code : Nat) : Nat := s.num (Key.SIL_RATE code) % 65536
def State.silW (s : State) (code : Nat) : Nat := s.num (Key.SIL_RATE code) / 65536

/-- Records of the code in its open window and the second it opened, when one is open. -/
def State.silOpen (s : State) (code : Nat) : Option (Nat × Nat) :=
  ((s.sil.windows.find? fun w => w.1 == code && decide (s.rst.seconds < w.2.2 + s.silW code)).map fun w => w.2)

/-- An event of the code is recorded now. -/
def State.silAllows (s : State) (code : Nat) : Bool :=
  s.silN code == 0 || (match s.silOpen code with | some w => decide (w.1 < s.silN code) | none => true)

def State.silSuppressed (s : State) (code : Nat) : Nat := SMap.get 0 s.sil.suppressed code

/-! ## Writing (R419 to R422) -/

/-- Records of the circular area and of the permanent one. -/
def circularSize : Nat := 8192
def permanentSize : Nat := 4096

/-- Write one record: circular area, permanent area while it has room, sequence, window, the chain's copy. -/
def State.silWrite (s : State) (e : SilEvent) : State :=
  let seq := s.sil.nextSeq
  let r := s.silRecord e (s.silSuppressed e.code) seq
  let open_ : Nat × Nat := match s.silOpen e.code with | some w => (w.1 + 1, w.2) | none => (1, s.rst.seconds)
  let room := decide (s.sil.permCount < permanentSize)
  let circ := s.sil.circular ++ [r]
  let circ := circ.drop (circ.length - circularSize)
  let s := { s with sil := { s.sil with
      nextSeq := (seq + 1) % 2 ^ 32
      circular := circ
      firstSeq := (match circ with | c :: _ => c.seq | [] => seq)
      perm := if room then SMap.set none seq (some r) s.sil.perm else s.sil.perm
      permCount := if room then s.sil.permCount + 1 else s.sil.permCount
      windows := (e.code, open_) :: s.sil.windows.filter (fun w => decide (w.1 ≠ e.code))
      suppressed := SMap.set 0 e.code 0 s.sil.suppressed } }
  if e.send then s.sendMsg 0x50 bcast r.bytes none else s

/-- One event in the window: recorded, or counted as suppressed; the count of records written. -/
def State.silOne (s : State × Nat) (e : SilEvent) : State × Nat :=
  let st := s.1
  if 32 ≤ s.2 then ({ st with sil := { st.sil with queue := st.sil.queue ++ [e] } }, s.2)
  else if st.silAllows e.code then (st.silWrite e, s.2 + 1)
  else ({ st with sil := { st.sil with suppressed := SMap.set 0 e.code (min 65535 (st.silSuppressed e.code + 1)) st.sil.suppressed } }, s.2)

/-- Tamper codes and battery-log copies. -/
def SilEvent.first (e : SilEvent) : Bool := decide (0x2701 ≤ e.code) && decide (e.code ≤ 0x2720)

/-- Events of the next frame wait for its window (R420). -/
def SilEvent.later (e : SilEvent) (s : State) : Bool := decide (e.tick = (s.tick + 1) % 2 ^ 64)

/-- Events that have not been through a window take their seconds and their snapshot. -/
def State.silTake (s : State) (snap : Nat → Nat × Bytes) : State :=
  { s with sil := { s.sil with queue := s.sil.queue.map fun e => if e.made.isSome || e.later s then e else { e with made := some (s.rst.seconds, snap e.code) } } }

/-- The records of a window (R420): at most 32; the rest waits, at most 1,024. -/
def State.silWindow (s : State) (snap : Nat → Nat × Bytes) : State :=
  let s := s.silTake snap
  let now := s.sil.queue.filter fun e => !e.later s
  let wait := s.sil.queue.filter fun e => e.later s
  let q := now.filter (fun e => e.first) ++ now.filter (fun e => !e.first)
  let s := (q.foldl State.silOne ({ s with sil := { s.sil with queue := [] } }, 0)).1
  let s := { s with sil := { s.sil with queue := s.sil.queue ++ wait } }
  let lost := s.sil.queue.length - 1024
  (s.count Key.SIL_DROPPED lost |> fun st => { st with sil := { st.sil with queue := st.sil.queue.take 1024 } })

/-- SIL_CLEAR_CIRCULAR, in the window of its frame (R422): the area is emptied, and record 0x2901 is the first in it. -/
def State.silClear (s : State) (snap : Nat → Nat × Bytes) : State :=
  let s := { s with sil := { s.sil with circular := [] } }
  s.silWrite ⟨0x2901, s.tick, false, none, some (s.rst.seconds, snap 0x2901)⟩

/-- A reset of WARM reach or wider drops the queue (R420). -/
def State.silReset (s : State) : State :=
  let s := s.count Key.SIL_DROPPED s.sil.queue.length
  { s with sil := { s.sil with queue := [] } }

/-! ## Reading (R423) -/

/-- The record of a sequence, as a window returns it. -/
def State.silRead (s : State) (seq : Nat) : Bytes :=
  match s.sil.circular.find? fun r => r.seq == seq with
  | some r => r.bytes
  | none =>
    match SMap.get none s.sil.perm seq with
    | some r => if seq < s.sil.permCount then r.bytes else List.replicate 64 0
    | none => List.replicate 64 0

end Sys2Proof.Machine
end

