-- ==== Sys2Proof/Machine/ResetPower.lean ====
section
/-! DEFINITION. Reset, power and boot (chapters 19 and 20): entry to a reset of each reach, its sources, the start sequences, power states. -/

namespace Sys2Proof.Machine

/-! ## FUNCTION reach (R70, R425, Table 19.8) -/

/-- Every slice as at a slice reset (R425), migration as R132 states; every session object dies, the session epoch of every slice advances (R227), and the counters of its register page return to 0 (R188). -/
def State.slicesReset (s : State) : State :=
  let s := { s with keys := { s.keys with cache := s.keys.cache.filter (fun o => !o.session), epochs := s.keys.epochs + 1 } }
  (s.slices.map fun e => e.1).foldl (fun st n =>
    st.updSlice n fun x => { x with
      windows := [], segments := 0, derivations := 0, verifyFails := 0, wipes := 0, segmentsNow := 0, wipesNow := 0, windowBusy := 0,
      parked := [], resetting := none, resetWritten := false, resetDone := false, resetRings := [], resetCount := 0, resetVault := [], resetBusy := [], creditNext := 0,
      resetHeld := x.resetHeld || decide (x.mig = .restoring),
      mig := if x.mig = .freezing ∨ x.mig = .frozen then .running else x.mig }) s

/-- The host link at reset; the fall of READY raises its source (R72). -/
def HostLink.ended (h : HostLink) : HostLink := { HostLink.reset with fifos := h.fifos, raised := if h.ready then [4096] else [] }

/-- The blocks of FUNCTION reach return to reset. -/
def State.functionReset (s : State) : State :=
  let s := s.endAllJobs.slicesReset.chkFunctionReset.closeTap
  { s with
    host := s.host.ended
    rings := []
    shown := none
    inbox := []
    sched := { s.sched with leaves := s.sched.leaves.filter (fun l => decide (2 ^ 64 ≤ l.job)), deficits := [], fetchNext := 0, idleFrames := 0, idle := false }
    keeper := { s.keeper with
      weirCalls := [], completions := [], gateReturn := [], gateFaultTicks := [], haltNormal := false, nwdtUs := 0, checkins := [], cores := [], coresRunning := false } }

/-! ## WARM reach -/

/-- Lanes at reset: fences stay, roles follow at the start (R135). -/
def State.lanesReset (s : State) : State :=
  let pk := s.lanes.pk.filterMap fun e => if e.2.role = .fenced ∨ e.2.due = .fence then some (e.1, { PkLane.reset with role := .fenced }) else none
  let cl := s.lanes.clusters.filterMap fun e => if e.2.fenced ∨ e.2.due = .fence then some (e.1, { Cluster.reset with fenced := true }) else none
  let sy := s.lanes.sym.filterMap fun e => if e.2.fenced ∨ e.2.due = .fence then some (e.1, { SymLane.reset with fenced := true }) else none
  { s with lanes := { Lanes.reset with pk := pk, clusters := cl, sym := sy } }

/-- The highest-numbered unfenced lanes, PKE_SPARE_COUNT of them, are spares; the others active (R135). -/
def State.assignSpares (s : State) : State :=
  let free := (List.range 24).filter fun n => decide ((s.pkLane n).role ≠ .fenced)
  let spares := free.drop (free.length - s.num Key.PKE_SPARE_COUNT)
  free.foldl (fun st n => st.updPk n fun l => { l with role := if spares.contains n then .spare else .active }) s

/-- The vault controller at reset: the group and all that waits is lost, but for the resolutions that pending pages await; the drives stay attached (R260, R428). -/
def State.vaultReset (s : State) : State :=
  let v := s.comeIntoForce.vault
  let keep := (v.waiting ++ v.group).filter fun x => decide (x.kind = .keep) || decide (x.kind = .rollBack)
  let drop (d : Drive) : Drive := { d with state := .absent, next := none, cmds := [] }
  { s with vault := { v with
    waiting := keep, group := [], groupSince := 0, groupIssued := 0, groupFlushed := false, groupEnded := false, nodes := [], reads := [], d0 := drop v.d0, d1 := drop v.d1 } }

/-- Changes of this unit that a restart finds pending: those in the vault (R260, R339), and pins and counters of jobs, which it settles in the same way (DESIGN CHOICE, assumption log 81). -/
def State.ownRestart (s : State) : List OwnChange :=
  (s.chain.own.filter fun o => match o.record.change with
    | .pin _ => true
    | .unpin _ => true
    | .counter _ _ _ => true
    | c => match changeRun c with | some r => s.vault.locked.contains (r.1 / 8) | none => false).map fun o =>
    { o with job := none, write := none, applyAt := none, queried := none, holders := [], restarted := true }

/-- Logged records whose page had not committed are put in line again (R336). -/
def relog (l : List LogRecord) : List LogRecord := l.map fun r => if (changeRun r.record.change).isSome then { r with applied := false } else r

/-- The chain at a WARM reset: the changes that have their acknowledgements stand (R109), nothing is inserted, exchanges are dropped; address, ticks, replica log and tags stay (R425). -/
def State.chainWarm (s : State) : State :=
  let acked := s.chain.own.filter fun o => o.applyAt.isSome
  let s := acked.foldl (fun st o => ((st.applyEffect o.record.change).settleHeart o.record.change).dropOwn o.record.seq) s
  let j := s.chain.join
  let s := if j = .none ∨ j = .done ∨ j = .failed then s else s.joinWipe .failed
  { s with chain := { s.chain with
    waiting := [], partials := [], heard := [], unreachable := [], early := [], own := s.ownRestart, log := relog s.chain.log,
    helloDue := false, rollCallDue := false, fillCallDue := false, joinLogged := [], joinGrant := none, joinSlots := [],
    transferHearts := [], transferObjects := [], transferMaps := [] } }

/-- A wellspring at a WARM reset: a declared failure stays; any other is tested again (R279). -/
def Wellspring.warm (w : Wellspring) : Wellspring := if w.state = .failed then w else { w with state := .starting, settled := false, passCount := 0, pool := [], failDue := false }

/-- Dictionary values at a reset: those of the reaches that `p` names return to their defaults; acknowledged writes of entries that keep their value stand (R350, R351). -/
def State.dictReset (s : State) (p : Reach → Bool) : State :=
  let s := s.dropEntries p (fun _ => false)
  let stands (k : Nat) : Bool := match attrOfKey k with | some a => !p a.reach && decide (a.reach ≠ .none) | none => false
  let s := { s with dict := { s.dict with
    acked := s.dict.acked.filter (fun w => stands w.1), seenReqs := [], challenges := [], pendingWrites := [], answer := .none } }
  s.setNum Key.SEI_PERIOD_NEXT s.period

/-- The reaches that a WARM and a COLD reset end (Table 14.2). -/
def warmEnds (r : Reach) : Bool := decide (r = .live) || decide (r = .function)
def coldEnds (r : Reach) : Bool := warmEnds r || decide (r = .warm)

/-- A slice at a WARM reset: RUNNING; its counters, SLC_MIG_ERROR and the image it holds stay (R132, Table 5.1), its session epoch goes on (R227). -/
def SliceCtx.warm (c : SliceCtx) : SliceCtx := { SliceCtx.reset with counters := c.counters, epoch := c.epoch, migError := c.migError, image := c.image }
def SliceCtx.cold (c : SliceCtx) : SliceCtx := { SliceCtx.reset with counters := c.counters, epoch := c.epoch }

/-- The blocks of WARM reach return to reset. -/
def State.warmReset (s : State) : State :=
  let s := s.functionReset.silReset.lifeReset.lanesReset.vaultReset.chainWarm
  let s := { s with slices := SMap.mapVals SliceCtx.reset SliceCtx.warm s.slices }
  let k := s.keeper
  let s := { s with
    keeper := { Keeper.reset with swdtExpiries := k.swdtExpiries, nwdtExpiries := k.nwdtExpiries }
    keys := { s.keys with baseKey := none, heartImageKey := none, hearts := [], cache := [], inFlight := [], sweepSeen := [], sweepFresh := [],
                          certifiedLast := [], reload := [], heartsLost := [] }
    ent := { s.ent with w0 := s.ent.w0.warm, w1 := s.ent.w1.warm, drbg := ⟨[], [], false⟩, supply := 0, sinceReseed := 0, framesSinceReseed := 0,
                        reseedDue := false, reseedTest := none, katFailed := false, limited := false, portBytesUsed := 0, keeperPort := false, gatedPort := false }
    chk := []
    wm := []
    sched := { Sched.reset with nextJob := s.sched.nextJob }
    tamper := { s.tamper with respond := [] } }
  s.dictReset warmEnds

/-! ## COLD reach -/

/-- The blocks of COLD reach return to reset. -/
def State.coldReset (s : State) : State :=
  let s := s.warmReset
  let c := s.chain
  let s := { s with
    slices := SMap.mapVals SliceCtx.reset SliceCtx.cold s.slices
    chain := { Chain.reset with domainKey := c.domainKey, own := c.own, log := c.log, tags := c.tags, consumed := c.consumed, peerTags := c.peerTags, seq := c.seq }
    ent := { s.ent with w0 := Wellspring.reset, w1 := Wellspring.reset, held := false }
    keeper := { s.keeper with nwdtExpiries := [] }
    vault := { s.vault with d0 := { s.vault.d0 with perst := true, refclk := false }, d1 := { s.vault.d1 with perst := true, refclk := false } } }
  ceKeys.foldl (fun st k => st.ceClear k st.tick) (s.dictReset coldEnds)

/-! ## Entry (R426, R428, R429) -/

/-- A source of a reach strikes: the blocks of the reach stop. A source no wider than the reset that is held, or narrower than the start that runs, is absorbed; each is recorded. -/
def State.enterReset (s : State) (reach bits_ : Nat) : State :=
  let r := s.rst
  let s := { s with rst := { r with causes := r.causes ||| bits_, dueReach := 0, dueCauses := 0 } }
  let absorbed := (decide (r.power = .held) && decide (reach ≤ r.reach)) || decide (reach < r.starting)
  if absorbed then s
  else
    let s := if reach = 1 then s.functionReset else if reach = 2 then s.warmReset else s.coldReset
    { s with rst := { s.rst with power := .held, reach := reach, starting := 0, awaitDrbg := false, readyDue := false } }

/-- A source that strikes at once. -/
def State.pinReset (s : State) (reach bit : Nat) : State := if s.rst.power = .battery then s else s.enterReset reach (2 ^ bit)

/-- A FUNCTION source of the host: in STANDBY it is recorded and has no further effect (R440). -/
def State.hostReset (s : State) (bit : Nat) : State :=
  if s.rst.power = .standby then { s with rst := { s.rst with causes := s.rst.causes ||| 2 ^ bit } } else s.pinReset 1 bit

/-- PERST_N_ASSERT (R426, R440). -/
def execPerstNAssert (s : State) : Res := .next (s.hostReset 0)
/-- PCIE_HOT_RESET (R426). -/
def execPcieHotReset (s : State) : Res := .next (s.hostReset 1)
/-- PCIE_LINK_DOWN (R426): of a link that is up. -/
def execPcieLinkDown (s : State) : Res := if s.host.linkUp then .next (s.hostReset 2) else .next s
/-- FUNCTION_LEVEL_RESET (R426). -/
def execFunctionLevelReset (s : State) : Res := .next (s.hostReset 3)

/-- RESET_N_LOW (R427). -/
def execResetNLow (s : State) : Res :=
  let s := s.pinReset 2 8
  .next { s with rst := { s.rst with resetNLow := true } }

/-- RESET_N_LONG (R427): bit 18 takes the place of bit 8. -/
def execResetNLong (s : State) : Res :=
  if s.rst.resetNLow then
    let c := s.rst.causes
    let s := { s with rst := { s.rst with causes := if bitOf c 8 then c - 256 else c } }
    .next (s.pinReset 3 18)
  else .next s

/-- The main rails. -/
def mainRails : List Rail := [.v3v3, .io, .serdes1v2, .sram, .core, .serdes0v9, .lane]

/-- A further rail falls after the first (R448); with all of them down the unit is on battery power (Table 19.7). -/
def State.railFalls (s : State) (rail : Rail) : State :=
  let down := if s.rst.railsDown.contains rail then s.rst.railsDown else s.rst.railsDown ++ [rail]
  { s with rst := { s.rst with railsDown := down, power := if mainRails.all fun r => down.contains r then .battery else s.rst.power } }

/-- BROWN_OUT (R426, R448, R449): the first rail to fall strobes ZEROISE_WORKING and holds the unit in a COLD reset; main-domain alarms of the frame are lost, battery-domain ones act as on BATTERY. -/
def execBrownOut (rail : Rail) (s : State) : Res :=
  if s.rst.power = .battery then .next s
  else if s.rst.railsDown ≠ [] then .next (s.railFalls rail)
  else
    let sets := s.tamper.alarms.filter fun x => decide (x.1 ≤ 10)
    let s := { s with tamper := { s.tamper with alarms := [] } }
    let one (st : State) (x : Nat × Nat) : State :=
      (if s.startUp then { st with tamper := { st.tamper with pendingActions := st.tamper.pendingActions ||| x.2 } } else st.batteryAlarm x.1 x.2 0).count (Key.TMP_SRC_ALARMS x.1)
    let s := sets.foldl one s.zeroiseWorking
    let s := s.enterReset 3 (2 ^ 17)
    .next { s with rst := { s.rst with railsDown := [rail] } }

/-- POWER_ON (R441, R448): every rail has reached power-good, and the start may begin. Out of battery power, or at the first power-up, it is a power-on (bit 16); after a brown-out the rails have come back and bit 17 stands alone (R449). -/
def execPowerOn (rails : List Rail) (testModeTied : Bool) (s : State) : Res :=
  if (s.rst.power ≠ .battery ∧ ¬ (s.rst.power = .held ∧ s.rst.reach = 3)) ∨ ¬ (mainRails.all fun r => rails.contains r) then .next s
  else
    let fresh := decide (s.rst.power = .battery) || s.rst.railsDown.isEmpty
    .next { s with rst := { s.rst with
      power := .held, reach := 3, railsDown := [], causes := (if fresh then s.rst.causes ||| 2 ^ 16 else s.rst.causes),
      testMode := !testModeTied, resetNLow := false, powerCycles := (if fresh then (s.rst.powerCycles + 1) % 2 ^ 24 else s.rst.powerCycles) } }

/-! ## Trim and options (R430, R431, Table 19.4) -/

/-- A trim copy's check. -/
def trimIntact (b : Bytes) : Bool := decide (b.length = 512) && leBytes 4 (crc32c (b.take 508)) == b.drop 508

/-- The bitwise majority of three bytes. -/
def maj3 (a b c : Byte) : Byte := (a &&& b) ||| (a &&& c) ||| (b &&& c)

/-- The bitwise majority of the three copies. -/
def trimMajority : Bytes := (List.range 512).map fun i => maj3 ((Config.trimCopy 0).getD i 0) ((Config.trimCopy 1).getD i 0) ((Config.trimCopy 2).getD i 0)

/-- The outcome of the trim load: RST_TRIM_STATE and the record it makes (0 for none). -/
def trimOutcome (choice : Option Nat) : Nat × Nat :=
  let ok := (List.range 3).filter fun n => trimIntact (Config.trimCopy n)
  let same := (ok.any fun a => ok.any fun b => decide (a < b) && Config.trimCopy a == Config.trimCopy b)
  let all := decide (ok.length = 3) && Config.trimCopy 0 == Config.trimCopy 1 && Config.trimCopy 1 == Config.trimCopy 2
  if 2 ≤ ok.length then
    (if same then (0, if all then 0 else 0x2A04)
     else match choice with
      | some n => if ok.contains n then (3, 0x2A02) else (4, 0x2A02)
      | none => (4, 0x2A02))
  else if ok.length = 1 then (1, 0x2A04)
  else if trimIntact trimMajority then (2, 0x2A04)
  else (4, 0x2A02)

/-- The content that Table 19.4 applies: none for the safe default trim. -/
def trimContent (choice : Option Nat) : Option Bytes :=
  let ok := (List.range 3).filter fun n => trimIntact (Config.trimCopy n)
  match (trimOutcome choice).1 with
  | 0 => (ok.find? fun a => ok.any fun b => decide (a < b) && Config.trimCopy a == Config.trimCopy b).map Config.trimCopy
  | 1 => ok.head?.map Config.trimCopy
  | 2 => some trimMajority
  | 3 => choice.map Config.trimCopy
  | _ => none

/-- A cause of LOCK goes; with none left the unit leaves LOCK (R406). -/
def State.dropLockCause (s : State) (bit : Nat) : State :=
  let c := s.num Key.TMP_LOCK_CAUSE
  if bitOf c bit then
    let s := s.setNum Key.TMP_LOCK_CAUSE (c - 2 ^ bit)
    if c = 2 ^ bit then ({ s with tamper := { s.tamper with locked := false } } : State).raise 4097 else s
  else s

/-- The fuse load (step 3). -/
def State.fuseLoad (s : State) : State :=
  let o := trimOutcome s.life.fuses.trimChoice
  let s := { s with rst := { s.rst with trimState := o.1, trim := trimContent s.life.fuses.trimChoice, optionsState := b2n !(Config.optionIntact 0 || Config.optionIntact 1) } }
  let s := if o.2 = 0 then s else s.event o.2
  let s := if o.1 = 4 then s.enterLock 2 else if o.1 = 3 then s.dropLockCause 2 else s
  if s.rst.optionsState = 1 then s.event 0x2A04 else s

/-! ## Strap and image (R432, R435) -/

/-- The code that at least 12 of 16 conversions return. -/
def strapCode (conv : List Nat) : Option Nat := (List.range 16).find? fun c => decide (12 ≤ (conv.take 16).countP fun x => x == c)

/-- The strap read (step 4). -/
def State.strapRead (s : State) (conv : List Nat) : State :=
  match strapCode conv with
  | some c => { s with rst := { s.rst with strap := c } }
  | none => { s with rst := { s.rst with strap := 0 } }.event 0x2A03

/-- RST_BOOT_NEXT: the strap's first-boot slot until it is written. -/
def State.bootNext (s : State) : Nat := if s.num Key.RST_BOOT_NEXT = 2 then strapSlot s.rst.strap else s.num Key.RST_BOOT_NEXT

/-- The boot ROM accepts an image. -/
def imageOk (i : ImageInfo) : Bool := i.keysHash == fit 32 Config.vendorHash && i.signaturesOk

/-- Image selection (step 7); none when both are refused. -/
def State.imageSelect (s : State) (boot : Boot) : Option State :=
  let info (n : Nat) : ImageInfo := if n = 0 then boot.slotA else boot.slotB
  let take (st : State) (n : Nat) (fb : Bool) : State := { st with rst := { st.rst with
    bootSlot := n, bootFallback := fb, fwRelease := (info n).release.take 32, fwMeasurement := fit 32 (info n).measurement } }
  let n := s.bootNext
  if imageOk (info n) then some (take s n false)
  else if imageOk (info (1 - n)) then some ((take s (1 - n) true).event 0x2A05)
  else none

/-! ## Keys and vault (R218, R219, R221, R260) -/

/-- The base secret found or drawn (R218). -/
def State.baseSecretForm (s : State) : State :=
  match (match s.keys.baseSecret with | some b => some b | none => s.keys.baseSecret2) with
  | some b => { s with keys := { s.keys with baseSecret := some b, baseSecret2 := some b, baseState := 1 } }
  | none =>
    let d := s.draw 32
    let m := d.2.draw 32
    let s := m.2
    { s with
      keys := { s.keys with baseSecret := some d.1, baseSecret2 := some d.1, mramKey := some m.1, baseState := 2 }
      chain := { s.chain with domainKey := none } }

/-- The base key and the heart-image key (R219). -/
def State.baseKeyForm (s : State) : State :=
  let b := kmac256 (fit 32 Config.root) (s.keys.baseSecret.getD []) 32 (ascii "ILYAR-BASE")
  { s with keys := { s.keys with baseKey := some b, heartImageKey := some (kmac256 b (s.keys.mramKey.getD []) 32 (ascii "ILYAR-HEARTS")) } }

/-- Heart images opened (R221); an image that fails while the base secret stands is recorded. -/
def State.loadHearts (s : State) : State :=
  s.keys.images.foldl (fun st e =>
    match e.2 with
    | none => st
    | some i =>
      match st.keys.heartImageKey.bind fun k => openImage k e.1 i with
      | some h => st.setHeart e.1 h
      | none =>
        let st := st.heartFails e.1 i
        if st.keys.baseState = 2 then st else st.eventOf 221) s

/-- A drive is there and may serve. -/
def State.present (s : State) (p : Nat) : Bool :=
  (s.drive p).link && decide (p < strapDrives s.rst.strap) && s.num (Key.VLT_PORT_OFFLINE p) == 0 &&
    decide (blocksFor (s.vault.formatting.getD s.pages) ≤ (s.drive p).size)

/-- A drive's level-5 node is found and matches a root. -/
def State.holdsRoot (s : State) (p : Nat) (r : Root) : Bool := s.present p && (s.drive p).holdsRoot r

/-- The candidate of highest sequence that a drive holds. -/
def State.rootChoice (s : State) : Option Root := s.bestRoot fun r => s.holdsRoot 0 r || s.holdsRoot 1 r

/-- Two candidates of the chosen sequence match against different drives with different hashes. -/
def State.rootClash (s : State) (c : Root) : Bool :=
  s.rootCandidates.any fun r => r.seq == c.seq && r.hash != c.hash && (s.holdsRoot 0 r || s.holdsRoot 1 r)

/-- A drive there has a valid header for VLT_PAGES (R250). -/
def State.headed (s : State) (p : Nat) : Bool := s.present p && (s.drive p).headerPages == some s.pages

/-- Each port's state at a start: serving drives named by `mirror`, others as found; the reference is forwarded, PERST_N low until it is stable (R433). -/
def State.portsStart (s : State) (mirror : Nat → Bool) : State :=
  (List.range 2).foldl (fun st p =>
    st.updDrive p fun d => { d with
      state := if st.num (Key.VLT_PORT_OFFLINE p) ≠ 0 then .offline else if !d.link || decide (strapDrives st.rst.strap ≤ p) then .absent
               else if !s.present p then .out else if mirror p then .inMirror else if mirror (1 - p) then .resilvering else .out,
      next := none, refclk := true, perst := true }) s

/-- VLT_STATE set at a start; DEGRADED raises its event, a vault out of service is recorded. -/
def State.vaultAt (s : State) (v : VaultState) : State :=
  let s := if v = .degraded then s.raise 4098 else s
  let s := if v = .unavailable ∨ v = .rootConflict then s.event 0x2301 else s
  { s with vault := { s.vault with state := v } }

/-- The vault at a start (R260, R264, R267). -/
def State.vaultStart (s : State) : State :=
  if strapDrives s.rst.strap = 0 then (s.portsStart fun _ => false).vaultAt .absent
  else if s.vault.formatting.isSome then (s.portsStart s.present).vaultAt .formatting
  else if !s.headed 0 ∧ !s.headed 1 ∧ (s.present 0 ∨ s.present 1 ∨ s.rootCandidates = []) then
    (s.portsStart s.present).vaultAt .unformatted
  else match s.rootChoice with
    | none => (s.portsStart fun _ => false).vaultAt .unavailable
    | some c =>
      if s.rootClash c then (s.portsStart fun _ => false).vaultAt .rootConflict
      else
        let s := s.takeRoot c
        let s := s.portsStart fun p => s.headed p && s.holdsRoot p c && !s.unfinished p
        let s := (List.range 2).foldl (fun st p => if (st.drive p).state = .resilvering ∧ !st.unfinished p then st.startCopy p else st) s
        s.vaultAt (if s.mirror.length = 2 then .online else .degraded)

/-! ## Starts (R434, R436) -/

/-- The end of a start (R429): causes, reach and count; the record and READY follow at the next tick (Table 19.3). -/
def State.endStart (s : State) (reach : Nat) : State :=
  let s := (s.setNum Key.RST_CAUSE s.rst.causes).setNum Key.RST_LAST_REACH reach
  let s := (s.count (Key.RST_COUNT (reach - 1))).eventNext 0x2A01
  { s with rst := { s.rst with power := .run, reach := 0, causes := 0, starting := 0, awaitDrbg := false, readyDue := true, fromStandby := false } }

/-- Pinned objects are reloaded (R232). -/
def State.readyReload (s : State) : State := s.reloadPins

/-- READY reads 1 (step 12, R436): not under secure invasive debug (R308), nor in a transition (R392). -/
def State.setReady (s : State) : State :=
  let s := { s with rst := { s.rst with readyDue := false } }
  if bitOf s.keeper.debugState 3 || s.life.transition.isSome then s
  else
    let s := (({ s with host := { s.host with ready := true } } : State).raise 4096).event 0x1001
    s.readyReload

/-- The battery domain found blank (R386). -/
def State.blankStart (s : State) : State :=
  if !s.tamper.batteryBlank then s
  else
    let s := (s.dropEntries (fun r => decide (r = .cold)) fun _ => false).event 0x2721
    let s := { s with tamper := { s.tamper with locked := decide (s.rst.trimState = 4), batteryBlank := false } }
    let s := if s.rst.trimState = 4 then s.setNum Key.TMP_LOCK_CAUSE 4 else s
    if s.lifeCycle = 2 then s.enterLock 3 else s

/-- A pending zeroise at a start: what is not formed anew by the start itself (R385). -/
def State.pendingZeroise (s : State) : State :=
  let p := s.tamper.pendingActions
  if bitOf p 6 then
    let s := s.zeroiseBattery
    { s with keys := { s.keys with mramKey := none }, chain := { s.chain with domainKey := none } }
  else s

/-- Steps 10 and 11 of a start, once the DRBG serves. -/
def State.startFinish (s : State) : State :=
  let reach := s.rst.starting
  let third := bitOf s.rst.causes 9 && decide (3 ≤ (s.recentExpiries s.keeper.swdtExpiries).length)
  let s := s.blankStart.pendingZeroise.baseSecretForm.baseKeyForm
  let s := s.applyPending.loadHearts.vaultStart
  let s := if third then s.enterLock 1 else s
  let s := { s with
    keeper := { s.keeper with guardOn := true, coresRunning := true, swdtArmed := true, swdtUs := 0, swdtPeriodNow := s.num Key.KPR_SWDT_PERIOD, nwdtUs := 0 } }
  s.serveHeld.endStart reach

/-- A start that cannot go on makes a battery log record and stays where it is. -/
def State.bootStops (s : State) : State := s.batRecord 0 0 0 2

/-- A start from the trim load on, up to the wait for the DRBG. -/
def State.startFrom (s : State) (reach : Nat) (boot : Boot) : State :=
  if !boot.romOk then s.bootStops
  else if s.lifeCycle = 4 then { s with rst := { s.rst with scrapped := true } }
  else match s.imageSelect boot with
    | none => s.bootStops
    | some s =>
      let s := s.transitionResume
      if s.lifeCycle = 4 then { s with rst := { s.rst with scrapped := true } }
      else
        let s := s.assignSpares
        { s with
          wm := []
          keeper := { s.keeper with running := true, loaded := true }
          rst := { s.rst with power := .run, starting := reach, awaitDrbg := true, resetNLow := false } }

/-- COLD_START (R434): out of a COLD reset with every rail good and TEST_MODE tied; ticks from 0. -/
def execColdStart (strap : List Nat) (boot : Boot) (s : State) : Res :=
  if s.rst.power = .held ∧ s.rst.reach = 3 ∧ s.rst.railsDown = [] ∧ !s.rst.testMode ∧ !s.rst.scrapped then
    let s := { s with tick := 0, window := false, dict := { s.dict with ceSince := [] } }
    let s := (s.fuseLoad.strapRead strap)
    let s := { s with chain := { s.chain with helloDue := !s.tunnelOn } }
    .next (s.startFrom 3 boot)
  else .next s

/-- WARM_START (R434): out of a WARM reset. -/
def execWarmStart (boot : Boot) (s : State) : Res :=
  if s.rst.power = .held ∧ s.rst.reach = 2 ∧ !s.rst.scrapped then .next (s.fuseLoad.startFrom 2 boot) else .next s

/-- Working memory outside Keeper staging scrubbed (R293). -/
def State.scrubNormal (s : State) : State := s.scrubWords fun w => !(decide (0x20000 ≤ w) && decide (w < 0x30000))

/-- A pending reset is taken at the return from STANDBY (R385). -/
def State.pendingReset (s : State) (p : Nat) : State :=
  if bitOf p 4 then s.resetDue 3 19 else if bitOf p 3 || bitOf p 6 then s.resetDue 2 12 else s

/-- FUNCTION_START (R436): out of a FUNCTION reset; after STANDBY also the pending tamper actions, and the vault's ports come back (R440). -/
def execFunctionStart (s : State) : Res :=
  if s.rst.power = .held ∧ s.rst.reach = 1 then
    let s := s.scrubNormal
    let s := { s with keeper := { s.keeper with coresRunning := true, nwdtUs := 0 } }
    let p := s.tamper.pendingActions
    let s := if s.rst.fromStandby then
        let s := if bitOf p 6 then s.zeroiseAll else if bitOf p 5 then s.zeroiseWorking else s
        (s.applyPending.vaultStart).pendingReset p
      else s
    .next (s.endStart 1)
  else .next s

/-! ## STANDBY and IDLE (R438 to R440) -/

/-- A write of RST_STANDBY = 1 is permitted (R439). -/
def State.standbyAllowed (s : State) : Bool :=
  !(s.rings.any fun e => e.2.enabled || s.busy e.1) && s.jobs.isEmpty && !((List.range 4).any fun u => (s.chkUnit u).state == 1) && s.vault.group.isEmpty

/-- STANDBY begins (R439, Table 19.8). -/
def State.standbyOn (s : State) : State :=
  let s := s.slicesReset.lanesReset.assignSpares
  let s := { s with
    host := s.host.ended
    rings := []
    shown := none
    inbox := []
    keys := { s.keys with cache := [] }
    keeper := { s.keeper with cores := [], coresRunning := false, weirCalls := [], checkins := [] }
    rst := { s.rst with power := .standby } }
  let s := s.vaultReset
  { s with vault := { s.vault with d0 := { s.vault.d0 with refclk := false }, d1 := { s.vault.d1 with refclk := false }, state := if s.vault.state = .online ∨ s.vault.state = .degraded then .unavailable else s.vault.state } }

/-- A write of RST_STANDBY = 0 in STANDBY: a FUNCTION reset with cause bit 6. -/
def State.standbyOff (s : State) : State :=
  let s := s.enterReset 1 (2 ^ 6)
  { s with rst := { s.rst with fromStandby := true } }

/-- IDLE_ENTRY (R438): RST_IDLE_FRAMES frames without work. -/
def execIdleEntry (s : State) : Res :=
  if s.rst.power = .run ∧ s.num Key.RST_IDLE_FRAMES ≤ s.sched.idleFrames then .next { s with sched := { s.sched with idle := true } } else .next s

end Sys2Proof.Machine
end

