-- ==== Sys2Proof/Machine/DictRead.lean ====
section
/-! DEFINITION. What the entries of the object dictionary read as: the values that the blocks keep, and the stored ones; the snapshots of the sillage log. -/

namespace Sys2Proof.Machine

/-! ## Codes -/

def VaultState.code : VaultState → Nat
  | .absent => 0 | .unformatted => 1 | .formatting => 2 | .online => 3 | .degraded => 4 | .unavailable => 5 | .rootConflict => 6

def PortState.code : PortState → Nat
  | .absent => 0 | .resilvering => 1 | .inMirror => 2 | .out => 3 | .offline => 4

def SrcState.code : SrcState → Nat
  | .starting => 0 | .healthy => 1 | .failed => 2 | .tapped => 3

def JoinState.code : JoinState → Nat
  | .none => 0 | .attesting => 1 | .confirming => 2 | .transferring => 3 | .done => 4 | .failed => 5

def MigState.code : MigState → Nat
  | .running => 0 | .freezing => 1 | .frozen => 2 | .saving => 3 | .saved => 4 | .moved => 5 | .restoring => 6

def HandState.code : HandState → Nat
  | .settled => 0 | .releasing => 1 | .wiping => 2

/-- WSP_PORT_STATE (Table 11.4). -/
def State.portState (s : State) : Nat :=
  if s.ent.keeperPort then 4
  else match s.ent.supply with
    | 0 => 0 | 1 => 1 | 2 => 2 | 3 => 2 | _ => 3

/-- RST_GATE_STATUS (R442). -/
def Block.gateStatus (b : Block) : Nat := if b.deferred then 2 else if b.gateDraining then 3 else b2n b.gated

/-- A number's two's complement in 32 bits. -/
def i32 (x : Int) : Nat := (x % 2 ^ 32).toNat

/-- CHN_STATE (Table 13.11). -/
def State.chainState (s : State) : Nat :=
  let c := s.chain
  b2n c.lockA + 2 * b2n c.lockB + 4 * b2n c.loopA + 8 * b2n c.loopB + 16 * b2n c.holdover +
    32 * b2n (decide (1 ≤ s.kInForce) && !s.majority) + 64 * b2n (decide (40000 < c.offset.natAbs)) + 128 * b2n c.acting

/-- Leave requests that wait (R46). -/
def State.leaveWaiting (s : State) : Nat :=
  (s.jobs.filter fun j => j.leaveAsked.isSome && j.leaveUntil.isNone).length +
  ((List.range 4).filter fun u => (s.chkUnit u).leaveAsked.isSome && (s.chkUnit u).leaveUntil.isNone).length +
  ([s.sched.copyLeave, s.sched.transferLeave].filter fun c => c.asked.isSome && c.last.isNone).length

/-- KPR_COLOUR_FREE: colours 1 to 12 with no live context. -/
def State.colourFree (s : State) : Nat :=
  maskOf ((List.range 13).filter fun c => decide (1 ≤ c) && !s.jobs.any fun j => !j.granules.isEmpty && j.colour == c)

/-- VLT_CONFLICT_OBJECTS. -/
def State.conflictObjects (s : State) : Nat :=
  (s.vault.tree.filter fun e => decide (e.1 < 2 ^ 32) && e.2.conflict).foldl (fun a e => a + (s.conflictPage e.1).2.length) 0

/-- KEY_CACHE_PINNED. -/
def State.cachePinned (s : State) : Nat :=
  (s.keys.cache.filter fun o => o.session || s.keys.pins.contains o.handle).foldl (fun a o => a + o.entries) 0

def State.heartsIn (s : State) (h : HeartState) : Nat := (s.keys.hearts.filter fun e => decide (e.2.state = h)).length

/-- Officers enrolled: slots with a non-zero algorithm. -/
def State.enrolled (s : State) : List Nat := (List.range 16).filter fun n => decide (s.num (Key.OFC_ALGORITHM n) ≠ 0)

/-- An officer's public key. -/
def State.officerKey (s : State) (n : Nat) : Bytes := s.oct (Key.OFC_KEY_PART0 n) ++ s.oct (Key.OFC_KEY_PART1 n)

/-- OFC_KEY_DIGEST: zeros for a slot without a key. -/
def State.officerDigest (s : State) (n : Nat) : Bytes :=
  if s.officerKey n = [] then List.replicate 8 0 else (sha3_256 (s.officerKey n)).take 8

/-! ## Numbers that the blocks keep -/

/-- Unit, chain, seiche and host-link entries. SEI_ALIGN_OFFSET is the offset in picoseconds as whole nanoseconds, rounded down (DESIGN CHOICE, assumption log 79). -/
def State.liveUnit (s : State) (index sub : Nat) : Option Nat :=
  match index, sub with
  | 0x1000, 3 => some s.lifeCycle
  | 0x1000, 4 => some (b2n s.host.ready)
  | 0x1000, 5 => some (b2n s.tamper.locked)
  | 0x1000, 6 => some s.rst.bootSlot
  | 0x1000, 7 => some s.rst.strap
  | 0x1000, 8 => some (s.rst.seconds % 2 ^ 40)
  | 0x1000, 9 => some (s.rst.powerCycles % 2 ^ 24)
  | 0x1000, 10 => some (i32 s.rst.junction)
  | 0x1100, 1 => some s.chain.address
  | 0x1100, 2 => some (b2n s.tunnelOn)
  | 0x1100, 3 => some s.chainState
  | 0x1100, 4 => some s.chain.roundTrip
  | 0x1101, 8 => some s.chain.join.code
  | 0x1102, 4 => some s.chain.log.length
  | 0x1200, 4 => some (s.tick % 2 ^ 64)
  | 0x1200, 5 => some (b2n s.chain.tickSource)
  | 0x1200, 6 => some (i32 (s.chain.offset / 1000))
  | 0x1201, 1 => some s.capPk
  | 0x1201, 2 => some s.capSym
  | 0x1201, 3 => some s.totalPk
  | 0x1201, 4 => some s.totalSym
  | 0x1201, 7 => some s.boundState
  | 0x1202, 5 => some s.sched.reservoir
  | 0x1204, 3 => some s.leaveWaiting
  | 0x1300, 1 => some s.host.gen
  | 0x1300, 2 => some s.host.width
  | 0x1300, 3 => some (b2n s.host.pasidEnable)
  | 0x1300, 5 => some (fetchPerFrame s.period)
  | 0x1330, 1 => some (s.ceRead Key.HST_FIFO_CE)
  | _, _ => none

/-- Lane, wellspring and vault entries. -/
def State.liveLanes (s : State) (index sub : Nat) : Option Nat :=
  if index = 0x2020 then some (s.cluster (sub - 1)).demand
  else if index = 0x2011 then some (s.ceRead (Key.PKE_OPMEM_CE (sub - 1)))
  else match index, sub with
    | 0x2000, 2 => some s.activePk.length
    | 0x2000, 3 => some (maskOf (s.pkWith .spare))
    | 0x2000, 4 => some (maskOf (s.pkWith .comingSpare))
    | 0x2000, 5 => some (maskOf (s.pkWith .fenced))
    | 0x2021, 1 => some (maskOf ((List.range 6).filter fun n => (s.cluster n).fenced))
    | 0x2100, 1 => some s.activeSym.length
    | 0x2100, 2 => some (maskOf ((List.range 8).filter fun n => (s.symLane n).fenced))
    | 0x2100, 4 => some (maskOf ((List.range 8).filter fun n => (s.symLane n).keeper))
    | 0x2100, 5 => some s.outputBudget
    | 0x2200, 1 => some s.ent.supply
    | 0x2200, 2 => some s.portState
    | 0x2200, 3 => some s.ent.sinceReseed
    | 0x2201, 1 => some s.ent.w0.state.code
    | 0x2201, 4 => some s.ent.w0.fails
    | 0x2202, 1 => some s.ent.w1.state.code
    | 0x2202, 4 => some s.ent.w1.fails
    | 0x2300, 1 => some s.vault.state.code
    | 0x2300, 4 => some s.vault.root.seq
    | 0x2300, 7 => some s.vault.locked.length
    | 0x2300, 8 => some s.conflictObjects
    | 0x2310, 1 => some s.vault.d0.state.code
    | 0x2311, 1 => some s.vault.d1.state.code
    | _, _ => none

/-- Key-tree and Keeper entries. -/
def State.liveKeeper (s : State) (index sub : Nat) : Option Nat :=
  if 0x2510 ≤ index ∧ index < 0x2520 then
    (let r := s.region (index - 0x2510)
     match sub with
     | 1 => some r.base | 2 => some r.size | 3 => some r.subOff | 4 => some r.perm | 5 => some (b2n r.lock) | 6 => some (b2n r.enable)
     | _ => none)
  else match index, sub with
    | 0x2400, 1 => some s.cacheUsed
    | 0x2400, 2 => some s.cachePinned
    | 0x2400, 4 => some (s.ceRead Key.KEY_CACHE_CE)
    | 0x2402, 1 => some (s.heartsIn .live)
    | 0x2402, 2 => some (s.heartsIn .spent)
    | 0x2402, 3 => some s.keys.baseState
    | 0x2501, 1 => some s.colourFree
    | 0x2501, 3 => some (s.ceRead Key.KPR_WM_CE)
    | 0x2502, 1 => some (b2n s.keeper.guardOn)
    | 0x2520, 1 => some (maskOf ((List.range 7).filter fun b => (s.block b).keeperOwns))
    | 0x2520, 3 => some ((List.range 7).foldl (fun a b => a + 4 ^ b * (s.block b).hand.code) 0)
    | 0x2530, 1 => some s.keeper.debugState
    | 0x2540, 3 => some (s.recentExpiries s.keeper.swdtExpiries).length
    | 0x2541, 2 => some (maskOf s.keeper.checkins)
    | 0x2541, 3 => some (s.recentExpiries s.keeper.nwdtExpiries).length
    | _, _ => none

/-- Check-value, tamper, life-cycle, sillage and reset entries. -/
def State.liveGuard (s : State) (index sub : Nat) : Option Nat :=
  if 0x2610 ≤ index ∧ index < 0x2614 then
    (let u := s.chkUnit (index - 0x2610)
     match sub with
     | 10 => some u.running | 11 => some u.shown | 13 => some u.state | 14 => some u.result | 15 => some u.fault
     | _ => none)
  else if 0x2710 ≤ index ∧ index < 0x2728 ∧ sub = 4 then
    (let n := index - 0x2710
     some (b2n (s.tamper.latched.contains n) + 2 * b2n (s.tmpSrc n).condition + 4 * b2n (bitOf (s.num Key.TMP_ARM) n)))
  else if 0x2950 ≤ index ∧ index < 0x2960 then some (s.silSuppressed (silCode (index - 0x2950) sub))
  else if index = 0x2A11 then some (s.block (sub - 1)).gateStatus
  else match index, sub with
    | 0x2700, 1 => some (maskOf s.tamper.latched)
    | 0x2700, 4 => some s.conditions
    | 0x2700, 7 => some s.tamper.pendingActions
    | 0x2800, 1 => some s.lifeCycle
    | 0x2800, 2 => some s.progress
    | 0x2800, 4 => some (b2n s.life.fuses.vendorTest)
    | 0x2802, 5 => some s.life.certState
    | 0x2802, 6 => some s.life.certError
    | 0x2802, 7 => some s.life.grantRights
    | 0x2802, 8 => some s.grantRemaining
    | 0x2900, 1 => some s.sil.nextSeq
    | 0x2900, 2 => some s.sil.firstSeq
    | 0x2900, 3 => some s.sil.permCount
    | 0x2900, 6 => some (min 1024 (s.sil.queue.filter fun e => e.made.isSome).length)
    | 0x2A01, 1 => some s.bootNext
    | 0x2A01, 2 => some (b2n s.rst.bootFallback)
    | 0x2A02, 1 => some s.rst.trimState
    | 0x2A02, 2 => some s.rst.optionsState
    | 0x2A03, 1 => some (if s.rst.power = .standby then 2 else b2n s.sched.idle)
    | _, _ => none

/-- Slice, ring-pair, heart and officer entries. -/
def State.liveNumbered (s : State) (index sub : Nat) : Option Nat :=
  if 0x3000 ≤ index ∧ index < 0x3400 then
    (let n := index - 0x3000
     match sub with
     | 11 => some (s.creditCeiling n)
     | 12 => some (s.creditOut n)
     | 13 => some ((s.slice n).c0UsePk + 65536 * (s.slice n).c0UseSym)
     | 17 => some (s.slice n).mig.code
     | 18 => some (s.slice n).migError
     | _ => none)
  else if 0x4000 ≤ index ∧ index < 0x5000 ∧ sub = 3 then some (s.rngState (index - 0x4000))
  else if 0x8000 ≤ index ∧ index < 0xC000 then
    (let h := s.heart (index - 0x8000)
     match sub with
     | 1 => some h.state.code | 2 => some h.generation | 3 => some h.owner | 6 => some (b2n h.certified) | 7 => some h.lastChange
     | _ => none)
  else match index, sub with
    | 0xC000, 2 => some s.enrolled.length
    | 0xC000, 4 => some s.dict.pendingWrites.length
    | 0xC001, 5 => some (maskOf ((List.range 4).filter fun n => !allZero (s.oct (Key.OFC_ROLE_KEY n))))
    | _, _ => none

/-- The number of an entry that a block keeps; none where the dictionary stores it. -/
def State.liveNum (s : State) (index sub : Nat) : Option Nat :=
  if index < 0x2000 then s.liveUnit index sub
  else if index < 0x2400 then s.liveLanes index sub
  else if index < 0x2600 then s.liveKeeper index sub
  else if index < 0x3000 then s.liveGuard index sub
  else s.liveNumbered index sub

/-! ## Byte strings that the blocks keep -/

def State.liveOct (s : State) (index sub : Nat) : Option Bytes :=
  if 0x2930 ≤ index ∧ index < 0x2940 then
    some (((Config.snapshotMap (silCode (index - 0x2930) sub)).take 8).map fun k => leBytes 2 (k / 256) ++ [byteOf (k % 256)]).flatten
  else if index = 0x2902 then some (s.silRead (s.num (Key.SIL_CURSOR (sub - 1))))
  else if 0x3000 ≤ index ∧ index < 0x3400 ∧ sub = 21 then some (s.chunkSeen (index - 0x3000) (s.num (Key.SLC_IMAGE_CURSOR (index - 0x3000))))
  else if 0xC010 ≤ index ∧ index < 0xC020 ∧ sub = 4 then some (s.officerDigest (index - 0xC010))
  else match index, sub with
    | 0x1000, 2 => some s.rst.fwRelease
    | 0x2403, 1 => some lotId
    | 0x2403, 2 => some (fit 32 s.rst.fwMeasurement)
    | 0x2800, 5 => some ((fit 32 Config.vendorHash).take 8)
    | 0x2800, 6 => some (((s.authorityHash 2).getD (List.replicate 8 0)).take 8)
    | 0x2801, 2 => some (match s.life.challenge with | some c => c.1 | none => List.replicate 16 0)
    | 0x2802, 3 => some (SMap.get zeroSlot s.life.cert (s.num Key.LCS_CERT_CURSOR))
    | _, _ => none

/-! ## Reading an entry -/

/-- The value of an entry's key (R348). -/
def State.entryValue (s : State) (a : Attr) (key : Nat) : DVal :=
  if a.octets then .octets ((s.liveOct (key / 256) (key % 256)).getD (s.oct key))
  else .num ((s.liveNum (key / 256) (key % 256)).getD (s.num key))

/-- The value field of an entry, as a reply carries it (R349). -/
def State.valueField (s : State) (a : Attr) (key : Nat) : Bytes := a.bytesOf (s.entryValue a key)

/-- The snapshot of an event code (R418): its entries' values, four bytes each. -/
def State.snapshot (s : State) (code : Nat) : Nat × Bytes :=
  let keys := (Config.snapshotMap code).take 8
  let slot (k : Nat) : Bytes := match attrOfKey k with
    | some a => fit 4 (s.valueField a k)
    | none => [0, 0, 0, 0]
  (keys.length, fit 32 (keys.map slot).flatten)

end Sys2Proof.Machine
end

