-- ==== Sys2Proof/Machine/ApplyWrites.lean ====
section
/-! DEFINITION. What an acknowledged write does when it is applied, in step 5 of the housekeeping window (R25, R352, R357): the stored value, and what the entry's own rule adds. -/

namespace Sys2Proof.Machine

/-- A write that changes RNG_SLICE (R133): the next tick sets the ring pair's bases and K to 0; an enable accepted before the change, and not shown yet, fails with ERROR 4. -/
def State.moveRing (s : State) (n v : Nat) : State :=
  if s.ringSlice n = v then s
  else (s.setNum (Key.RNG_SLICE n) v).updRing n fun r =>
    { r with moveDue := true, startDue := none,
             errorDue := if r.startDue.isSome then some (s.tick + 1, 4) else r.errorDue }

/-- A write of K, W or the response of a source restarts its count (R375). -/
def State.setSource (s : State) (key n v : Nat) : State :=
  let s := s.setNum key v
  s.setTmpSrc n { s.tmpSrc n with events := [] }

/-- A write of KPR_WEIR_VALID (R297): calls queued on weirs whose bit is cleared are withdrawn. -/
def State.setWeirs (s : State) (v : Nat) : State :=
  let gone := s.keeper.weirCalls.filter fun c => !bitOf v c.weir
  let s := s.setNum Key.KPR_WEIR_VALID v
  { s with keeper := { s.keeper with
    weirCalls := s.keeper.weirCalls.filter (fun c => bitOf v c.weir),
    completions := s.keeper.completions ++ gone.map fun c => (c.core, c.weir, 2, []) } }

/-- A region field written by the Keeper: it takes effect at the re-enable of the guard (R299). -/
def State.setRegion (s : State) (n sub v : Nat) : State :=
  let r := SMap.get Region.none s.keeper.regionsNew n
  let r := match sub with
    | 1 => { r with base := v } | 2 => { r with size := v } | 3 => { r with subOff := v } | 4 => { r with perm := v }
    | 5 => { r with lock := v != 0 } | _ => { r with enable := v != 0 }
  { s with keeper := { s.keeper with regionsNew := SMap.set Region.none n r s.keeper.regionsNew } }

/-- A write of RST_STANDBY (R439, R440). -/
def State.setStandby (s : State) (v : Nat) : State :=
  let s := s.setNum Key.RST_STANDBY v
  if v ≠ 0 then (if s.rst.power = .run then s.standbyOn else s) else if s.rst.power = .standby then s.standbyOff else s

/-- A write of RST_GATE_REQUEST of a block (R442). -/
def State.setGate (s : State) (b v : Nat) : State :=
  let s := s.setNum (Key.RST_GATE_REQUEST b) v
  if v ≠ 0 then s.gateRequest b else s.ungateNow b

/-- The slot of an officer is written: its approvals no longer count, nor a self-approval for it (R362). -/
def State.dropOfficer (s : State) (n : Nat) : State :=
  let one (w : PendingWrite) : PendingWrite :=
    { w with officers := w.officers.filter (fun o => decide (o ≠ n)), selfApproved := w.selfApproved && decide (entryKey w.req.index w.req.sub ≠ Key.OFC_ALGORITHM n) }
  let held (c : Challenge) : Challenge := { c with approvals := c.approvals.filter fun a => decide (a.1 ≠ n) }
  { s with dict := { s.dict with pendingWrites := s.dict.pendingWrites.map one, challenges := s.dict.challenges.map held } }

/-- Unit, lane and vault entries whose write does more than store a value. -/
def State.applyLow (s : State) (index sub key v : Nat) : State :=
  match index, sub with
  | 0x1101, 4 => s.foundDomain
  | 0x1101, 5 => s.joinStart v
  | 0x2000, 1 => s.setSpareCount v
  | 0x2000, 6 => s.unfencePk v
  | 0x2021, 2 => s.unfenceLat v
  | 0x2100, 3 => s.unfenceSym v
  | 0x2300, 3 => s.startFormat v
  | 0x2300, 5 => s.rootSelect v
  | 0x2310, 2 => s.portOffline 0 v
  | 0x2311, 2 => s.portOffline 1 v
  | 0x2500, 1 => s.setWeirs v
  | _, _ => if 0x2510 ≤ index ∧ index < 0x2520 then s.setRegion (index - 0x2510) sub v else s.setNum key v

/-- Check-value, tamper, life-cycle, sillage, reset, slice and ring-pair entries whose write does more than store a value. -/
def State.applyHigh (s : State) (index sub key v : Nat) : State :=
  if 0x2610 ≤ index ∧ index < 0x2614 then
    (let u := index - 0x2610
     if sub = 12 then s.chkCommand u v
     else if sub = 10 then s.updChk u fun c => { c with running := v }
     else s.setNum key v)
  else if 0x2710 ≤ index ∧ index < 0x2728 ∧ sub ≤ 3 then s.setSource key (index - 0x2710) v
  else if index = 0x2A10 then s.setGate (sub - 1) v
  else if 0x3000 ≤ index ∧ index < 0x3400 ∧ sub = 16 then s.migCommand (index - 0x3000) v
  else if 0x4000 ≤ index ∧ index < 0x5000 ∧ sub = 1 then s.moveRing (index - 0x4000) v
  else if 0xC010 ≤ index ∧ index < 0xC020 ∧ sub = 1 then (s.setNum key v).dropOfficer (index - 0xC010)
  else match index, sub with
    | 0x2700, 2 => s.clearLatches v
    | 0x2700, 6 => s.clearLock
    | 0x2800, 3 => s.transitionStart v
    | 0x2801, 1 => s.lifeChallenge
    | 0x2802, 4 => s.certApply
    | 0x2802, 9 => s.endGrantNext
    | 0x2803, 1 => s.trimSelect v
    | 0x2900, 4 => s.silClear s.snapshot
    | 0x2A00, 3 => s.resetDue 2 11
    | 0x2A03, 2 => s.setStandby v
    | _, _ => s.setNum key v

/-- A byte string written. -/
def State.applyOctets (s : State) (index sub key : Nat) (b : Bytes) : State :=
  if 0x3000 ≤ index ∧ index < 0x3400 ∧ sub = 21 then s.imageWrite (index - 0x3000) b
  else if 0xC010 ≤ index ∧ index < 0xC020 then (s.setOct key b).dropOfficer (index - 0xC010)
  else match index, sub with
    | 0x1101, 7 => s.joinConfirm
    | 0x2802, 3 => s.certWrite b
    | _, _ => s.setOct key b

/-- An acknowledged write as it is applied (R357): 0 written to a counter of corrected errors starts it anew at the tick. -/
def State.applyWrite (s : State) (w : Nat × DVal) : State :=
  let index := w.1 / 256
  let sub := w.1 % 256
  match w.2 with
  | .num v => if ceKeys.contains w.1 then s.ceClear w.1 (s.tick + 1) else if index < 0x2600 then s.applyLow index sub w.1 v else s.applyHigh index sub w.1 v
  | .octets b => s.applyOctets index sub w.1 b

/-- A write of HST_MSIX_MAP: the messages of the next tick still use the old vector (R73). -/
def mapWrite (w : Nat × DVal) : Bool := decide (Key.HST_MSIX_MAP 0 ≤ w.1) && decide (w.1 < Key.HST_MSIX_MAP 4224)

/-- Step 5 of the window: the writes acknowledged in the frame, in order; map writes stay until the tick has sent its messages. -/
def State.applyAcked (s : State) : State :=
  let ws := s.dict.acked
  let s := { s with dict := { s.dict with acked := ws.filter mapWrite } }
  (ws.filter fun w => !mapWrite w).foldl State.applyWrite s

/-- The map writes of the frame that has ended, applied after the tick's messages. -/
def State.applyMaps (s : State) : State :=
  let ws := s.dict.acked.filter mapWrite
  let s := { s with dict := { s.dict with acked := s.dict.acked.filter fun w => !mapWrite w } }
  ws.foldl State.applyWrite s

/-- The state against which a request is judged, and that a read shows: every write acknowledged before it applied (R357). -/
def State.view (s : State) : State :=
  let ws := s.dict.acked
  ws.foldl State.applyWrite s

end Sys2Proof.Machine
end

