-- ==== Sys2Proof/Machine/OwnRules.lean ====
section
/-! DEFINITION. The rules by which an entry refuses a write: the values outside its range that a table's words give (reason 5), and the entry's own rule (reason 6), judged on the state that R357 gives. Each answers true when the write may stand. -/

namespace Sys2Proof.Machine

/-! ## Ranges that are no interval (R349) -/

/-- A number lies in the range that the entry's table states, beside its bounds. -/
def State.inRange (s : State) (index sub v : Nat) : Bool :=
  if 0xC010 ≤ index ∧ index < 0xC020 ∧ sub = 1 then [0, 1, 0x31].contains v
  else if 0x3000 ≤ index ∧ index < 0x3400 then
    (match sub with
     | 1 => decide (v < 2 ^ 20) || v == 0xFFFFFFFF
     | 2 => decide (v ≤ s.capPk)
     | 3 => decide (v ≤ s.capSym)
     | _ => true)
  else if 0x4000 ≤ index ∧ index < 0x5000 ∧ sub = 1 then decide (v < 1024) || v == 0xFFFF
  else if 0x8000 ≤ index ∧ index < 0xC000 ∧ sub = 3 then decide (v < 1024) || v == 0xFFFF
  else if 0x2910 ≤ index ∧ index < 0x2920 then decide (1 ≤ v / 65536)
  else match index, sub with
    | 0x2000, 7 => v == 0 || decide (4096 ≤ v)
    | 0x2800, 3 => [1, 2, 3, 15].contains v
    | _, _ => true

/-- Lot ids are 8 bytes each (Table 13.11). -/
def octetsOk (key : Nat) (b : Bytes) : Bool := decide (key ≠ Key.CHN_LOT_ALLOW) || decide (b.length % 8 = 0)

/-! ## Seiche (R48, R49) -/

/-- Class-0 pre-reservation of shares in the two pools at a period (R40). -/
def reserveOf (p pk sym : Nat) : Nat := ceilDiv (3 * pk * 2 ^ p) 4 + sym * max 1 (2 ^ p / 2)

/-- The base charge and the pre-reservation at the caps fit a budget at a period. -/
def State.budgetFits (s : State) (p budget : Nat) : Bool :=
  decide (scaleCredits p (s.num Key.SEI_BASE_CHARGE) + reserveOf p s.capPk s.capSym ≤ scaleCredits p budget)

/-- Seiche entries. A unit that places its ticks from the chain's markers has no period entries of its own to be written. -/
def State.ruleSeiche (s : State) (sub index v : Nat) : Bool :=
  match index, sub with
  | 0x1200, 2 => !s.chain.tickSource && (v == s.period || (decide (s.tick + 256 ≤ s.num Key.SEI_SWITCH_TICK) && s.budgetFits v (s.num Key.SEI_BUDGET)))
  | 0x1200, 3 => !s.chain.tickSource && (!s.switchArmed || decide (s.tick + 256 ≤ v))
  | 0x1202, 1 => s.budgetFits s.period v && decide (v ≤ s.num Key.SEI_PEAK)
  | 0x1202, 3 => decide (s.num Key.SEI_BUDGET ≤ v)
  | _, _ => true

/-! ## Chain and hearts (R223, R224, R282, R341 to R346) -/

/-- CHN_ entries. -/
def State.ruleChain (s : State) (index sub : Nat) : Bool :=
  match index, sub with
  | 0x1101, 4 => allZero (s.oct Key.CHN_DOMAIN_ID) && s.chain.address != 0 && !s.withheld
  | 0x1101, 5 => !s.withheld && !bitOf s.keeper.debugState 3
  | _, _ => true

/-- HEARTS_USED: the LIVE hearts that a slice owns. -/
def State.heartsUsed (s : State) (slice : Nat) : Nat := (s.keys.hearts.filter fun e => decide (e.2.state = .live) && decide (e.2.owner = slice)).length

/-- HRT_ entries. -/
def State.ruleHeart (s : State) (n sub v : Nat) : Bool :=
  let h := s.heart n
  !s.keys.inFlight.contains n &&
  (match sub with
   | 3 => decide (h.state = .empty) && decide (v < 1024) && decide (s.heartsUsed v < s.num (Key.SLC_QUOTA_HEARTS v)) && !s.withheld
   | 4 => decide (h.state = .live) && (!s.withheld || h.generation == 32767)
   | 5 => decide (h.state = .live)
   | _ => true)

/-! ## Lanes and vault (R159, R265, R267, R312) -/

/-- N meets R248. -/
def pagesOk (n : Nat) : Bool := decide (n % 1024 = 0) && decide (1024 ≤ n) && decide (n ≤ 2 ^ 30)

/-- Lanes that the Keeper holds. -/
def State.keeperLanes (s : State) : Nat := ((List.range 8).filter fun n => (s.symLane n).keeper).length
def State.unfencedSym (s : State) : Nat := ((List.range 8).filter fun n => !(s.symLane n).fenced).length

def State.ruleLanes (s : State) (index sub v : Nat) : Bool :=
  match index, sub with
  | 0x2000, 1 => decide (s.totalPk ≤ capOf (s.activeUnder v))
  | 0x2300, 3 => pagesOk v && s.heartsIn .live == 0 && !s.mirror.isEmpty && s.mirror.all fun p => decide (blocksFor v ≤ (s.drive p).size)
  | 0x2310, 2 => v == 0 || s.vault.d1.inMirror
  | 0x2311, 2 => v == 0 || s.vault.d0.inMirror
  | 0x2400, 3 => decide (s.shareSum 7 ≤ v)
  | 0x2520, 2 => decide (s.keeperLanes ≤ v) && decide (s.totalSym ≤ capOf (s.unfencedSym - v))
  | _, _ => true

/-! ## Check-value units (R410, R411, R414, R442), tamper (R375, R387) -/

def State.ruleChk (s : State) (u sub v : Nat) : Bool :=
  if sub = 12 then s.chkAccepts u v && !(s.block u).gated else s.chkWritable u

/-- K of a battery-domain source can be reached within W (R375). -/
def reachable (n k w : Nat) : Bool := decide (10 < n) || decide (k ≤ windowSamples true w)

def State.ruleTamper (s : State) (index sub v : Nat) : Bool :=
  if 0x2710 ≤ index ∧ index < 0x2728 then
    (let n := index - 0x2710
     match sub with
     | 1 => reachable n v (s.num (Key.TMP_SRC_W n))
     | 2 => reachable n (s.num (Key.TMP_SRC_K n)) v
     | _ => true)
  else match index, sub with
    | 0x2700, 2 => !((List.range 24).any fun n => bitOf v n && (s.tmpSrc n).condition)
    | 0x2700, 6 => !(s.tamper.latched.any fun n => bitOf (s.num (Key.TMP_SRC_RESPONSE n)) 2) && !bitOf (s.num Key.TMP_LOCK_CAUSE) 2
    | _, _ => true

/-! ## Life cycle, sillage, reset (R390, R397, R399, R406, R421, R439, R442) -/

def State.ruleLife (s : State) (officer : Bool) (index sub v : Nat) : Bool :=
  match index, sub with
  | 0x2800, 3 => match transitionOf s.lifeCycle v with
    | some n => s.transitionAuthorised n v officer && s.transitionAllowed n
    | none => false
  | 0x2801, 1 => !s.withheld
  | 0x2802, 3 => s.life.certState != 1
  | 0x2802, 4 => s.lifeCycle != 2 || officer
  | 0x2803, 1 => s.trimAllowed
  | _, _ => true

/-- A gate request of a block (R442). -/
def State.ruleGate (s : State) (b v : Nat) : Bool :=
  let x := s.block b
  if v = 0 || x.keeperOwns || x.handDue.isSome then true
  else if b < 4 then (s.chkUnit b).state != 1
  else if b = 4 then true
  else decide (b - 5 < s.num Key.KPR_SYM_RESERVE) &&
    (match s.blockLane b with
     | some l => decide (s.totalSym ≤ capOf (s.activeSym.filter fun n => decide (n ≠ l)).length)
     | none => false)

/-- A code that Table 18.3 marks unlimited. -/
def unlimited (index sub : Nat) : Bool := silCodes.any fun c => c.1 == silCode (index - 0x2910) sub && c.2.1 == 0

/-! ## Slices and ring pairs (R69, R110, R113, R128, R133, R231) -/

/-- Another slice holds a PASID. -/
def State.pasidTaken (s : State) (n v : Nat) : Bool :=
  v != 0xFFFFFFFF &&
  ((s.dict.nums.any fun e => decide (Key.SLC_PASID 0 ≤ e.1) && decide (e.1 ≤ Key.SLC_PASID 1023) && e.1 % 256 == 1 && e.2 == v && e.1 != Key.SLC_PASID n) ||
   (n != 0 && s.num (Key.SLC_PASID 0) == v))

def State.ruleSlice (s : State) (n sub v : Nat) : Bool :=
  match sub with
  | 1 => !s.pasidTaken n v && !((s.sliceRings n).any fun r => (s.ring r).enabled || s.busy r)
  | 2 => decide (s.totalPk - s.num (Key.SLC_SHARE_PK n) + v ≤ s.capPk)
  | 3 => decide (s.totalSym - s.num (Key.SLC_SHARE_SYM n) + v ≤ s.capSym)
  | 7 => decide (s.shareSum 7 - s.num (Key.SLC_QUOTA_PINS n) + v ≤ s.num Key.KEY_PIN_LIMIT)
  | _ => true

def State.ruleRing (s : State) (n v : Nat) : Bool :=
  !(s.ring n).enabled && !s.busy n &&
  (v == 0xFFFF || v == s.num (Key.RNG_SLICE n) || decide ((s.sliceRings v).length < s.num (Key.SLC_QUOTA_RINGS v)))

/-! ## Officers (R365) -/

/-- The parts of a slot hold a valid key of an algorithm. -/
def State.keyValid (s : State) (n alg : Nat) : Bool :=
  let p0 := s.oct (Key.OFC_KEY_PART0 n)
  let p1 := s.oct (Key.OFC_KEY_PART1 n)
  if alg = 1 then p1.isEmpty && p0.length == 65 && (p256.decode p0).isSome
  else p0.length == 656 && p1.length == 656

def State.ruleOfficer (s : State) (index sub v : Nat) : Bool :=
  if 0xC010 ≤ index ∧ index < 0xC020 then
    (let n := index - 0xC010
     if sub = 1 then
       (if v = 0 then s.num (Key.OFC_ALGORITHM n) == 0 || decide (s.num Key.OFC_QUORUM_M < s.enrolled.length) else s.keyValid n v)
     else true)
  else if index = 0xC000 ∧ sub = 1 then decide (v ≤ s.enrolled.length)
  else true

/-! ## The whole rule -/

/-- The own rule of an entry that holds a number. -/
def State.ruleNum (s : State) (officer : Bool) (index sub v : Nat) : Bool :=
  if index < 0x1200 then s.ruleChain index sub
  else if index < 0x1300 then s.ruleSeiche sub index v
  else if index < 0x2510 then s.ruleLanes index sub v
  else if index < 0x2520 then !s.keeper.guardOn
  else if index < 0x2600 then s.ruleLanes index sub v
  else if 0x2610 ≤ index ∧ index < 0x2614 then s.ruleChk (index - 0x2610) sub v
  else if index < 0x2800 then s.ruleTamper index sub v
  else if index < 0x2900 then s.ruleLife officer index sub v
  else if 0x2910 ≤ index ∧ index < 0x2920 then !unlimited index sub
  else if index = 0x2A03 ∧ sub = 2 then v == 0 || s.standbyAllowed
  else if index = 0x2A10 then s.ruleGate (sub - 1) v
  else if 0x3000 ≤ index ∧ index < 0x3400 then s.ruleSlice (index - 0x3000) sub v
  else if 0x4000 ≤ index ∧ index < 0x5000 then (if sub = 1 then s.ruleRing (index - 0x4000) v else true)
  else if 0x8000 ≤ index ∧ index < 0xC000 then s.ruleHeart (index - 0x8000) sub v
  else s.ruleOfficer index sub v

/-- The own rule of an entry that holds a byte string. -/
def State.ruleOct (s : State) (officer : Bool) (index sub : Nat) (b : Bytes) : Bool :=
  if 0x3000 ≤ index ∧ index < 0x3400 then decide ((s.slice (index - 0x3000)).mig ≠ .saving) && decide ((s.slice (index - 0x3000)).mig ≠ .restoring)
  else if 0xC010 ≤ index ∧ index < 0xC020 then s.num (Key.OFC_ALGORITHM (index - 0xC010)) == 0
  else match index, sub with
    | 0x1101, 7 => decide (s.chain.join = .confirming) && b == s.oct Key.CHN_SETUP_TRANSCRIPT
    | 0x2802, 3 => s.ruleLife officer index sub 0
    | _, _ => true

/-- A write may stand (reason 6): no transition runs (R392); while enrolment is open a quorum write reaches the officer entries only (R366); the entry's own rule. -/
def State.mayStand (s : State) (officer : Bool) (key : Nat) (v : DVal) : Bool :=
  let index := key / 256
  let sub := key % 256
  s.life.transition.isNone && (!officer || !s.enrolmentOpen || decide (0xC000 ≤ index)) &&
  (match v with
   | .num n => s.ruleNum officer index sub n
   | .octets b => s.ruleOct officer index sub b)

end Sys2Proof.Machine
end

