-- ==== Sys2Proof/Machine/NextTick.lean ====
section
/-! DEFINITION. The values of a tick: what a frame leaves as it ends, and what takes effect as the next begins (R20, R24, R25, R42, R56, R78, R115, R188, R224); and the state as of the next tick, against which a read of the dictionary is answered (R332). -/

namespace Sys2Proof.Machine

/-! ## Frame counters as they show (R56, R115, R188) -/

/-- A slice's figures of the frame that has ended take their place as they show; those of the new frame start at 0. -/
def SliceCtx.nextFrame (c : SliceCtx) : SliceCtx :=
  { c with c0UsePk := c.c0NowPk, c0UseSym := c.c0NowSym, c0NowPk := 0, c0NowSym := 0,
           segments := (c.segments + c.segmentsNow) % 2 ^ 64, wipes := (c.wipes + c.wipesNow) % 2 ^ 32, segmentsNow := 0, wipesNow := 0,
           windowBusy := maskOf (c.windows.map fun w => w.1) }

/-- Lane time, shared cycles and class-0 use begin anew. -/
def State.nextFrame (s : State) : State :=
  { s with
    slices := SMap.mapVals SliceCtx.reset SliceCtx.nextFrame s.slices
    lanes := { s.lanes with
      pk := SMap.mapVals PkLane.reset (fun l => { l with usedCycles := 0 }) s.lanes.pk
      sym := SMap.mapVals SymLane.reset (fun l => { l with usedCycles := 0 }) s.lanes.sym
      clusters := SMap.mapVals Cluster.reset (fun c => { c with demand := c.now, now := 0 }) s.lanes.clusters }
    ent := { s.ent with portBytesUsed := 0 } }

/-- The link as the tick finds it: SYM_OUTPUT_BUDGET follows (R201). -/
def State.linkTick (s : State) : State := { s with host := { s.host with gen := s.host.trainedGen, width := s.host.trainedWidth } }

/-! ## Staged errors (R62, R78) -/

/-- An error, or its clearing, that shows from this tick on; a change from 0 raises the ring pair's source. -/
def State.errorShows (s : State) (n : Nat) : State :=
  let r := s.ring n
  match r.errorDue with
  | none => s
  | some e =>
    if s.tick < e.1 then s
    else
      let s := if e.2 ≠ 0 ∧ r.error = 0 then s.raise n else s
      let off := decide (e.2 ≠ 0) && r.enabled
      s.setRing n { r with error := e.2, errorDue := none, enabled := r.enabled && !off, enableBit := r.enableBit && !off }

def State.errorsShow (s : State) : State := (s.rings.map fun e => e.1).foldl State.errorShows s

/-! ## The end of a frame (R25, R42) -/

/-- B of the frame, scaled by the period (R47). -/
def State.budget (s : State) : Nat := scaleCredits s.period (s.num Key.SEI_BUDGET)

/-- The end of a frame: what it did not use is folded into the reservoir (R42). DESIGN CHOICE (assumption log 79): after a write of SEI_BUDGET or SEI_RESERVOIR_MAX, which step 5 of the window has applied, the ended frame is folded with the new value. -/
def State.foldReservoir (s : State) : State :=
  { s with sched := { s.sched with
      reservoir := min (s.num Key.SEI_RESERVOIR_MAX) (s.sched.reservoir + s.budget - (s.sched.committed + s.sched.debited)) } }

/-- The end of a frame, its lanes' last work done: the reservoir, the count of idle frames, and the clocks. -/
def State.frameEnds (s : State) : State :=
  let s := s.foldReservoir
  let busy := s.jobs.any fun j => decide (j.ranFrame = s.tick) || (decide (j.phase = .ready) && j.admitted.isNone)
  let us := periodUs s.period
  let t := s.rst.microseconds + us
  let s := { s with
    tick := (s.tick + 1) % 2 ^ 64
    window := false
    sched := { s.sched with idleFrames := if busy then 0 else s.sched.idleFrames + 1 }
    rst := { s.rst with seconds := s.rst.seconds + t / 1000000, microseconds := t % 1000000 }
    keeper := { s.keeper with
      swdtUs := (if s.keeper.swdtArmed && !s.keeper.haltSecure then s.keeper.swdtUs + us else s.keeper.swdtUs)
      nwdtUs := (if s.keeper.coresRunning && !s.keeper.haltNormal then s.keeper.nwdtUs + us else s.keeper.nwdtUs) } }
  if s.keeper.guardDisableHeld then s.guardOff else s

/-! ## What takes effect at a tick (R24, R25) -/

/-- Changes whose acknowledgements are in apply at their tick: those of dictionary writes (R224), and those whose job has ended without a record (R109); that of a job in being applies with its record. -/
def State.ownWritesDue (s : State) : State :=
  (s.chain.own.filter fun o => o.job.isNone && o.applyAt.any fun t => decide (t ≤ s.tick)).foldl State.finishOwnWrite s

/-- Enrolment closes at the tick at which the enrolled officers reach the quorum (R366). -/
def State.closeEnrolment (s : State) : State :=
  if s.enrolmentOpen ∧ s.num Key.OFC_QUORUM_M ≤ s.enrolled.length then s.setNum Key.OFC_ENROLMENT_OPEN 0 else s

/-- The values that a tick changes, the frame's commitments apart: jobs and lanes are the schedule's. -/
def State.tickValues (s : State) : State :=
  let s := s.comeIntoForce.slcSample.nextFrame.lifeTick.chkTick.ownWritesDue
  let s := s.migTickDue.applyLogged.handTick
  let s := s.pkRoles.clusterDue.symDue
  let s := if s.rst.power = .standby then s else s.driveTick
  s.entropyTick.linkTick.enablesShow.errorsShow.moveFrame.enableFrame.closeEnrolment

/-- The state as of the tick that ends the frame: every write acknowledged before it, and what the tick makes of it (R332, R357). -/
def State.asOfNext (s : State) : State :=
  let s := s.view
  (s.silWindow s.seen.snapshot).frameEnds.tickValues

end Sys2Proof.Machine
end

