-- ==== Sys2Proof/Machine/ChainDict.lean ====
section
/-! DEFINITION. The dictionary service: requests by datagram, through the tunnel or through the Keeper's weirs; quorum challenges, approvals and pending writes; replicated writes; what a dictionary reply does at a tunnel master (chapters 03, 13, 14). -/

namespace Sys2Proof.Machine

/-! ## Replicated writes (R223, R224, R341, R346, R363) -/

/-- What an HRT_ write makes of a heart (Table 9.2), with its fresh key; a generation never passes 32,767. -/
def Heart.changed (h : Heart) (sub v : Nat) (key : Bytes) : Heart :=
  let spentNow := decide (32767 ≤ h.generation)
  match sub with
  | 3 => if spentNow then { h with key := [], generation := 32767, owner := 0xFFFF, state := .spent, certified := false }
         else { h with key := key, generation := h.generation + 1, owner := v, state := .live, certified := false }
  | 4 => if spentNow then { h with key := [], generation := 32767, state := .spent, certified := false }
         else { h with key := key, generation := h.generation + 1, state := .live, certified := false }
  | _ => if spentNow then { h with key := [], generation := 32767, owner := 0xFFFF, state := .spent, certified := false }
         else { h with key := [], generation := h.generation + 1, owner := 0xFFFF, state := .empty, certified := false }

/-- The change of a write of a replicated entry, its key drawn (R224); none for any other entry. -/
def State.replicated (s : State) (key v : Nat) : Option (Change × State) :=
  let index := key / 256
  let sub := key % 256
  if 0x8000 ≤ index ∧ index < 0xC000 ∧ (sub = 3 ∨ sub = 4 ∨ sub = 5) then
    (let n := index - 0x8000
     let h := s.heart n
     let k : Bytes × State := if sub = 5 ∨ 32767 ≤ h.generation then ([], s) else s.draw 32
     let st := { k.2 with keys := { k.2.keys with inFlight := insertAsc n k.2.keys.inFlight } }
     some (.heart n (h.changed sub v k.1).bytes, st))
  else if key = Key.CHN_K then some (.kValue v, s)
  else if key = Key.CHN_MEMBER_REMOVE then some (.members (s.members.filter fun m => decide (m ≠ v)), s)
  else none

/-! ## Acceptance (R357) -/

/-- The state after a meaning of the Keeper's own stream. -/
def nextOf (r : Res) (s : State) : State :=
  match r with
  | .next t => t
  | _ => s

/-- KPR_GUARD_ENABLE and KPR_SWDT_REFRESH act at once (R313). -/
def State.atOnce (s : State) (key v : Nat) : Option State :=
  if key = Key.KPR_GUARD_ENABLE then some (nextOf (if v = 0 then execGuardDisable s else execGuardEnable s) s)
  else if key = Key.KPR_SWDT_REFRESH then some (nextOf (execSwdtRefresh v s) s)
  else none

/-- A write that has passed all but its own rule: refused with reason 6, or acknowledged, or put on the chain (R357, R363). -/
def State.acceptWrite (s : State) (officer : Bool) (key : Nat) (v : DVal) (req : Option (DictReq × Option Nat)) : State :=
  if !s.view.mayStand officer key v then s.refuse key 6 req
  else match v with
    | .octets _ => s.ackWrite key v req
    | .num n =>
      match s.atOnce key n with
      | some t =>
        let t := t.count Key.UNIT_DICT_WRITES
        let t := { t with dict := { t.dict with answer := .acked } }
        (match req with | some q => t.reply q.1 q.2 4 0 [] | none => t)
      | none =>
        match s.replicated key n with
        | some c =>
          let t := c.2.startOwn c.1 c.2.kInForce none (some (key, req.map fun q => q.1)) c.2.majority
          { t with dict := { t.dict with answer := .waiting } }
        | none => s.ackWrite key v req

/-- A role's write is barred by LOCK (R359). -/
def State.lockBars (s : State) (r : Role) : Bool := s.view.tamper.locked && (decide (r = .operator) || decide (r = .maintenance))

/-- The first refusal of a write before its own rule, in the order of R358 from reason 10 on; 0 for none. -/
def State.firstRefusal (s : State) (a : Attr) (r : Role) (key : Nat) (v : DVal) : Nat :=
  if s.lockBars r then 10
  else if !(match v with | .octets b => a.lengthOk b && octetsOk key b | .num _ => true) then 4
  else if !(a.rangeOk v && (match v with | .num n => s.view.inRange (key / 256) (key % 256) n | .octets _ => true)) then 5
  else 0

/-- A write whose role has been proved or approved: the rows of the table that name an entry. `exists_` false where the row's operand names no entry. -/
def State.writeEntry (s : State) (exists_ : Bool) (role : Role) (key : Nat) (v : DVal) : State :=
  match (if exists_ then attrOfKey key else none) with
  | none => s.refuse key 1 none
  | some a =>
    if !a.mayWrite role then s.refuse key 2 none
    else
      let r := s.firstRefusal a role key v
      if r ≠ 0 then s.refuse key r none else s.acceptWrite (decide (role = .officer)) key v none

/-- The service runs while the unit does. -/
def State.rowWrite (s : State) (exists_ : Bool) (role : Role) (key : Nat) (v : DVal) : State :=
  if s.live then s.writeEntry exists_ role key v else s

/-! ## Requests (R354 to R358, R366, R367) -/

/-- The role that a request acts under. -/
def reqRole (r : DictReq) : Nat := if r.weir then 4 else r.role

/-- A read (R332, R357): the value as of the next tick, with every write acknowledged before it. -/
def State.serveRead (s : State) (r : DictReq) : State :=
  let key := entryKey r.index r.sub
  match attrOf r.index r.sub with
  | none => s.refuse key 1 (some (r, s.proofSlot r 1))
  | some a =>
    let slot := s.proofSlot r 1
    if (reqRole r) > 4 ∨ ((reqRole r) = 4 ∧ !r.weir) ∨ !a.readable then s.refuse key 2 (some (r, slot))
    else if !s.proofOk r 1 then s.refuse key 3 (some (r, none))
    else
      (s.seeReq r).reply r slot 3 0 (s.asOfNext.valueField a key)

/-! ## Challenges (R333) -/

/-- A challenge is outstanding: issued, and younger than 4,096 ticks. -/
def State.outstanding (s : State) (c : Bytes) : Option Challenge := s.dict.challenges.find? fun x => x.bytes == c && decide (s.tick < x.issued + 4096)

/-- Room for one more challenge that no write holds: the oldest of 16 goes. -/
def challengeRoom (l : List Challenge) : List Challenge :=
  if (l.filter fun c => !c.held).length < 16 then l
  else match l.find? fun c => !c.held with
    | some o => l.filter fun c => decide (c ≠ o)
    | none => l

/-- A challenge drawn and sent; while randomness is withheld an empty one (R282). -/
def State.issueChallenge (s : State) (dst : Nat) : State :=
  if s.withheld then s.sendMsg 0x21 dst [] none
  else
    let d := s.draw 16
    let s := d.2
    let s := { s with dict := { s.dict with challenges := challengeRoom s.dict.challenges ++ ([⟨d.1, s.tick + 1, false, []⟩] : List Challenge) } }
    s.sendMsg 0x21 dst d.1 none

/-- CHALLENGE_REQUEST (R333). -/
def execChallengeRequest (hdr : MsgHdr) (s : State) : Res :=
  if s.live then .next (s.atStep4 (.challengeRequest hdr) fun s => s.receive 0x20 hdr fun st => st.issueChallenge hdr.src) else .next s

/-- CHALLENGE_EXPIRY (R333): a challenge that no write holds, at I + 4,096. -/
def execChallengeExpiry (challenge : Bytes) (s : State) : Res :=
  let keep := s.dict.challenges.filter fun c => !(c.bytes == challenge && !c.held && decide (c.issued + 4096 ≤ s.tick))
  .next { s with dict := { s.dict with challenges := keep } }

/-! ## Pending writes (R360 to R362) -/

/-- A write of a non-zero OFC_ALGORITHM needs the new key's own approval (R365). -/
def needsSelf (r : DictReq) : Bool :=
  decide (0xC010 ≤ r.index) && decide (r.index < 0xC020) && r.sub == 1 && leNat r.value != 0

/-- Approvals that count now, of officers then enrolled (R362). -/
def State.counting (s : State) (w : PendingWrite) : Nat := (w.officers.filter fun n => s.enrolled.contains n).length

/-- Approvals needed: M, or while enrolment is open all enrolled officers (R366). -/
def State.needed (s : State) : Nat := if s.enrolmentOpen then s.enrolled.length else s.num Key.OFC_QUORUM_M

def State.quorumReached (s : State) (w : PendingWrite) : Bool :=
  decide (s.needed ≤ s.counting w) && (w.selfApproved || !needsSelf w.req)

/-- A pending write goes, and its challenge is spent. -/
def State.spend (s : State) (c : Bytes) : State :=
  { s with dict := { s.dict with
    pendingWrites := s.dict.pendingWrites.filter (fun w => decide (w.challenge ≠ c)),
    challenges := s.dict.challenges.filter fun x => decide (x.bytes ≠ c) } }

/-- The write completes (R361): judged by its own rule, acknowledged or refused. -/
def State.completeWrite (s : State) (w : PendingWrite) : State :=
  let key := entryKey w.req.index w.req.sub
  let s := s.spend w.challenge
  match attrOf w.req.index w.req.sub with
  | some a => s.acceptWrite true key (a.valueOf w.req.value) (some (w.req, none))
  | none => s

/-- Complete the pending write of a challenge if its approvals suffice. -/
def State.tryComplete (s : State) (c : Bytes) : State :=
  match s.dict.pendingWrites.find? fun w => w.challenge == c with
  | some w => if s.quorumReached w then s.completeWrite w else s
  | none => s

/-- An approval is discarded: counted and recorded. -/
def State.rejectApproval (s : State) : State := (s.count Key.OFC_APPROVALS_REJECTED).event 0xC001

/-- An approval counts for a pending write. -/
def State.countApproval (s : State) (c : Bytes) (officer : Nat) (self : Bool) : State :=
  let one (w : PendingWrite) : PendingWrite :=
    if w.challenge = c then (if self then { w with selfApproved := true } else { w with officers := insertAsc officer w.officers }) else w
  let s := { s with dict := { s.dict with pendingWrites := s.dict.pendingWrites.map one } }
  s.setNum (Key.OFC_LAST_APPROVAL officer) s.tick

/-- An approval is the self-approval of an enrolment: by the slot that is to be enrolled, over a non-zero algorithm. -/
def selfApproval (officer key : Nat) (hash : Bytes) : Bool := key == Key.OFC_ALGORITHM officer && hash != sha3_256 [0]

/-- The fields of an approval agree with a request. -/
def State.agrees (s : State) (r : DictReq) (target key : Nat) (hash : Bytes) : Bool :=
  target == s.chain.address && key == entryKey r.index r.sub && hash == sha3_256 r.value

/-- A quorum write is accepted for approvals (R360): approvals held with its challenge count, or are discarded where they disagree. -/
def State.holdWrite (s : State) (r : DictReq) (c : Challenge) : State :=
  let w : PendingWrite := ⟨r, c.bytes, [], false, false⟩
  let mark (x : Challenge) : Challenge := if x.bytes = c.bytes then { x with held := true, approvals := [] } else x
  let s := { s with dict := { s.dict with
    pendingWrites := s.dict.pendingWrites ++ [w], challenges := s.dict.challenges.map mark, answer := .waiting } }
  let s := c.approvals.foldl (fun st a =>
    if st.agrees r a.2.1 a.2.2.1 a.2.2.2 then st.countApproval c.bytes a.1 (selfApproval a.1 a.2.2.1 a.2.2.2) else st.rejectApproval) s
  s.tryComplete c.bytes

/-- A write of role 3 (R358, R360): its challenge, then the limit of 16. -/
def State.quorumRequest (s : State) (r : DictReq) (key : Nat) : State :=
  match s.outstanding (r.proof.take 16) with
  | none => s.refuse key 7 (some (r, none))
  | some c =>
    if c.held then s.refuse key 7 (some (r, none))
    else if 16 ≤ s.dict.pendingWrites.length then s.refuse key 11 (some (r, none))
    else s.holdWrite r c

/-- A write request, checked in the order of R358. -/
def State.serveWrite (s : State) (r : DictReq) : State :=
  let key := entryKey r.index r.sub
  let slot := s.proofSlot r 2
  match attrOf r.index r.sub, roleOf (reqRole r) with
  | none, _ => s.refuse key 1 (some (r, slot))
  | some _, none => s.refuse key 2 (some (r, slot))
  | some a, some role =>
    if !a.mayWrite role ∨ (role = .keeper ∧ !r.weir) then s.refuse key 2 (some (r, slot))
    else if !s.proofOk r 2 ∨ (role = .officer ∧ !allZero (r.proof.drop 16)) then s.refuse key 3 (some (r, none))
    else
      let s := s.seeReq r
      let no := if s.lockBars role then 10 else if !a.lengthOk r.value then 4 else s.firstRefusal a role key (a.valueOf r.value)
      if no ≠ 0 then s.refuse key no (some (r, slot))
      else if role = .officer then s.quorumRequest r key
      else s.acceptWrite false key (a.valueOf r.value) (some (r, slot))

/-- QUORUM_WRITE_EXPIRY (R361): 4,096 ticks after its challenge was issued. -/
def execQuorumWriteExpiry (challenge : Bytes) (s : State) : Res :=
  match s.dict.pendingWrites.find? fun w => w.challenge == challenge, s.dict.challenges.find? fun c => c.bytes == challenge with
  | some w, some c =>
    if c.issued + 4096 ≤ s.tick then .next ((s.spend challenge).refuse (entryKey w.req.index w.req.sub) 8 (some (w.req, none))) else .next s
  | _, _ => .next s

/-! ## Approvals (R360, Table 13.7) -/

/-- The signature of an approval under a key. -/
def approvalSigned (alg : Nat) (pub body : Bytes) : Bool :=
  let m := ascii "ILYAR-APPROVE" ++ body.take 56
  if alg = 1 then
    (match p256.decode pub with
     | some q => p256.verify [] q (sha256 m) (body.drop 56)
     | none => false)
  else alg == 0x31 && dsaVerify (maskOfBytes []) 0x31 pub [] m (body.drop 56)

/-- The officer of an approval is enrolled under its algorithm, or it is the self-approval of a slot that holds a valid key. -/
def State.approver (s : State) (officer alg key : Nat) (hash : Bytes) : Bool :=
  if selfApproval officer key hash then s.keyValid officer alg && hash == sha3_256 [byteOf alg]
  else s.num (Key.OFC_ALGORITHM officer) == alg && alg != 0

/-- An approval as it arrives: counted, held with its challenge, or discarded. -/
def State.takeApproval (s : State) (b : Bytes) : State :=
  let officer := at8 21 b
  let alg := at8 22 b
  let key := entryKey (le 18 2 b) (at8 20 b)
  let target := le 16 2 b
  let hash := cut 24 32 b
  let self := selfApproval officer key hash
  if !(at8 23 b == 0 && decide (officer < 16) && s.approver officer alg key hash && approvalSigned alg (s.officerKey officer) b) then s.rejectApproval
  else match s.outstanding (b.take 16) with
    | none => s.rejectApproval
    | some c =>
      match s.dict.pendingWrites.find? fun w => w.challenge == c.bytes with
      | some w =>
        if !s.agrees w.req target key hash || (if self then w.selfApproved else w.officers.contains officer) then s.rejectApproval
        else (s.countApproval c.bytes officer self).tryComplete c.bytes
      | none =>
        if c.approvals.any fun a => a.1 == officer then s.rejectApproval
        else
          let mark (x : Challenge) : Challenge := if x.bytes = c.bytes then { x with approvals := x.approvals ++ [(officer, target, key, hash)] } else x
          { s with dict := { s.dict with challenges := s.dict.challenges.map mark } }

/-- APPROVAL (R360). -/
def execApproval (hdr : MsgHdr) (body : Bytes) (s : State) : Res :=
  if s.live then .next (s.atStep4 (.approval hdr body) fun s => s.receive 0x22 hdr fun st => st.takeApproval body) else .next s

/-- Step 4 of the window: pending writes whose approvals now suffice complete; one that goes on waiting is answered with operation 6 (R361, R362). -/
def State.dictWindow (s : State) : State :=
  let s := (s.dict.pendingWrites.map fun w => w.challenge).foldl (fun st c => st.tryComplete c) s
  let waiting := s.dict.pendingWrites.filter fun w => !w.replied
  let s := { s with dict := { s.dict with pendingWrites := s.dict.pendingWrites.map fun w => { w with replied := true } } }
  waiting.foldl (fun st w => st.reply w.req none 6 0 []) s

/-! ## Datagrams (R355, R57) -/

/-- DICT_READ (R332): from the chain, or from the Keeper's own weirs. -/
def execDictRead (req : DictReq) (s : State) : Res :=
  if !s.live then .next s
  else .next (s.atStep4 (.dictRead req) fun s => if req.weir then s.serveRead req else s.receive 0x10 req.hdr fun st => st.serveRead req)

/-- DICT_WRITE (R357): a broadcast write is discarded without reply. -/
def execDictWrite (req : DictReq) (s : State) : Res :=
  if !s.live then .next s
  else .next (s.atStep4 (.dictWrite req) fun s =>
    if req.weir then s.serveWrite req else s.receive 0x10 req.hdr fun st => if req.hdr.dst = bcast then st else st.serveWrite req)

/-- A datagram for the host of a tunnel master, header and body: it waits until IN_BUFFER is free. -/
def State.tunnelIn (s : State) (d : Bytes) : State :=
  if s.tunnelOn then { s with host := { s.host with tunnel := { s.host.tunnel with held := s.host.tunnel.held ++ [d] } } } else s

/-- DICT_REPLY (R57): to a tunnel master. -/
def execDictReply (hdr : MsgHdr) (body : Bytes) (s : State) : Res :=
  .next (s.atStep4 (.dictReply hdr body) fun s => s.receive 0x11 hdr fun st =>
    st.tunnelIn (msgHeader 0x11 hdr.src hdr.dst hdr.id hdr.frag hdr.last body.length hdr.insTick ++ body))

/-- A request in the body of a datagram (Table 13.6). -/
def reqOf (h : MsgHdr) (b : Bytes) : DictReq :=
  { hdr := h, reqId := le 0 4 b, role := at8 5 b, index := le 6 2 b, sub := at8 8 b, proof := cut 16 32 b,
    value := (b.drop 48).take (le 10 2 b), weir := false }

/-- The header of a datagram (Table 13.3). -/
def hdrOf (d : Bytes) : MsgHdr :=
  { src := le 2 2 d % 4096, dst := le 4 2 d % 4096, id := le 8 4 d, frag := at8 1 d / 16, last := at8 1 d % 16, insTick := le 12 4 d, check := .good }

/-- The types of Table 13.4. -/
def messageTypes : List Nat := [0x01, 0x02, 0x03, 0x10, 0x11, 0x20, 0x21, 0x22, 0x30, 0x31, 0x32, 0x33, 0x34, 0x35, 0x38, 0x40, 0x41, 0x42, 0x43, 0x44, 0x45, 0x50]

/-- A datagram that R321 discards: a type outside Table 13.4, a reserved field that is not zero, or a request that Table 13.6 does not lay out. -/
def badDatagram (d : Bytes) : Bool :=
  let b := d.drop 16
  !messageTypes.contains (at8 0 d) || decide (4096 ≤ le 2 2 d) || decide (4096 ≤ le 4 2 d) || decide (at8 1 d % 16 < at8 1 d / 16) ||
    (at8 0 d == 0x10 && (decide (le 12 4 b ≠ 0) || decide (at8 9 b ≠ 0) || decide (b.length ≠ 48 + le 10 2 b) || decide (at8 4 b ≠ 1 ∧ at8 4 b ≠ 2)))

/-- A datagram that a tunnel master sends to its own address is handled as though it had been received in the frame in which it is placed (R355). -/
def State.takeOwn (s : State) (d : Bytes) : State :=
  let h := hdrOf d
  let b := d.drop 16
  let r := reqOf h b
  if badDatagram d then s.badMessage
  else match at8 0 d with
  | 0x10 => if at8 4 b = 1 then s.serveRead r else if h.dst = bcast then s else s.serveWrite r
  | 0x20 => s.issueChallenge h.src
  | 0x22 => s.takeApproval b
  | _ => s

/-- The window's hand-over of the datagrams that the unit sent to itself in this frame (R25, R355). -/
def State.takeOwnDue (s : State) : State :=
  let l := s.host.tunnel.ownDue
  l.foldl State.takeOwn { s with host := { s.host with tunnel := { s.host.tunnel with ownDue := [] } } }

/-- The outbound datagram (R57): a tick observes OUT_GO (R24), and at the next tick the datagram is discarded when its length is wrong, else put in line for the frame, or left for the unit itself. OUT_DISCARDED stays 1 through later datagrams until software writes 1 to it (DESIGN CHOICE, assumption log 79). -/
def State.tunnelOut (s : State) : State :=
  let t := s.host.tunnel
  if !t.outGo then s
  else if !t.outSeen then { s with host := { s.host with tunnel := { t with outSeen := true } } }
  else
    let d := fit t.outLength t.outBuffer
    let bad := decide (t.outLength < 16) || decide (1020 < t.outLength) || decide (16 + le 6 2 d ≠ t.outLength)
    let s := { s with host := { s.host with tunnel := { t with outGo := false, outSeen := false, outDiscarded := t.outDiscarded || bad } } }
    let s := s.raise 4101
    if bad then s.eventOf 57
    else
      let h := hdrOf d
      let own := decide (h.dst = s.chain.address) && decide (s.chain.address ≠ 0)
      let s := if own || h.dst == bcast then { s with host := { s.host with tunnel := { s.host.tunnel with ownDue := s.host.tunnel.ownDue ++ [d] } } } else s
      if own then s else { s with chain := { s.chain with waiting := s.chain.waiting ++ [⟨at8 0 d, h.dst, h.id, h.insTick, d.drop 16, none, 0, some (d.take 16)⟩] } }

/-- The next inbound datagram is delivered at the tick once the buffer is free (R57). -/
def State.tunnelDeliver (s : State) : State :=
  let t := s.host.tunnel
  match t.held with
  | d :: rest =>
    if t.inFull then s
    else ({ s with host := { s.host with tunnel := { t with inFull := true, inLength := d.length, inBuffer := d, held := rest } } }).raise 4100
  | [] => s

end Sys2Proof.Machine
end

