-- ==== Sys2Proof/Machine/Settings.lean ====
section
/-! DEFINITION. The rows that each name one write of a dictionary entry, its role proved or its approvals given (R353, R354): the write is judged (R358) and acknowledged; what it does is done when it is applied, in the frame's housekeeping window (R357). A row whose operand names no entry is refused with reason 1. -/

namespace Sys2Proof.Machine

/-- The entry that a share write names (R113). -/
def shareKey (which : ShareKind) (slice : Nat) : Nat :=
  match which with
  | .publicKey => Key.SLC_SHARE_PK slice
  | .symmetric => Key.SLC_SHARE_SYM slice
  | .weight => Key.SLC_WEIGHT slice

/-- PKE_UNFENCE (R158): lanes to test. -/
def execPkeUnfence (role : Role) (value : Nat) (s : State) : Res := .next (s.rowWrite true role Key.PKE_UNFENCE (.num value))

/-- PKE_SPARE_COUNT (R159). -/
def execPkeSpareCount (role : Role) (value : Nat) (s : State) : Res := .next (s.rowWrite true role Key.PKE_SPARE_COUNT (.num value))

/-- PKE_LAT_UNFENCE (R179). -/
def execPkeLatUnfence (role : Role) (value : Nat) (s : State) : Res := .next (s.rowWrite true role Key.PKE_LAT_UNFENCE (.num value))

/-- SYM_UNFENCE (R215). -/
def execSymUnfence (role : Role) (value : Nat) (s : State) : Res := .next (s.rowWrite true role Key.SYM_UNFENCE (.num value))

/-- VLT_FORMAT (R267). -/
def execVltFormat (role : Role) (pages : Nat) (s : State) : Res := .next (s.rowWrite true role Key.VLT_FORMAT (.num pages))

/-- VLT_ROOT_SELECT (R260). -/
def execVltRootSelect (role : Role) (port : Nat) (s : State) : Res := .next (s.rowWrite true role Key.VLT_ROOT_SELECT (.num port))

/-- VLT_PORT_OFFLINE = 1 (R265). -/
def execVltPortOfflineSet (role : Role) (port : Nat) (s : State) : Res := .next (s.rowWrite (decide (port < 2)) role (Key.VLT_PORT_OFFLINE port) (.num 1))

/-- VLT_PORT_OFFLINE = 0 (R265). -/
def execVltPortOfflineClear (role : Role) (port : Nat) (s : State) : Res := .next (s.rowWrite (decide (port < 2)) role (Key.VLT_PORT_OFFLINE port) (.num 0))

/-- SEI_PERIOD_NEXT (R49). -/
def execSeiPeriodNext (role : Role) (value : Nat) (s : State) : Res := .next (s.rowWrite true role Key.SEI_PERIOD_NEXT (.num value))

/-- SEI_SWITCH_TICK (R49). -/
def execSeiSwitchTick (role : Role) (value : Nat) (s : State) : Res := .next (s.rowWrite true role Key.SEI_SWITCH_TICK (.num value))

/-- SLC_PASID (R110). -/
def execSlcPasid (role : Role) (slice value : Nat) (s : State) : Res := .next (s.rowWrite (decide (slice < 1024)) role (Key.SLC_PASID slice) (.num value))

/-- SLC_SHARE_PK, SLC_SHARE_SYM and SLC_WEIGHT (R115). -/
def execSlcShareWrite (role : Role) (slice : Nat) (which : ShareKind) (value : Nat) (s : State) : Res := .next (s.rowWrite (decide (slice < 1024)) role (shareKey which slice) (.num value))

/-- FREEZE (R123): SLC_MIG_CMD = 1. -/
def execFreeze (role : Role) (slice : Nat) (s : State) : Res := .next (s.rowWrite (decide (slice < 1024)) role (Key.SLC_MIG_CMD slice) (.num 1))

/-- FREEZE_NOW (R124): SLC_MIG_CMD = 2. -/
def execFreezeNow (role : Role) (slice : Nat) (s : State) : Res := .next (s.rowWrite (decide (slice < 1024)) role (Key.SLC_MIG_CMD slice) (.num 2))

/-- SAVE (R127): SLC_MIG_CMD = 3. -/
def execSave (role : Role) (slice : Nat) (s : State) : Res := .next (s.rowWrite (decide (slice < 1024)) role (Key.SLC_MIG_CMD slice) (.num 3))

/-- THAW (R126): SLC_MIG_CMD = 4. -/
def execThaw (role : Role) (slice : Nat) (s : State) : Res := .next (s.rowWrite (decide (slice < 1024)) role (Key.SLC_MIG_CMD slice) (.num 4))

/-- RESTORE (R129): SLC_MIG_CMD = 5. -/
def execRestore (role : Role) (slice : Nat) (s : State) : Res := .next (s.rowWrite (decide (slice < 1024)) role (Key.SLC_MIG_CMD slice) (.num 5))

/-- RNG_SLICE (R133). -/
def execRngSlice (role : Role) (ring value : Nat) (s : State) : Res := .next (s.rowWrite (decide (ring < 4096)) role (Key.RNG_SLICE ring) (.num value))

/-- HST_MSIX_MAP (R73). -/
def execHstMsixMap (role : Role) (source value : Nat) (s : State) : Res := .next (s.rowWrite (decide (source < 4224)) role (Key.HST_MSIX_MAP source) (.num value))

/-- HRT_OWNER (R223). -/
def execHrtOwner (role : Role) (heart value : Nat) (s : State) : Res := .next (s.rowWrite (decide (heart < 16384)) role (Key.HRT_OWNER heart) (.num value))

/-- HRT_INVALIDATE (R226). -/
def execHrtInvalidate (role : Role) (heart value : Nat) (s : State) : Res := .next (s.rowWrite (decide (heart < 16384)) role (Key.HRT_INVALIDATE heart) (.num value))

/-- HRT_RETIRE (R223). -/
def execHrtRetire (role : Role) (heart value : Nat) (s : State) : Res := .next (s.rowWrite (decide (heart < 16384)) role (Key.HRT_RETIRE heart) (.num value))

/-- CHN_K (R341). -/
def execChnK (role : Role) (value : Nat) (s : State) : Res := .next (s.rowWrite true role Key.CHN_K (.num value))

/-- CHN_DOMAIN_FOUND (R342). -/
def execChnDomainFound (role : Role) (value : Nat) (s : State) : Res := .next (s.rowWrite true role Key.CHN_DOMAIN_FOUND (.num value))

/-- CHN_DOMAIN_JOIN (R343). -/
def execChnDomainJoin (role : Role) (value : Nat) (s : State) : Res := .next (s.rowWrite true role Key.CHN_DOMAIN_JOIN (.num value))

/-- CHN_DOMAIN_CONFIRM (R343). -/
def execChnDomainConfirm (role : Role) (value : Bytes) (s : State) : Res := .next (s.rowWrite true role Key.CHN_DOMAIN_CONFIRM (.octets value))

/-- CHN_MEMBER_REMOVE (R346). -/
def execChnMemberRemove (role : Role) (value : Nat) (s : State) : Res := .next (s.rowWrite true role Key.CHN_MEMBER_REMOVE (.num value))

/-- TMP_CLEAR (R387). -/
def execTmpClear (role : Role) (value : Nat) (s : State) : Res := .next (s.rowWrite true role Key.TMP_CLEAR (.num value))

/-- TMP_LOCK_CLEAR (R387). -/
def execTmpLockClear (role : Role) (value : Nat) (s : State) : Res := .next (s.rowWrite true role Key.TMP_LOCK_CLEAR (.num value))

/-- LCS_TRANSITION (R392). -/
def execLcsTransition (role : Role) (value : Nat) (s : State) : Res := .next (s.rowWrite true role Key.LCS_TRANSITION (.num value))

/-- LCS_CHALLENGE_DRAW (R397). -/
def execLcsChallengeDraw (role : Role) (value : Nat) (s : State) : Res := .next (s.rowWrite true role Key.LCS_CHALLENGE_DRAW (.num value))

/-- LCS_CERT_APPLY (R400). -/
def execLcsCertApply (role : Role) (value : Nat) (s : State) : Res := .next (s.rowWrite true role Key.LCS_CERT_APPLY (.num value))

/-- LCS_GRANT_END (R404). -/
def execLcsGrantEnd (role : Role) (value : Nat) (s : State) : Res := .next (s.rowWrite true role Key.LCS_GRANT_END (.num value))

/-- LCS_TRIM_SELECT (R406). -/
def execLcsTrimSelect (role : Role) (value : Nat) (s : State) : Res := .next (s.rowWrite true role Key.LCS_TRIM_SELECT (.num value))

/-- START (R411): CHK_COMMAND = 1. -/
def execChkStart (role : Role) (unit : Nat) (s : State) : Res := .next (s.rowWrite (decide (unit < 4)) role (Key.CHK_COMMAND unit) (.num 1))

/-- CONTINUE (R411): CHK_COMMAND = 2. -/
def execChkContinue (role : Role) (unit : Nat) (s : State) : Res := .next (s.rowWrite (decide (unit < 4)) role (Key.CHK_COMMAND unit) (.num 2))

/-- SUSPEND (R411): CHK_COMMAND = 3. -/
def execChkSuspend (role : Role) (unit : Nat) (s : State) : Res := .next (s.rowWrite (decide (unit < 4)) role (Key.CHK_COMMAND unit) (.num 3))

/-- SIL_CLEAR_CIRCULAR (R422). -/
def execSilClearCircular (role : Role) (value : Nat) (s : State) : Res := .next (s.rowWrite true role Key.SIL_CLEAR_CIRCULAR (.num value))

/-- RST_RESET_REQUEST (R426). -/
def execRstResetRequest (role : Role) (value : Nat) (s : State) : Res := .next (s.rowWrite true role Key.RST_RESET_REQUEST (.num value))

/-- RST_STANDBY = 1 (R439). -/
def execStandbyEnter (role : Role) (s : State) : Res := .next (s.rowWrite true role Key.RST_STANDBY (.num 1))

/-- RST_STANDBY = 0 (R440). -/
def execStandbyExit (role : Role) (s : State) : Res := .next (s.rowWrite true role Key.RST_STANDBY (.num 0))

/-- RST_GATE_REQUEST = 1 of a block (R442). -/
def execGateRequest (role : Role) (block : Nat) (s : State) : Res := .next (s.rowWrite (decide (block < 7)) role (Key.RST_GATE_REQUEST block) (.num 1))

/-- RST_GATE_REQUEST = 0 of a block (R442). -/
def execUngateRequest (role : Role) (block : Nat) (s : State) : Res := .next (s.rowWrite (decide (block < 7)) role (Key.RST_GATE_REQUEST block) (.num 0))

/-- OFC_ALGORITHM of a slot (R365): an enrolment needs the new key's own approval; without it the write goes on waiting. -/
def execOfcAlgorithm (role : Role) (officer value : Nat) (selfApproved : Bool) (s : State) : Res :=
  if s.live && decide (role = .officer) && decide (officer < 16) && value != 0 && !selfApproved then
    .next { s with dict := { s.dict with answer := .waiting } }
  else .next (s.rowWrite (decide (officer < 16)) role (Key.OFC_ALGORITHM officer) (.num value))

end Sys2Proof.Machine
end

