-- ==== Sys2Proof/Machine/Contexts.lean ====
section
/-! DEFINITION. The fetch of a frame: contexts, colours and buffers, parked jobs, descriptors in round robin; the work of the key ladder (R65, R87, R125, R126, R193, R290). -/

namespace Sys2Proof.Machine

/-! ## Contexts (R65, R290) -/

/-- A context of a descriptor being fetched in this frame. -/
def newJob (id ring index slice frame colour : Nat) (refetch void : Bool) : Job :=
  { id := id, ring := ring, index := index, slice := slice, frameF := frame, desc := Desc.zero, descDone := false,
    input := [], inputDone := false, label := [], labelDone := false, asked := 0, readSince := frame, labelSince := frame,
    colour := colour, granules := [], bufs := [], placed := 0, cls := 0, class0 := false, boundVoid := void, phase := .noRoom,
    engine := 0, lane := 0, plan := [], segsRun := 0, segCycles := 0, segDemand := 0, attempts := 1, accepted := true, search := none, ranFrame := 0, admitted := none, notBefore := 0,
    firstHeld := none, rerun := false, refetch := refetch, lastSeg := 0, checks := 0, key1 := none, key2 := none,
    heartKey := [], copy := [], draws := [], drawsDone := false, blind := [], leaveN := 0, leaveUntil := none, leaveAsked := none,
    outcome := none, due := 0, outDone := false, degraded := false, replicated := false, replSeq := none, replE := 0,
    replK := 0, acks := [], noMajority := false, newHandle := 0, forced := none, lost := false, faultTick := none }

/-- The lowest colour from 1 to 12 that no context on a command core holds (R290). -/
def State.issueColour (s : State) : Nat :=
  let held := (s.keeper.cores.filterMap fun c => s.job? c.2).map fun j => j.colour
  (((List.range 12).map fun i => i + 1).find? fun c => !held.contains c).getD 1

/-- A context moves on through the placements that it lacks (R290). -/
def State.retryPlace (s : State) (id : Nat) : State :=
  match s.job? id with
  | some j =>
    if j.placed = 0 then s.placeTo id 1 [64] fun st =>
      (st.updJob id fun i => { i with readSince := st.tick }).emit (.read id .descriptor (st.slotAddr j.ring j.index) 64 (st.dmaPasid j.slice))
    else if j.placed = 1 then s.placeInput id
    else if s.keeper.haltNormal then s
    else s.parseJob id
  | none => s

/-- A context is created; its command core takes it up. -/
def State.newContext (s : State) (ring index : Nat) (refetch void : Bool) : State :=
  let id := s.sched.nextJob + 1
  let j := newJob id ring index (s.ringSlice ring) s.tick s.issueColour refetch void
  let cores := s.keeper.cores.filter (fun c => decide (c.1 ≠ id % 8)) ++ [(id % 8, id)]
  let s := { s with jobs := s.jobs ++ [j], sched := { s.sched with nextJob := id }, keeper := { s.keeper with cores := cores } }
  s.retryPlace id

/-! ## Fetching (R63, R65, R78, R87, R123, R125, R126) -/

/-- Host jobs are fetched and admitted: READY, no zeroise or reset of a response, no transition, no secure invasive debug, command cores running. -/
def State.serves (s : State) : Bool :=
  s.host.ready && !s.tamperStops && s.life.transition.isNone && !bitOf s.keeper.debugState 3 && s.keeper.coresRunning

/-- Descriptors of a ring pair can be fetched. -/
def State.mayFetch (s : State) (n : Nat) : Bool :=
  let r := s.ring n
  let c := s.slice (s.ringSlice n)
  r.enabled && !(r.errorDue.any fun e => decide (e.2 ≠ 0)) && decide (c.mig = .running) && c.resetting.isNone

/-- Parked jobs of a ring pair can be fetched again: they were fetched before, so a disable since then does not keep them back (R63, R126). -/
def State.mayRefetch (s : State) (n : Nat) : Bool :=
  let c := s.slice (s.ringSlice n)
  !((s.ring n).errorDue.any fun e => decide (e.2 ≠ 0)) && decide (c.mig = .running) && c.resetting.isNone

/-- One descriptor of a ring pair is fetched; SH advances. -/
def State.fetchOne (s : State) (n : Nat) : State :=
  let r := s.ring n
  (s.setRing n { r with sh := (r.sh + 1) % 2 ^ (r.k + 1) }).newContext n r.sh false false

/-- One turn of a ring pair: at most 16 descriptors, and at most what is left of D. -/
def State.fetchTurn (a : State × Nat) (n : Nat) : State × Nat :=
  let r := a.1.ring n
  let k := min 16 (min a.2 (ringDist r.k r.sh r.tl))
  if k = 0 then a
  else
    let s := (List.range k).foldl (fun st _ => st.fetchOne n) a.1
    ({ s with sched := { s.sched with fetchNext := n + 1 } }, a.2 - k)

/-- Turns over the ring pairs until none has a descriptor left or D is used. -/
def State.fetchRounds (ns : List Nat) : Nat → State × Nat → State
  | 0, a => a.1
  | f + 1, a =>
    let b := ns.foldl State.fetchTurn a
    if b.2 = a.2 then b.1 else State.fetchRounds ns f b

/-- Parked jobs are fetched again, ahead of new descriptors, as far as D reaches. -/
def State.fetchParked (s : State) : State × Nat :=
  (s.slices.filter fun e => !e.2.parked.isEmpty).foldl (fun (a : State × Nat) e =>
    let take := (e.2.parked.filter fun p => a.1.mayRefetch p.ring).take a.2
    let st := take.foldl (fun st p => st.newContext p.ring p.index true true) a.1
    (st.updSlice e.1 fun c => { c with parked := c.parked.filter fun p => !take.contains p }, a.2 - take.length))
    (s, fetchPerFrame s.period)

/-- Jobs that had no room try again, oldest first; halted parses go on (R290, R308). -/
def State.retryContexts (s : State) : State :=
  s.jobs.foldl (fun st j =>
    if j.phase = .noRoom then st.retryPlace j.id
    else if j.phase = .fetching ∧ j.placed = 2 ∧ j.canParse then (st.updJob j.id fun i => { i with boundVoid := true }).parseIfReady j.id
    else st) s

/-- The fetch of a frame. -/
def State.fetchFrame (s : State) : State :=
  if !s.serves then s
  else
    let s := s.retryContexts
    if s.keeper.haltNormal then s
    else
      let a := s.fetchParked
      let ns := (a.1.rings.map fun e => e.1).filter a.1.mayFetch
      let next := a.1.sched.fetchNext
      let order := ns.filter (fun n => decide (next ≤ n)) ++ ns.filter fun n => decide (n < next)
      State.fetchRounds order (fetchPerFrame s.period) a

/-! ## The key ladder (R191, R193) -/

/-- Kind-01 handles of a job that a lane runs. -/
def Job.derivedHandles (j : Job) : List Nat := (j.handle1.toList ++ j.handle2.toList).filter fun h => hKind h == 1

/-- Derivations that a waiting job still lacks. -/
def State.lacks (s : State) (j : Job) : List Nat :=
  if j.phase = .ready ∧ j.admitted.isNone ∧ opEngine j.op < engCt then
    j.derivedHandles.drop (s.lanes.ladder.filter fun k => decide (k.job = j.id)).length
  else []

/-- One derivation made for a job. -/
def State.deriveOne (s : State) (j : Job) (h : Nat) : State :=
  let s := { s with lanes := { s.lanes with ladder := s.lanes.ladder ++ [(⟨j.id, hHeart h, (s.derive h j.op j.label).bytes⟩ : LadderKey)] } }
  (s.count Key.SYM_LADDER_DERIVATIONS).updSlice j.slice fun c => { c with derivations := (c.derivations + 1) % 2 ^ 64 }

/-- The derivations of a class-0 job, which the base charge covers; those that do not fit the frame move their job to class 1. -/
def State.deriveClass0 (s : State) (j : Job) : State :=
  let hs := s.lacks j
  if j.cls ≠ 0 ∨ hs = [] then s
  else if s.lanes.ladderUsed + hs.length ≤ s.ladderRoom then
    let s := hs.foldl (fun st h => st.deriveOne j h) s
    { s with lanes := { s.lanes with ladderUsed := s.lanes.ladderUsed + hs.length } }
  else (s.count Key.SYM_LADDER_SPILLS).updJob j.id fun i => { i with cls := 1, boundVoid := true }

/-- The derivations of another job, a credit each; what does not fit waits. -/
def State.deriveOther (s : State) (id : Nat) : State :=
  match s.job? id with
  | none => s
  | some j =>
    if j.cls = 0 then s
    else (s.lacks j).foldl (fun st h => match st.ladderTake with
      | some st => st.deriveOne j h
      | none => st) s

/-- The ladder's work of a frame, made at its end with the frame's last credits: class 0, unwraps, other derivations. -/
def State.ladderFrame (s : State) : State :=
  let s := (s.jobs.foldl (fun st j => st.deriveClass0 j) s).unwrapAll
  let s := (s.jobs.map fun j => j.id).foldl State.deriveOther s
  { s with lanes := { s.lanes with ladderUsed := 0 } }

end Sys2Proof.Machine
end

