-- ==== Sys2Proof/Machine/Segments.lean ====
section
/-! DEFINITION. Segments on lanes: lane time, key windows, one segment run, admission to a lane; class-0 re-runs, continuations and new class-0 jobs (R26 to R36, R38, R40, R136, R156, R175 to R178, R189, R200, R201, R281, R284). -/

namespace Sys2Proof.Machine

/-! ## Lanes -/

/-- Lane time used on a lane in this frame. -/
def State.laneUsed (s : State) (eng n : Nat) : Nat := if eng = engPk then (s.pkLane n).usedCycles else (s.symLane n).usedCycles

/-- The job that stands on a lane between its segments. -/
def State.laneRun (s : State) (eng n : Nat) : Option Nat := if eng = engPk then (s.pkLane n).running else (s.symLane n).running

/-- Jobs parked on a lane. -/
def State.laneParked (s : State) (eng n : Nat) : List Nat := if eng = engPk then (s.pkLane n).parked.toList else (s.symLane n).parked

/-- Lane time left. -/
def State.laneRoom (s : State) (eng n : Nat) : Nat := s.laneTime - s.laneUsed eng n

/-- Put a job on a lane, or none, with `c` more cycles used; a job put there is no longer parked. -/
def State.setLane (s : State) (eng n : Nat) (run : Option Nat) (c : Nat) : State :=
  if eng = engPk then
    s.updPk n fun l => { l with running := run, parked := if l.parked = run then none else l.parked, usedCycles := l.usedCycles + c }
  else
    s.updSym n fun l => { l with running := run, parked := l.parked.filter fun p => decide (some p ≠ run), usedCycles := l.usedCycles + c }

/-- A job of class 1 to 3 gives way on its lane: parked beside the job that takes it (R27). -/
def State.parkOn (s : State) (eng n : Nat) : State :=
  match s.laneRun eng n with
  | none => s
  | some id =>
    let s := s.updJob id fun j => { j with phase := .parkedLane }
    if eng = engPk then s.updPk n fun l => { l with running := none, parked := some id }
    else s.updSym n fun l => { l with running := none, parked := l.parked ++ [id] }

/-- The job of class 1 to 3 that a lane holds, on it or parked. -/
def State.laneLow (s : State) (eng n : Nat) : Option Nat :=
  ((s.laneRun eng n).toList ++ s.laneParked eng n).find? fun id => (s.job? id).any fun j => decide (j.cls ≠ 0)

/-! ## Shared cycles of a cluster (R175 to R178) -/

/-- Shared demands of the segments that a plan still takes, each from the start of a lane time; `n` of them at most. -/
def segDemands (lt : Nat) : Nat → List Stage → List Nat
  | 0, _ => []
  | n + 1, p => if p.isEmpty then [] else let t := takeSeg p lt false; [t.2.1] ++ segDemands lt n t.2.2.2

/-- Shared demand of a job on its lane, `k` frames after frame `now`. -/
def Job.demandAt (j : Job) (lt now k : Nat) : Nat :=
  if j.ranFrame = now then (if k = 0 then j.segDemand else (segDemands lt k j.plan).getD (k - 1) 0)
  else (segDemands lt (k + 1) j.plan).getD k 0

/-- Class-0 lattice jobs on the lanes of a cluster that `lane` picks. -/
def State.class0Lattice (s : State) (cl : Nat) (lane : Nat → Bool) : List Job :=
  s.jobs.filter fun j => decide (j.cls = 0) && latticeOp j.op && j.admitted.isSome && decide (j.phase = .running) && j.lane / 4 == cl && lane j.lane

/-- The largest demand of a class-0 lattice segment at a lane time (R178): ML-KEM-768 decapsulation and ML-DSA-65 verify are bounded. -/
def largestClass0Demand (lt : Nat) : Nat := max (ceilDiv (53000 * min lt 80000) 80000) (ceilDiv (64000 * min lt 140000) 140000)

/-- A class-0 lattice job has room in the cluster of lane `n` in each of its frames, beside the class-0 work there; in a spare's cluster the largest segment stays free for a re-run (R178). -/
def State.class0Room (s : State) (j : Job) (n : Nat) : Bool :=
  if !latticeOp j.op then true
  else
    let lt := s.laneTime
    let cl := n / 4
    let all := s.class0Lattice cl fun _ => true
    let others := s.class0Lattice cl fun l => decide ((s.pkLane l).role ≠ .spare)
    let spare := (List.range 4).any fun i => decide ((s.pkLane (4 * cl + i)).role = .spare)
    let own := segDemands lt (planSegs lt j.plan) j.plan
    let sum (js : List Job) (k : Nat) : Nat := (js.map fun i => i.demandAt lt s.tick k).foldl (· + ·) 0
    (List.range own.length).all fun k =>
      decide (sum all k + own.getD k 0 ≤ lt) && (!spare || decide (sum others k + own.getD k 0 + largestClass0Demand lt ≤ lt))

/-- The next segment of a job on lane `n` stays within its cluster's shared cycles (R176). -/
def State.sharedFits (s : State) (j : Job) (n : Nat) : Bool :=
  let dem := (takeSeg j.plan (s.laneRoom (opEngine j.op) n) false).2.1
  let c := s.cluster (n / 4)
  decide (opEngine j.op ≠ engPk) || decide (dem = 0) || (!c.fenced && decide (c.now + dem ≤ s.laneTime))

/-- A class-0 job of several segments stands on the lane: it holds it in each of its frames (R26). -/
def State.laneHeld (s : State) (eng n : Nat) : Bool :=
  (s.laneRun eng n).any fun id => (s.job? id).any fun j => decide (j.cls = 0)

/-- A lane of a pool that can take new jobs (R134, R187, R304); a fenced cluster admits no lattice job (R179). -/
def State.laneOpen (s : State) (j : Job) (n : Nat) : Bool :=
  if opEngine j.op = engPk then
    decide ((s.pkLane n).role = .active) && !(latticeOp j.op && (s.cluster (n / 4)).fenced)
  else (s.symLane n).inPool && !(s.symLane n).draining

def lanesOf (eng : Nat) : List Nat := List.range (if eng = engPk then 24 else 8)

/-! ## Key windows (R189) -/

/-- Windows that a job's keys take. -/
def Job.windows (j : Job) : Nat :=
  if opEngine j.op ≠ engSym ∨ j.op = 0x0407 ∨ j.op = 0x0801 then 0
  else if j.op = 0x0505 ∧ j.alg1 = 0x46 then 2 else 1

/-- Windows held by jobs that ended on this lane in this frame: their successor uses them in turn. -/
def State.passedOn (s : State) (slice lane : Nat) : List Nat :=
  ((s.slice slice).windows.filter fun w => (s.job? w.2).any fun j =>
    j.plan.isEmpty && decide (j.lastSeg = s.tick) && decide (j.ranFrame = s.tick) && j.lane == lane).map fun w => w.1

/-- The job's windows claimed, the lowest free ones first; none where too few are free. -/
def State.claim (s : State) (j : Job) (lane : Nat) : Option State :=
  let ws := (s.slice j.slice).windows
  let have_ := (ws.filter fun w => decide (w.2 = j.id)).length
  let need := j.windows - have_
  if need = 0 then some s
  else
    let free := s.passedOn j.slice lane ++ (List.range 6).filter fun w => !(ws.any fun x => x.1 == w)
    if free.length < need then none
    else
      let mine := free.take need
      some (s.updSlice j.slice fun c => { c with windows := (c.windows.filter fun w => !mine.contains w.1) ++ mine.map fun w => (w, j.id) })

/-! ## One segment (R26, R40, R41, R175, R200, R201) -/

/-- Input bytes that must have arrived once `done` cycles of a streaming job's schedule have run: the pieces of its segments so far. -/
def Job.inputNeeded (j : Job) (lt done : Nat) : Nat := j.pieceEnd j.key1 lt (ceilDiv done lt)

/-- Cycles of a plan still to run. -/
def planLeft (p : List Stage) : Nat := (p.map fun st => st.left).foldl (· + ·) 0

/-- Cycles of a job's whole schedule. -/
def Job.planAll (j : Job) (lt : Nat) : Nat := planLeft (j.planOf lt)

/-! ## The blinding stream and the banks (R136, R137, R148, R179) -/

/-- The cluster whose Keccak core expands a lane's stream: its own, or, while that is fenced, the next unfenced one in number order (R179). -/
def State.keccakCore (s : State) (lane : Nat) : Nat :=
  (((List.range 6).map fun i => (lane / 4 + i) % 6).find? fun c => !(s.cluster c).fenced).getD (lane / 4)

/-- `n` bytes of a lane's blinding stream: SHAKE256 of its seed and its counter. -/
def State.takeStream (s : State) (lane n : Nat) : Bytes × State :=
  let l := s.pkLane lane
  (shake256 (l.blindSeed ++ leBytes 8 l.blindCounter) n, s.setPk lane { l with blindCounter := l.blindCounter + 1, blindCore := s.keccakCore lane })

/-- A job of the stream takes its blinding values, of every run, from its lane. -/
def State.blindJob (s : State) (id lane : Nat) : State :=
  match s.job? id with
  | some j =>
    if opEngine j.op = engPk ∧ !j.freshDraws then
      let b := s.takeStream lane j.blindAll
      b.2.updJob id fun i => { i with blind := b.1 }
    else s
  | none => s

/-- A job's banks are filled with its operands before its first segment; from then on they hold its state until they are wiped (R136, R137). -/
def State.fillBanks (s : State) (id lane : Nat) : State :=
  match s.job? id with
  | some j => s.updPk lane fun l => if l.banks.any fun b => b.job == id then l else { l with banks := l.banks ++ [j.bankUse (j.operands)] }
  | none => s

/-- Counted outputs of the output frame that follows this frame (R201). -/
def State.outputsComing (s : State) : Nat :=
  (s.jobs.filter fun j => opEngine j.op == engSym && j.plan.isEmpty && j.admitted.isSome && decide (j.lastSeg = s.tick) && decide (j.ranFrame = s.tick)).foldl
    (fun a j => let o := (j.shape j.key1 j.key2).out; if 8192 < o then a + o else a) 0

/-- The last segment's output fits the budget. -/
def State.outputFits (s : State) (j : Job) : Bool :=
  let o := (j.shape j.key1 j.key2).out
  opEngine j.op != engSym || decide (o ≤ 8192) || decide (s.outputsComing + o ≤ s.outputBudget)

/-- How a segment is paid for: from the class-0 pre-reservation, from the job's leave, or from the uncommitted remainder. -/
inductive Pay where
  | reserve | leave | remainder
  deriving DecidableEq, Repr

/-- Pay `c` credits. -/
def State.pay (s : State) (j : Job) (p : Pay) (c : Nat) : Option State :=
  match p with
  | .reserve => some { s with sched := { s.sched with preReserved := s.sched.preReserved - c } }
  | .leave => some { s with sched := { s.sched with committed := s.sched.committed - (j.leaveN - c) } }
  | .remainder => s.debit c

/-- One segment of an admitted job on a lane; none where it must wait: for lane time, shared cycles, its piece, a key window, the output budget or credits. -/
def State.runSeg (s : State) (id lane : Nat) (p : Pay) : Option State :=
  match s.job? id with
  | none => none
  | some j =>
    let eng := opEngine j.op
    let lt := s.laneTime
    let t := takeSeg j.plan (s.laneRoom eng lane) false
    let dem := t.2.1
    let cl := s.cluster (lane / 4)
    let done := j.planAll lt - planLeft t.2.2.2
    let ends := t.2.2.2.isEmpty
    if t.1 = 0 then none
    else if eng = engPk ∧ 0 < dem ∧ (cl.fenced ∨ lt < cl.now + dem) then none
    else if opStream j.op ∧ j.input.length < j.inputNeeded lt done then none
    else if ends && !s.outputFits j then none
    else
      (s.claim j lane).bind fun s =>
      (s.pay j p (segCost eng t.2.2.1)).map fun s =>
      let s := s.updJob id fun i => { i with
        plan := t.2.2.2, segsRun := i.segsRun + 1, segCycles := t.1, segDemand := dem, ranFrame := s.tick, lane := lane, engine := eng, phase := .running,
        lastSeg := if ends then s.tick else i.lastSeg }
      let s := s.updJob id fun i => i.grown lt
      let s := if eng = engPk then s.fillBanks id lane else s
      let s := if opStream j.op then s.askPiece id (ceilDiv done lt + 1) else s
      let s := if eng = engPk ∧ 0 < dem then s.updCluster (lane / 4) fun c => { c with now := c.now + dem } else s
      let s := if eng = engSym then s.updSlice j.slice fun c => { c with segmentsNow := c.segmentsNow + 1 } else s
      s.setLane eng lane (if ends then none else some id) t.1

/-! ## Admission to a lane -/

/-- The job with its keys, its fault checks and its schedule as they stand now (R82, R226). -/
def State.planned (s : State) (j : Job) : Job :=
  let k := s.withKeys j
  let k := { k with checks := s.num (Key.SLC_FAULT_POLICY j.slice) ||| (b2n j.desc.verifyRelease + 2 * b2n j.desc.repeatCompare) }
  { k with plan := k.planOf s.laneTime }

/-- A waiting lane job that holds all but its draw: parsed, no read and no change in its way, its keys at hand and derived. A job whose generation is over needs none (R105). -/
def State.atHand (s : State) (j : Job) : Bool :=
  decide (j.phase = .ready) && j.admitted.isNone && decide (opEngine j.op < engCt) && decide (j.notBefore ≤ s.tick) && !s.waitsRead j.id && !s.waitsChange j &&
    (!s.freshKeys j || ((s.withKeys j).hasKeys && (s.lacks j).isEmpty))

/-- Bytes that the software port can still serve in this frame (R284). -/
def State.portLeft (s : State) : Nat :=
  let full := scaleCredits s.period (s.num Key.WSP_PORT_BYTES_PER_FRAME)
  (if s.ent.supply = 1 then full else full / 2) - s.ent.portBytesUsed

/-- The draw of a job is refused (R281, R284). -/
def State.drawRefused (s : State) (j : Job) : Bool :=
  decide (j.drawLen ≠ 0) && (s.withheld || (j.op == 0x0801 && (s.ent.keeperPort || s.ent.gatedPort)))

/-- The port's allowance has room for the job's bytes; it never holds back a class-0 job of at most 256. -/
def State.portFits (s : State) (j : Job) : Bool :=
  j.op != 0x0801 || (decide (j.cls = 0) && decide (j.desc.capacity ≤ 256)) || decide (j.desc.capacity ≤ s.portLeft)

/-- Segments of a plan whose first one finds `room` cycles. -/
def segsFrom (lt room : Nat) (p : List Stage) : Nat :=
  let t := takeSeg p room false
  if t.2.2.2.isEmpty then 1 else 1 + planSegs lt t.2.2.2

/-- The plan as far as an armed switch needs to know it (R50). -/
def State.planToSwitch (s : State) (j : Job) : List Stage :=
  let segs := s.num Key.SEI_SWITCH_TICK - s.tick + 1
  if s.switchArmed then (Job.grow s.laneTime segs (segs * s.laneTime + 1) j).plan else j.plan

/-- While a switch is armed, a job whose segments would run past it waits (R50). -/
def State.pastSwitch (s : State) (p : List Stage) (room : Nat) : Bool :=
  s.switchArmed && decide (s.num Key.SEI_SWITCH_TICK < s.tick + segsFrom s.laneTime room p)

/-- Admit a job: its draws, of secrets and of blinding, its schedule, its derived key taken over, its objects used. -/
def State.admitJob (s : State) (k : Job) : State :=
  let d := if k.drawLen = 0 then ([], s) else s.draw k.drawLen
  let s := d.2
  let k := { k with draws := d.1.take k.secretLen, blind := d.1.drop k.secretLen, drawsDone := true, admitted := some s.tick,
                    replK := s.kInForce, noMajority := !s.majority, attempts := 1, accepted := !k.openEnded }
  let k := { k with plan := k.planOf s.laneTime }
  let k := k.grown s.laneTime
  let s := if k.op = 0x0801 then { s with ent := { s.ent with portBytesUsed := s.ent.portBytesUsed + k.desc.capacity } } else s
  let mine (o : CacheObj) : Bool := k.handle1 == some o.handle || k.handle2 == some o.handle
  let used (o : CacheObj) : CacheObj := if mine o then { o with used := s.tick } else o
  let s := { s with
    keys := { s.keys with cache := s.keys.cache.map used }
    lanes := { s.lanes with ladder := s.lanes.ladder.filter fun x => decide (x.job ≠ k.id) } }
  s.setJob k

/-- Admit a job to a lane and run its first segment, or nothing of it. A job whose generation is over, or whose session object has gone, ends instead (R104, R105). -/
def State.tryStart (s : State) (k : Job) (lane : Nat) (p : Pay) : Option State :=
  if !s.freshKeys k then some (s.finish k.id (s.lostStatus k) 0 (s.tick + 2))
  else if s.drawRefused k || !s.portFits k then none
  else
    let t := (s.admitJob k).blindJob k.id lane
    if (t.job? k.id).any fun j => t.pastSwitch (t.planToSwitch j) (t.laneRoom (opEngine k.op) lane) then none else t.runSeg k.id lane p

/-! ## Class 0 (R29, R32 to R36, R177) -/

/-- Class-0 use of the next segment of a job. -/
def State.segUse (s : State) (j : Job) : Nat :=
  let lt := s.laneTime
  let t := takeSeg j.plan lt false
  let u := if 1 < j.segsRun + planSegs lt j.plan then 16 else useOf lt t.1
  if latticeOp j.op then max u (4 * ceilDiv (16 * t.2.1) lt) else u

/-- Count a class-0 use against its slice. -/
def State.addUse (s : State) (j : Job) (u : Nat) : State :=
  s.updSlice j.slice fun c =>
    if opEngine j.op = engPk then { c with c0NowPk := c.c0NowPk + u } else { c with c0NowSym := c.c0NowSym + u }

/-- What is left of the slice's class-0 share. -/
def State.shareLeft (s : State) (j : Job) : Nat :=
  let c := s.slice j.slice
  if opEngine j.op = engPk then s.num (Key.SLC_SHARE_PK j.slice) - c.c0NowPk else s.num (Key.SLC_SHARE_SYM j.slice) - c.c0NowSym

/-- A class-0 segment on a lane, its use counted. -/
def State.runClass0 (s : State) (id lane : Nat) : State :=
  match s.job? id with
  | some j => match s.runSeg id lane .reserve with
    | some st => st.addUse j (s.segUse j)
    | none => s
  | none => s

/-- The continuing class-0 segment of a lane has its start. -/
def State.continueClass0 (s : State) (eng n : Nat) : State :=
  match s.laneRun eng n with
  | some id => if (s.job? id).any fun j => decide (j.cls = 0) then s.runClass0 id n else s
  | none => s

/-- A lane can start a class-0 job in the class-0 part of its lane time: several segments from its start, one packed behind others; never beside a job that needs all banks (R26, R136). -/
def State.class0Fits (s : State) (k : Job) (n : Nat) : Bool :=
  let eng := opEngine k.op
  let segs := planSegs s.laneTime k.plan
  !s.laneHeld eng n && (if 1 < segs then decide (s.laneUsed eng n = 0) else decide (planLeft k.plan ≤ s.laneRoom eng n)) &&
    !((s.laneLow eng n).any fun id => (s.job? id).any fun j => j.fourBanks) &&
    !(decide (eng = engPk) && decide ((s.laneRun eng n).isSome) && decide (s.laneParked eng n ≠ []))

/-- The lane of a new class-0 job, in a cluster with room (R178): one that holds no other job before one whose job must give way. -/
def State.class0Lane (s : State) (k : Job) : Option Nat :=
  let eng := opEngine k.op
  let ns := (lanesOf eng).filter fun n => s.laneOpen k n && s.class0Fits k n && s.class0Room k n
  match ns.find? fun n => (s.laneLow eng n).isNone with
  | some n => some n
  | none => ns.head?

/-- The lane with the job of class 1 to 3 on it parked, for the class-0 job that takes its place (R27). -/
def State.clearLane (s : State) (k : Job) (n : Nat) : State := s.parkOn (opEngine k.op) n

/-- A class-0 job goes to the class-1 queue with BOUND_VOID (R32). -/
def State.toClass1 (s : State) (id : Nat) : State := s.updJob id fun j => { j with cls := 1, boundVoid := true }

def State.voidBound (s : State) (id : Nat) (v : Bool) : State := s.updJob id fun j => { j with boundVoid := j.boundVoid || v }

/-- The stored keys of a job are pinned. -/
def State.keysPinned (s : State) (j : Job) : Bool := (j.handle1.toList ++ j.handle2.toList).all fun h => hKind h != 0 || s.keys.pins.contains h

/-- The public-key pool holds the one spare that the bounds ask for (R36). -/
def State.oneSpare (s : State) : Bool := decide ((s.pkWith .spare).length = 1) && decide (s.num Key.PKE_SPARE_COUNT = 1)

/-- A ready class-0 job at its admission (R32, Table 2.5); one that finds no key window waits before its start (R189). -/
def State.class0New (s : State) (id : Nat) : State :=
  match s.job? id with
  | none => s
  | some j =>
    if j.cls ≠ 0 ∨ j.phase ≠ .ready ∨ j.admitted.isSome ∨ engCt ≤ opEngine j.op ∨ s.tick < j.notBefore ∨ s.waitsChange j then s
    else
      let s := s.voidBound id (decide (j.frameF + 1 < s.tick))
      let k := { s.planned j with boundVoid := j.boundVoid || decide (j.frameF + 1 < s.tick) }
      if !s.freshKeys j then s.finish id (s.lostStatus j) 0 (s.tick + 2)
      else if !k.bounded || !s.keysPinned j || !s.atHand j then s.toClass1 id
      else if s.pastSwitch k.plan s.laneTime then s.voidBound id true
      else if s.drawRefused k then (s.voidBound id true).updJob id fun i => { i with firstHeld := some (i.firstHeld.getD s.tick) }
      else if s.shareLeft k < s.segUse k then s.toClass1 id
      else match s.class0Lane k with
        | none => s.toClass1 id
        | some n =>
          let k := { k with boundVoid := k.boundVoid || (decide (opEngine k.op = engPk) && !s.oneSpare) }
          match (s.clearLane k n).tryStart k n .reserve with
          | some st => st.addUse k (s.segUse k)
          | none => if (s.claim k n).isNone then s.voidBound id true else s.toClass1 id

/-! ## Re-runs (R33, R37, R38, R156) -/

/-- Class-0 jobs that a fault sent back to their first segment, the earlier admitted first, then by lane. -/
def State.reruns (s : State) : List Job :=
  let js := s.jobs.filter fun j => j.rerun && decide (j.phase = .ready) && j.admitted.isSome
  let before (a b : Job) : Bool := decide (a.admitted.getD 0 < b.admitted.getD 0) || (a.admitted == b.admitted && decide (a.lane ≤ b.lane))
  js.foldl (fun l j => (l.filter fun x => before x j) ++ [j] ++ l.filter fun x => !before x j) []

/-- The lane of a re-run: the spare of the last frame, else another active lane of the pool; of a job that a shared-unit fault stopped, an active lane of another cluster (R156, R179). -/
def State.rerunLane (s : State) (spares : List Nat) (j : Job) : Option (Nat × Bool) :=
  let eng := opEngine j.op
  let idle (n : Nat) : Bool := decide (s.laneUsed eng n = 0) && (s.laneRun eng n).isNone
  let serves (n : Nat) : Bool := let l := s.pkLane n; (decide (l.role = .active) || decide (l.role = .comingSpare) || decide (l.role = .spare)) &&
    !(latticeOp j.op && (s.cluster (n / 4)).fenced)
  let stopped := latticeOp j.op && (s.cluster (j.lane / 4)).fenced
  if eng = engPk then
    match spares.find? fun n => !stopped && serves n && idle n with
    | some n => some (n, true)
    | none => (s.class0Lane j).map fun n => (n, false)
  else (s.class0Lane j).map fun n => (n, true)

/-- One re-run takes its lane, ahead of every admission; without the spare it carries BOUND_VOID. -/
def State.rerunOne (spares : List Nat) (s : State) (j : Job) : State :=
  match s.rerunLane spares j with
  | none => s.voidBound j.id true
  | some n =>
    let s := if (s.pkLane n.1).test.isSome ∧ opEngine j.op = engPk then s.updPk n.1 fun l => { l with test := none } else s
    (((s.clearLane j n.1).voidBound j.id (!n.2)).blindJob j.id n.1).runClass0 j.id n.1

/-- The class-0 work that goes on: re-runs, then continuing segments, each at the start of its lane's time. -/
def State.class0Cont (spares : List Nat) (s : State) : State :=
  let s := s.reruns.foldl (State.rerunOne spares) s
  let s := (lanesOf engPk).foldl (fun st n => if st.laneUsed engPk n = 0 then st.continueClass0 engPk n else st) s
  (lanesOf engSym).foldl (fun st n => if st.laneUsed engSym n = 0 then st.continueClass0 engSym n else st) s

/-- New class-0 jobs, slice by slice from slice T mod 1,024 on, the oldest of a slice first. -/
def State.class0News (s : State) : State :=
  let ready := s.jobs.filter fun j => decide (j.cls = 0) && decide (j.phase = .ready) && j.admitted.isNone
  let turn (j : Job) : Nat := (j.slice + 1024 - s.tick % 1024) % 1024
  let order := (ready.map turn).foldl (fun l t => insertAsc t l) []
  order.foldl (fun st t => (ready.filter fun j => decide (turn j = t)).foldl (fun st j => st.class0New j.id) st) s

end Sys2Proof.Machine
end

