-- ==== Sys2Proof/Machine/Leave.lean ====
section
/-! DEFINITION. Credits of a frame, leave, and the jobs of classes 1 to 3 on their lanes (R27, R31, R40 to R46, R136, R148, R157, R158, R179, R281). -/

namespace Sys2Proof.Machine

/-! ## The credits of a frame (R40, R42) -/

/-- P of the frame. -/
def State.peak (s : State) : Nat := scaleCredits s.period (s.num Key.SEI_PEAK)

/-- Slices that hold a class-0 share. -/
def State.shareSlices (s : State) : List Nat :=
  ((s.dict.nums.filter fun e => decide (entryKey 0x3000 0 ≤ e.1) && decide (e.1 < entryKey 0x3400 0) &&
    (e.1 % 256 == 2 || e.1 % 256 == 3)).map fun e => e.1 / 256 - 0x3000).eraseDups

/-- The class-0 pre-reservation, rounded up per slice and pool. -/
def State.preReservation (s : State) : Nat :=
  s.shareSlices.foldl (fun a n => a + reserveOf s.period (s.num (Key.SLC_SHARE_PK n)) (s.num (Key.SLC_SHARE_SYM n))) 0

/-- What every frame commits before leave: the base charge and the pre-reservation. -/
def State.standing (s : State) : Nat := scaleCredits s.period (s.num Key.SEI_BASE_CHARGE) + s.preReservation

/-- Leave granted for frame `f`. -/
def leaveAt (ls : List Leave) (f : Nat) : Nat := ls.foldl (fun a l => if l.first ≤ f ∧ f ≤ l.last then a + l.n else a) 0

/-- The frames, from `now` on, at which the leave granted changes. -/
def leaveBreaks (ls : List Leave) (now : Nat) : List Nat :=
  (ls.flatMap fun l => [max now l.first, max now (l.last + 1)]).foldl (fun b f => insertAsc f b) [now]

/-- The excess over a budget of all frames from the first of `bs` on. -/
def leaveExcess (budget standing : Nat) (ls : List Leave) : List Nat → Nat
  | a :: c :: r => (standing + leaveAt ls a - budget) * (c - a) + leaveExcess budget standing ls (c :: r)
  | _ => 0

/-- N credits in each of the `m` frames from `first` on fit under R42: no frame of them passes the peak, and the reservoir covers the excess of all leave. -/
def State.leaveFits (s : State) (n first m : Nat) : Bool :=
  let ls := s.sched.leaves ++ [⟨0, n, first, first + m - 1⟩]
  let bs := leaveBreaks ls s.tick
  (bs.all fun f => decide (f < first) || decide (first + m ≤ f) || decide (s.standing + leaveAt ls f ≤ s.peak)) &&
    decide (leaveExcess s.budget s.standing ls bs ≤ s.sched.reservoir)

/-- A request could fit with a full reservoir and no other leave (R46). -/
def State.leaveCould (s : State) (n m : Nat) : Bool :=
  decide (s.standing + n ≤ s.peak) && decide ((s.standing + n - s.budget) * m ≤ s.num Key.SEI_RESERVOIR_MAX)

/-- The work that a leave was granted for goes on: a job that has not ended, a scan, copies (R45). -/
def State.leaveLives (s : State) (l : Leave) : Bool :=
  if l.job < chkLeaveId 0 then (s.job? l.job).any fun j => decide (j.phase ≠ .staged)
  else if copyLeaveId ≤ l.job then s.copyLeft l.job ≠ 0
  else decide ((s.chkUnit (l.job - chkLeaveId 0)).state = 1)

/-- The commitments of a frame as it begins: base charge, pre-reservation, the leave that goes on. -/
def State.commitFrame (s : State) : State :=
  let pre := s.preReservation
  let ls := s.sched.leaves.filter fun l => decide (s.tick ≤ l.last) && s.leaveLives l
  { s with sched := { s.sched with committed := s.standing + leaveAt ls s.tick, debited := 0, preReserved := pre, leaves := ls } }

/-- Pre-reservation that class 0 left unused goes to the other classes. -/
def State.releaseReserve (s : State) : State :=
  { s with sched := { s.sched with committed := s.sched.committed - s.sched.preReserved, preReserved := 0 } }

/-! ## Jobs of classes 1 to 3 on lanes (R27, R31, R136) -/

/-- Two jobs of classes 1 to 3 do not share a lane, but a symmetric job of class 3 that has not run in this frame gives way. -/
def State.lowBlocks (s : State) (k : Job) (n : Nat) : Bool :=
  let eng := opEngine k.op
  ((s.laneRun eng n).toList ++ s.laneParked eng n).any fun id => (s.job? id).any fun j =>
    decide (j.cls ≠ 0) && !(decide (eng = engSym) && decide (j.cls = 3) && decide (k.cls < 3) && decide (j.ranFrame ≠ s.tick))

/-- Lanes whose job needs all four banks. -/
def State.fourBankLanes (s : State) : Nat :=
  ((List.range 24).filter fun n => (s.laneLow engPk n).any fun id => (s.job? id).any fun j => j.fourBanks).length

/-- A lane can take a new job of class 1 to 3: its cluster has the shared cycles that the first segment takes (R176). -/
def State.lowFree (s : State) (k : Job) (n : Nat) : Bool :=
  let eng := opEngine k.op
  let run := s.laneRun eng n
  s.laneOpen k n && decide (0 < s.laneRoom eng n) && !s.lowBlocks k n && s.sharedFits k n &&
    (run.isNone || run.any fun id => (s.job? id).any fun j => decide (j.cls = 3)) &&
    (!k.fourBanks || (run.isNone && decide (s.laneParked eng n = []) &&
      decide (s.fourBankLanes + ceilDiv s.totalPk 16 < s.activePk.length)))

/-- The lane of a new job: one that has room for all of it in this frame before one that has any. -/
def State.lowLane (s : State) (k : Job) : Option Nat :=
  let eng := opEngine k.op
  let ns := (lanesOf eng).filter (s.lowFree k)
  match ns.find? fun n => decide (min s.laneTime (planLeft k.plan) ≤ s.laneRoom eng n) with
  | some n => some n
  | none => ns.head?

/-- A new job of class 1 to 3 starts on a lane, or nothing of it. -/
def State.startLow (s : State) (k : Job) (n : Nat) (p : Pay) : Option State := (s.parkOn (opEngine k.op) n).tryStart k n p

/-- The next segment of a job that a lane holds: a parked job takes the lane when no other stands on it. -/
def State.contOne (s : State) (eng n id : Nat) (p : Pay) : Option State :=
  match s.laneRun eng n with
  | some r => if r = id then s.runSeg id n p else none
  | none => (s.setLane eng n (some id) 0).runSeg id n p

/-- A job's leave covers the present frame. -/
def State.onLeave (s : State) (j : Job) : Bool := j.leaveUntil.any fun u => decide (s.tick ≤ u)

/-- The lane that holds a job. -/
def State.laneOf (s : State) (j : Job) : Option Nat :=
  let eng := opEngine j.op
  (lanesOf eng).find? fun n => s.laneRun eng n == some j.id || (s.laneParked eng n).contains j.id

/-! ## Leave (R43 to R46) -/

/-- Frames of leave that a job asks for: its segments, or the span of an RSA key generation. -/
def State.leaveFrames (s : State) (k : Job) (room : Nat) : Nat :=
  if k.op = 0x0206 then s.num Key.SEI_LEAVE_SPAN else segsFrom s.laneTime room k.plan

/-- A grant of leave put in force. -/
def State.putLeave (s : State) (id n first m : Nat) : State :=
  let now := if first ≤ s.tick then n else 0
  { s with sched := { s.sched with leaves := s.sched.leaves ++ [⟨id, n, first, first + m - 1⟩], committed := s.sched.committed + now } }

/-- Leave of an RSA key generation that has passed its last frame: the job waits at its checkpoint, holding its lane. -/
def State.leavePassed (s : State) : State :=
  s.jobs.foldl (fun st j =>
    if j.op = 0x0206 ∧ j.admitted.isSome ∧ j.plan ≠ [] ∧ (j.leaveUntil.any fun u => decide (u < st.tick)) then
      st.updJob j.id fun i => { i with leaveUntil := none, leaveAsked := some st.tick, phase := .parkedLane }
    else st) s

/-- The renewal of an RSA key generation: at the last frame of its leave for the frames that follow, else from the present frame on. -/
def State.renewOne (s : State) (id : Nat) : State :=
  match s.job? id with
  | none => s
  | some j =>
    let span := s.num Key.SEI_LEAVE_SPAN
    let n := j.leaveRate s.laneTime
    match j.leaveUntil with
    | some u =>
      if u = s.tick ∧ 1 < planSegs s.laneTime j.plan ∧ s.leaveFits n (u + 1) span then
        (s.putLeave id n (u + 1) span).updJob id fun i => { i with leaveUntil := some (u + span), leaveN := n }
      else s
    | none =>
      if s.leaveFits n s.tick span then
        (s.putLeave id n s.tick span).updJob id fun i => { i with leaveUntil := some (s.tick + span - 1), leaveAsked := none, leaveN := n }
      else s

/-- Renewals come before every other request. -/
def State.renewals (s : State) : State :=
  ((s.jobs.filter fun j => j.op == 0x0206 && j.admitted.isSome && !j.plan.isEmpty && (j.phase = .running ∨ j.phase = .parkedLane)).map fun j => j.id).foldl State.renewOne s

/-- Credits of leave that the frame does not use return to its remainder (R45). -/
def State.freeLeave (s : State) (n : Nat) : State := { s with sched := { s.sched with committed := s.sched.committed - n } }

/-- The frame's part of a job's leave: its segment, or the credits fall free. -/
def State.leaveSeg (s : State) (l : Leave) : State :=
  match s.job? l.job with
  | some j =>
    if j.plan.isEmpty ∨ j.phase = .staged then s.freeLeave l.n
    else match (s.laneOf j).bind fun n => s.contOne (opEngine j.op) n j.id .leave with
      | some t => t
      | none => s.freeLeave l.n
  | none => s.freeLeave l.n

/-- Segments under leave granted earlier. -/
def State.leaveSegs (s : State) : State :=
  (s.sched.leaves.filter fun l => decide (l.first ≤ s.tick) && decide (s.tick ≤ l.last) && decide (l.job < chkLeaveId 0)).foldl State.leaveSeg s

/-- A request for leave that waits: a job, a check-value unit or copies, its class, since when, N and M. -/
structure Ask where
  id : Nat
  cls : Nat
  asked : Nat
  n : Nat
  m : Nat
  deriving DecidableEq, Repr

/-- Bytes that a check-value unit folds in a frame at most (R412). -/
def State.chkAmount (s : State) (u : Nat) : Nat := scaleCredits s.period (if s.chkVault u then 32768 else 131072)

def State.jobAsk (s : State) (j : Job) : Option Ask :=
  if j.leaveUntil.isSome then none
  else j.leaveAsked.map fun t =>
    let k := s.planned j
    ⟨j.id, j.cls, t, k.leaveRate s.laneTime, s.leaveFrames k s.laneTime⟩

/-- A scan over 1 MiB asks with class 3. -/
def State.chkAsk (s : State) (u : Nat) : Option Ask :=
  let c := s.chkUnit u
  if c.state ≠ 1 ∨ c.leaveUntil.isSome then none
  else c.leaveAsked.map fun t => ⟨chkLeaveId u, 3, t, ceilDiv (s.chkAmount u) 65536, ceilDiv (s.chkRemaining u) (s.chkAmount u)⟩

/-- A scrub pass, a resilver and a transfer ask with class 3 (Table 2.8, R265, R266, R344): 2 credits for each page of a frame, for the frames of the copy. -/
def State.copyAsk (s : State) (id : Nat) : Option Ask :=
  let c := s.copyOf id
  if c.last.isSome then none
  else c.asked.map fun t => ⟨id, 3, t, 2 * s.copyRate id, ceilDiv (s.copyLeft id) (s.copyRate id)⟩

/-- All waiting requests, by class and then the oldest first. -/
def State.asks (s : State) : List Ask :=
  let l := s.jobs.filterMap s.jobAsk ++ (List.range 4).filterMap s.chkAsk ++ (s.copyAsk copyLeaveId).toList ++ (s.copyAsk transferLeaveId).toList
  let before (a b : Ask) : Bool := decide (a.cls < b.cls) || (a.cls == b.cls && decide (a.asked ≤ b.asked))
  l.foldl (fun o a => (o.filter fun x => before x a) ++ [a] ++ o.filter fun x => !before x a) []

/-- An aged request of class 1 or 2 that could fit holds back a younger one (R44, R46). -/
def State.askBlocked (s : State) (a : Ask) : Bool :=
  s.asks.any fun b => decide (b.cls < 3) && decide (b.asked < a.asked) && decide (b.asked + s.num Key.SEI_LEAVE_AGE ≤ s.tick) && s.leaveCould b.n b.m

/-- A job granted leave is admitted with it. -/
def State.grantJob (s : State) (a : Ask) : State :=
  match s.job? a.id with
  | none => s
  | some j =>
    if j.admitted.isSome ∨ !s.atHand j then s
    else if !s.freshKeys j then s.finish j.id (s.lostStatus j) 0 (s.tick + 2)
    else
      let k := s.planned j
      match s.lowLane k with
      | none => s
      | some n =>
        let m := s.leaveFrames k (s.laneRoom (opEngine k.op) n)
        if !s.leaveFits a.n s.tick m then s
        else
          let k := { k with leaveN := a.n, leaveUntil := some (s.tick + m - 1), leaveAsked := none }
          ((s.putLeave a.id a.n s.tick m).startLow k n .leave).getD s

/-- A check-value unit granted leave. -/
def State.grantChk (s : State) (a : Ask) : State :=
  if s.leaveFits a.n s.tick a.m then
    (s.putLeave a.id a.n s.tick a.m).updChk (a.id - chkLeaveId 0) fun c => { c with leaveUntil := some (s.tick + a.m - 1), leaveAsked := none, leaveN := a.n }
  else s

/-- Copies granted leave. -/
def State.grantCopy (s : State) (a : Ask) : State :=
  if s.leaveFits a.n s.tick a.m then
    (s.putLeave a.id a.n s.tick a.m).setCopy a.id ⟨none, some (s.tick + a.m - 1), a.n⟩
  else s

/-- Copies ask while they have pages to copy and no leave; without work they hold and ask for none. -/
def State.askCopy (s : State) (id : Nat) : State :=
  let c := s.copyOf id
  if s.copyLeft id = 0 ∨ s.copyRate id = 0 then s.setCopy id ⟨none, none, 0⟩
  else if c.last.any fun u => decide (s.tick ≤ u) then s
  else s.setCopy id { c with last := none, asked := some (c.asked.getD s.tick) }

/-- Heavy jobs at hand, and copies, ask for leave. -/
def State.askLeave (s : State) : State :=
  s.jobs.foldl (fun st j =>
    if j.cls ≠ 0 ∧ j.leaveAsked.isNone ∧ st.atHand j ∧ (st.withKeys j).heavy then st.updJob j.id fun i => { i with leaveAsked := some st.tick } else st) ((s.askCopy copyLeaveId).askCopy transferLeaveId)

/-- One request considered. -/
def State.grant (s : State) (a : Ask) : State :=
  if s.askBlocked a then s else if a.id < chkLeaveId 0 then s.grantJob a else if copyLeaveId ≤ a.id then s.grantCopy a else s.grantChk a

/-- The leave of a tick: renewals, segments under leave, then the waiting requests in order. -/
def State.leaveFrame (s : State) : State :=
  let s := s.renewals.leaveSegs.askLeave
  s.asks.foldl State.grant s

/-! ## Tests of lanes and clusters (R157, R158, R179) -/

/-- A frame of a cluster's test: on its lowest active lane, in what class 0 leaves of its lane time, with its part of the test's shared demand. -/
def State.clusterTest (s : State) (c : Nat) : State :=
  match (s.cluster c).test, (s.activePk.find? fun n => decide (n / 4 = c)) with
  | some t, some n =>
    let k := min (s.laneRoom engPk n) t.cyclesLeft
    if k = 0 ∨ s.tick < t.since then s
    else match s.debit (ceilDiv (k * rLat) 100000) with
      | some st => (st.updPk n fun l => { l with usedCycles := l.usedCycles + k }).updCluster c fun x =>
          { x with test := some { t with cyclesLeft := t.cyclesLeft - k }, now := x.now + ceilDiv (1423500 * k) 2487000 }
      | none => s
  | _, _ => s

/-- The tests of a frame, those that fall due at it among them. -/
def State.testFrame (s : State) : State :=
  let s := (List.range 24).foldl State.testSegment s.spareTests
  (List.range 6).foldl State.clusterTest s

/-! ## Filling lane time (R31) -/

/-- Jobs of a class that wait for a lane, oldest first. -/
def State.lowWaiting (s : State) (eng cls : Nat) : List Job :=
  s.jobs.filter fun j => j.cls == cls && opEngine j.op == eng && s.atHand j && !(s.withKeys j).heavy

/-- A waiting job starts on a lane, with the lane cycles that it may use in this frame; none where it waits on. -/
def State.tryLow (s : State) (j : Job) : Option State :=
  if !s.freshKeys j then some (s.finish j.id (s.lostStatus j) 0 (s.tick + 2))
  else
    let k := s.planned j
    (s.lowLane k).bind fun n => s.startLow k n .remainder

/-- Segments of the jobs of a class that hold lanes already, without leave. -/
def State.contLow (s : State) (cls : Nat) : State :=
  let mine (j : Job) : Bool := decide (j.cls = cls) && j.admitted.isSome && !j.plan.isEmpty && decide (j.ranFrame ≠ s.tick) && !s.onLeave j && decide (j.op ≠ 0x0206)
  (s.jobs.filter mine).foldl (fun st j => ((st.laneOf j).bind fun n => st.contOne (opEngine j.op) n j.id .remainder).getD st) s

/-- Lane cycles that the segments of a class's jobs take in this frame, of one slice or of all. -/
def State.usedBy (s : State) (eng cls : Nat) (slice : Nat → Bool) : Nat :=
  (s.jobs.filter fun j => opEngine j.op == eng && j.cls == cls && slice j.slice && decide (j.ranFrame = s.tick) && j.admitted.isSome).foldl
    (fun a j => a + j.segCycles) 0

/-- Lane time of a pool that class 0 leaves to classes 1 and 2: what is open, and what their segments have taken already. -/
def State.openTime (s : State) (eng : Nat) : Nat :=
  (lanesOf eng).foldl (fun a n =>
    let mine := if eng = engPk then decide ((s.pkLane n).role = .active) else (s.symLane n).inPool && !(s.symLane n).draining
    if mine then a + s.laneRoom eng n else a) 0 + s.usedBy eng 1 (fun _ => true) + s.usedBy eng 2 (fun _ => true)

def deficitKey (eng cls slice : Nat) : Nat := eng * 8192 + cls * 1024 + slice

def State.classWeight (s : State) (cls : Nat) : Nat := s.num (if cls = 1 then Key.SEI_WEIGHT_C1 else Key.SEI_WEIGHT_C2)

/-- Slices with work in a class, ascending: waiting for a lane, or run in this frame. -/
def State.wanting (s : State) (eng cls : Nat) : List Nat :=
  (s.lowWaiting eng cls ++ s.jobs.filter fun j => opEngine j.op == eng && j.cls == cls && decide (j.ranFrame = s.tick) && j.admitted.isSome).foldl
    (fun l j => insertAsc j.slice l) []

/-- Weights of the classes with work, and of slices. -/
def State.weightC (s : State) (eng : Nat) : Nat :=
  ([1, 2].filter fun c => !(s.wanting eng c).isEmpty).foldl (fun a c => a + s.classWeight c) 0
def State.weightS (s : State) (l : List Nat) : Nat := l.foldl (fun a n => a + s.num (Key.SLC_WEIGHT n)) 0

/-- A slice's part of a frame's lane time in a class: by class weight, then by slice weight among the slices with work (R31). -/
structure Quantum where
  eng : Nat
  cls : Nat
  slice : Nat
  cycles : Nat
  deriving DecidableEq, Repr

/-- The parts of classes 1 and 2 of a pool, slices ascending in each. -/
def State.quanta (s : State) (eng : Nat) : List Quantum :=
  let avail := s.openTime eng
  let wc := s.weightC eng
  [1, 2].flatMap fun c =>
    let slices := s.wanting eng c
    let ws := s.weightS slices
    slices.map fun n => ⟨eng, c, n, avail * s.classWeight c * s.num (Key.SLC_WEIGHT n) / (wc * ws)⟩

/-- What a slice may still take in this frame: its deficit and its part, less what its segments have taken. -/
def State.allowance (s : State) (q : Quantum) : Int :=
  SMap.get 0 s.sched.deficits (deficitKey q.eng q.cls q.slice) + (q.cycles : Int) - (s.usedBy q.eng q.cls (fun n => n == q.slice) : Int)

/-- One job of a slice's turn, within its allowance. -/
def State.turnOne (q : Quantum) (s : State) (j : Job) : State :=
  if s.allowance q < (min s.laneTime (planLeft (s.planned j).plan) : Nat) then s else (s.tryLow j).getD s

/-- The turn of a slice: its jobs, oldest first. -/
def State.sliceTurn (s : State) (q : Quantum) : State :=
  ((s.lowWaiting q.eng q.cls).filter fun j => j.slice == q.slice).foldl (State.turnOne q) s

/-- What is left of the lane time goes to any job of the class, oldest first. -/
def State.classRest (s : State) (eng cls : Nat) : State := (s.lowWaiting eng cls).foldl (fun st j => (st.tryLow j).getD st) s

/-- A frame's account of a pool: each slice with work left keeps what it has not taken, or owes what it took beyond its part; one without work keeps nothing. -/
def State.settleDeficits (s : State) (eng : Nat) (qs : List Quantum) : State :=
  let others := s.sched.deficits.filter fun e => decide (e.1 / 8192 ≠ eng)
  let mine := qs.filterMap fun q =>
    let d := s.allowance q
    let waits := !((s.lowWaiting eng q.cls).filter fun j => j.slice == q.slice).isEmpty
    let d := if waits then d else min d 0
    if d = 0 then none else some (deficitKey eng q.cls q.slice, d)
  { s with sched := { s.sched with deficits := (others ++ mine).foldl (fun m e => SMap.set 0 e.1 e.2 m) [] } }

/-- Classes 1 and 2 in a pool: every slice's turn by weight, then what is left, and the frame's account (R31). -/
def State.fillPool (s : State) (eng : Nat) : State :=
  let qs := s.quanta eng
  let s := qs.foldl State.sliceTurn s
  ((s.classRest eng 1).classRest eng 2).settleDeficits eng qs

/-- Jobs at hand whose draw is refused wait for it from this frame on (R281). -/
def State.holdDraws (s : State) : State :=
  s.jobs.foldl (fun st j =>
    if j.firstHeld.isNone && st.atHand j && st.drawRefused (st.withKeys j) then st.updJob j.id fun i => { i with firstHeld := some st.tick } else st) s

/-- Lane time of classes 1 and 2. -/
def State.fillFrame (s : State) : State := (((s.contLow 1).contLow 2).fillPool engPk).fillPool engSym

/-- Lane time of class 3: what the others leave. -/
def State.fillClass3 (s : State) : State := ((s.contLow 3).classRest engPk 3).classRest engSym 3

/-- A lane's blinding stream gets a fresh seed when its last one is 1,024 frames old, or it has none, as soon as the DRBG serves (R148). -/
def State.reseedLane (s : State) (n : Nat) : State :=
  let l := s.pkLane n
  if s.withheld ∨ (l.blindSeed ≠ [] ∧ s.tick < l.blindSeeded + 1024) then s
  else
    let d := s.draw 32
    d.2.setPk n { l with blindSeed := d.1, blindCounter := 0, blindSeeded := s.tick }

def State.blindReseed (s : State) : State := (List.range 24).foldl State.reseedLane s

/-! ## Wipes of operand memory (R160 to R162) -/

/-- Banks that are kept past the end of the present frame: of a job that stands or is parked on the lane, or has ended with OK in this frame; of a test that runs. -/
def State.bankKept (s : State) (n : Nat) (b : BankUse) : Bool :=
  if b.job = 0 then (s.pkLane n).test.isSome
  else (s.job? b.job).any fun j => j.admitted.isSome && j.lane == n && decide (j.phase ≠ .staged) && decide (j.phase ≠ .ready) &&
    (!j.plan.isEmpty || (decide (j.lastSeg = s.tick) && j.outcome.all fun o => decide (o.status = stOk)))

/-- One wipe: every limb of the banks filled from the DRBG, or from the lane's blinding stream while draws are refused, then zeroed (R160). -/
def State.wipeBank (n : Nat) (s : State) (b : BankUse) : State :=
  let len := 4608 * b.count
  let fill := if s.withheld then s.takeStream n len else s.draw len
  let s := fill.2.updPk n fun l => { l with banks := l.banks.map fun x => if x = b then { x with limbs := limbBytes 0 fill.1 } else x }
  s.updPk n fun l => { l with banks := l.banks.filter fun x => decide (x.job ≠ b.job) }

/-- The wipes of a frame, lane by lane: of jobs that ended with OK in the frame before, and of all that stopped or ended otherwise in this one (Table 6.11). -/
def State.wipeFrame (s : State) : State :=
  (List.range 24).foldl (fun st n => ((st.pkLane n).banks.filter fun b => !st.bankKept n b).foldl (State.wipeBank n) st) s

/-! ## Check-value folds (R289, R298, R412, R413) -/

/-- Working memory that a scan meets at a byte: 0 readable, 1 a wrong colour, 2 refused by the guard. -/
def State.scanFault (s : State) (colour a : Nat) : Nat :=
  let denied := (regionAt s.keeper.regions a).any fun n => !bitOf (s.region n).perm 6
  if denied then 2 else if (s.word (a / 4)).colour ≠ colour then 1 else 0

/-- A unit folds `n` bytes of working memory, up to the first that it cannot read. -/
def State.chkFoldMemory (s : State) (u n : Nat) : State :=
  let c := s.chkUnit u
  let a := s.num (Key.CHK_START u) + c.position
  let colour := s.num (Key.CHK_COLOUR u)
  let good := ((List.range n).find? fun i => decide (s.scanFault colour (a + i) ≠ 0)).getD n
  let bs := (List.range good).map fun i => s.wmByte (a + i)
  let hit := if good < n then s.scanFault colour (a + good) else 0
  let s := s.setChk u { c with reg := s.chkFold u c.reg bs, position := c.position + good, hit := hit }
  if hit = 1 then (s.count Key.KPR_COLOUR_FAULTS).event 0x2504
  else if hit = 2 then (s.count Key.KPR_GUARD_FAULTS).guardFault 1 (regionAt s.keeper.regions (a + good)) none (some 3)
  else s

/-- A unit folds one vault page; a page that cannot be read stops the scan. -/
def State.chkFoldPage (s : State) (u : Nat) : State :=
  let c := s.chkUnit u
  let p := s.num (Key.CHK_START u) + c.position
  let e := s.pageEntry p
  let bs := (s.pageSlots p).flatten
  let readable := s.vaultUp && !e.conflict && (decide (e.seq = 0) || (vaultHash 0 p bs).take 22 == e.hash)
  if readable then s.setChk u { c with reg := s.chkFold u c.reg bs, position := c.position + 1 } else s.setChk u { c with hit := 4 }

/-- Credits for a fold: first those of the unit's leave, the rest from the remainder. -/
def State.chkPay (s : State) (leave cost : Nat) : Option State :=
  let own := min leave cost
  (s.freeLeave (leave - own)).debit (cost - own)

/-- Credits of the leave of one id that the present frame holds. -/
def State.leaveNow (s : State) (id : Nat) : Nat := leaveAt (s.sched.leaves.filter fun l => decide (l.job = id)) s.tick

/-- Credits of `n` vault pages scanned: 1 for each 64 KiB, and 2 for each page read (R412). -/
def chkPageCost (n : Nat) : Nat := ceilDiv (4096 * n) 65536 + 2 * n

/-- The most pages, `n` at most, that `room` credits pay for. -/
def chkPages (room : Nat) : Nat → Nat
  | 0 => 0
  | n + 1 => if chkPageCost (n + 1) ≤ room then n + 1 else chkPages room n

/-- The fold of one unit in a frame; leave that it does not use falls free (R45). -/
def State.chkUnitFrame (s : State) (u : Nat) : State :=
  let c := s.chkUnit u
  let waits := c.leaveAsked.isSome && c.leaveUntil.isNone
  let leave := s.leaveNow (chkLeaveId u)
  let room := leave + s.remainder
  if c.state ≠ 1 ∨ c.next.isSome ∨ c.hit ≠ 0 ∨ waits ∨ (s.block u).gated ∨ !s.keeper.guardOn then s.freeLeave leave
  else
    let left := s.num (Key.CHK_LENGTH u) - c.position
    if s.chkVault u then
      let n := chkPages room (min left (s.chkAmount u / 4096))
      match s.chkPay leave (chkPageCost n) with
      | some st => (List.range n).foldl (fun st _ => if (st.chkUnit u).hit = 0 then st.chkFoldPage u else st) st
      | none => s.freeLeave leave
    else
      let n := min (min left (s.chkAmount u)) (65536 * room)
      match s.chkPay leave (ceilDiv n 65536) with
      | some st => st.chkFoldMemory u n
      | none => s.freeLeave leave

def State.chkFrame (s : State) : State := (List.range 4).foldl State.chkUnitFrame s

end Sys2Proof.Machine
end

