-- ==== Sys2Proof/Machine/Release.lean ====
section
/-! DEFINITION. What a tick does for the host: staged errors, records, credits, shadow words, messages, the sampled indices and aborts, the advance of the limits (R20, R28, R56, R64 to R68, R72, R91, R102, R106, R114). -/

namespace Sys2Proof.Machine

/-! ## Records (R20, R28, R91, R102) -/

/-- Opcodes of Table 2.4. -/
def opBounded (op : Nat) : Bool :=
  [0x0101, 0x0102, 0x0103, 0x0106, 0x0303, 0x0306, 0x0401, 0x0402, 0x0405, 0x0406, 0x0501, 0x0601, 0x0602, 0x0801].contains op

/-- BOUND_VOID of a job submitted as class 0 (R34, R35). -/
def Job.voidFlag (j : Job) : Bool := decide (j.desc.cls = 0) && (j.boundVoid || (j.class0 && (j.changing || !opBounded j.op)))

/-- What a job's change does as its record is released, with the status and result that the record then carries. -/
def State.takeEffect (s : State) (j : Job) (o : Outcome) : State × Outcome :=
  match o.change with
  | some (.counter sl c n) =>
    if o.status ≠ stOk then (s.endOwn j.id, o)
    else
      let s := s.endOwn j.id
      let v := s.counterVal sl c + n
      if v < 2 ^ 64 then (s.applyEffect (.counter sl c n), { o with result := v }) else (s, { o with status := stPolicyDenied, result := 0, output := [] })
  | some c => ((s.endOwn j.id).applyEffect c, o)
  | none =>
    let s := s.endOwn j.id
    if o.status ≠ stOk then (s, o)
    else match o.created with
      | some k => if k.handle = 0 then (s, o) else (s.cacheSession j.slice k, o)
      | none => if j.op = 0x0706 ∧ hKind j.desc.key1 = 2 then (s.sessionDrop j.desc.key1, o) else (s, o)

/-- One record released: its slot written, CP advanced, its source raised, its context over. `grant` is the credit grant field. -/
def State.releaseOne (grant : Nat) (s : State) (j : Job) : State :=
  let e := s.takeEffect j (j.outcome.getD (failWith stFault))
  let s := e.1
  let o := e.2
  let s := if o.status = stVerifyFailed ∧ opEngine j.op = engSym then s.updSlice j.slice (fun c => { c with verifyFails := (c.verifyFails + 1) % 2 ^ 64 }) else s
  let r := s.ring j.ring
  let len := if o.status = stOk then o.output.length else 0
  let rec32 := completionRecord j.desc.cookie o.status (recordFlags j.voidFlag false j.replicated j.degraded) grant len s.tick o.result
  let s := (s.emit (.record j.ring (r.cqBase + 32 * (r.cp % 2 ^ r.k)) rec32 (s.dmaPasid j.slice))).setRing j.ring { r with cp := (r.cp + 1) % 2 ^ (r.k + 1) }
  let s := if r.irqEnable then s.raise j.ring else s
  s.dropJob j.id

/-- Jobs of a ring pair whose records this tick releases, in submission order. -/
def State.dueRecords (s : State) (n : Nat) : List Job :=
  let r := s.ring n
  let key (j : Job) : Nat := ringDist r.k (r.sh + 2 ^ r.k) j.index
  let js := s.jobs.filter fun j => j.ring == n && decide (j.phase = .staged) && decide (j.due ≤ s.tick)
  js.foldl (fun l j => (l.filter fun x => decide (key x ≤ key j)) ++ [j] ++ l.filter fun x => decide (key j < key x)) []

/-- L as the last shadow word showed it. -/
def RingPair.shownLimit (r : RingPair) : Nat := if r.lastShadow = [] then r.limit else leNat ((r.lastShadow.take 4).map byteOf)

/-- A ring pair's records; the last of them reports the advance of L (R67). -/
def State.releaseRing (s : State) (n : Nat) : State :=
  let r := s.ring n
  let grant := ringDist r.k r.shownLimit r.limit
  let js := s.dueRecords n
  match js.getLast? with
  | none => s
  | some l => (js.dropLast.foldl (State.releaseOne 0) s).releaseOne grant l

/-- Ring pairs with staged jobs, in ascending order. -/
def State.stagedRings (s : State) : List Nat := (s.jobs.filter fun j => decide (j.phase = .staged)).foldl (fun l j => insertAsc j.ring l) []

/-- The records of a tick; none leaves the unit while a tamper response silences it (R378). -/
def State.releaseFrame (s : State) : State := if s.silenced then s else s.stagedRings.foldl State.releaseRing s

/-! ## Images, shadow words, messages (R56, R68, R72) -/

/-- RING_ERROR; a bit that becomes 1 raises unit event 4,104. -/
def State.errorImage (s : State) : State :=
  let l := (s.rings.filter fun e => decide (e.2.error ≠ 0)).map fun e => e.1
  let s := if l.any fun n => !s.host.ringError.contains n then s.raise 4104 else s
  { s with host := { s.host with ringError := l } }

/-- RING_PENDING. -/
def State.pendingImage (s : State) : State :=
  { s with host := { s.host with ringPending := (s.rings.filter fun e => decide (e.2.cp ≠ e.2.ch)).map fun e => e.1 } }

/-- Bytes 0 to 15 as the last shadow word showed them; before the first one of a ring pair that is not enabled they count as zeros (assumption log 70). -/
def RingPair.shownBytes (r : RingPair) : List Nat := if r.lastShadow = [] ∧ !r.enabled then List.replicate 16 0 else r.lastShadow

/-- The shadow word of a ring pair, when bytes 0 to 15 would change (R68). One of a MOVED slice has none (R131), and one of a slice in reset none but the reset's own (Table 5.2). -/
def State.shadowOne (s : State) (n : Nat) : State :=
  let r := s.ring n
  let c := s.slice (s.ringSlice n)
  let head := (s.shadowHead n r.limit).map fun b => b.toNat
  if head ≠ r.shownBytes ∧ c.mig ≠ .moved ∧ c.resetting.isNone then s.writeShadow n else s

def State.shadowFrame (s : State) : State := (s.rings.map fun e => e.1).foldl State.shadowOne s

/-- The messages of a tick: for raised sources, and for unmasked vectors that were pending. -/
def State.msixFrame (s : State) : State :=
  let late := s.host.unmasked.filter fun v => s.host.msixPending.contains v
  let vs := late.foldl (fun l v => insertAsc v l) (s.vectorsOf s.host.raised)
  let s := vs.foldl State.msixOne s
  { s with host := { s.host with raised := [], unmasked := [] } }

/-! ## Indices and aborts (R64, R106) -/

/-- A refused index: ERROR, ENABLED and ENABLE at once; the source raises for the next tick. -/
def State.refuseIndex (s : State) (n code : Nat) : State :=
  let r := s.ring n
  let s := if r.error = 0 then s.raise n else s
  s.setRing n { r with error := code, enabled := false, enableBit := false, tailWritten := none, headWritten := none, abortWritten := none }

/-- SQ_TAIL as the tick samples it; a doorbell ends IDLE (R438). -/
def State.sampleTail (s : State) (n : Nat) : State :=
  let r := s.ring n
  match r.tailWritten with
  | none => s
  | some v =>
    if !r.enabled then s.setRing n { r with tailWritten := none }
    else if 2 ^ (r.k + 1) ≤ v ∨ ringDist r.k r.tl r.limit < ringDist r.k r.tl v then s.refuseIndex n 2
    else
      let s := s.setRing n { r with tl := v, tailWritten := none }
      { s with sched := { s.sched with idle := false, idleFrames := 0 } }

/-- CQ_HEAD as the tick samples it. -/
def State.sampleHead (s : State) (n : Nat) : State :=
  let r := s.ring n
  match r.headWritten with
  | none => s
  | some v =>
    if !r.enabled then s.setRing n { r with headWritten := none }
    else if 2 ^ (r.k + 1) ≤ v ∨ ringDist r.k r.ch r.cp < ringDist r.k r.ch v then s.refuseIndex n 3
    else s.setRing n { r with ch := v, headWritten := none }

/-- ABORT_INDEX as the tick samples it. -/
def State.sampleAbort (s : State) (n : Nat) : State :=
  let r := s.ring n
  match r.abortWritten with
  | none => s
  | some v =>
    let s := s.setRing n { r with abortWritten := none }
    if r.enabled then s.abortIndex n v else s

def State.sampleFrame (s : State) : State :=
  (s.rings.map fun e => e.1).foldl (fun st n => ((st.sampleTail n).sampleHead n).sampleAbort n) s

/-! ## Credits (R66, R114) -/

/-- The advance of one ring pair's limit, clipped by the slice's ceiling. -/
def State.advance (s : State) (n : Nat) : Nat :=
  let r := s.ring n
  let want := min (2 ^ r.k - 1) (s.num (Key.RNG_CREDIT_MAX n))
  let sl := s.ringSlice n
  min (want - ringDist r.k r.ch r.limit) (s.creditCeiling sl - s.creditOut sl)

/-- One ring pair; the first one advanced at a tick is remembered. -/
def State.advanceOne (a : State × Option Nat) (n : Nat) : State × Option Nat :=
  let d := a.1.advance n
  if d = 0 then a
  else (a.1.updRing n fun r => { r with limit := (r.limit + d) % 2 ^ (r.k + 1) }, some (a.2.getD n))

/-- The limits of a slice's ring pairs, from the one after the first advanced at the tick before. -/
def State.advanceSlice (s : State) (sl : Nat) : State :=
  let c := s.slice sl
  let ns := (s.sliceRings sl).filter fun n => (s.ring n).enabled
  if c.mig ≠ .running ∨ c.resetting.isSome ∨ ns = [] then s
  else
    let order := ns.filter (fun n => decide (c.creditNext ≤ n)) ++ ns.filter fun n => decide (n < c.creditNext)
    let a := order.foldl State.advanceOne (s, none)
    match a.2 with
    | some f => a.1.updSlice sl fun c => { c with creditNext := f + 1 }
    | none => a.1

/-- The limits of a tick. -/
def State.creditFrame (s : State) : State :=
  ((s.rings.filter fun e => e.2.enabled).foldl (fun l e => insertAsc (s.ringSlice e.1) l) []).foldl State.advanceSlice s

end Sys2Proof.Machine
end

