-- ==== Sys2Proof/Machine/Frame.lean ====
section
/-! DEFINITION. The frame: the chain's frame, the schedule, the tick and the housekeeping window, the period switch (R3, R4, R18, R22, R25, R28, R42, R50, R316 to R320, R323 to R325, R330, R331, R355, R438). -/

namespace Sys2Proof.Machine

/-! ## The chain's frame (R316 to R320) -/

/-- A strapped master originates from its first tick on; a marker taken before gave it its number (R331). -/
def State.originate (s : State) : State :=
  if s.tunnelOn ∧ ¬ s.chain.origin then
    { s with chain := { s.chain with origin := true, tickSource := false, holdover := false, acting := false, missed := 0 } }
  else s

/-- Ticks without a marker, of a unit that follows markers (R330). -/
def State.countMarkers (s : State) : State :=
  let c := s.chain
  if c.tickSource then
    { s with chain := { c with missed := if c.markerSeen then 0 else c.missed + 1, markerSeen := false, arrival0 := none, arrival1 := none } }
  else s

/-- The unit's frames reach the chain: it originates them, or follows those of a master. -/
def State.onChain (s : State) : Bool := s.chain.origin || s.chain.acting || s.chain.tickSource

/-- HELLO of an unaddressed unit, and the master's roll calls, as they fall due (R323 to R325). -/
def State.chainCalls (s : State) : State :=
  let c := s.chain
  let s := if c.helloDue ∧ c.tickSource then ({ s with chain := { c with helloDue := false } } : State).sendMsg 0x03 bcast [] none else s
  let c := s.chain
  let s := if c.rollCallDue ∧ c.origin then ({ s with chain := { c with rollCallDue := false } } : State).sendMsg 0x01 bcast (rollBody 2 [1]) none else s
  let c := s.chain
  if c.fillCallDue ∧ c.origin then
    ({ s with chain := { c with fillCallDue := false } } : State).sendMsg 0x02 bcast (fillBody s.ringOrder [c.address]) none
  else s

/-- Frame header (Table 13.2). -/
def State.frameHeader (s : State) (roll fill : Bool) : Bytes :=
  let b := leBytes 8 s.tick ++ [byteOf s.period, byteOf (b2n s.switchArmed + 2 * b2n roll + 4 * b2n fill), byteOf (s.num Key.SEI_PERIOD_NEXT), 0] ++
    leBytes 4 s.chain.roundTrip ++ leBytes 8 (s.num Key.SEI_SWITCH_TICK) ++ [0, 0, 0, 0]
  b ++ leBytes 4 (crc32c b)

/-- A fragment as it stands on the line: with its CRC, padded to 8 bytes (R319). -/
def State.lineOf (s : State) (m : ChainMsg) (i : Nat) : Bytes :=
  let w := s.wireFrag m i
  fit (m.fragLen i) (w ++ leBytes 4 (crc32c w))

/-- Fragments of a message placed while the frame has room: the state, the room left, the first fragment that waits on. -/
def State.placeFrags (m : ChainMsg) : Nat → State × Nat → Nat → State × Nat × Nat
  | 0, a, i => (a.1, a.2, i)
  | f + 1, a, i =>
    let len := m.fragLen i
    if a.2 < len then (a.1, a.2, i)
    else State.placeFrags m f (a.1.emit (.chain { m with insTick := if m.head.isSome then m.insTick else a.1.tick % 2 ^ 32, placed := i } (a.1.lineOf m i)), a.2 - len) (i + 1)

/-- Waiting messages by priority, oldest first within one (R317). -/
def State.chainOrder (s : State) : List ChainMsg :=
  (List.range 5).flatMap fun p => s.chain.waiting.filter fun m => msgPriority m.type == p

/-- Messages placed in both rings' frames until one does not fit: the state, the room, and the messages that wait on. -/
def State.placeMsgs : List ChainMsg → State × Nat → State × List ChainMsg
  | [], a => (a.1, [])
  | m :: r, a =>
    let x := State.placeFrags m (m.frags - m.placed) a m.placed
    if x.2.2 < m.frags then (x.1, { m with placed := x.2.2 } :: r) else State.placeMsgs r (x.1, x.2.1)

/-- Bytes that the unit may add to a frame: CHN_INSERT_LIMIT scaled, never below 1,024, within the message area. -/
def State.insertRoom (s : State) : Nat :=
  min (max 1024 (scaleCredits s.period (s.num Key.CHN_INSERT_LIMIT))) (8 * (375 * periodUs s.period - 6))

/-- A message of the unit to its own address does not leave: it is a datagram for its host (R355). -/
def State.keepOwn (s : State) : State :=
  let own (m : ChainMsg) : Bool := m.dst == s.chain.address && s.chain.address != 0
  let mine := s.chain.waiting.filter own
  let s := { s with chain := { s.chain with waiting := s.chain.waiting.filter fun m => !own m } }
  mine.foldl (fun st m => st.tunnelIn (st.wireFrag m 0)) s

/-- The tick marker and the end marker of a chain frame (Table 13.1): bytes 0 to 7 of a control block. -/
def State.tickMarker (s : State) (ring : Nat) (wrapped : Bool) : Bytes :=
  [0x4B, 0xA5, byteOf (ring + 2 * b2n wrapped + 4 * b2n (s.num Key.CHN_ROLE == 1))] ++ leBytes 2 s.chain.address ++ [0, 0, 0]
def endMarker : Bytes := [0x4B, 0x5A, 0, 0, 0, 0, 0, 0]

/-- During a transition the unit originates no message but dictionary replies (R392). -/
def State.repliesOnly (s : State) : State :=
  if s.life.transition.isNone then s
  else { s with chain := { s.chain with waiting := s.chain.waiting.filter fun m => decide (m.type = 0x11) && m.head.isNone } }

/-- The chain's part of a tick: the master's frames, then the unit's messages. -/
def State.chainTick (s : State) : State :=
  let s := s.originate.countMarkers
  let roll := s.chain.rollCallDue
  let fill := s.chain.fillCallDue
  let s := s.chainCalls.repliesOnly.keepOwn
  let s := if s.chain.origin ∨ s.chain.acting then
      let h := s.frameHeader roll fill
      (s.emit (.chainFrame 0 (s.tickMarker 0 s.chain.loopA) h endMarker)).emit (.chainFrame 1 (s.tickMarker 1 s.chain.loopB) h endMarker)
    else s
  if s.onChain ∧ ¬ s.relayOff then
    let a := State.placeMsgs s.chainOrder (s, s.insertRoom)
    let kept := a.2
    { a.1 with chain := { a.1.chain with waiting := kept } }
  else s

/-! ## The schedule of a frame (R26, R32, R40, R44) -/

/-- CT and KP jobs that waited, lane jobs whose keys are to be read again (R83, R281), and first pieces that a key's rate has made longer (R200). -/
def State.retryJobs (s : State) : State :=
  s.jobs.foldl (fun st j =>
    if j.phase ≠ .ready ∨ j.admitted.isSome then st
    else if engCt ≤ opEngine j.op then st.controlStart j.id
    else if opStream j.op ∧ 2 ≤ j.placed ∧ (st.withKeys j).hasKeys then st.askPiece j.id 1
    else if st.waitsRead j.id ∨ st.waitsChange j ∨ !st.freshKeys j ∨ (st.withKeys j).hasKeys then st
    else st.fetchKeys j.id) s

/-- A job whose reads have not all completed by the tick that would admit it is held (R77): of class 0, it carries BOUND_VOID whatever ends it. -/
def State.voidLate (s : State) : State :=
  s.jobs.foldl (fun st j => if j.phase = .fetching ∧ j.frameF < st.tick then st.voidBound j.id true else st) s

/-- Symmetric jobs that wait for their last segment with a counted output above the whole budget, as the trained link now gives it, end (R201). -/
def State.overBudget (s : State) : State :=
  s.jobs.foldl (fun st j =>
    let out := (j.shape j.key1 j.key2).out
    let waits := (j.admitted.isSome && (decide (j.phase = .running) || decide (j.phase = .parkedLane))) || st.atHand j
    if opEngine j.op = engSym ∧ waits ∧ 8192 < out ∧ st.outputBudget < out ∧ planSegs st.laneTime (st.planned j).plan ≤ 1 ∧ (j.admitted.isNone ∨ planSegs st.laneTime j.plan ≤ 1) ∧ (j.admitted.isNone ∨ !j.plan.isEmpty) then
      st.finish j.id stInvalidInput 0 (st.tick + 2)
    else st) s

/-- The frame's schedule, once its credits are committed: class 0, tests, leave, classes 1 and 2, the vault's work and the scans, class 3. -/
def State.schedule (spares : List Nat) (s : State) : State :=
  let admits := s.serves
  let s := s.class0Cont spares
  let s := if admits then s.class0News else s
  let s := s.releaseReserve.leavePassed
  let s := s.testFrame
  let s := if admits then s.leaveFrame else s.renewals.leaveSegs
  let s := if admits then s.holdDraws.fillFrame else (s.contLow 1).contLow 2
  let s := s.openGroup.issueWrites.sweepFrame.chkFrame
  let s := if admits then s.fillClass3 else s.contLow 3
  s.pinReads.scrubFrame.resilverFrame.transferFrame.blindReseed

/-! ## TICK (R25) -/

/-- The frame that ends: the ladder's last work and the wipes, then what its end makes of the reservoir and the clocks. -/
def State.endFrame (s : State) : State := s.ladderFrame.wipeFrame.frameEnds

/-- SEI_BOUND_STATE has changed from `b`: unit event 4,102 (R72). -/
def State.boundRaises (b : Nat) (s : State) : State := if s.boundState = b then s else s.raise 4102

/-- What takes effect at a tick, ahead of what leaves the unit. -/
def State.tickEffects (s : State) : State :=
  let s := s.tickValues.commitFrame
  if s.rst.readyDue then s.setReady else s

/-- What leaves the unit at a tick, and what the tick samples. -/
def State.tickHost (s : State) : State :=
  let s := s.tunnelDeliver.tunnelOut
  let s := s.releaseFrame.errorImage.shadowFrame
  let s := s.msixFrame.applyMaps
  s.sampleFrame.pendingImage.creditFrame

/-- A tick of a unit that serves. -/
def State.serveTick (bound : Nat) (s : State) : State :=
  let spares := s.pkWith .spare
  let s := s.tickEffects.boundRaises bound
  let s := s.tickHost
  let s := s.chainTick
  let s := s.voidLate.issueReads.fetchFrame
  let s := if s.serves then s.retryJobs.overBudget else s
  (s.schedule spares).show

/-- A tick of a start: the wellsprings, the chain, and the end of the start once the DRBG serves (R434). -/
def State.startTick (s : State) : State :=
  let s := s.entropyTick.chainTick
  if s.rst.awaitDrbg ∧ s.ent.drbg.live then s.startFinish else s

/-- A tick (R25): a reset that is due is entered; then a start goes on, a WARM reset keeps the chain alone, or the unit serves. -/
def State.tickOnce (s : State) : State :=
  if s.noTick then s
  else
    let bound := s.boundState
    let s := s.endFrame
    let s := if s.rst.dueReach ≠ 0 then s.enterReset s.rst.dueReach s.rst.dueCauses else s
    if s.noTick then s
    else if s.rst.starting ≠ 0 then s.startTick
    else if s.rst.power = .held ∧ s.rst.reach = 2 then s.entropyTick.chainTick
    else s.serveTick bound

/-- TICK (R25). -/
def execTick (s : State) : Res := .next s.tickOnce

/-! ## The housekeeping window (R25) -/

/-- A job's lane schedule has just run to the end of its second run (R151). -/
def State.repeatEnds (s : State) (j : Job) : Bool :=
  decide (j.phase = .running) && opEngine j.op == engPk && bitOf j.checks 1 && j.accepted && decide (j.ranFrame = s.tick) && decide (j.plan = j.releaseStages)

/-- The two runs of a job differ (R152): a fault of cause 2. -/
def State.runsDiffer (s : State) (j : Job) : Bool := s.jobOp j.op j s.free != s.jobOp j.op j.second s.free

/-- The result, held in the lane's operand memory until it is copied out. -/
def State.holdResult (s : State) (id : Nat) : State :=
  match s.job? id with
  | some j =>
    let out := (j.outcome.map fun o => o.output).getD []
    if opEngine j.op = engPk ∧ out ≠ [] then
      s.updPk j.lane fun l => { l with banks := l.banks.map fun b => if b.job = id then { b with limbs := b.limbs ++ limbBytes j.limbs out } else b }
    else s
  | none => s

/-- The output stands in the job's buffer until the window of its output frame. -/
def State.stageOutput (s : State) (id : Nat) : State :=
  match s.job? id with
  | some j =>
    match j.outcome with
    | some o => s.fillBuf j 3 o.output
    | none => s
  | none => s

/-- A degenerate input has run the dummy schedule, whose scalar or exponent comes from the lane's blinding stream (R149). -/
def State.dummyRun (s : State) (id : Nat) : State :=
  match s.job? id with
  | some j => if opEngine j.op = engPk ∧ (j.outcome.any fun o => decide (o.status ≠ stOk)) then (s.takeStream j.lane (4 * j.limbs)).2 else s
  | none => s

/-- The work of a job ended in this frame: its operation, where no command has performed it, its release check, whose failure is a fault of cause 1 (R150, R152), then its way on; lane, windows and leave are given up. A repetition that ends and differs is a fault first. -/
def State.stageJob (s : State) (j : Job) : State :=
  let j := (s.job? j.id).getD j
  let ended := decide (j.phase = .control) || (decide (j.phase = .running) && j.plan.isEmpty && j.admitted.isSome && decide (j.lastSeg = s.tick))
  if s.repeatEnds j && s.runsDiffer j then s.pkFault j.lane 2
  else if !ended then s
  else
    let s := s.perform j.op j.id (s.jobOp j.op)
    if opEngine j.op = engPk ∧ j.releaseStages ≠ [] ∧ (s.job? j.id).any (fun i => i.forced.isNone && !i.releaseCheck (i.outcome.getD (failWith stFault))) then
      s.pkFault j.lane 1
    else ((((s.holdResult j.id).dummyRun j.id).stopJob j.id).workDone j.id).stageOutput j.id

/-- An ML-DSA or paired signing job has ended with OK: the counters of Table 7.6. -/
def State.countSigns (s : State) (j : Job) : State :=
  if j.op = 0x0305 ∨ j.op = 0x0307 then
    let k := Key.PKE_MLDSA_ATTEMPT_MAX ((if j.op = 0x0305 then j.alg1 else j.alg2) - 0x31)
    ((s.setNum k (max (s.num k) (min (topOf k) j.attempts))).count Key.PKE_MLDSA_SIGNS).count Key.PKE_MLDSA_ATTEMPTS j.attempts
  else s

/-- The output of a job in its output frame; its record is staged (R20, R28, R91). -/
def State.outputJob (s : State) (j : Job) : State :=
  if j.phase ≠ .output ∨ s.tick + 1 < j.due then s
  else
    let n := (j.outcome.map fun o => o.output.length).getD 0
    let d := s.dmaCheck j 3 n false
    let s := d.2
    let j := (s.job? j.id).getD j
    let o := match j.forced with
      | some f => { j.outcome.getD (failWith stFault) with status := f.1, output := [], result := f.2, created := none }
      | none => j.outcome.getD (failWith stFault)
    let s := if o.status = stOk ∧ o.output ≠ [] ∧ !j.outDone then s.emit (.output j.id j.desc.outputAddr o.output (s.dmaPasid j.slice)) else s
    let s := if o.status = stOk then s.countSigns j else s
    s.updJob j.id fun i => { i with phase := .staged, outcome := some o, outDone := true }

/-- The buffers of a context that has ended are scrubbed (R290). -/
def State.scrubEnded (s : State) (j : Job) : State :=
  if j.phase = .staged ∧ j.granules ≠ [] then (s.scrubJob j).updJob j.id fun i => { i with granules := [], bufs := [] } else s

/-- ALERT_N is released once TMP_ALARMS has read 0 for a frame (Table 15.2). -/
def State.alertEnds (s : State) : State :=
  if s.tamper.latched = [] then { s with tamper := { s.tamper with alert := false } } else s

/-- One message of the inbox reaches its block. -/
def State.handOne (s : State) (c : Instr) : State :=
  let r : Res := match c with
    | .hello hdr => execHello hdr s
    | .dictRead req => execDictRead req s
    | .dictWrite req => execDictWrite req s
    | .dictReply hdr body => execDictReply hdr body s
    | .challengeRequest hdr => execChallengeRequest hdr s
    | .approval hdr body => execApproval hdr body s
    | .replicate hdr record => execReplicate hdr record s
    | .replAck hdr writer seq => execReplAck hdr writer seq s
    | .replCommit hdr writer seq => execReplCommit hdr writer seq s
    | .replRollback hdr writer seq => execReplRollback hdr writer seq s
    | .replQuery hdr writer seq => execReplQuery hdr writer seq s
    | .replState hdr writer seq => execReplState hdr writer seq s
    | .migConsume hdr tag slice => execMigConsume hdr tag slice s
    | .migReply hdr tag accepted => execMigReply hdr tag accepted s
    | .attestOffer hdr offer => execAttestOffer hdr offer s
    | .attestAnswer hdr answer => execAttestAnswer hdr answer s
    | .domainKey hdr grant => execDomainKey hdr grant s
    | .heartTransfer hdr heart entry => execHeartTransfer hdr heart entry s
    | .objectTransfer hdr slot sealed pinned map => execObjectTransfer hdr slot sealed pinned map s
    | .transferEnd hdr hearts objects full => execTransferEnd hdr hearts objects full s
    | _ => .next s
  match r with
  | .next t => t
  | _ => s

/-- Step 4 of the window: the messages of the frame in the order of their receipt (R25, R357). -/
def State.handOver (s : State) : State := s.inbox.foldl State.handOne { s with inbox := [] }

/-- The window of a unit that serves: jobs, dictionary, migration, tamper, hand-overs, sillage. -/
def State.windowWork (s : State) : State :=
  let bound := s.boundState
  let s := (s.silTake s.seen.snapshot).guardLimit.reloadHearts.groupWindow
  let s := s.jobs.foldl State.outputJob s
  let s := s.jobs.foldl State.stageJob s
  let s := s.jobs.foldl State.scrubEnded s
  let s := s.alertEnds
  let s := s.handOver.takeOwnDue.dictWindow.applyAcked.migWindow
  let s := s.respondWindow.handWindow.reseedWindow
  (s.silWindow s.seen.snapshot).boundRaises bound

/-- HOUSEKEEPING_WINDOW (R25); during a start and in a WARM reset only messages are handed over and the sillage records written. -/
def execHousekeepingWindow (s : State) : Res :=
  if s.noTick then .next s
  else
    let s := { s with window := true }
    if s.rst.starting ≠ 0 ∨ (s.rst.power = .held ∧ s.rst.reach = 2) then .next (s.handOver.respondStart.reseedWindow.silWindow s.seen.snapshot) else .next s.windowWork

/-! ## PERIOD_SWITCH (R50) -/

/-- The armed switch at its tick: the new period, and the frame's schedule under it. -/
def State.periodSwitch (s : State) : State :=
  let bound := s.boundState
  let s := (s.setNum Key.SEI_PERIOD (s.num Key.SEI_PERIOD_NEXT)).boundRaises bound
  if s.live then
    let used := s.sched.debited
    let s := s.commitFrame
    let s := { s with sched := { s.sched with debited := used } }
    if s.serves then
      let s := s.retryJobs.class0News.releaseReserve
      s.leaveFrame.holdDraws.fillFrame.fillClass3
    else s.releaseReserve
  else s

def execPeriodSwitch (s : State) : Res :=
  if s.switchArmed ∧ s.num Key.SEI_SWITCH_TICK ≤ s.tick then .next s.periodSwitch.show else .next s

end Sys2Proof.Machine
end

