-- ==== Sys2Proof/Machine/Dispatch.lean ====
section
/-! DEFINITION. One arm for each command: a direct call of its meaning, or rejected by name. -/

namespace Sys2Proof.Machine

def exec (i : Instr) (s : State) : Host.Outcome State Fault Refusal :=
  match i with
  | .tick => Sys2Proof.Machine.execTick s
  | .housekeepingWindow => Sys2Proof.Machine.execHousekeepingWindow s
  | .periodSwitch => Sys2Proof.Machine.execPeriodSwitch s
  | .sqTailWrite ring value => Sys2Proof.Machine.execSqTailWrite ring value s
  | .cqHeadWrite ring value => Sys2Proof.Machine.execCqHeadWrite ring value s
  | .abortIndexWrite ring index => Sys2Proof.Machine.execAbortIndexWrite ring index s
  | .ringEnable ring => Sys2Proof.Machine.execRingEnable ring s
  | .ringDisable ring => Sys2Proof.Machine.execRingDisable ring s
  | .barRegisterWrite bar offset size value => Sys2Proof.Machine.execBarRegisterWrite bar offset size value s
  | .slcReset slice => Sys2Proof.Machine.execSlcReset slice s
  | .sliceResetDone slice => Sys2Proof.Machine.execSliceResetDone slice s
  | .outGo => Sys2Proof.Machine.execOutGo s
  | .inFullClear => Sys2Proof.Machine.execInFullClear s
  | .msixUnmask vector => Sys2Proof.Machine.execMsixUnmask vector s
  | .dmaReadComplete job what data => Sys2Proof.Machine.execDmaReadComplete job what data s
  | .readTimeout job what => Sys2Proof.Machine.execReadTimeout job what s
  | .hostLinkRetrain gen width => Sys2Proof.Machine.execHostLinkRetrain gen width s
  | .ecdsaSign job => Sys2Proof.Machine.execEcdsaSign job s
  | .ecdsaVerify job => Sys2Proof.Machine.execEcdsaVerify job s
  | .eddsaSign job => Sys2Proof.Machine.execEddsaSign job s
  | .eddsaVerify job => Sys2Proof.Machine.execEddsaVerify job s
  | .ecKeygen job => Sys2Proof.Machine.execEcKeygen job s
  | .ecdhDerive job => Sys2Proof.Machine.execEcdhDerive job s
  | .rsaSignPss job => Sys2Proof.Machine.execRsaSignPss job s
  | .rsaSignPkcs1 job => Sys2Proof.Machine.execRsaSignPkcs1 job s
  | .rsaVerify job => Sys2Proof.Machine.execRsaVerify job s
  | .rsaDecryptOaep job => Sys2Proof.Machine.execRsaDecryptOaep job s
  | .rsaEncryptOaep job => Sys2Proof.Machine.execRsaEncryptOaep job s
  | .rsaKeygen job => Sys2Proof.Machine.execRsaKeygen job s
  | .mlkemKeygen job => Sys2Proof.Machine.execMlkemKeygen job s
  | .mlkemEncaps job => Sys2Proof.Machine.execMlkemEncaps job s
  | .mlkemDecaps job => Sys2Proof.Machine.execMlkemDecaps job s
  | .mldsaKeygen job => Sys2Proof.Machine.execMldsaKeygen job s
  | .mldsaSign job => Sys2Proof.Machine.execMldsaSign job s
  | .mldsaVerify job => Sys2Proof.Machine.execMldsaVerify job s
  | .pairedSign job => Sys2Proof.Machine.execPairedSign job s
  | .pairedVerify job => Sys2Proof.Machine.execPairedVerify job s
  | .aeadSeal job => Sys2Proof.Machine.execAeadSeal job s
  | .aeadOpen job => Sys2Proof.Machine.execAeadOpen job s
  | .cipherEncrypt job => Sys2Proof.Machine.execCipherEncrypt job s
  | .cipherDecrypt job => Sys2Proof.Machine.execCipherDecrypt job s
  | .macGenerate job => Sys2Proof.Machine.execMacGenerate job s
  | .macVerify job => Sys2Proof.Machine.execMacVerify job s
  | .hash job => Sys2Proof.Machine.execHash job s
  | .kdfDerive job => Sys2Proof.Machine.execKdfDerive job s
  | .fpeEncrypt job => Sys2Proof.Machine.execFpeEncrypt job s
  | .fpeDecrypt job => Sys2Proof.Machine.execFpeDecrypt job s
  | .pinTranslate job => Sys2Proof.Machine.execPinTranslate job s
  | .pinVerify job => Sys2Proof.Machine.execPinVerify job s
  | .dukptDerive job => Sys2Proof.Machine.execDukptDerive job s
  | .keyblockImport job => Sys2Proof.Machine.execKeyblockImport job s
  | .keyblockExport job => Sys2Proof.Machine.execKeyblockExport job s
  | .lockerCodeIssue job => Sys2Proof.Machine.execLockerCodeIssue job s
  | .lockerCodeCheck job => Sys2Proof.Machine.execLockerCodeCheck job s
  | .lockerTokenSign job => Sys2Proof.Machine.execLockerTokenSign job s
  | .keyGenerate job => Sys2Proof.Machine.execKeyGenerate job s
  | .keyImportWrapped job => Sys2Proof.Machine.execKeyImportWrapped job s
  | .keyExportWrapped job => Sys2Proof.Machine.execKeyExportWrapped job s
  | .keyPin job => Sys2Proof.Machine.execKeyPin job s
  | .keyUnpin job => Sys2Proof.Machine.execKeyUnpin job s
  | .keyDestroy job => Sys2Proof.Machine.execKeyDestroy job s
  | .keyQuery job => Sys2Proof.Machine.execKeyQuery job s
  | .attestKey job => Sys2Proof.Machine.execAttestKey job s
  | .recordSeal job => Sys2Proof.Machine.execRecordSeal job s
  | .recordOpen job => Sys2Proof.Machine.execRecordOpen job s
  | .counterIncrement job => Sys2Proof.Machine.execCounterIncrement job s
  | .objectRepair job => Sys2Proof.Machine.execObjectRepair job s
  | .randomBytes job => Sys2Proof.Machine.execRandomBytes job s
  | .replicationTimeout seq => Sys2Proof.Machine.execReplicationTimeout seq s
  | .entropyWaitExpiry job => Sys2Proof.Machine.execEntropyWaitExpiry job s
  | .laneFault lane cause => Sys2Proof.Machine.execLaneFault lane cause s
  | .comingSpareSettle lane => Sys2Proof.Machine.execComingSpareSettle lane s
  | .spareTestDue => Sys2Proof.Machine.execSpareTestDue s
  | .spareTestEnd lane pass => Sys2Proof.Machine.execSpareTestEnd lane pass s
  | .pkeUnfence role value => Sys2Proof.Machine.execPkeUnfence role value s
  | .unfenceTestEnd lane pass => Sys2Proof.Machine.execUnfenceTestEnd lane pass s
  | .pkeSpareCount role value => Sys2Proof.Machine.execPkeSpareCount role value s
  | .sharedUnitFault cluster => Sys2Proof.Machine.execSharedUnitFault cluster s
  | .pkeLatUnfence role value => Sys2Proof.Machine.execPkeLatUnfence role value s
  | .latUnfenceTestEnd cluster pass => Sys2Proof.Machine.execLatUnfenceTestEnd cluster pass s
  | .symLaneFault lane cause => Sys2Proof.Machine.execSymLaneFault lane cause s
  | .symUnfence role value => Sys2Proof.Machine.execSymUnfence role value s
  | .symUnfenceTestEnd lane pass => Sys2Proof.Machine.execSymUnfenceTestEnd lane pass s
  | .registerPageWipe slice => Sys2Proof.Machine.execRegisterPageWipe slice s
  | .wmUncorrectable word => Sys2Proof.Machine.execWmUncorrectable word s
  | .keyCacheUncorrectable handle => Sys2Proof.Machine.execKeyCacheUncorrectable handle s
  | .heartTableUncorrectable heart => Sys2Proof.Machine.execHeartTableUncorrectable heart s
  | .keeperSramUncorrectable => Sys2Proof.Machine.execKeeperSramUncorrectable s
  | .fifoUncorrectable fifo content => Sys2Proof.Machine.execFifoUncorrectable fifo content s
  | .colourFault core job guardCause => Sys2Proof.Machine.execColourFault core job guardCause s
  | .gatewayCall core weir addr length direct => Sys2Proof.Machine.execGatewayCall core weir addr length direct s
  | .gatewayFaultLimit => Sys2Proof.Machine.execGatewayFaultLimit s
  | .keeperCallServe result => Sys2Proof.Machine.execKeeperCallServe result s
  | .weirInvalidate weir => Sys2Proof.Machine.execWeirInvalidate weir s
  | .guardDisable => Sys2Proof.Machine.execGuardDisable s
  | .guardEnable => Sys2Proof.Machine.execGuardEnable s
  | .guardHoldLimit => Sys2Proof.Machine.execGuardHoldLimit s
  | .debugMasterAccess write word data allBits => Sys2Proof.Machine.execDebugMasterAccess write word data allBits s
  | .keeperHandoverRequest block => Sys2Proof.Machine.execKeeperHandoverRequest block s
  | .keeperHandoverRelease block => Sys2Proof.Machine.execKeeperHandoverRelease block s
  | .normalHandoverRequest block => Sys2Proof.Machine.execNormalHandoverRequest block s
  | .swdtRefresh value => Sys2Proof.Machine.execSwdtRefresh value s
  | .swdtExpiry => Sys2Proof.Machine.execSwdtExpiry s
  | .nwdtCheckin core => Sys2Proof.Machine.execNwdtCheckin core s
  | .nwdtExpiry => Sys2Proof.Machine.execNwdtExpiry s
  | .vaultReadComplete page port data => Sys2Proof.Machine.execVaultReadComplete page port data s
  | .commitGroupOpen => Sys2Proof.Machine.execCommitGroupOpen s
  | .commitPhase2 => Sys2Proof.Machine.execCommitPhase2 s
  | .driveLinkUp port drive => Sys2Proof.Machine.execDriveLinkUp port drive s
  | .driveLinkDown port => Sys2Proof.Machine.execDriveLinkDown port s
  | .vaultCmdError port readPage => Sys2Proof.Machine.execVaultCmdError port readPage s
  | .vaultCmdTimeout port => Sys2Proof.Machine.execVaultCmdTimeout port s
  | .smartPoll port warning => Sys2Proof.Machine.execSmartPoll port warning s
  | .resilverDone port => Sys2Proof.Machine.execResilverDone port s
  | .sweepPassEnd => Sys2Proof.Machine.execSweepPassEnd s
  | .scrubPassEnd => Sys2Proof.Machine.execScrubPassEnd s
  | .vltFormat role pages => Sys2Proof.Machine.execVltFormat role pages s
  | .formatDone => Sys2Proof.Machine.execFormatDone s
  | .vltRootSelect role port => Sys2Proof.Machine.execVltRootSelect role port s
  | .vltPortOfflineSet role port => Sys2Proof.Machine.execVltPortOfflineSet role port s
  | .vltPortOfflineClear role port => Sys2Proof.Machine.execVltPortOfflineClear role port s
  | .wspBlock source samples => Sys2Proof.Machine.execWspBlock source samples s
  | .wspDeclaredFailed source => Sys2Proof.Machine.execWspDeclaredFailed source s
  | .wspSettled source => Sys2Proof.Machine.execWspSettled source s
  | .reseedDue testPasses => Sys2Proof.Machine.execReseedDue testPasses s
  | .drbgRequestLimit => Sys2Proof.Machine.execDrbgRequestLimit s
  | .chainTickMarker marker => Sys2Proof.Machine.execChainTickMarker marker s
  | .chainUp => Sys2Proof.Machine.execChainUp s
  | .portBroken portB => Sys2Proof.Machine.execPortBroken portB s
  | .loopbackRestore portB => Sys2Proof.Machine.execLoopbackRestore portB s
  | .holdoverEntry => Sys2Proof.Machine.execHoldoverEntry s
  | .rollCall hdr count entries => Sys2Proof.Machine.execRollCall hdr count entries s
  | .fillCall hdr order entries => Sys2Proof.Machine.execFillCall hdr order entries s
  | .hello hdr => Sys2Proof.Machine.execHello hdr s
  | .dictRead req => Sys2Proof.Machine.execDictRead req s
  | .dictWrite req => Sys2Proof.Machine.execDictWrite req s
  | .dictReply hdr body => Sys2Proof.Machine.execDictReply hdr body s
  | .challengeRequest hdr => Sys2Proof.Machine.execChallengeRequest hdr s
  | .approval hdr body => Sys2Proof.Machine.execApproval hdr body s
  | .quorumWriteExpiry challenge => Sys2Proof.Machine.execQuorumWriteExpiry challenge s
  | .replicate hdr record => Sys2Proof.Machine.execReplicate hdr record s
  | .replAck hdr writer seq => Sys2Proof.Machine.execReplAck hdr writer seq s
  | .replCommit hdr writer seq => Sys2Proof.Machine.execReplCommit hdr writer seq s
  | .replRollback hdr writer seq => Sys2Proof.Machine.execReplRollback hdr writer seq s
  | .replQueryDue writer seq => Sys2Proof.Machine.execReplQueryDue writer seq s
  | .replQuery hdr writer seq => Sys2Proof.Machine.execReplQuery hdr writer seq s
  | .replState hdr writer seq => Sys2Proof.Machine.execReplState hdr writer seq s
  | .replDecision writer seq => Sys2Proof.Machine.execReplDecision writer seq s
  | .memberUnreachable member => Sys2Proof.Machine.execMemberUnreachable member s
  | .fragmentTimeout source id => Sys2Proof.Machine.execFragmentTimeout source id s
  | .migConsume hdr tag targetSlice => Sys2Proof.Machine.execMigConsume hdr tag targetSlice s
  | .migReply hdr tag accepted => Sys2Proof.Machine.execMigReply hdr tag accepted s
  | .migrationTimeout slice => Sys2Proof.Machine.execMigrationTimeout slice s
  | .attestOffer hdr offer => Sys2Proof.Machine.execAttestOffer hdr offer s
  | .attestAnswer hdr answer => Sys2Proof.Machine.execAttestAnswer hdr answer s
  | .domainKey hdr grant => Sys2Proof.Machine.execDomainKey hdr grant s
  | .heartTransfer hdr heart entry => Sys2Proof.Machine.execHeartTransfer hdr heart entry s
  | .objectTransfer hdr slot sealed pinned slotMap => Sys2Proof.Machine.execObjectTransfer hdr slot sealed pinned slotMap s
  | .transferEnd hdr hearts objects full => Sys2Proof.Machine.execTransferEnd hdr hearts objects full s
  | .joinTimeout => Sys2Proof.Machine.execJoinTimeout s
  | .seiPeriodNext role value => Sys2Proof.Machine.execSeiPeriodNext role value s
  | .seiSwitchTick role value => Sys2Proof.Machine.execSeiSwitchTick role value s
  | .slcPasid role slice value => Sys2Proof.Machine.execSlcPasid role slice value s
  | .slcShareWrite role slice which value => Sys2Proof.Machine.execSlcShareWrite role slice which value s
  | .freeze role slice => Sys2Proof.Machine.execFreeze role slice s
  | .freezeNow role slice => Sys2Proof.Machine.execFreezeNow role slice s
  | .freezeDrained slice => Sys2Proof.Machine.execFreezeDrained slice s
  | .thaw role slice => Sys2Proof.Machine.execThaw role slice s
  | .save role slice => Sys2Proof.Machine.execSave role slice s
  | .restore role slice => Sys2Proof.Machine.execRestore role slice s
  | .rngSlice role ring value => Sys2Proof.Machine.execRngSlice role ring value s
  | .hstMsixMap role source value => Sys2Proof.Machine.execHstMsixMap role source value s
  | .hrtOwner role heart value => Sys2Proof.Machine.execHrtOwner role heart value s
  | .hrtInvalidate role heart value => Sys2Proof.Machine.execHrtInvalidate role heart value s
  | .hrtRetire role heart value => Sys2Proof.Machine.execHrtRetire role heart value s
  | .chnK role value => Sys2Proof.Machine.execChnK role value s
  | .chnDomainFound role value => Sys2Proof.Machine.execChnDomainFound role value s
  | .chnDomainJoin role value => Sys2Proof.Machine.execChnDomainJoin role value s
  | .chnDomainConfirm role value => Sys2Proof.Machine.execChnDomainConfirm role value s
  | .chnMemberRemove role value => Sys2Proof.Machine.execChnMemberRemove role value s
  | .ofcAlgorithm role officer value selfApproved => Sys2Proof.Machine.execOfcAlgorithm role officer value selfApproved s
  | .tamperAlarm source => Sys2Proof.Machine.execTamperAlarm source s
  | .tamperResponse => Sys2Proof.Machine.execTamperResponse s
  | .batteryRemoval => Sys2Proof.Machine.execBatteryRemoval s
  | .tmpClear role value => Sys2Proof.Machine.execTmpClear role value s
  | .tmpLockClear role value => Sys2Proof.Machine.execTmpLockClear role value s
  | .lcsTransition role value => Sys2Proof.Machine.execLcsTransition role value s
  | .transitionStep => Sys2Proof.Machine.execTransitionStep s
  | .transitionLapse => Sys2Proof.Machine.execTransitionLapse s
  | .lcsChallengeDraw role value => Sys2Proof.Machine.execLcsChallengeDraw role value s
  | .lcsChallengeExpiry => Sys2Proof.Machine.execLcsChallengeExpiry s
  | .lcsCertApply role value => Sys2Proof.Machine.execLcsCertApply role value s
  | .certCheckEnd => Sys2Proof.Machine.execCertCheckEnd s
  | .lcsGrantEnd role value => Sys2Proof.Machine.execLcsGrantEnd role value s
  | .grantExpiry => Sys2Proof.Machine.execGrantExpiry s
  | .lcsTrimSelect role value => Sys2Proof.Machine.execLcsTrimSelect role value s
  | .chkStart role unit => Sys2Proof.Machine.execChkStart role unit s
  | .chkContinue role unit => Sys2Proof.Machine.execChkContinue role unit s
  | .chkSuspend role unit => Sys2Proof.Machine.execChkSuspend role unit s
  | .chkScanEnd unit => Sys2Proof.Machine.execChkScanEnd unit s
  | .silClearCircular role value => Sys2Proof.Machine.execSilClearCircular role value s
  | .rstResetRequest role value => Sys2Proof.Machine.execRstResetRequest role value s
  | .standbyEnter role => Sys2Proof.Machine.execStandbyEnter role s
  | .standbyExit role => Sys2Proof.Machine.execStandbyExit role s
  | .gateRequest role block => Sys2Proof.Machine.execGateRequest role block s
  | .ungateRequest role block => Sys2Proof.Machine.execUngateRequest role block s
  | .laneGateDrained block => Sys2Proof.Machine.execLaneGateDrained block s
  | .idleEntry => Sys2Proof.Machine.execIdleEntry s
  | .powerOn rails testModeTied => Sys2Proof.Machine.execPowerOn rails testModeTied s
  | .brownOut rail => Sys2Proof.Machine.execBrownOut rail s
  | .resetNLow => Sys2Proof.Machine.execResetNLow s
  | .resetNLong => Sys2Proof.Machine.execResetNLong s
  | .perstNAssert => Sys2Proof.Machine.execPerstNAssert s
  | .pcieHotReset => Sys2Proof.Machine.execPcieHotReset s
  | .pcieLinkDown => Sys2Proof.Machine.execPcieLinkDown s
  | .functionLevelReset => Sys2Proof.Machine.execFunctionLevelReset s
  | .coldStart strap boot => Sys2Proof.Machine.execColdStart strap boot s
  | .warmStart boot => Sys2Proof.Machine.execWarmStart boot s
  | .functionStart => Sys2Proof.Machine.execFunctionStart s
  | .tamperSample battery reading => Sys2Proof.Machine.execTamperSample battery reading s
  | .pasidEnable on => Sys2Proof.Machine.execPasidEnable on s
  | .debugHalt secure => Sys2Proof.Machine.execDebugHalt secure s
  | .debugResume secure => Sys2Proof.Machine.execDebugResume secure s
  | .rawSampleTapOpen source => Sys2Proof.Machine.execRawSampleTapOpen source s
  | .challengeExpiry challenge => Sys2Proof.Machine.execChallengeExpiry challenge s

end Sys2Proof.Machine
end

