-- ==== Sys2Proof/Safety.lean ====
section
/-! DEFINITION. The terms in which the model's statements are written: what a command names, what a command may change, the order of the progress marks. -/

namespace Sys2Proof.Machine

/-! ## What a command names -/

/-- An operand of a fault command that names a thing the unit has: only WM_UNCORRECTABLE is stopped by one that does not (R289: 2,097,152 words). -/
def namesWord : Instr → Bool
  | .wmUncorrectable word => decide (word < 2097152)
  | _ => true

/-- The rows of Table 4.8: the opcode and the job of a command that performs an operation. -/
def engineRow : Instr → Option (Nat × Nat)
  | .ecdsaSign job => some (0x0101, job)
  | .ecdsaVerify job => some (0x0102, job)
  | .eddsaSign job => some (0x0103, job)
  | .eddsaVerify job => some (0x0104, job)
  | .ecKeygen job => some (0x0105, job)
  | .ecdhDerive job => some (0x0106, job)
  | .rsaSignPss job => some (0x0201, job)
  | .rsaSignPkcs1 job => some (0x0202, job)
  | .rsaVerify job => some (0x0203, job)
  | .rsaDecryptOaep job => some (0x0204, job)
  | .rsaEncryptOaep job => some (0x0205, job)
  | .rsaKeygen job => some (0x0206, job)
  | .mlkemKeygen job => some (0x0301, job)
  | .mlkemEncaps job => some (0x0302, job)
  | .mlkemDecaps job => some (0x0303, job)
  | .mldsaKeygen job => some (0x0304, job)
  | .mldsaSign job => some (0x0305, job)
  | .mldsaVerify job => some (0x0306, job)
  | .pairedSign job => some (0x0307, job)
  | .pairedVerify job => some (0x0308, job)
  | .aeadSeal job => some (0x0401, job)
  | .aeadOpen job => some (0x0402, job)
  | .cipherEncrypt job => some (0x0403, job)
  | .cipherDecrypt job => some (0x0404, job)
  | .macGenerate job => some (0x0405, job)
  | .macVerify job => some (0x0406, job)
  | .hash job => some (0x0407, job)
  | .kdfDerive job => some (0x0408, job)
  | .fpeEncrypt job => some (0x0409, job)
  | .fpeDecrypt job => some (0x040A, job)
  | .pinTranslate job => some (0x0501, job)
  | .pinVerify job => some (0x0502, job)
  | .dukptDerive job => some (0x0503, job)
  | .keyblockImport job => some (0x0504, job)
  | .keyblockExport job => some (0x0505, job)
  | .lockerCodeIssue job => some (0x0601, job)
  | .lockerCodeCheck job => some (0x0602, job)
  | .lockerTokenSign job => some (0x0603, job)
  | .keyGenerate job => some (0x0701, job)
  | .keyImportWrapped job => some (0x0702, job)
  | .keyExportWrapped job => some (0x0703, job)
  | .keyPin job => some (0x0704, job)
  | .keyUnpin job => some (0x0705, job)
  | .keyDestroy job => some (0x0706, job)
  | .keyQuery job => some (0x0707, job)
  | .attestKey job => some (0x0708, job)
  | .recordSeal job => some (0x0709, job)
  | .recordOpen job => some (0x070A, job)
  | .counterIncrement job => some (0x070B, job)
  | .objectRepair job => some (0x070C, job)
  | .randomBytes job => some (0x0801, job)
  | _ => none

/-- The rows that name one write of a dictionary entry: whether the operand names an entry that exists, the writer's role, the entry and the value. An enrolment without the new key's own approval waits (R365) and is not among them. -/
def dictRow : Instr → Option (Bool × Role × Nat × DVal)
  | .pkeUnfence role value => some (true, role, Key.PKE_UNFENCE, .num value)
  | .pkeSpareCount role value => some (true, role, Key.PKE_SPARE_COUNT, .num value)
  | .pkeLatUnfence role value => some (true, role, Key.PKE_LAT_UNFENCE, .num value)
  | .symUnfence role value => some (true, role, Key.SYM_UNFENCE, .num value)
  | .vltFormat role pages => some (true, role, Key.VLT_FORMAT, .num pages)
  | .vltRootSelect role port => some (true, role, Key.VLT_ROOT_SELECT, .num port)
  | .vltPortOfflineSet role port => some (decide (port < 2), role, (Key.VLT_PORT_OFFLINE port), .num 1)
  | .vltPortOfflineClear role port => some (decide (port < 2), role, (Key.VLT_PORT_OFFLINE port), .num 0)
  | .seiPeriodNext role value => some (true, role, Key.SEI_PERIOD_NEXT, .num value)
  | .seiSwitchTick role value => some (true, role, Key.SEI_SWITCH_TICK, .num value)
  | .slcPasid role slice value => some (decide (slice < 1024), role, (Key.SLC_PASID slice), .num value)
  | .slcShareWrite role slice which value => some (decide (slice < 1024), role, (shareKey which slice), .num value)
  | .freeze role slice => some (decide (slice < 1024), role, (Key.SLC_MIG_CMD slice), .num 1)
  | .freezeNow role slice => some (decide (slice < 1024), role, (Key.SLC_MIG_CMD slice), .num 2)
  | .thaw role slice => some (decide (slice < 1024), role, (Key.SLC_MIG_CMD slice), .num 4)
  | .save role slice => some (decide (slice < 1024), role, (Key.SLC_MIG_CMD slice), .num 3)
  | .restore role slice => some (decide (slice < 1024), role, (Key.SLC_MIG_CMD slice), .num 5)
  | .rngSlice role ring value => some (decide (ring < 4096), role, (Key.RNG_SLICE ring), .num value)
  | .hstMsixMap role source value => some (decide (source < 4224), role, (Key.HST_MSIX_MAP source), .num value)
  | .hrtOwner role heart value => some (decide (heart < 16384), role, (Key.HRT_OWNER heart), .num value)
  | .hrtInvalidate role heart value => some (decide (heart < 16384), role, (Key.HRT_INVALIDATE heart), .num value)
  | .hrtRetire role heart value => some (decide (heart < 16384), role, (Key.HRT_RETIRE heart), .num value)
  | .chnK role value => some (true, role, Key.CHN_K, .num value)
  | .chnDomainFound role value => some (true, role, Key.CHN_DOMAIN_FOUND, .num value)
  | .chnDomainJoin role value => some (true, role, Key.CHN_DOMAIN_JOIN, .num value)
  | .chnDomainConfirm role value => some (true, role, Key.CHN_DOMAIN_CONFIRM, .octets value)
  | .chnMemberRemove role value => some (true, role, Key.CHN_MEMBER_REMOVE, .num value)
  | .tmpClear role value => some (true, role, Key.TMP_CLEAR, .num value)
  | .tmpLockClear role value => some (true, role, Key.TMP_LOCK_CLEAR, .num value)
  | .lcsTransition role value => some (true, role, Key.LCS_TRANSITION, .num value)
  | .lcsChallengeDraw role value => some (true, role, Key.LCS_CHALLENGE_DRAW, .num value)
  | .lcsCertApply role value => some (true, role, Key.LCS_CERT_APPLY, .num value)
  | .lcsGrantEnd role value => some (true, role, Key.LCS_GRANT_END, .num value)
  | .lcsTrimSelect role value => some (true, role, Key.LCS_TRIM_SELECT, .num value)
  | .chkStart role unit => some (decide (unit < 4), role, (Key.CHK_COMMAND unit), .num 1)
  | .chkContinue role unit => some (decide (unit < 4), role, (Key.CHK_COMMAND unit), .num 2)
  | .chkSuspend role unit => some (decide (unit < 4), role, (Key.CHK_COMMAND unit), .num 3)
  | .silClearCircular role value => some (true, role, Key.SIL_CLEAR_CIRCULAR, .num value)
  | .rstResetRequest role value => some (true, role, Key.RST_RESET_REQUEST, .num value)
  | .standbyEnter role => some (true, role, Key.RST_STANDBY, .num 1)
  | .standbyExit role => some (true, role, Key.RST_STANDBY, .num 0)
  | .gateRequest role block => some (decide (block < 7), role, (Key.RST_GATE_REQUEST block), .num 1)
  | .ungateRequest role block => some (decide (block < 7), role, (Key.RST_GATE_REQUEST block), .num 0)
  | .ofcAlgorithm role officer value selfApproved =>
    if 16 ≤ officer ∨ role ≠ .officer ∨ value = 0 ∨ selfApproved = true then some (decide (officer < 16), role, Key.OFC_ALGORITHM officer, .num value) else none
  | _ => none

/-- An entry that a write reaches through the chain or at once, and not through the window (R313, R363). -/
def actsElsewhere (key : Nat) : Bool :=
  decide (key = Key.KPR_GUARD_ENABLE) || decide (key = Key.KPR_SWDT_REFRESH) || decide (key = Key.CHN_K) || decide (key = Key.CHN_MEMBER_REMOVE) ||
    (decide (0x8000 ≤ key / 256) && decide (key / 256 < 0xC000) && decide (3 ≤ key % 256) && decide (key % 256 ≤ 5))

/-- A write of an entry passes every check of R358 that does not ask for a proof: the entry exists, the role may write it, LOCK does not bar it, value and own rule allow it. -/
def State.writePasses (s : State) (role : Role) (key : Nat) (v : DVal) : Bool :=
  s.live && (match attrOfKey key with
    | some a => a.mayWrite role && decide (s.firstRefusal a role key v = 0)
    | none => false) && s.view.mayStand (decide (role = .officer)) key v

/-! ## What a command may change -/

/-- The commands under which the tick number moves: the tick itself, a marker that the unit follows, the end of a COLD reset (R4). -/
def movesTick : Instr → Bool
  | .tick => true
  | .chainTickMarker _ => true
  | .coldStart _ _ => true
  | _ => false

/-- The commands under which a life-cycle or trim fuse can blow: a step of a transition, a start that resumes one, and the window in which LCS_TRIM_SELECT is applied (R391, R393, R406). -/
def blowsFuses : Instr → Bool
  | .transitionStep => true
  | .coldStart _ _ => true
  | .warmStart _ => true
  | .housekeepingWindow => true
  | _ => false

/-! ## Fuses (R391 to R394) -/

/-- A field of a progress mark goes on as it was, or all four of its bits are blown. -/
def markGrows (old new : Nat) : Prop := new = old ∨ new = blown

/-- Every field of a transition's marks goes on or is blown. -/
def Marks.grows (m n : Marks) : Prop :=
  markGrows m.begun n.begun ∧ markGrows m.wiped n.wiped ∧ markGrows m.provisioned n.provisioned ∧ markGrows m.done n.done

/-- The fuses only blow: no mark is lost, vendor test access does not come back, a scrapped unit stays scrapped. -/
def Fuses.grows (f g : Fuses) : Prop :=
  f.m1.grows g.m1 ∧ f.m2.grows g.m2 ∧ f.m3.grows g.m3 ∧ f.m4.grows g.m4 ∧
    (g.vendorTest = true → f.vendorTest = true) ∧ (f.allBlown = true → g.allBlown = true)

/-- The marks of one transition are reached in the order of Table 16.3. -/
def Marks.ordered (m : Marks) : Bool :=
  (!m.isDone || m.isProvisioned) && (!m.isProvisioned || m.isWiped) && (!m.isWiped || m.hasBegun)

/-- The marks of every transition are reached in order. -/
def Fuses.ordered (f : Fuses) : Bool := f.m1.ordered && f.m2.ordered && f.m3.ordered && f.m4.ordered

/-! ## Chain messages (R318, R320, R321) -/

/-- The rows by which a message of the chain is received: its type (Table 13.4) and its header. A request through a weir of the Keeper's is no message. -/
def msgRow : Instr → Option (Nat × MsgHdr)
  | .rollCall h _ _ => some (0x01, h)
  | .fillCall h _ _ => some (0x02, h)
  | .hello h => some (0x03, h)
  | .dictRead r => if r.weir then none else some (0x10, r.hdr)
  | .dictWrite r => if r.weir then none else some (0x10, r.hdr)
  | .dictReply h _ => some (0x11, h)
  | .challengeRequest h => some (0x20, h)
  | .approval h _ => some (0x22, h)
  | .replicate h _ => some (0x30, h)
  | .replAck h _ _ => some (0x31, h)
  | .replCommit h _ _ => some (0x32, h)
  | .replRollback h _ _ => some (0x33, h)
  | .replQuery h _ _ => some (0x34, h)
  | .replState h _ _ => some (0x35, h)
  | .migConsume h _ _ => some (0x38, h)
  | .migReply h _ _ => some (0x38, h)
  | .attestOffer h _ => some (0x40, h)
  | .attestAnswer h _ => some (0x41, h)
  | .domainKey h _ => some (0x42, h)
  | .heartTransfer h _ _ => some (0x43, h)
  | .objectTransfer h _ _ _ _ => some (0x44, h)
  | .transferEnd h _ _ _ => some (0x45, h)
  | _ => none

/-- A message whose check holds and whose seal, where its type has one, the unit can open. -/
def State.opensMsg (s : State) (type : Nat) (h : MsgHdr) : Bool := decide (h.check = .good) && !(msgSeal type == 1 && s.chain.domainKey.isNone)

/-- A message that the unit takes: of another unit, not seen before, for this unit or for all. -/
def State.forMe (s : State) (h : MsgHdr) : Bool :=
  !(h.src == s.chain.address && s.chain.address != 0) && !s.chain.seen.contains (h.src, h.id, h.frag) &&
    (h.dst == bcast || (h.dst == s.chain.address && s.chain.address != 0))

/-- The messages that do not wait in lane time for step 4 of the frame's window: the two roll calls, which the relay passes on (R25, R324). -/
def relayed : Instr → Bool
  | .rollCall _ _ _ => true
  | .fillCall _ _ _ => true
  | _ => false

/-- A whole message of one fragment that the unit takes as it comes. -/
def State.passes (s : State) (type : Nat) (h : MsgHdr) : Bool := !s.deaf && s.opensMsg type h && s.forMe h && h.last == 0

/-- Such a message in the window, where the blocks of the unit take theirs (R25, R357). -/
def State.takes (s : State) (type : Nat) (h : MsgHdr) : Bool := s.window && s.passes type h

/-- What every message that is taken leaves: it is remembered, and its source counts as heard in this frame. -/
def State.heardFrom (s : State) (h : MsgHdr) : State :=
  State.hear { s with chain := { s.chain with seen := s.chain.seen ++ [(h.src, h.id, h.frag)] } } h.src

end Sys2Proof.Machine
end

