-- ==== Sys2Proof/Certificates/Slice0/Obligations.lean ====
section
/-! DEFINITION. The statements about the model, one proposition each. -/

open Sys2Proof Sys2Proof.Machine

/-! ## The block and its queue -/

/-- A step takes the command at the front of the queue and runs it on the state with the queue's rest. -/
def Obligations.StepRunsFrontCommand : Prop :=
  ∀ (c : Instr) (rest : List Instr) (s : State), step { s with pending := c :: rest } = exec c { s with pending := rest }

/-- Every command completes in every state; the one stop is WM_UNCORRECTABLE of a word past the last of working memory. -/
def Obligations.EveryCommandCompletes : Prop :=
  (∀ (c : Instr) (s : State), namesWord c = true ∨ (∀ w, c ≠ .wmUncorrectable w) → ∃ t, exec c s = .next t) ∧
  ∀ (w : Nat) (s : State), 2097152 ≤ w → exec (.wmUncorrectable w) s = .fault (.noSuchWord w)

/-- The queue is first in, first out: no command adds to it, takes from it or reorders it, so that a step leaves exactly the rest of the queue. The model's choice (assumption log 1): on an empty queue the block idles. -/
def Obligations.QueueIsFirstInFirstOut : Prop :=
  ((∀ (c : Instr) (s t : State), exec c s = .next t → t.pending = s.pending) ∧
   ∀ s t : State, step s = .next t → t.pending = s.pending.drop 1) ∧
  (∀ s : State, s.pending = [] → step s = .next s)

/-- No command but a tick, a marker that the unit follows and the end of a COLD reset moves the tick number. A tick advances the 64-bit tick number by one and ends the frame; in the resets and starts that hold the tick back it changes nothing. -/
def Obligations.TickNumberMovesOnlyAtTicks : Prop :=
  (∀ (c : Instr) (s t : State), movesTick c = false → exec c s = .next t → t.tick = s.tick) ∧
  (∀ s : State,
     (s.noTick = false → ∃ t, exec .tick s = .next t ∧ t.tick = (s.tick + 1) % 2 ^ 64 ∧ t.window = false ∧
       t.life.fuses = s.life.fuses ∧ t.pending = s.pending) ∧
     (s.noTick = true → exec .tick s = .next s))

/-! ## Life-cycle fuses -/

/-- Whatever is commanded, the fuses only blow: no progress mark is lost, vendor test access never returns, a scrapped unit stays scrapped. Only a transition's step, a start and the window in which LCS_TRIM_SELECT is applied touch the fuses. -/
def Obligations.FusesOnlyBlow : Prop :=
  (∀ (c : Instr) (s t : State), exec c s = .next t → s.life.fuses.grows t.life.fuses) ∧
  (∀ (c : Instr) (s t : State), blowsFuses c = false → exec c s = .next t → t.life.fuses = s.life.fuses)

/-- The progress marks of each transition are reached in the order BEGUN, WIPED, PROVISIONED, DONE: every step keeps that. -/
def Obligations.StepKeepsMarksOrdered : Prop :=
  ∀ s t : State, s.life.fuses.ordered = true → step s = .next t → t.life.fuses.ordered = true

/-- The life-cycle state never goes back: nothing leads from RETURNED or SCRAPPED to a state of service. -/
def Obligations.LifeCycleNeverReturns : Prop :=
  ∀ (c : Instr) (s t : State), exec c s = .next t → s.lifeCycle ≤ t.lifeCycle

/-! ## Engines -/

/-- Each command of Table 4.8 performs its operation on the job it names, when that is a job of this opcode that holds all its operation needs: the job's outcome is fixed, and nothing else changes but the counter of free values. Of any other job it changes nothing. -/
def Obligations.EngineCommandFixesOutcome : Prop :=
  ∀ (c : Instr) (op id : Nat) (s : State), engineRow c = some (op, id) →
    (∀ j, s.job? id = some j → j.op = op → j.performable = true →
      exec c s = .next { s with
        jobs := s.jobs.map (fun i => if i.id = id then { i with outcome := some (s.jobOp op j s.free) } else i)
        free := s.free + 1 }) ∧
    (s.mayPerform op id = false → exec c s = .next s)

/-! ## Rows that write one dictionary entry -/

/-- A row that writes one entry, its write passing every check, is acknowledged: the write waits for the frame's window, UNIT_DICT_WRITES advances, nothing else changes. -/
def Obligations.DictionaryRowAcknowledged : Prop :=
  ∀ (c : Instr) (role : Role) (key : Nat) (v : DVal) (s : State),
    dictRow c = some (true, role, key, v) → actsElsewhere key = false → s.writePasses role key v = true →
      exec c s = .next { s.count Key.UNIT_DICT_WRITES with
        dict := { (s.count Key.UNIT_DICT_WRITES).dict with acked := s.dict.acked ++ [(key, v)], answer := .acked } }

/-- A row that writes one entry is refused with the reason of the first check that fails, in the order of R358: 1 where it names no entry, 2 for a role that may not write it, then 10 for LOCK, 4 for a length, 5 for a range, and 6 for the entry's own rule. A refusal is recorded (R358): UNIT_DICT_REFUSALS advances, UNIT_LAST_REFUSAL names the entry, the reason and the tick, and nothing else of the unit changes. -/
def Obligations.DictionaryRowRefused : Prop :=
  (∀ (c : Instr) (named : Bool) (role : Role) (key : Nat) (v : DVal) (s : State),
     dictRow c = some (named, role, key, v) → s.live = true →
       (named = false ∨ attrOfKey key = none → exec c s = .next (s.refused key 1)) ∧
       ∀ a, named = true → attrOfKey key = some a →
         (a.mayWrite role = false → exec c s = .next (s.refused key 2)) ∧
         (a.mayWrite role = true → s.firstRefusal a role key v ≠ 0 → exec c s = .next (s.refused key (s.firstRefusal a role key v))) ∧
         (a.mayWrite role = true → s.firstRefusal a role key v = 0 → s.view.mayStand (decide (role = .officer)) key v = false →
           exec c s = .next (s.refused key 6))) ∧
  (∀ (s : State) (index sub reason : Nat), s.dict.nums.Pairwise (fun a b => a.1 < b.1) → sub < 256 → index < 65536 → reason < 256 →
     let t := s.refused (entryKey index sub) reason
     t.num Key.UNIT_DICT_REFUSALS = min 4294967295 (s.num Key.UNIT_DICT_REFUSALS + 1) ∧
     t.num Key.UNIT_LAST_REFUSAL = index + 2 ^ 16 * sub + 2 ^ 24 * reason + 2 ^ 32 * (s.tick % 2 ^ 32) ∧
     (∀ k, k ≠ Key.UNIT_DICT_REFUSALS → k ≠ Key.UNIT_LAST_REFUSAL → t.num k = s.num k) ∧
     t = { s with dict := { s.dict with nums := t.dict.nums, answer := .refused reason } })

/-! ## Host link -/

/-- Doorbells and ABORT_INDEX are recorded for the next tick while ENABLED is 1, and ignored otherwise; nothing else changes. Enabling a ring pair. A write of ENABLE waits for the tick T that observes it; while BUSY or ENABLED is 1, or an accepted enable has not shown, a write of 1 is dropped. At T it is accepted, to show at T+1 with the first credit limit, or refused with its code from T+1. Where it shows, all four indices are 0 and ENABLED is 1. The conditions of Table 3.9 under which ENABLE is refused, one code each; where more than one holds the model answers the lowest (its choice, assumption log 7). Disabling: from T on nothing is fetched, and ERROR clears at T+1; indices, jobs and everything else stay. -/
def Obligations.RingEnableAndDisable : Prop :=
  (∀ (ring value : Nat) (s : State),
     ((s.ring ring).enabled = true →
       exec (.sqTailWrite ring value) s = .next { s with rings := SMap.set RingPair.reset ring { s.ring ring with tailWritten := some value } s.rings } ∧
       exec (.cqHeadWrite ring value) s = .next { s with rings := SMap.set RingPair.reset ring { s.ring ring with headWritten := some value } s.rings } ∧
       exec (.abortIndexWrite ring value) s = .next { s with rings := SMap.set RingPair.reset ring { s.ring ring with abortWritten := some value } s.rings }) ∧
     ((s.ring ring).enabled = false →
       exec (.sqTailWrite ring value) s = .next s ∧ exec (.cqHeadWrite ring value) s = .next s ∧ exec (.abortIndexWrite ring value) s = .next s)) ∧
  (∀ (ring : Nat) (s : State),
     let r := s.ring ring
     (s.seen.busy ring = false → r.enabled = false → r.startDue = none →
       exec (.ringEnable ring) s = .next { s with rings := SMap.set RingPair.reset ring { r with enableBit := true, enableWritten := some true } s.rings }) ∧
     (s.seen.busy ring = true ∨ r.enabled = true ∨ r.startDue.isSome → exec (.ringEnable ring) s = .next s) ∧
     exec (.ringDisable ring) s = .next { s with rings := SMap.set RingPair.reset ring { r with enableBit := false, enableWritten := some false } s.rings }) ∧
  (∀ (ring : Nat) (s : State),
     let r := s.ring ring
     (r.enableWritten = none → s.enableSample ring = s) ∧
     (r.enableWritten = some true → r.enabled = false → s.enableRefusal ring = 0 → s.enableSample ring = { s with
       rings := SMap.set RingPair.reset ring { r with
         enableWritten := none, startDue := some (s.tick + 1, s.firstLimit ring), errorDue := some (s.tick + 1, 0) } s.rings }) ∧
     (r.enableWritten = some true → r.enabled = false → s.enableRefusal ring ≠ 0 → s.enableSample ring = { s with
       rings := SMap.set RingPair.reset ring { r with enableWritten := none, errorDue := some (s.tick + 1, s.enableRefusal ring) } s.rings }) ∧
     (r.enableWritten = some false → s.enableSample ring = { s with
       rings := SMap.set RingPair.reset ring { r with
         enableWritten := none, enabled := false, startDue := none, errorDue := some (s.tick + 1, 0), tailWritten := none, headWritten := none, abortWritten := none } s.rings }) ∧
     (∀ d limit, r.startDue = some (d, limit) →
       (s.tick < d → s.enableShows ring = s) ∧
       (d ≤ s.tick → s.enableShows ring = { s with
         rings := SMap.set RingPair.reset ring { r with
           enabled := true, startDue := none, tl := 0, sh := 0, cp := 0, ch := 0, limit := limit, tailWritten := none, headWritten := none
           abortWritten := none, abortMarks := [], lastShadow := [] } s.rings })) ∧
     (∀ d code, r.errorDue = some (d, code) → SMap.wf RingPair.reset s.rings = true →
       (s.tick < d → s.errorShows ring = s) ∧ (d ≤ s.tick → ((s.errorShows ring).ring ring).error = code))) ∧
  (∀ (ring : Nat) (s : State),
     let r := s.ring ring
     let c := s.slice (s.ringSlice ring)
     let badK := r.k < 4 ∨ 16 < r.k
     let badSlice := 1024 ≤ s.ringSlice ring ∨ c.mig ≠ .running ∨ c.resetting.isSome = true
     let badBase := r.sqBase % 4096 ≠ 0 ∨ r.cqBase % 4096 ≠ 0 ∨ r.shadowBase % 64 ≠ 0
     let badPasid := s.host.pasidEnable = false ∧ s.ringSlice ring ≠ 0
     (badK → s.enableRefusal ring = 4) ∧ (¬ badK → badSlice → s.enableRefusal ring = 5) ∧
       (¬ badK → ¬ badSlice → badBase → s.enableRefusal ring = 6) ∧
       (¬ badK → ¬ badSlice → ¬ badBase → badPasid → s.enableRefusal ring = 7) ∧
       (¬ badK → ¬ badSlice → ¬ badBase → ¬ badPasid → s.enableRefusal ring = 0))

/-- The tunnel window's strobes and the endpoint's PASID Enable; with TUNNEL 0 the unit drops the strobes. Unmasking a vector clears its mask; with its pending bit set its message is due at the next tick; every other vector stays. A write to a BAR must be 4 or 8 bytes, aligned and inside the BAR, else it is completed as an unsupported request, which AER notes, and changes nothing more. The registers of a ring page and of a slice page act as their own commands; a base register takes its half while ENABLE and BUSY are 0 and ignores it otherwise. -/
def Obligations.HostRegisterWrites : Prop :=
  (∀ s : State,
     (s.tunnelOn = true →
       exec .outGo s = .next { s with host := { s.host with tunnel := { s.host.tunnel with outGo := true } } } ∧
       exec .inFullClear s = .next { s with host := { s.host with tunnel := { s.host.tunnel with inFull := false } } }) ∧
     (s.tunnelOn = false → exec .outGo s = .next s ∧ exec .inFullClear s = .next s) ∧
     ∀ on : Bool, exec (.pasidEnable on) s = .next { s with host := { s.host with pasidEnable := on } }) ∧
  (∀ (v : Nat) (s : State), ∃ t, exec (.msixUnmask v) s = .next t ∧
     t.host.msix = SMap.set MsixVector.reset v { s.msixVector v with masked := false } s.host.msix ∧
     (s.host.msixPending.contains v = true → t.host.unmasked.contains v = true) ∧
     (s.host.msixPending.contains v = false → t.host.unmasked = s.host.unmasked) ∧
     t = { s with host := { s.host with msix := t.host.msix, unmasked := t.host.unmasked } }) ∧
  (∀ (n v : Nat) (s : State), n < 4096 →
     (∀ bar offset size, ¬ ((size = 4 ∨ size = 8) ∧ offset % size = 0 ∧ offset < barSize bar) →
       exec (.barRegisterWrite bar offset size v) s = .next { s with host := { s.host with aer := s.host.aer ||| 2 ^ 20 }, sent := s.sent ++ [.unsupported bar offset] }) ∧
     (v < 2 ^ 32 →
       exec (.barRegisterWrite 4 (4096 * n) 4 v) s = exec (.sqTailWrite n v) s ∧
       exec (.barRegisterWrite 4 (4096 * n + 8) 4 v) s = exec (.cqHeadWrite n v) s ∧
       exec (.barRegisterWrite 4 (4096 * n + 16) 4 v) s = exec (.abortIndexWrite n v) s ∧
       ((s.ring n).enableBit = false → s.seen.busy n = false → exec (.barRegisterWrite 4 (4096 * n + 0x48) 4 v) s = .next { s with
         rings := SMap.set RingPair.reset n { s.ring n with sqBase := (s.ring n).sqBase / 2 ^ 32 * 2 ^ 32 + v } s.rings }) ∧
       ((s.ring n).enableBit = true ∨ s.seen.busy n = true → exec (.barRegisterWrite 4 (4096 * n + 0x48) 4 v) s = .next s)) ∧
     (n < 1024 → exec (.barRegisterWrite 2 (4096 * n) 4 1) s = exec (.slcReset n) s))

/-- A failed read, while the guard is on. Of an input or a label: the job completes with BUFFER_FAULT and no output at the second tick after the frame. Of a descriptor: no record; ERROR 1 at the second tick, SH at the failed index. AER notes it. Only an outstanding read can end. With the guard off the completion is held for it. -/
def Obligations.FailedReadEndsJob : Prop :=
  (∀ (id : Nat) (j : Job) (s : State), s.keeper.guardOn = true → s.job? id = some j →
    (∀ what, what ≠ .descriptor → j.outstanding what = true → ∃ t, exec (.dmaReadComplete id what none) s = .next t ∧
      t.jobs = s.jobs.map (fun i => if i.id = j.id then
        { i with phase := .staged, outcome := some ⟨stBuffer, [], 0, none, none⟩, due := s.tick + 2, outDone := true, leaveAsked := none, leaveUntil := none } else i) ∧
      t.sent = s.sent ++ [.readFailed j.ring] ∧ t.host = { s.host with aer := s.host.aer ||| 2 ^ 14 }) ∧
    (j.outstanding .descriptor = true → ∃ t, exec (.dmaReadComplete id .descriptor none) s = .next t ∧
      t.rings = SMap.set RingPair.reset j.ring { s.ring j.ring with
        errorDue := some (s.tick + 2, 1), sh := if j.refetch then (s.ring j.ring).sh else j.index } s.rings ∧
      (∀ i ∈ t.jobs, i.id ≠ j.id) ∧ t.sent = s.sent ++ [.readFailed j.ring]) ∧
    ∀ what data, j.outstanding what = false → exec (.dmaReadComplete id what data) s = .next s) ∧
  ∀ (id : Nat) (what : ReadKind) (data : Option Bytes) (s : State), s.keeper.guardOn = false →
    exec (.dmaReadComplete id what data) s = .next { s with keeper := { s.keeper with held := s.keeper.held ++ [.dmaReadComplete id what data] } }

/-- Data that arrives for a label, or for an input that is read whole, enters the job's buffer and its context, an input cut to what was asked for; while the job cannot be parsed yet it waits, and nothing else changes. Data that would enter words of another colour are dropped, counted and recorded, and the job's status is fixed. A read that has been outstanding for HST_READ_TIMEOUT, the label's counted from its own issue, fails as one that the host refused; before that the timeout is not there. -/
def Obligations.ReadDataEntersJobInTime : Prop :=
  (∀ (id : Nat) (j : Job) (b : Bytes) (s : State), s.keeper.guardOn = true → s.job? id = some j →
     (let l := fit j.desc.labelLength b
      j.outstanding .label = true → (s.dmaMeets j 2 (min l.length (j.bufs.getD 2 (0, 0)).2) true).1 = 0 → ({ j with label := l, labelDone := true } : Job).canParse = false →
       exec (.dmaReadComplete id .label (some b)) s = .next { s with
         wm := (s.fillBuf j 2 l).wm
         jobs := s.jobs.map (fun i => if i.id = id then { i with label := fit i.desc.labelLength b, labelDone := true } else i) }) ∧
     (let inp := (j.input ++ b).take j.asked
      let meets := (s.dmaMeets j 1 (min b.length (j.bufs.getD 1 (0, 0)).2) true).1
      j.outstanding .input = true → opStream j.op = false → ({ j with input := inp, inputDone := decide (j.n ≤ inp.length) } : Job).canParse = false →
       (meets = 0 → exec (.dmaReadComplete id .input (some b)) s = .next { s with
         wm := (s.fillBuf j 1 b).wm
         jobs := s.jobs.map (fun i => if i.id = id then { i with input := inp, inputDone := decide (i.n ≤ inp.length) } else i) }) ∧
       (meets = 1 → j.forced = none → ∃ t, exec (.dmaReadComplete id .input (some b)) s = .next t ∧ t.wm = s.wm ∧
         (∃ i ∈ t.jobs, i.id = id ∧ i.input = inp ∧ i.forced = some (stFault, 0xF3 + 256)) ∧ t.dict = (s.count Key.KPR_COLOUR_FAULTS).dict ∧
         t.sil.queue = s.sil.queue ++ [⟨0x2504, s.tick, false, none, none⟩]))) ∧
  (∀ (id : Nat) (what : ReadKind) (j : Job) (s : State), s.keeper.guardOn = true → s.job? id = some j →
     let since := if what = .label then j.labelSince else j.readSince
     (j.outstanding what = true → since + s.ticksOf (s.num Key.HST_READ_TIMEOUT) ≤ s.tick →
       exec (.readTimeout id what) s = exec (.dmaReadComplete id what none) s) ∧
     (j.outstanding what = false ∨ s.tick < since + s.ticksOf (s.num Key.HST_READ_TIMEOUT) → exec (.readTimeout id what) s = .next s))

/-- An uncorrectable FIFO entry has left its FIFO; it is counted, recorded and raised. A chain message or a host write is lost with nothing more, Keeper traffic asks for a WARM reset, and a job's data fix FAULT_DETECTED with the FIFO's code. A link that trains to a speed and width of Table 3.1, no wider than CFG_SEL selects, is up, and stands at them from the next tick on; any other operand changes nothing. The FIFOs that cross clock domains. An entry's code finds it clean as written, corrects any one wrong bit, and does not pass any two. The pointers of a FIFO cross in Gray code and come back as they were. A FIFO that is empty and idle takes an entry and gives it back unchanged two clock edges later, and is empty again. -/
def Obligations.FifoErrorAndRetrain : Prop :=
  (∀ (fifo : Nat) (s : State),
    let u := (((({ s with host := { s.host with fifos := SMap.set Fifo.reset fifo ((s.fifo fifo).cross (fifoEntry 0 ^^^ 3)).2 s.host.fifos } } : State).count Key.HST_FIFO_UE).setNum Key.HST_FIFO_LAST_UE fifo).event 0x1301).raise 4103
    exec (.fifoUncorrectable fifo .chainMessage) s = .next u ∧ exec (.fifoUncorrectable fifo .hostWrite) s = .next u ∧
    exec (.fifoUncorrectable fifo .keeperTraffic) s = .next { u with
      rst := { s.rst with dueReach := max s.rst.dueReach 2, dueCauses := s.rst.dueCauses ||| 2 ^ 14 } } ∧
    ∀ id, exec (.fifoUncorrectable fifo (.job id)) s = .next (u.force id stFault (0xF1 + 256 * fifo))) ∧
  (∀ (gen width : Nat) (s : State),
    let ok := 1 ≤ gen ∧ gen ≤ 5 ∧ (width = 1 ∨ width = 2 ∨ width = 4 ∨ width = 8) ∧ width ≤ strapWidth s.rst.strap
    (ok → exec (.hostLinkRetrain gen width) s = .next { s with host := { s.host with trainedGen := gen, trainedWidth := width, linkUp := true } }) ∧
    (¬ ok → exec (.hostLinkRetrain gen width) s = .next s) ∧
    s.linkTick = { s with host := { s.host with gen := s.host.trainedGen, width := s.host.trainedWidth } }) ∧
  (∀ d : BitVec 64, checkEntry (fifoEntry d) = .clean ∧
     (∀ i < 72, checkEntry (fifoEntry d ^^^ BitVec.ofNat 72 (2 ^ i)) = .corrected) ∧
     (∀ i < 72, ∀ j < 72, i ≠ j → checkEntry (fifoEntry d ^^^ BitVec.ofNat 72 (2 ^ i) ^^^ BitVec.ofNat 72 (2 ^ j)) = .uncorrectable)) ∧
  (∀ p : BitVec 9, ungray (gray p) = p) ∧
  ∀ (f : Fifo) (e : BitVec 72), f.wr = f.rd → f.wrGray0 = gray f.wr → f.wrGray1 = gray f.wr → f.rdGray0 = gray f.rd → f.rdGray1 = gray f.rd → SMap.wf 0 f.cells = true →
    f.empty = true ∧ f.full = false ∧ (f.cross e).1 = some e ∧ (f.cross e).2.empty = true ∧ (f.cross e).2.wr = f.wr + 1

/-! ## Slices -/

/-- A write of 1 to SLC_RESET is recorded for the next tick to observe; it is dropped where the slice shows no PASID or a reset is in progress. At the tick the reset begins: the slice's jobs end without a record, its register page and its session objects are wiped, its session epoch advances, and the reset is in progress from this tick; one during a restore is held. A slice reset ends at the next tick, or at the one after where it met vault writes of the slice, once none of them runs: RESET_DONE is set, an image in SAVED is consumed, MOVED and SAVED return to RUNNING; in MOVED the counters are 0 and neither a record nor a shadow word goes out. -/
def Obligations.SliceResetBeginsAndEnds : Prop :=
  (∀ (n : Nat) (s : State),
     (s.seen.mapped n = true → (s.slice n).resetting = none →
       exec (.slcReset n) s = .next { s with slices := SMap.set SliceCtx.reset n { s.slice n with resetWritten := true } s.slices }) ∧
     (s.seen.mapped n = false ∨ (s.slice n).resetting.isSome = true → exec (.slcReset n) s = .next s) ∧
     ((s.slice n).resetting = none → (s.slice n).mig ≠ .restoring → SMap.wf SliceCtx.reset s.slices = true →
       ∃ t, s.sliceReset n = t ∧ (∀ j ∈ s.jobs, j.slice = n → j ∉ t.jobs) ∧
         t.keys.cache = s.keys.cache.filter (fun o => !(o.session && o.slice == n)) ∧
         (t.slice n).resetting = some s.tick ∧ (t.slice n).resetDone = false ∧ (t.slice n).windows = [] ∧ (t.slice n).parked = [] ∧
         (t.slice n).counters = (s.slice n).counters ∧ t.rings = s.rings ∧ t.dict = s.dict) ∧
     ((s.slice n).resetting = none → (s.slice n).mig = .restoring →
       s.sliceReset n = { s with slices := SMap.set SliceCtx.reset n { s.slice n with resetHeld := true } s.slices })) ∧
  (∀ (n : Nat) (s : State),
     (s.resetEnds n = true ↔ ∃ t, (s.slice n).resetting = some t ∧ t + 1 ≤ s.tick ∧ ((s.slice n).resetVault ≠ [] → t + 2 ≤ s.tick) ∧
       ∀ id ∈ (s.slice n).resetVault, s.inGroup id = false) ∧
     (s.resetEnds n = true → ∃ t, exec (.sliceResetDone n) s = .next t ∧
       t.slices = SMap.set SliceCtx.reset n { s.slice n with
         resetting := none, resetDone := true, resetRings := [], resetCount := 0, resetVault := [], resetBusy := []
         counters := if (s.slice n).mig = .moved then [] else (s.slice n).counters
         imageTag := if (s.slice n).mig = .saved then none else (s.slice n).imageTag
         mig := if (s.slice n).mig = .saved ∨ (s.slice n).mig = .moved then .running else (s.slice n).mig } s.slices ∧
       ((s.slice n).mig = .moved → ∀ x ∈ t.sent, x ∈ s.sent ∨ ∃ v a d, x = .msix v a d) ∧ t.jobs = s.jobs ∧ t.dict = s.dict) ∧
     (s.resetEnds n = false → exec (.sliceResetDone n) s = .next s))

/-- A page wipe zeroes the slice's windows and advances WIPES at the next tick; every job that holds a window of it gets FAULT_DETECTED at its normal completion tick. -/
def Obligations.RegisterPageWipeFaultsHolders : Prop :=
  ∀ (n : Nat) (s : State), ∃ t, exec (.registerPageWipe n) s = .next t ∧
    t.slices = SMap.set SliceCtx.reset n { s.slice n with windows := [], wipesNow := (s.slice n).wipesNow + 1 } s.slices ∧
    ((s.slice n).windows = [] → t.jobs = s.jobs) ∧
    (∀ id w, (s.slice n).windows = [(w, id)] → t.jobs = (s.force id stFault 0xF2).jobs) ∧
    t = { s with slices := t.slices, jobs := t.jobs } ∧
    (t.slice n).nextFrame.windowBusy = 0 ∧ (t.slice n).nextFrame.wipes = ((s.slice n).wipes + ((s.slice n).wipesNow + 1)) % 2 ^ 32


/-! ## Lanes -/

/-- A fault of a public-key lane (causes 1 to 6; the lane neither fenced nor about to be): the lane stops, its fence is due at the next tick, the fault is recorded and counted. The job that ran on it, of class 0 and not run again yet, goes back before its first segment to be run again; any other completes with FAULT_DETECTED and names the lane, the last that faulted (a status that a FIFO or a memory word has fixed before keeps its own word: the model's choice, assumption log 71). Any other fault command changes nothing. -/
def Obligations.LaneFaultStopsLane : Prop :=
  ∀ (lane cause : Nat) (s : State), lane < 24 → s.dict.nums.Pairwise (fun a b => a.1 < b.1) → SMap.wf PkLane.reset s.lanes.pk = true →
    let l := s.pkLane lane
    (l.role ≠ .fenced → l.due ≠ .fence → 1 ≤ cause → cause ≤ 6 → ∃ t, exec (.laneFault lane cause) s = .next t ∧
      (t.pkLane lane).running = none ∧ (t.pkLane lane).parked = none ∧ (t.pkLane lane).test = none ∧
      (t.pkLane lane).due = .fence ∧ (t.pkLane lane).role = l.role ∧
      t.num Key.PKE_LAST_FAULT = lane + 256 * cause + 65536 * (s.tick % 2 ^ 48) ∧
      t.num (Key.PKE_FAULT_COUNT lane) = min (topOf (Key.PKE_FAULT_COUNT lane)) (s.num (Key.PKE_FAULT_COUNT lane) + 1) ∧
      (∀ k, k ≠ Key.PKE_LAST_FAULT → k ≠ Key.PKE_FAULT_COUNT lane → t.num k = s.num k) ∧
      (∀ j, s.ranOn engPk lane = [j] → l.parked = none ∨ l.parked = some j.id →
        (j.cls = 0 → j.rerun = false → j.rerunNow s.laneTime false ∈ t.jobs) ∧
        (j.cls ≠ 0 → ∃ i ∈ t.jobs, i.id = j.id ∧ i.phase = .staged ∧ i.outcome = some ⟨stFault, [], j.faultWord lane, none, none⟩) ∧
        (j.forced = none → j.faultWord lane = lane)) ∧
      t = { s with jobs := t.jobs, lanes := t.lanes, slices := t.slices, sched := t.sched, sil := t.sil, dict := { s.dict with nums := t.dict.nums } }) ∧
    (l.role = .fenced ∨ l.due = .fence ∨ cause = 0 ∨ 6 < cause → exec (.laneFault lane cause) s = .next s)

/-- The redundant radix of the public-key lanes. Normalisation keeps a number's value and leaves no HEADROOM but in its further limb; a sum of residues formed in limbs, with its normalisations on the way, is their sum modulo m; a difference formed as a + (j·m − b) is the difference modulo m. The wipes of a frame empty the banks of every job that no longer stands, is not parked, and has not ended with OK in that frame, and those of a lane test that has ended; the banks of the lane's other jobs stay as they are. -/
def Obligations.LimbsAndWipesOfOperandMemory : Prop :=
  (∀ l : List Limb, limbsNat (limbNormal 0 l) = limbsNat l ∧ ∀ x ∈ (limbNormal 0 l).take l.length, x.headroom = 0) ∧
  (∀ (w m : Nat) (l : List Nat), (∀ x ∈ l, x < 2 ^ (32 * w)) → l.length ≤ 2 ^ 32 → fieldSum w m l = l.sum % m) ∧
  (∀ w m a b : Nat, 0 < w → 0 < m → m ≤ 2 ^ (32 * w) → a < 2 ^ (32 * w) → b < 2 ^ (32 * w) →
    fieldSub w m a b < m ∧ (fieldSub w m a b + b) % m = a % m) ∧
  ∀ (s : State) (n : Nat), n < 24 → SMap.wf PkLane.reset s.lanes.pk = true →
    (∀ b, b ∈ (s.wipeFrame.pkLane n).banks ↔ b ∈ (s.pkLane n).banks ∧ s.bankKept n b = true) ∧
      s.wipeFrame.jobs = s.jobs ∧ s.wipeFrame.keys = s.keys ∧ s.wipeFrame.vault = s.vault

/-- A fault of a symmetric lane (causes 3 to 6) and one of a cluster's shared units: stopped, recorded, the fence due at the next tick. A lane or cluster that is fenced, or about to be, stays as it is. -/
def Obligations.SymmetricLaneAndSharedUnitFaults : Prop :=
  ∀ (n cause : Nat) (s : State),
    (n < 8 → s.dict.nums.Pairwise (fun a b => a.1 < b.1) → SMap.wf SymLane.reset s.lanes.sym = true →
      (s.symLane n).fenced = false → (s.symLane n).due ≠ .fence → 3 ≤ cause → cause ≤ 6 → ∃ t, exec (.symLaneFault n cause) s = .next t ∧
        (t.symLane n).running = none ∧ (t.symLane n).parked = [] ∧ (t.symLane n).due = .fence ∧
        t.num Key.SYM_LAST_FAULT = n + 256 * cause + 65536 * (s.tick % 2 ^ 48) ∧
        t.lanes.clusters = s.lanes.clusters ∧ t.rings = s.rings ∧ t.vault = s.vault ∧ t.chain = s.chain ∧ t.keys = s.keys) ∧
    ((s.symLane n).fenced = true ∨ (s.symLane n).due = .fence ∨ cause < 3 ∨ 6 < cause → exec (.symLaneFault n cause) s = .next s) ∧
    ((s.cluster n).fenced = false → (s.cluster n).due ≠ .fence → s.dict.nums.Pairwise (fun a b => a.1 < b.1) →
      SMap.wf Cluster.reset s.lanes.clusters = true → ∃ t, exec (.sharedUnitFault n) s = .next t ∧
        t.cluster n = { s.cluster n with test := none, due := .fence } ∧
        t.num Key.PKE_LAST_FAULT = 0x80 + n + 256 * 7 + 65536 * (s.tick % 2 ^ 48) ∧
        (∀ k, k ≠ Key.PKE_LAST_FAULT → t.num k = s.num k) ∧ t.rings = s.rings ∧ t.vault = s.vault ∧ t.chain = s.chain ∧ t.keys = s.keys) ∧
    ((s.cluster n).fenced = true ∨ (s.cluster n).due = .fence → exec (.sharedUnitFault n) s = .next s)

/-- The known-answer tests end: a pass clears a spare's test, and makes a fenced lane's or cluster's return due at the next tick; a fail is a fault of cause 6 (7 for shared units), and a fenced lane stays fenced. A test that has not run its schedule does not end. The spares: at each multiple of the interval the one spare that is free starts its test, in banks 2 and 3; at any other tick nothing starts. A frame of a test runs the lane's time of it, or what is left, and debits its credits where they fit. A coming spare that holds no job becomes a spare. -/
def Obligations.LaneTestsEnd : Prop :=
  (∀ (n : Nat) (s : State) (l : PkLane) (c : Cluster) (y : SymLane), s.pkLane n = l → s.cluster n = c → s.symLane n = y →
     let ran (t : Option LaneTest) : Bool := t.any fun x => x.cyclesLeft == 0
     (l.role = .spare → ran l.test = true → exec (.spareTestEnd n true) s = .next (s.setPk n { l with test := none }) ∧
       exec (.spareTestEnd n false) s = .next (s.pkFault n 6) ∧
       (l.due ≠ .fence → exec (.spareTestEnd n false) s = exec (.laneFault n 6) s)) ∧
     (l.role ≠ .spare ∨ ran l.test = false → ∀ pass, exec (.spareTestEnd n pass) s = .next s) ∧
     (l.role = .fenced → ran l.test = true →
       exec (.unfenceTestEnd n true) s = .next (s.setPk n { l with test := none, due := .unfence }) ∧
       exec (.unfenceTestEnd n false) s =
         .next ((((s.setPk n { l with test := none, due := .none }).recordPkFault n 6).count (Key.PKE_FAULT_COUNT n)).event 0x2001)) ∧
     (l.role ≠ .fenced ∨ ran l.test = false → ∀ pass, exec (.unfenceTestEnd n pass) s = .next s) ∧
     (c.fenced = true → ran c.test = true →
       exec (.latUnfenceTestEnd n true) s = .next (s.setCluster n { c with test := none, due := .unfence }) ∧
       exec (.latUnfenceTestEnd n false) s = .next (((s.setCluster n { c with test := none, due := .none }).recordPkFault (0x80 + n) 7).event 0x2003)) ∧
     (c.fenced = false ∨ ran c.test = false → ∀ pass, exec (.latUnfenceTestEnd n pass) s = .next s) ∧
     (∀ x, y.fenced = true → y.test = some x → x.since + 1 ≤ s.tick →
       exec (.symUnfenceTestEnd n true) s = .next (s.setSym n { y with test := none, due := .unfence }) ∧
       exec (.symUnfenceTestEnd n false) s = .next ((((s.setSym n { y with test := none, due := .none }).setNum Key.SYM_LAST_FAULT
         (n + 256 * 6 + 65536 * (s.tick % 2 ^ 48))).count (Key.SYM_FAULT_COUNT n)).event 0x2101)) ∧
     (y.fenced = false ∨ y.test = none ∨ (∃ x, y.test = some x ∧ s.tick < x.since + 1) → ∀ pass, exec (.symUnfenceTestEnd n pass) s = .next s)) ∧
  (∀ (n : Nat) (s : State),
     (s.num Key.PKE_SPARE_TEST_INTERVAL = 0 ∨ s.tick % s.num Key.PKE_SPARE_TEST_INTERVAL ≠ 0 → exec .spareTestDue s = .next s) ∧
     (s.num Key.PKE_SPARE_TEST_INTERVAL ≠ 0 → s.tick % s.num Key.PKE_SPARE_TEST_INTERVAL = 0 → s.pkWith .spare = [n] →
       (s.pkLane n).test = none → (s.pkLane n).running = none →
       ((s.pkLane n).tested ≠ some s.tick → exec .spareTestDue s = .next (s.setPk n { s.pkLane n with
         test := some ⟨206000, s.tick⟩, tested := some s.tick, banks := (s.pkLane n).banks ++ [⟨0, 2, 2, []⟩] })) ∧
       ((s.pkLane n).tested = some s.tick → exec .spareTestDue s = .next s)) ∧
     (∀ x, (s.pkLane n).test = some x → x.since ≤ s.tick → x.cyclesLeft ≠ 0 →
       let c := min s.laneTime x.cyclesLeft
       let cost := ceilDiv (c * rPk) 100000
       (cost ≤ s.remainder → s.testSegment n = State.setPk { s with sched := { s.sched with debited := s.sched.debited + cost } } n
         { s.pkLane n with test := some { x with cyclesLeft := x.cyclesLeft - c } }) ∧
       (s.remainder < cost → s.testSegment n = s)) ∧
     ((s.pkLane n).role = .comingSpare → (s.pkLane n).running = none → (s.pkLane n).parked = none → s.ranOn engPk n = [] →
       exec (.comingSpareSettle n) s = .next (s.setPk n { s.pkLane n with role := .spare })) ∧
     ((s.pkLane n).role ≠ .comingSpare ∨ (s.pkLane n).running.isSome ∨ (s.pkLane n).parked.isSome ∨ s.ranOn engPk n ≠ [] →
       exec (.comingSpareSettle n) s = .next s))

/-! ## Errors of the memories -/

/-- An uncorrectable word of working memory: a word of a job's buffers fixes FAULT_DETECTED on the job; one of the Keeper's (colour 0) asks for a WARM reset, one of the firmware (13) for a FUNCTION reset, one of the vault (14) gives up the group and the reads in progress; any other word is freed. A word past the last stops the model. -/
def Obligations.UncorrectableWordByOwner : Prop :=
  ∀ (w : Nat) (s : State),
    let u := ((s.count Key.KPR_WM_UE).eventOf 292).chkUncorrectable w
    (2097152 ≤ w → exec (.wmUncorrectable w) s = .fault (.noSuchWord w)) ∧
    (w < 2097152 → (∀ j, u.ownerOf w = some j → exec (.wmUncorrectable w) s = .next (u.force j.id stFault 0xF0)) ∧
      (u.ownerOf w = none →
        ((s.word w).colour = 0 → exec (.wmUncorrectable w) s = .next (u.resetDue 2 14)) ∧
        ((s.word w).colour = 13 → exec (.wmUncorrectable w) s = .next (u.resetDue 1 7)) ∧
        ((s.word w).colour = 14 → ∃ t, exec (.wmUncorrectable w) s = .next t ∧ t.vault.group = [] ∧ t.vault.reads = [] ∧ t.wm = s.wm) ∧
        ((s.word w).colour ≠ 0 → (s.word w).colour ≠ 13 → (s.word w).colour ≠ 14 → Memory.wf s.rest s.wm = true →
          ∃ t, exec (.wmUncorrectable w) s = .next t ∧ t.word w = Word36.free ∧ (∀ v, v ≠ w → t.word v = s.word v) ∧ t.jobs = s.jobs ∧ t.rst = s.rst)))

/-- Uncorrectable errors of the key cache, the heart table and the Keeper's own memory: the cached entry is dropped, its pin kept and to be reloaded; the heart is reloaded from its image in the frame's window, one without an image being EMPTY, and every other heart stays; jobs on it that are not admitted wait one frame and keep their class; a WARM reset follows at the next tick. -/
def Obligations.CacheHeartAndKeeperErrors : Prop :=
  ∀ (h : Nat) (s : State),
    ((s.keys.cache.any fun o => o.handle == h) = true → ∃ t, exec (.keyCacheUncorrectable h) s = .next t ∧
      t.keys.cache = s.keys.cache.filter (fun o => decide (o.handle ≠ h)) ∧ t.keys.pins = s.keys.pins ∧
      (s.keys.pins.contains h = true → h ∈ t.keys.reload) ∧
      t = { s with keys := t.keys, dict := (s.count Key.KEY_CACHE_UE).dict }) ∧
    ((s.keys.cache.any fun o => o.handle == h) = false → exec (.keyCacheUncorrectable h) s = .next s) ∧
    (∃ t, exec (.heartTableUncorrectable h) s = .next t ∧ (∀ g, g ∈ t.keys.heartsLost ↔ g = h ∨ g ∈ s.keys.heartsLost) ∧
      (∀ j ∈ s.jobs, j.admitted = none → j.phase ≠ .staged → j.descDone = true → (∃ x ∈ j.checkedHandles, hKind x ≤ 1 ∧ hHeart x = h) →
        { j with boundVoid := true, notBefore := s.tick + (if s.window then 3 else 2) } ∈ t.jobs) ∧
      (∀ j ∈ s.jobs, j.admitted.isSome ∨ j.phase = .staged ∨ j.descDone = false ∨ (∀ x ∈ j.checkedHandles, hHeart x ≠ h) → j ∈ t.jobs) ∧
      t = { s with keys := { s.keys with heartsLost := t.keys.heartsLost }, jobs := t.jobs }) ∧
    (s.keys.heartsLost = [h] → bitOf s.keeper.debugState 3 = false → SMap.wf Heart.reset s.keys.hearts = true →
      (s.image h = none → s.reloadHearts.heart h = Heart.reset) ∧
      (∀ i k x, s.image h = some i → s.keys.heartImageKey = some k → openImage k h i = some x → s.reloadHearts.heart h = x ∧ s.reloadHearts.keys.images = s.keys.images) ∧
      (∀ g, g ≠ h → s.reloadHearts.heart g = s.heart g) ∧ s.reloadHearts.keys.heartsLost = []) ∧
    exec .keeperSramUncorrectable s = .next { s with rst := { s.rst with
      dueReach := max s.rst.dueReach 2, dueCauses := s.rst.dueCauses ||| 2 ^ 14 } }


/-! ## The Keeper -/

/-- A gateway call that passes the checks is queued with a copy of its argument block and answered 0; with 16 calls on the weir it is answered busy, and nothing else changes; one that fails a check traps the core, is recorded with its cause and counted, and is not queued. (The model keeps an answer one higher, so that none is 0.) -/
def Obligations.GatewayCallQueuedBusyOrFaulted : Prop :=
  ∀ (core weir addr length : Nat) (direct : Bool) (s : State),
    let onWeir := s.keeper.weirCalls.filter fun c => c.weir == weir
    (s.keeper.coresRunning = true → s.gateCause core weir addr length direct = 0 →
      (onWeir.length < 16 → exec (.gatewayCall core weir addr length direct) s = .next { s with keeper := { s.keeper with
        weirCalls := s.keeper.weirCalls ++ [⟨weir, core, ((s.coreJob core).map fun j => j.id).getD 0, s.argBytes addr length, addr, false⟩]
        gateReturn := SMap.set 0 core 1 s.keeper.gateReturn } }) ∧
      (16 ≤ onWeir.length → exec (.gatewayCall core weir addr length direct) s = .next { s with keeper := { s.keeper with
        gateReturn := SMap.set 0 core 2 s.keeper.gateReturn } })) ∧
    (s.keeper.coresRunning = true → s.gateCause core weir addr length direct ≠ 0 → s.dict.nums.Pairwise (fun a b => a.1 < b.1) →
      ∃ t, exec (.gatewayCall core weir addr length direct) s = .next t ∧
        t.num Key.KPR_LAST_GATE_FAULT = core + 256 * s.gateCause core weir addr length direct + 65536 * (s.tick % 2 ^ 48) ∧
        t.num Key.KPR_GATE_FAULTS = min (topOf Key.KPR_GATE_FAULTS) (s.num Key.KPR_GATE_FAULTS + 1) ∧
        t.keeper.weirCalls = s.keeper.weirCalls ∧ t.keeper.gateFaultTicks = s.keeper.gateFaultTicks ++ [s.tick] ∧ t.wm = s.wm ∧
        (∀ j, s.coreJob core = some j → ∀ c ∈ t.keeper.cores, c.1 ≠ core)) ∧
    (s.keeper.coresRunning = false → exec (.gatewayCall core weir addr length direct) s = .next s)

/-- Sixteen gateway faults within 65,536 ticks ask for a FUNCTION reset at the next tick; a cleared bit of KPR_WEIR_VALID withdraws the weir's calls and reports each as refused; every other weir's bit and calls stay. -/
def Obligations.GatewayFaultLimitAndInvalidate : Prop :=
  ∀ (weir : Nat) (s : State),
    (16 ≤ (s.keeper.gateFaultTicks.filter fun t => decide (s.tick < t + 65536)).length → exec .gatewayFaultLimit s = .next { s with
      keeper := { s.keeper with gateFaultTicks := [] }
      rst := { s.rst with dueReach := max s.rst.dueReach 1, dueCauses := s.rst.dueCauses ||| 2 ^ 5 } }) ∧
    ((s.keeper.gateFaultTicks.filter fun t => decide (s.tick < t + 65536)).length < 16 → exec .gatewayFaultLimit s = .next s) ∧
    (s.dict.nums.Pairwise (fun a b => a.1 < b.1) → ∃ t, exec (.weirInvalidate weir) s = .next t ∧
      bitOf (t.num Key.KPR_WEIR_VALID) weir = false ∧
      (∀ w, w ≠ weir → bitOf (t.num Key.KPR_WEIR_VALID) w = bitOf (s.num Key.KPR_WEIR_VALID) w) ∧
      (∀ c, c ∈ t.keeper.weirCalls ↔ c ∈ s.keeper.weirCalls ∧ c.weir ≠ weir) ∧
      t.keeper.completions = s.keeper.completions ++ (s.keeper.weirCalls.filter fun c => c.weir == weir).map (fun c => (c.core, c.weir, 2, [])) ∧
      (∀ k, k ≠ Key.KPR_WEIR_VALID → t.num k = s.num k) ∧
      t = { s with keeper := t.keeper, dict := { s.dict with nums := t.dict.nums } })

/-- The Keeper serves the oldest call whose context still lives, and no other: the call leaves the queue, its completion word is set, and only words of the caller's colour take the result; where another colour stands in the way that counts as a colour fault. A halted Keeper serves none. A colour fault of a core's access counts and takes the core off its context; a guard fault is recorded with cause 1. -/
def Obligations.OldestCallServedAndColourFaults : Prop :=
  (∀ (result : Bytes) (s : State) (c : WeirCall) (rest : List WeirCall), s.keeper.running = true → s.keeper.haltSecure = false →
    s.keeper.weirCalls.filter s.callLives = c :: rest →
      ∃ t, exec (.keeperCallServe result) s = .next t ∧ t.keeper.weirCalls = rest ∧
        t.keeper.completions = s.keeper.completions ++ [(c.core, c.weir, 1, result.take 512)] ∧
        let colour := ((s.job? c.job).map fun j => j.colour).getD 13
        (∀ i, (s.word i).colour ≠ colour → t.word i = s.word i) ∧
        ((∀ i < (result.take 512).length, (s.word ((c.addr + i) / 4)).colour = colour) → t = { s with keeper := t.keeper, wm := t.wm }) ∧
        ((∃ i < (result.take 512).length, (s.word ((c.addr + i) / 4)).colour ≠ colour) → t.dict = (s.count Key.KPR_COLOUR_FAULTS).dict ∧
          t = { s with keeper := t.keeper, wm := t.wm, dict := t.dict, sil := t.sil })) ∧
  (∀ (result : Bytes) (s : State), s.keeper.running = true → s.keeper.haltSecure = false → s.keeper.weirCalls.filter s.callLives = [] →
    exec (.keeperCallServe result) s = .next { s with keeper := { s.keeper with weirCalls := [] } }) ∧
  (∀ (result : Bytes) (s : State), s.keeper.running = false ∨ s.keeper.haltSecure = true → exec (.keeperCallServe result) s = .next s) ∧
  ∀ (core id : Nat) (s : State), s.dict.nums.Pairwise (fun a b => a.1 < b.1) →
    (∃ t, exec (.colourFault core id false) s = .next t ∧ t.wm = s.wm ∧ t.keeper.cores = s.keeper.cores.filter (fun c => decide (c.1 ≠ core)) ∧
      t.num Key.KPR_COLOUR_FAULTS = min (topOf Key.KPR_COLOUR_FAULTS) (s.num Key.KPR_COLOUR_FAULTS + 1) ∧
      (∀ k, k ≠ Key.KPR_COLOUR_FAULTS → t.num k = s.num k)) ∧
    (∃ t, exec (.colourFault core id true) s = .next t ∧ t.wm = s.wm ∧ t.keeper.cores = s.keeper.cores.filter (fun c => decide (c.1 ≠ core)) ∧
      t.num Key.KPR_GUARD_FAULTS = min (topOf Key.KPR_GUARD_FAULTS) (s.num Key.KPR_GUARD_FAULTS + 1) ∧
      t.num Key.KPR_GUARD_FAULT % 256 = 1)

/-- The guard goes off at once in lane time, keeping the rules that stood, and in the window is held until the next lane time. A guard that is on stays on. At the hold limit it comes back with the new fields when no two enabled regions share an enabled sub-region, and else with the whole rule set that stood, and cause 4 is recorded; while the command cores stand in reset there is no limit. -/
def Obligations.RegionGuardChanges : Prop :=
  ∀ s : State,
    (s.keeper.guardOn = true → s.window = false → exec .guardDisable s = .next { s with keeper := { s.keeper with
      guardOn := false, guardSaved := s.keeper.regions, regionsNew := s.keeper.regions, guardOffSince := s.tick, guardDisableHeld := false } }) ∧
    (s.keeper.guardOn = true → s.window = true → exec .guardDisable s = .next { s with keeper := { s.keeper with guardDisableHeld := true } }) ∧
    (s.keeper.guardOn = false → exec .guardDisable s = .next s) ∧
    (s.keeper.guardOn = true → exec .guardEnable s = .next { s with keeper := { s.keeper with guardDisableHeld := false } } ∧ exec .guardHoldLimit s = .next s) ∧
    (s.keeper.guardOn = false → s.keeper.coresRunning = true → s.keeper.held = [] → s.dict.nums.Pairwise (fun a b => a.1 < b.1) → ∃ t, exec .guardHoldLimit s = .next t ∧
      t.keeper.guardOn = true ∧ t.keeper.regions = (if (overlapOf s.keeper.regionsNew).isSome then s.keeper.guardSaved else s.keeper.regionsNew) ∧
      t.num Key.KPR_GUARD_FAULT % 256 = 4 ∧ t.wm = s.wm ∧ t.jobs = s.jobs) ∧
    (s.keeper.coresRunning = false → exec .guardHoldLimit s = .next s)

/-- No two enabled regions have an enabled sub-region in common: the check of the guard finds exactly that (over regions of at least 8 bytes), and every way in which the guard goes off or comes back keeps it, when the rules that stood had it. A sub-region disabled in one region may lie inside an enabled one of another. Re-enabled without overlap, the guard takes the new fields. With overlap it restores the whole rule set that stood, is on under it, records cause 3 with both region numbers, and makes a record for the sillage log. Accesses that it held while it was off are then served in the order of their arrival. -/
def Obligations.GuardRulesNeverOverlap : Prop :=
  (∀ rs : List (Nat × Region), (∀ n < 16, 3 ≤ (SMap.get Region.none rs n).size) →
    (overlapOf rs = none ↔ ∀ i j a, i < j → j < 16 → ¬ ((SMap.get Region.none rs i).covers a = true ∧ (SMap.get Region.none rs j).covers a = true))) ∧
  (∀ (c : Instr) (s t : State), c = .guardEnable ∨ c = .guardHoldLimit ∨ c = .guardDisable → overlapOf s.keeper.regions = none →
    (s.keeper.guardOn = false → overlapOf s.keeper.guardSaved = none) → s.keeper.held = [] → exec c s = .next t →
      overlapOf t.keeper.regions = none ∧ (t.keeper.guardOn = false → overlapOf t.keeper.guardSaved = none)) ∧
  (∀ s u : State, s.keeper.guardOn = false → exec .guardEnable { s with keeper := { s.keeper with held := [] } } = .next u → exec .guardEnable s = .next (s.keeper.held.foldl State.serveOne u)) ∧
  (∀ s : State, s.keeper.guardOn = false → s.keeper.held = [] →
    (overlapOf s.keeper.regionsNew = none →
      exec .guardEnable s = .next { s with keeper := { s.keeper with guardOn := true, regions := s.keeper.regionsNew } }) ∧
    (s.dict.nums.Pairwise (fun a b => a.1 < b.1) → ∀ a b, overlapOf s.keeper.regionsNew = some (a, b) → ∃ t, exec .guardEnable s = .next t ∧
      t.num Key.KPR_GUARD_FAULT % 256 = 3 ∧ t.num Key.KPR_GUARD_FAULT / 256 % 16 = a ∧ t.num Key.KPR_GUARD_FAULT / 4096 % 16 = b ∧
      (∀ k, k ≠ Key.KPR_GUARD_FAULT → t.num k = s.num k) ∧
      t = State.event { s with
        keeper := { s.keeper with guardOn := true, regions := s.keeper.guardSaved, regionsNew := s.keeper.guardSaved }
        dict := { s.dict with nums := t.dict.nums }
        free := s.free + 1 } 0x2505))

/-- A debug-master access, while the guard is on. In a locked region a read returns the poison word and a write is dropped, with cause 2 recorded. A read of a colour-0 word anywhere returns the poison word unless secure non-invasive debug is enabled. In an unlocked region whose debug permission bit and whose enable allow it, a read returns all 36 bits, a write sets the data, and the tag only when it writes all 36 bits. Else a write is dropped, and a read does not show the word: what it answers is the same whatever the word holds (the model's choice: a free word). The bus completes every access. With the guard off it is held. -/
def Obligations.DebugMasterAccess : Prop :=
  (∀ (write : Bool) (word data : Nat) (allBits : Bool) (s : State), s.keeper.guardOn = false → exec (.debugMasterAccess write word data allBits) s =
    .next { s with keeper := { s.keeper with held := s.keeper.held ++ [.debugMasterAccess write word data allBits] } }) ∧
  ∀ (word data : Nat) (allBits : Bool) (s : State), s.keeper.guardOn = true → s.dict.nums.Pairwise (fun a b => a.1 < b.1) →
    let w := s.word word
    let mayRead := s.debugRight (if w.colour = 0 then 2 else 0)
    (w.colour = 0 → s.debugRight 2 = false → ∃ t, exec (.debugMasterAccess false word data allBits) s = .next t ∧ t.sent = s.sent ++ [.debug 0xDEADC0DE] ∧ t.wm = s.wm) ∧
    (∀ n, regionAt s.keeper.regions (4 * word) = some n →
      let r := s.region n
      (r.lock = true →
        (∃ t, exec (.debugMasterAccess false word data allBits) s = .next t ∧ t.sent = s.sent ++ [.debug 0xDEADC0DE] ∧ t.wm = s.wm ∧ t.num Key.KPR_GUARD_FAULT % 256 = 2) ∧
        (∃ t, exec (.debugMasterAccess true word data allBits) s = .next t ∧ t.sent = s.sent ∧ t.wm = s.wm ∧ t.num Key.KPR_GUARD_FAULT % 256 = 2)) ∧
      (r.lock = false → bitOf r.perm 8 = true → mayRead = true →
        exec (.debugMasterAccess false word data allBits) s = .next { s with sent := s.sent ++ [.debug (w.colour * 2 ^ 32 + w.data)] }) ∧
      (r.lock = false → bitOf r.perm 9 = true → s.debugRight 1 = true →
        exec (.debugMasterAccess true word data true) s = .next { s with wm := SMap.set (s.rest word) word ⟨data / 2 ^ 32 % 16, data % 2 ^ 32⟩ s.wm } ∧
        exec (.debugMasterAccess true word data false) s = .next { s with wm := SMap.set (s.rest word) word ⟨w.colour, data % 2 ^ 32⟩ s.wm })) ∧
    (∃ t, exec (.debugMasterAccess true word data allBits) s = .next t ∧ t.sent = s.sent ∧
      ((∀ n, regionAt s.keeper.regions (4 * word) = some n → (s.region n).lock = true ∨ bitOf (s.region n).perm 9 = false) ∨ s.debugRight 1 = false → t.wm = s.wm)) ∧
    ((∀ n, regionAt s.keeper.regions (4 * word) = some n → (s.region n).lock = true ∨ bitOf (s.region n).perm 8 = false) ∨ mayRead = false →
      ∃ t x, exec (.debugMasterAccess false word data allBits) s = .next t ∧ t.sent = s.sent ++ [.debug x] ∧ t.wm = s.wm ∧
        (Memory.wf s.rest s.wm = true → ∀ d, ∃ t', exec (.debugMasterAccess false word data allBits) (s.setWord word ⟨w.colour, d⟩) = .next t' ∧ t'.sent = s.sent ++ [.debug x]))

/-- Halts and resumes under the invasive right of the world; the raw-sample tap opens in MAKER and RETURNED under the grant's rights on a healthy wellspring while none is tapped. Without the right, or where a condition fails, nothing changes. -/
def Obligations.DebugHaltsAndTap : Prop :=
  ∀ (source : Nat) (s : State),
    (s.debugRight 3 = true → exec (.debugHalt true) s = .next { s with keeper := { s.keeper with haltSecure := true } }) ∧
    (s.debugRight 1 = true → exec (.debugHalt false) s = .next { s with keeper := { s.keeper with haltNormal := true } }) ∧
    (s.debugRight 3 = false → exec (.debugHalt true) s = .next s) ∧ (s.debugRight 1 = false → exec (.debugHalt false) s = .next s) ∧
    exec (.debugResume true) s = .next { s with keeper := { s.keeper with haltSecure := false } } ∧
    exec (.debugResume false) s = .next { s with keeper := { s.keeper with haltNormal := false } } ∧
    (s.lifeCycle = 0 ∨ s.lifeCycle = 3 → bitOf s.life.grantRights 5 = true → s.debugRight 0 = true ∨ s.debugRight 2 = true →
      (s.wsp source).state = .healthy → s.ent.w0.state ≠ .tapped → s.ent.w1.state ≠ .tapped →
        exec (.rawSampleTapOpen source) s = .next (s.setWsp source { s.wsp source with state := .tapped })) ∧
    ((s.lifeCycle ≠ 0 ∧ s.lifeCycle ≠ 3) ∨ bitOf s.life.grantRights 5 = false ∨ (s.debugRight 0 = false ∧ s.debugRight 2 = false) ∨
      (s.wsp source).state ≠ .healthy ∨ s.ent.w0.state = .tapped ∨ s.ent.w1.state = .tapped → exec (.rawSampleTapOpen source) s = .next s)

/-- Hand-over of a shared block: a request of the Keeper's is granted at the second tick, a release returns the block at the next, a request of the normal world for a block that the Keeper holds is recorded. A block in hand-over refuses all three. A draining lane that holds no job is gated. -/
def Obligations.HandOverOfBlocks : Prop :=
  ∀ (b : Nat) (s : State),
    (b ≤ 4 → (s.block b).keeperOwns = false → (s.block b).handDue = none → exec (.keeperHandoverRequest b) s = .next { s with keeper := { s.keeper with
      blocks := SMap.set Block.reset b { s.block b with handDue := some (s.tick + 2, true), normalAsks := false, lane := none } s.keeper.blocks } }) ∧
    (b = 5 ∨ b = 6 → b - 5 < s.num Key.KPR_SYM_RESERVE → (s.block b).keeperOwns = false → (s.block b).handDue = none → ∀ l, s.blockLane b = some l →
      exec (.keeperHandoverRequest b) s = .next { s with keeper := { s.keeper with
        blocks := SMap.set Block.reset b { s.block b with handDue := some (s.tick + 2, true), normalAsks := false, lane := some l } s.keeper.blocks } }) ∧
    ((s.block b).keeperOwns = true ∨ (s.block b).handDue.isSome ∨ 6 < b → exec (.keeperHandoverRequest b) s = .next s) ∧
    ((s.block b).keeperOwns = true → (s.block b).handDue = none →
      exec (.keeperHandoverRelease b) s = .next { s with keeper := { s.keeper with
        blocks := SMap.set Block.reset b { s.block b with hand := .releasing, handDue := some (s.tick + 1, false) } s.keeper.blocks } } ∧
      exec (.normalHandoverRequest b) s = .next { s with keeper := { s.keeper with
        blocks := SMap.set Block.reset b { s.block b with normalAsks := true } s.keeper.blocks } }) ∧
    ((s.block b).keeperOwns = false ∨ (s.block b).handDue.isSome → exec (.keeperHandoverRelease b) s = .next s ∧ exec (.normalHandoverRequest b) s = .next s) ∧
    (∀ l, b = 5 ∨ b = 6 → (s.block b).lane = some l → (s.block b).gateDraining = true → (s.symLane l).running = none → (s.symLane l).parked = [] →
      SMap.wf SymLane.reset s.lanes.sym = true → SMap.wf Block.reset s.keeper.blocks = true → ∃ t, exec (.laneGateDrained b) s = .next t ∧
        t.block b = { s.block b with gated := true, gateDraining := false, deferred := false } ∧
        t.symLane l = { s.symLane l with gated := true, draining := false } ∧
        t = { s with keeper := { s.keeper with blocks := t.keeper.blocks }, lanes := { s.lanes with sym := t.lanes.sym } }) ∧
    ((s.block b).lane = none ∨ (s.block b).gateDraining = false → exec (.laneGateDrained b) s = .next s)

/-- The watchdogs. The secure one refreshes on 0x5A followed by 0xA5 with no write between, and at expiry asks for a WARM reset; halted, or not expired, it does nothing. The normal one refreshes when all eight cores have checked in, and at expiry asks for a FUNCTION reset, or at the third within 600 seconds for a WARM reset. -/
def Obligations.WatchdogsRefreshAndExpire : Prop :=
  ∀ s : State,
    (∀ v, (s.keeper.swdtLast = 0x5A ∧ v = 0xA5 → exec (.swdtRefresh v) s = .next { s with keeper := { s.keeper with
        swdtLast := v, swdtUs := 0, swdtPeriodNow := s.num Key.KPR_SWDT_PERIOD } }) ∧
      (¬ (s.keeper.swdtLast = 0x5A ∧ v = 0xA5) → exec (.swdtRefresh v) s = .next { s with keeper := { s.keeper with swdtLast := v } })) ∧
    (s.keeper.swdtArmed = true → s.keeper.haltSecure = false → 1000 * s.keeper.swdtPeriodNow ≤ s.keeper.swdtUs → ∃ t, exec .swdtExpiry s = .next t ∧
      2 ≤ t.rst.dueReach ∧ bitOf t.rst.dueCauses 9 = true ∧ s.rst.seconds ∈ t.keeper.swdtExpiries ∧ t.keeper.swdtArmed = false ∧
      t = { s with keeper := t.keeper, rst := t.rst, sil := t.sil }) ∧
    (s.keeper.swdtArmed = false ∨ s.keeper.haltSecure = true ∨ s.keeper.swdtUs < 1000 * s.keeper.swdtPeriodNow → exec .swdtExpiry s = .next s) ∧
    (∀ core, s.keeper.coresRunning = true → s.keeper.haltNormal = false → (∀ n < 8, n = core ∨ n ∈ s.keeper.checkins) →
      exec (.nwdtCheckin core) s = .next { s with keeper := { s.keeper with checkins := [], nwdtUs := 0 } }) ∧
    (∀ core n, s.keeper.coresRunning = true → s.keeper.haltNormal = false → n < 8 → n ≠ core → n ∉ s.keeper.checkins → ∃ t,
      exec (.nwdtCheckin core) s = .next t ∧ (∀ m, m ∈ t.keeper.checkins ↔ m = core ∨ m ∈ s.keeper.checkins) ∧
        t = { s with keeper := { s.keeper with checkins := t.keeper.checkins } }) ∧
    (s.keeper.coresRunning = true → s.keeper.haltNormal = false → 1000 * s.num Key.KPR_NWDT_PERIOD ≤ s.keeper.nwdtUs → ∃ t, exec .nwdtExpiry s = .next t ∧
      (if 2 ≤ (s.keeper.nwdtExpiries.filter fun t => decide (s.rst.seconds < t + 600)).length then 2 ≤ t.rst.dueReach ∧ bitOf t.rst.dueCauses 13 = true
        else 1 ≤ t.rst.dueReach ∧ bitOf t.rst.dueCauses 4 = true) ∧ t.keeper.nwdtUs = 0 ∧ t = { s with keeper := t.keeper, rst := t.rst, sil := t.sil }) ∧
    (s.keeper.coresRunning = false ∨ s.keeper.haltNormal = true ∨ s.keeper.nwdtUs < 1000 * s.num Key.KPR_NWDT_PERIOD → exec .nwdtExpiry s = .next s)


/-! ## The vault -/

/-- A commit group opens when none is in phase 1 and none is coming into force, the vault takes writes, a version of an earlier frame waits, and the journal has room: at most 24 pages, of a locked page only its resolution. The writes that fit the frame go out, 2 credits for each page and node, and after the last one the Flush; the rest wait. Otherwise nothing changes. -/
def Obligations.CommitGroupOpens : Prop :=
  ∀ s : State,
    let g := s.nextGroup
    (s.vault.group = [] → s.vault.coming = none → s.vaultUp = true → g ≠ [] → s.journalFull g = false → s.keeper.guardOn = false ∨ s.vaultDenied 4 = none →
      ∃ t, exec .commitGroupOpen s = .next t ∧ t.vault.group = g ∧ t.vault.groupSince = s.tick ∧ t.vault.groupEnded = false ∧
      (groupPages g).length ≤ 24 ∧
      (∀ v ∈ g, v ∈ s.vault.waiting ∧ v.since ≠ s.tick ∧ (v.page ∈ s.vault.locked → v.kind = .keep ∨ v.kind = .rollBack)) ∧
      (∀ v, v ∈ t.vault.waiting ↔ v ∈ s.vault.waiting ∧ v ∉ g) ∧
      t.sched.debited = s.sched.debited + 2 * t.vault.groupIssued ∧ t.vault.groupIssued ≤ s.openGroup.groupPlan.writes.length ∧
      (t.vault.groupFlushed = true → t.vault.groupIssued = s.openGroup.groupPlan.writes.length) ∧
      t.vault.tree = s.vault.tree ∧ t.vault.root = s.vault.root ∧
      t = { s with vault := t.vault, sched := { s.sched with debited := t.sched.debited }, sent := t.sent }) ∧
    ((∃ v ∈ s.vault.waiting, v.since ≠ s.tick ∧ (v.page ∉ s.vault.locked ∨ v.kind = .keep ∨ v.kind = .rollBack)) → g ≠ []) ∧
    (s.vault.group ≠ [] ∨ s.vault.coming.isSome ∨ s.vaultUp = false ∨ g = [] ∨ s.journalFull g = true → exec .commitGroupOpen s = .next s)

/-- Phase 2, once the Flush that follows every write of the group has been issued and all of it has ended: in the window the root of the next sequence stands in both battery copies, each with its CRC; the journal takes one record that names each page of the group once, with its CRC; the group is closed; the committed tree and root stand until the next tick, and are the new ones from then on. Outside the window it waits for the window. Until then nothing changes. -/
def Obligations.CommitPhaseTwoAdvancesRoot : Prop :=
  ∀ s : State,
    (s.vault.group ≠ [] → s.vault.groupFlushed = true → s.window = true → ∃ t c, exec .commitPhase2 s = .next t ∧ t.vault.coming = some c ∧
      c.root.seq = s.vault.root.seq + 1 ∧ t.vault.root = s.vault.root ∧ t.vault.tree = s.vault.tree ∧
      t.vault.battery0 = some (RootCopy.of c.root) ∧ t.vault.battery1 = some (RootCopy.of c.root) ∧ (RootCopy.of c.root).holds = true ∧ t.vault.group = [] ∧
      (∃ items, t.vault.journal = (if 512 ≤ s.vault.journal.length then s.vault.journal.drop 1 else s.vault.journal) ++ [JRecord.of c.root items (s.tick + 1)] ∧
        items.map (fun i => i.page) = groupPages s.vault.group ∧ (JRecord.of c.root items (s.tick + 1)).holds = true) ∧
      t.comeIntoForce.vault.root = c.root ∧ t.comeIntoForce.vault.tree = c.tree ∧ t.comeIntoForce.vault.locked = c.locked ∧ t.comeIntoForce.vault.coming = none ∧
      t.vault.waiting = s.vault.waiting ∧ t.vault.reads = s.vault.reads ∧ t.keys = s.keys ∧ t.rings = s.rings ∧ t.wm = s.wm) ∧
    (s.vault.group ≠ [] → s.vault.groupFlushed = true → s.window = false → ∃ t, exec .commitPhase2 s = .next t ∧ t.vault.groupEnded = true ∧
      t.groupWindow = t.phase2 ∧ t.vault.group = s.vault.group ∧ t.vault.root = s.vault.root ∧ t.vault.journal = s.vault.journal ∧ t = { s with vault := t.vault }) ∧
    (s.vault.group = [] ∨ s.vault.groupFlushed = false → exec .commitPhase2 s = .next s)

/-- A read of a page, or of a node on its path, ends, while the guard is on and grants the vault controller its area. A page whose hash is its entry's goes to the ladder, and a node whose hash is its entry's is followed by the next read of the path, or ends the jobs where the page was never written; a second copy that passes makes a repair of the next group. A copy that fails, or a read that fails, is followed by a read of the other drive. When no drive can serve the read its jobs complete with VAULT_UNAVAILABLE, as they do where the guard refuses the area. A port that reads no such page changes nothing. With the guard off the completion is held. -/
def Obligations.VaultReadIsChecked : Prop :=
  (∀ (page port : Nat) (d : Option Bytes) (s : State), s.keeper.guardOn = false → exec (.vaultReadComplete page port d) s =
    .next { s with keeper := { s.keeper with held := s.keeper.held ++ [.vaultReadComplete page port d] } }) ∧
  ∀ (page port : Nat) (r : VRead) (s : State), s.keeper.guardOn = true →
    let good (b : Bytes) : Bool :=
      if r.level = 0 then matchesEntry page (s.pageEntry page) (slotsOfPage b)
      else decide ((vaultHash r.level (page / 128 ^ r.level) b).take 22 = (s.entryAt r.level (page / 128 ^ r.level)).hash)
    let ended (t : State) (st : Nat) : Prop := ∀ j ∈ t.jobs, j.id ∈ r.jobs → j.phase = .staged ∧ j.outcome = some ⟨st, [], 0, none, none⟩ ∧ j.due = s.tick + 2
    (s.readOf page port = none → ∀ d, exec (.vaultReadComplete page port d) s = .next s) ∧
    (s.readOf page port = some r → ∀ g, s.vaultDenied 5 = some g → ∀ d, ∃ t, exec (.vaultReadComplete page port d) s = .next t ∧ ended t stVault ∧
      t.vault.reads = s.vault.reads.filter (fun x => decide (x ≠ r)) ∧ t.vault.root = s.vault.root ∧ t.vault.tree = s.vault.tree) ∧
    (s.readOf page port = some r → s.vaultDenied 5 = none → r.prior = false → r.jobs ≠ [] → (∀ id ∈ r.jobs, ∀ j, s.job? id = some j → j.op ≠ 0x070C) →
      (∀ b, good b = true → r.level = 0 → ∃ t, exec (.vaultReadComplete page port (some b)) s = .next t ∧
        t.vault.reads = s.vault.reads.filter (fun x => decide (x ≠ r)) ∧
        t.vault.waiting = (if r.second then s.vault.waiting ++ [⟨page, .repair, [], none, none, s.tick⟩] else s.vault.waiting) ∧
        t.lanes.unwraps = s.lanes.unwraps ++ [⟨page, slotsOfPage b, r.jobs, false, []⟩] ∧ t.vault.root = s.vault.root ∧ t.vault.tree = s.vault.tree) ∧
      (∀ b, good b = true → r.level ≠ 0 → ∃ t, exec (.vaultReadComplete page port (some b)) s = .next t ∧
        t.vault.waiting = (if r.second then s.vault.waiting ++ [⟨page, .repair, [], none, none, s.tick⟩] else s.vault.waiting) ∧
        ((∃ x ∈ t.vault.reads, x.page = page ∧ x.port = port ∧ x.jobs = r.jobs ∧ x.second = false) ∨ ended t stUnknown) ∧ t.vault.root = s.vault.root) ∧
      (∀ b, good b = false → r.second = false → (s.drive (1 - port)).inMirror = true →
        ∃ t, exec (.vaultReadComplete page port (some b)) s = .next t ∧ t.jobs = s.jobs ∧
          ∃ x ∈ t.vault.reads, x.page = page ∧ x.port = 1 - port ∧ x.jobs = r.jobs ∧ x.level = r.level ∧ x.second = true ∧ x.firstData = true ∧ x.since = s.tick) ∧
      (r.second = false → (s.drive (1 - port)).inMirror = true → ∃ t, exec (.vaultReadComplete page port none) s = .next t ∧ t.jobs = s.jobs ∧
        ∃ x ∈ t.vault.reads, x.page = page ∧ x.port = 1 - port ∧ x.jobs = r.jobs ∧ x.level = r.level ∧ x.second = true ∧ x.firstData = false ∧ x.since = s.tick) ∧
      (r.second = true ∨ (s.drive (1 - port)).inMirror = false → ∃ t, exec (.vaultReadComplete page port none) s = .next t ∧
        t.vault.reads = s.vault.reads.filter (fun x => decide (x ≠ r)) ∧ ended t stVault))

/-- A change of a drive's link is recorded, and seen at the next tick. There a drive that has come up is linked and takes the state that the rules give its port; one that has gone leaves its port ABSENT, and with the last drive of the mirror the group in phase 1 fails; a state that is due is taken. A command other than a page read that fails, or one that does not complete within VLT_CMD_TIMEOUT, takes the drive out at the next tick; a failed read of a page ends as that read. Every 65,536th tick a critical warning of bits 2 or 3 takes the drive out. -/
def Obligations.DrivesComeAndGo : Prop :=
  ∀ (port : Nat) (s : State), port < 2 →
    let d := s.drive port
    let out := s.setDrive port { d with next := some .out }
    (∀ x, (d.linkNow = false → port < strapDrives s.rst.strap →
        exec (.driveLinkUp port x) s = .next (s.setDrive port { d with linkNow := true, ident := if d.link then none else some x })) ∧
      (d.linkNow = true ∨ strapDrives s.rst.strap ≤ port → exec (.driveLinkUp port x) s = .next s)) ∧
    exec (.driveLinkDown port) s = .next (s.setDrive port { d with linkNow := false, ident := none }) ∧
    (∀ x, d.link = false → d.linkNow = true → d.ident = some x →
      let t := s.portTick port
      (t.drive port).link = true ∧ (t.drive port).next = none ∧ ((s.drive (1 - port)).inMirror = false → t.drive (1 - port) = s.drive (1 - port)) ∧ t.jobs = s.jobs ∧
      (s.num (Key.VLT_PORT_OFFLINE port) ≠ 0 → (t.drive port).state = .offline) ∧
      (s.num (Key.VLT_PORT_OFFLINE port) = 0 → x.formatOk = false → (t.drive port).state = .out) ∧
      (s.num (Key.VLT_PORT_OFFLINE port) = 0 → x.formatOk = true → s.vault.formatting = none → s.vault.state ≠ .unformatted →
        (x.blocks < blocksFor s.pages → (t.drive port).state = .out) ∧
        (blocksFor s.pages ≤ x.blocks → (s.drive (1 - port)).inMirror = false → (t.drive port).state = .inMirror ∨ (t.drive port).state = .out))) ∧
    (d.link = true → d.linkNow = false →
      let t := s.portTick port
      (t.drive port).link = false ∧ (t.drive port).state = .absent ∧ (t.drive port).inMirror = false ∧
      (d.inMirror = true → (s.drive (1 - port)).inMirror = false → t.vault.group = []) ∧
      (d.inMirror = false ∨ (s.drive (1 - port)).inMirror = true → t.vault.group = s.vault.group) ∧ t.vault.root = s.vault.root ∧ t.vault.tree = s.vault.tree) ∧
    (d.link = true → d.linkNow = true → (d.next = some .out → ((s.portTick port).drive port).state = .out) ∧
      (d.next = some .inMirror → ((s.portTick port).drive port).state = .inMirror) ∧ (d.next = none → ((s.portTick port).drive port).state = d.state)) ∧
    (d.link = true → d.writable = true →
      (s.cmdLate port = true → exec (.vaultCmdTimeout port) s = .next out) ∧ exec (.vaultCmdError port none) s = .next out) ∧
    (d.link = false ∨ s.cmdLate port = false → exec (.vaultCmdTimeout port) s = .next s) ∧
    (s.cmdLate port = true ↔ ∃ c ∈ d.cmds, c.since + s.ticksOf (1000 * s.num Key.VLT_CMD_TIMEOUT) ≤ s.tick) ∧
    (d.link = true → (∀ p r, s.readOf p port = some r → s.keeper.guardOn = true → s.vaultDenied 5 = none →
        exec (.vaultCmdError port (some p)) s = exec (.vaultReadComplete p port none) s) ∧
      (∀ p, s.readOf p port = none → exec (.vaultCmdError port (some p)) s = .next s)) ∧
    (d.link = false → (∀ p, exec (.vaultCmdError port p) s = .next s) ∧ ∀ w, exec (.smartPoll port w) s = .next s) ∧
    (∀ w, s.tick % 65536 ≠ 0 → exec (.smartPoll port w) s = .next s) ∧
    (∀ w, d.link = true → s.tick % 65536 = 0 → s.dict.nums.Pairwise (fun a b => a.1 < b.1) → ∃ t, exec (.smartPoll port w) s = .next t ∧
      t.num (Key.VLT_PORT_HEALTH port) = w % 256 ∧
      (bitOf w 2 = true ∨ bitOf w 3 = true → d.writable = true → (t.drive port).next = some .out) ∧
      (bitOf w 2 = false → bitOf w 3 = false → t.drive port = d) ∧ t.jobs = s.jobs)

/-- The ends of the vault's passes. A resilver whose cursor has passed what is to be copied ends with the level-5 node, and the drive joins at the next tick; each block that it copies is the mirror's. A scrub pass advances its count and starts again at 0. A format, with a drive in the mirror, commits the unwritten tree as sequence 1 with no items, and each drive of the mirror holds the two headers and the level-5 node; without one it goes on. -/
def Obligations.ResilverScrubAndFormatEnd : Prop :=
  ∀ s : State, s.dict.nums.Pairwise (fun a b => a.1 < b.1) →
    let top := 16 + b2n s.vault.root.frame
    (∀ port, s.resilvering = some port → s.vault.copyPort = some port → s.vault.copyKeys.length ≤ s.num Key.VLT_RESILVER_CURSOR →
      SMap.wf zeroBlock (s.drive port).cells = true → ∃ t, exec (.resilverDone port) s = .next t ∧
      (t.drive port).next = some .inMirror ∧ (t.drive port).cell top = (s.drive (1 - port)).cell top ∧ t.vault.copyPort = none ∧
      t.num (Key.VLT_PORT_SYNC_SEQ port) = s.vault.root.seq ∧ t.vault.tree = s.vault.tree ∧ t.vault.root = s.vault.root ∧ t.jobs = s.jobs) ∧
    (∀ port, s.resilvering ≠ some port ∨ s.vault.copyPort ≠ some port ∨ s.num Key.VLT_RESILVER_CURSOR < s.vault.copyKeys.length →
      exec (.resilverDone port) s = .next s) ∧
    (∀ port b, port < 2 → SMap.wf zeroBlock (s.drive port).cells = true → ((s.copyBlock port b).drive port).cell b = (s.drive (1 - port)).cell b ∧
      ((s.copyBlock port b).drive (1 - port)).cells = (s.drive (1 - port)).cells) ∧
    (s.scrubOn = true → s.scrubList = [] → ∃ t, exec .scrubPassEnd s = .next t ∧ t.num Key.VLT_SCRUB_CURSOR = 0 ∧
      t.num Key.VLT_SCRUB_PASSES = min (topOf Key.VLT_SCRUB_PASSES) (s.num Key.VLT_SCRUB_PASSES + 1) ∧
      t = { s with dict := { s.dict with nums := t.dict.nums } }) ∧
    (s.scrubOn = false ∨ s.scrubList ≠ [] → exec .scrubPassEnd s = .next s) ∧
    (∀ n, s.vault.formatting = some n → s.mirror ≠ [] → ∃ t, exec .formatDone s = .next t ∧ t.vault.root.seq = 1 ∧ t.vault.tree = [] ∧
      t.vault.journal = [JRecord.of t.vault.root [] (s.tick + 1)] ∧ t.vault.battery0 = some (RootCopy.of t.vault.root) ∧ t.vault.battery1 = some (RootCopy.of t.vault.root) ∧
      t.vault.formatting = none ∧ t.num Key.VLT_PAGES = n ∧
      (∀ p < 2, (s.drive p).inMirror = true → (t.drive p).cell 0 = headerBytes n 1 ∧ (t.drive p).cell 1 = headerBytes n 1 ∧ (t.drive p).holdsRoot t.vault.root = true) ∧
      t.keys = s.keys ∧ t.jobs = s.jobs ∧ t.rings = s.rings) ∧
    (s.vault.formatting = none ∨ s.mirror = [] → exec .formatDone s = .next s)

/-- The end of a sweep pass settles each SPENT heart: one that a slot of the pass named loses CERTIFIED, one certified at the last pass becomes EMPTY with generation 0, one spent since before the pass is certified. Every other heart stays, and the next pass begins. A pass that has not reached its end changes nothing. -/
def Obligations.SweepPassCertifiesSpentHearts : Prop :=
  ∀ s : State, SMap.wf Heart.reset s.keys.hearts = true → s.dict.nums.Pairwise (fun a b => a.1 < b.1) →
    (s.num Key.KEY_SWEEP_ENABLE ≠ 0 → s.vaultUp = true → s.allocatedFrom (s.num Key.KEY_SWEEP_CURSOR) = [] → ∃ t, exec .sweepPassEnd s = .next t ∧
      t.num Key.KEY_SWEEP_CURSOR = 0 ∧ t.num Key.KEY_SWEEP_PASSES = min (topOf Key.KEY_SWEEP_PASSES) (s.num Key.KEY_SWEEP_PASSES + 1) ∧
      t.keys.sweepSeen = [] ∧
      (∀ n, (s.heart n).state = .spent →
        (n ∈ s.keys.sweepSeen → (t.heart n).state = .spent ∧ (t.heart n).certified = false) ∧
        (n ∉ s.keys.sweepSeen → n ∈ s.keys.certifiedLast → (t.heart n).state = .empty ∧ (t.heart n).generation = 0) ∧
        (n ∉ s.keys.sweepSeen → n ∉ s.keys.certifiedLast → n ∈ s.keys.sweepFresh →
          (t.heart n).state = .spent ∧ (t.heart n).certified = true ∧ n ∈ t.keys.certifiedLast)) ∧
      (∀ n, (s.heart n).state ≠ .spent → t.heart n = s.heart n) ∧ t.vault = s.vault ∧ t.jobs = s.jobs) ∧
    (s.num Key.KEY_SWEEP_ENABLE = 0 ∨ s.vaultUp = false ∨ s.allocatedFrom (s.num Key.KEY_SWEEP_CURSOR) ≠ [] → exec .sweepPassEnd s = .next s)

/-! ## Check values -/

/-- A scan ends, shown at the next tick: with the fault that it met, as MATCH or MISMATCH where it compares, else as state 5. A mismatch, and a stop at a fault, count and are recorded. A scan that has bytes left goes on. -/
def Obligations.ScanEndsWithItsResult : Prop :=
  ∀ (u : Nat) (s : State),
    let c := s.chkUnit u
    let r := crcResult (s.chkWidth u) c.reg (s.chkFlag u 1) (s.chkFlag u 2)
    let set (st : State) (x : CheckUnit) : State := { st with chk := SMap.set CheckUnit.reset u x st.chk }
    (c.state ≠ 1 ∨ c.next.isSome → exec (.chkScanEnd u) s = .next s) ∧
    (c.state = 1 → c.next = none →
      (c.hit ≠ 0 → exec (.chkScanEnd u) s = .next (set ((s.count Key.CHK_MISMATCHES).event 0x2601) { c with next := some (5, c.hit) })) ∧
      (c.hit = 0 → c.position < s.num (Key.CHK_LENGTH u) → exec (.chkScanEnd u) s = .next s) ∧
      (c.hit = 0 → s.num (Key.CHK_LENGTH u) ≤ c.position →
        (s.chkFlag u 3 = false → exec (.chkScanEnd u) s = .next (set s { c with result := r, next := some (5, 0) })) ∧
        (s.chkFlag u 3 = true → r = s.chkLow u (s.num (Key.CHK_EXPECTED u)) →
          exec (.chkScanEnd u) s = .next (set s { c with result := r, next := some (3, 0) })) ∧
        (s.chkFlag u 3 = true → r ≠ s.chkLow u (s.num (Key.CHK_EXPECTED u)) →
          exec (.chkScanEnd u) s = .next (set ((s.count Key.CHK_MISMATCHES).event 0x2601) { c with result := r, next := some (4, 0) }))))

/-! ## Wellsprings and the DRBG -/

/-- A block of samples. In a settled wellspring, 81 equal samples in a row anywhere in the block, or 832 of its 1,024 equal to the first, fail the block: it is counted, never conditioned, and the pool stays. A block that fails neither test is counted, conditioned into the pool of at most four while the wellspring delivers, and the fourth one in a row makes a starting wellspring healthy. The other wellspring and the DRBG stay; blocks come while the oscillators run, also in a reset and a start; those of a tapped wellspring go to the tap. -/
def Obligations.SampleBlocksAreTested : Prop :=
  ∀ (n : Nat) (b : List Bool) (s : State),
    let w := s.wsp n
    (s.noTick = true → exec (.wspBlock n b) s = .next s) ∧
    (s.noTick = false → w.settled = false → ∃ t, exec (.wspBlock n b) s = .next t ∧ (t.wsp n).pool = w.pool ∧ (t.wsp n).window = w.window ∧
      (t.wsp n).state = w.state ∧ t.dict = s.dict ∧ t.ent.drbg = s.ent.drbg) ∧
    (s.noTick = false → w.settled = true →
      (∃ pre v post, b = pre ++ List.replicate 81 v ++ post) ∨ (∃ v rest, b = v :: rest ∧ 832 ≤ (b.filter fun x => x == v).length) →
      ∃ t, exec (.wspBlock n b) s = .next t ∧ (t.wsp n).pool = w.pool ∧ (t.wsp n).window = (true :: w.window).take 1024 ∧ (t.wsp n).passCount = 0 ∧
        (t.wsp n).state = w.state ∧ t.dict = (s.count (Key.WSP_SRC_FAILS n)).dict ∧ t.ent.drbg = s.ent.drbg ∧
        (n = 0 → t.ent.w1 = s.ent.w1) ∧ (n ≠ 0 → t.ent.w0 = s.ent.w0) ∧ t.ent.sinceReseed = s.ent.sinceReseed ∧ t.ent.supply = s.ent.supply ∧
        t = { s with ent := t.ent, dict := t.dict, sent := if w.state = .tapped then s.sent ++ [.tap n b] else s.sent }) ∧
    (s.noTick = false → w.settled = true → (rctBlock b w.runValue w.runLength false).2.2 = false → aptFails b = false →
      ∃ t, exec (.wspBlock n b) s = .next t ∧ (t.wsp n).window = (false :: w.window).take 1024 ∧ (t.wsp n).passCount = w.passCount + 1 ∧
        (t.wsp n).pool = (if w.state = .starting ∨ w.state = .healthy then poolPut w.pool (condition n b) else w.pool) ∧
        (w.pool.length ≤ 4 → (t.wsp n).pool.length ≤ 4) ∧
        (t.wsp n).state = (if w.state = .starting ∧ 3 ≤ w.passCount then .healthy else w.state) ∧
        t.dict = (s.count (Key.WSP_SRC_BLOCKS n)).dict ∧ t.ent.drbg = s.ent.drbg)

/-- The ninth failed block within 1,024 declares a wellspring failed from the next tick on; a settled oscillator begins the count of four passing blocks; in DRBG_ONLY the request that brings the counter to 2^20 is the last. Where the condition fails nothing changes. A reseed runs in the window, and one asked for in lane time waits for it. A due reseed runs when the pools hold its input, and sets the request counter to 0; with both wellsprings healthy it uses one output of each. It waits where the pools do not hold it. A failed known-answer test uses the input up, leaves the DRBG as it was, counts, and withholds the supply. What is not due does not run. A job that has waited 64 frames for a draw, from frame A on, ends with ENTROPY_WITHHELD, its record due at A + 64; before that it waits. -/
def Obligations.WellspringsReseedAndWaits : Prop :=
  (∀ (n : Nat) (s : State),
     let w := s.wsp n
     (9 ≤ (w.window.filter fun x => x).length → w.state ≠ .failed → w.failDue = false → exec (.wspDeclaredFailed n) s = .next (s.setWsp n { w with failDue := true })) ∧
     ((w.window.filter fun x => x).length < 9 ∨ w.state = .failed ∨ w.failDue = true → exec (.wspDeclaredFailed n) s = .next s) ∧
     (s.noTick = false → w.settled = false → w.state = .starting → exec (.wspSettled n) s = .next (s.setWsp n { w with settled := true, passCount := 0 })) ∧
     (s.noTick = true ∨ w.settled = true ∨ w.state ≠ .starting → exec (.wspSettled n) s = .next s) ∧
     (s.ent.supply = 3 → 2 ^ 20 ≤ s.ent.sinceReseed → exec .drbgRequestLimit s = .next { s with ent := { s.ent with limited := true } }) ∧
     (s.ent.supply ≠ 3 ∨ s.ent.sinceReseed < 2 ^ 20 → exec .drbgRequestLimit s = .next s)) ∧
  (∀ (p : Bool) (s : State), (s.live = false → exec (.reseedDue p) s = .next s) ∧
     (s.live = true → s.window = false → exec (.reseedDue p) s = .next { s with ent := { s.ent with reseedTest := some p } }) ∧
     (s.ent.reseedTest = some p → s.reseedWindow = State.reseed { s with ent := { s.ent with reseedTest := none } } p)) ∧
  (∀ s : State, s.live = true → s.window = true → s.wantsInit = false →
     (s.reseedDueNow = false → ∀ p, exec (.reseedDue p) s = .next s) ∧
     (s.reseedDueNow = true → s.ent.w0.state = .healthy → s.ent.w1.state = .healthy →
       (s.ent.w0.pool = [] ∨ s.ent.w1.pool = [] → ∀ p, exec (.reseedDue p) s = .next { s with ent := { s.ent with reseedDue := true } }) ∧
       (∀ a b p q, s.ent.w0.pool = a :: p → s.ent.w1.pool = b :: q →
         exec (.reseedDue true) s = .next { s with
           ent := { s.ent with w0 := { s.ent.w0 with pool := p }, w1 := { s.ent.w1 with pool := q }
                               drbg := drbgReseed s.ent.drbg (drbgDf (a ++ b)), sinceReseed := 0, framesSinceReseed := 0, reseedDue := false
                               katFailed := false, limited := false }
           dict := (s.count Key.WSP_RESEEDS).dict } ∧
         ∃ t, exec (.reseedDue false) s = .next t ∧ t.ent.drbg = s.ent.drbg ∧ t.ent.w0.pool = p ∧ t.ent.w1.pool = q ∧ t.ent.katFailed = true ∧
           t.ent.supply = 4 ∧ t.dict = (s.count Key.WSP_DRBG_KAT_FAILS).dict ∧ t.keys = s.keys ∧ t.jobs = s.jobs))) ∧
  (∀ (id : Nat) (j : Job) (s : State), s.job? id = some j →
     (∀ a, j.firstHeld = some a → j.phase = .ready → a + 63 ≤ s.tick → ∃ t, exec (.entropyWaitExpiry id) s = .next t ∧
       (∀ i ∈ t.jobs, i.id = id → i.phase = .staged ∧ i.outcome = some ⟨stEntropy, [], 0, none, none⟩ ∧ i.due = max (a + 64) (s.tick + 1)) ∧
       (∀ i, i.id ≠ id → (i ∈ t.jobs ↔ i ∈ s.jobs)) ∧ t.dict = (s.count Key.WSP_WITHHELD_JOBS).dict) ∧
     (j.firstHeld = none ∨ j.phase ≠ .ready ∨ (∃ a, j.firstHeld = some a ∧ s.tick < a + 63) → exec (.entropyWaitExpiry id) s = .next s))


/-! ## The chain -/

/-- Every message is received the same way. In lane time it waits for step 4 of the frame's window, a roll call alone excepted. A unit in a WARM reset or a WARM start discards what is addressed to it. A message that fails its check, or that the unit cannot open, is discarded and counted; the unit's own message that comes back, a later copy, and a message for another unit change nothing; a fragment of a message that is not whole is kept and does nothing more. (A roll call that is back at its master is not received in this way.) -/
def Obligations.MessagesAreCheckedAndTakenOnce : Prop :=
  ∀ (c : Instr) (type : Nat) (h : MsgHdr) (s : State), msgRow c = some (type, h) →
    (type ≠ 0x10 ∧ type ≠ 0x20 ∧ type ≠ 0x22 ∨ s.live = true) →
    ¬ (s.chain.origin = true ∧ h.src = s.chain.address ∧ (type = 1 ∨ type = 2)) →
    (s.window = false → relayed c = false → exec c s = .next { s with inbox := s.inbox ++ [c] }) ∧
    (s.window = true ∨ relayed c = true →
      (s.deaf = true → exec c s = .next s) ∧
      (s.deaf = false → s.opensMsg type h = false → exec c s = .next ((s.count Key.CHN_BAD_MESSAGES).event 0x1101)) ∧
      (s.opensMsg type h = true → s.forMe h = false → exec c s = .next s) ∧
      (s.deaf = false → s.opensMsg type h = true → s.forMe h = true → h.last ≠ 0 → (∀ p ∈ s.chain.partials, p.src ≠ h.src ∨ p.id ≠ h.id) →
        exec c s = .next { s.heardFrom h with chain := { (s.heardFrom h).chain with
          partials := s.chain.partials ++ [⟨h.src, h.id, s.tick, [(h.frag, [])], h.last⟩] } }))

/-- Tick markers. The port that a marker arrives on (B on ring 0, A on ring 1) has block lock (the model's reading, assumption log 69). A master's own marker tells it the round trip and changes nothing more; a strapped master follows no other, an acting one none of a higher source; any other marker is followed: the unit has a source of ticks, out of holdover, and with a good header its tick number, reduced to 64 bits, and its period are the master's. -/
def Obligations.TickMarkersAreFollowed : Prop :=
  ∀ (m : Marker) (s : State),
    let u : State := if m.ring = 0 then { s with chain := { s.chain with lockB := true } } else { s with chain := { s.chain with lockA := true } }
    (s.chain.origin = true ∨ s.chain.acting = true → m.source = s.chain.address → exec (.chainTickMarker m) s = .next { u with chain := { u.chain with
      markerSeen := true, roundTrip := if m.ring = 0 ∧ m.wrapped = false then m.arrivalPs.toNat else s.chain.roundTrip } }) ∧
    (s.chain.origin = true → m.source ≠ s.chain.address → exec (.chainTickMarker m) s = .next u) ∧
    (s.chain.origin = false → s.chain.acting = true → m.strapped = false → s.chain.address < m.source → exec (.chainTickMarker m) s = .next u) ∧
    (s.chain.origin = false → s.chain.acting = false ∨ m.source < s.chain.address ∨ (m.strapped = true ∧ m.source ≠ s.chain.address) →
      s.dict.nums.Pairwise (fun a b => a.1 < b.1) → ∃ t, exec (.chainTickMarker m) s = .next t ∧
        t.chain.tickSource = true ∧ t.chain.holdover = false ∧ t.chain.acting = false ∧ t.chain.missed = 0 ∧ t.chain.master = m.source ∧
        t.chain.lockA = u.chain.lockA ∧ t.chain.lockB = u.chain.lockB ∧
        (m.headerOk = false → t.tick = s.tick ∧ t.num Key.SEI_PERIOD = s.num Key.SEI_PERIOD) ∧
        (m.headerOk = true → t.num Key.SEI_PERIOD = m.period ∧ t.num Key.SEI_SWITCH_TICK = m.switchTick ∧ t.chain.roundTrip = m.roundTrip ∧
          t.tick = (m.tickNo + 1000 * t.num (if m.ring = 0 then Key.CHN_DELAY_0 else Key.CHN_DELAY_1) / periodPs m.period) % 2 ^ 64) ∧
        t = { s with tick := t.tick, chain := t.chain, dict := { s.dict with nums := t.dict.nums } })

/-- The chain comes up when the master's marker is back: it is address 1 and a roll call is due. A broken port is looped back and restored, each with unit event 4,099. A unit that follows markers and has missed two is in holdover, and acts as master if it has an address. Where the condition fails nothing changes. -/
def Obligations.ChainStateRows : Prop :=
  ∀ s : State,
    (s.chain.origin = true → s.chain.up = false → s.chain.markerSeen = true →
      exec .chainUp s = .next { s with chain := { s.chain with up := true, address := 1, rollCallDue := true } }) ∧
    (s.chain.origin = false ∨ s.chain.up = true ∨ s.chain.markerSeen = false → exec .chainUp s = .next s) ∧
    exec (.portBroken true) s = .next (State.raise { s with chain := { s.chain with loopB := true, lockB := false } } 4099) ∧
    exec (.portBroken false) s = .next (State.raise { s with chain := { s.chain with loopA := true, lockA := false } } 4099) ∧
    (s.chain.loopB = true → exec (.loopbackRestore true) s = .next (State.raise { s with chain := { s.chain with loopB := false, lockB := true } } 4099)) ∧
    (s.chain.loopA = true → exec (.loopbackRestore false) s = .next (State.raise { s with chain := { s.chain with loopA := false, lockA := true } } 4099)) ∧
    (s.chain.loopB = false → exec (.loopbackRestore true) s = .next s) ∧ (s.chain.loopA = false → exec (.loopbackRestore false) s = .next s) ∧
    (s.chain.tickSource = true → 2 ≤ s.chain.missed → exec .holdoverEntry s = .next { s with chain := { s.chain with
      holdover := true, tickSource := false, acting := decide (s.chain.address ≠ 0) } }) ∧
    (s.chain.tickSource = false ∨ s.chain.missed < 2 → exec .holdoverEntry s = .next s)

/-- Roll calls. Back at its master a roll call is the ring order, and a fill roll call whose entries differ asks for a roll call. A unit that a call passes appends its address; without one it takes the next of a roll call, or that of its ring position from a fill roll call; one that finds its own address taken gives it up. HELLO makes the master send a fill roll call. A member unheard for 64 ticks is unreachable; a message not whole 64 ticks after its first fragment is dropped. -/
def Obligations.RollCallsGiveAddresses : Prop :=
  ∀ (h : MsgHdr) (count : Nat) (entries order : List Nat) (s : State),
    let u := s.heardFrom h
    let a := s.chain.address
    (h.check = .good → s.chain.origin = true → h.src = a → h.frag = h.last →
      exec (.rollCall h count entries) s = .next (s.setAddrList Key.CHN_RING_ORDER entries) ∧
      exec (.fillCall h order entries) s = .next { s with chain := { s.chain with rollCallDue := s.chain.rollCallDue || decide (entries ≠ order) } }) ∧
    (s.passes 1 h = true → ¬ (s.chain.origin = true ∧ h.src = a) →
      (a ≠ 0 → a ∉ entries → exec (.rollCall h count entries) s = .next { u with sent := s.sent ++ [.forwarded 1 h (rollBody (max count (a + 1)) (entries ++ [a]))] }) ∧
      (a = 0 → count ≤ 4094 → exec (.rollCall h count entries) s = .next { u with
        chain := { u.chain with address := count }, sent := s.sent ++ [.forwarded 1 h (rollBody (count + 1) (entries ++ [count]))] }) ∧
      (a = 0 → 4094 < count → ∃ t, exec (.rollCall h count entries) s = .next t ∧ t.chain = u.chain ∧
        t.sent = s.sent ++ [.forwarded 1 h (rollBody count (entries ++ [0]))] ∧ t.host.raised.contains 4099 = true) ∧
      (a ≠ 0 → a ∈ entries → count ≤ 4094 → ∃ t, exec (.rollCall h count entries) s = .next t ∧ t.chain = { u.chain with address := count, helloDue := true } ∧
        t.sent = s.sent ++ [.forwarded 1 h (rollBody (count + 1) (entries ++ [count]))])) ∧
    (s.passes 2 h = true → ¬ (s.chain.origin = true ∧ h.src = a) →
      (a ≠ 0 → a ∉ entries → exec (.fillCall h order entries) s = .next { u with sent := s.sent ++ [.forwarded 2 h (fillBody order (entries ++ [a]))] }) ∧
      (∀ b, a = 0 → order[entries.length]? = some b → b ≠ 0 → b ∉ entries → exec (.fillCall h order entries) s = .next { u with
        chain := { u.chain with address := b }, sent := s.sent ++ [.forwarded 2 h (fillBody order (entries ++ [b]))] }) ∧
      (a ≠ 0 → a ∈ entries → let b := order.getD entries.length 0
        let d := if b ∈ entries then 0 else b
        exec (.fillCall h order entries) s = .next { u with
          chain := { u.chain with address := d, helloDue := true }, sent := s.sent ++ [.forwarded 2 h (fillBody order (entries ++ [d]))] })) ∧
    (s.takes 3 h = true → (s.chain.origin = true → exec (.hello h) s = .next { u with chain := { u.chain with fillCallDue := true } }) ∧
      (s.chain.origin = false → exec (.hello h) s = .next u)) ∧
    (∀ m, m ∈ s.members → s.reaches m = false → m ∉ s.chain.unreachable →
      exec (.memberUnreachable m) s = .next { s with chain := { s.chain with unreachable := s.chain.unreachable ++ [m] } }) ∧
    (∀ m, m ∉ s.members ∨ s.reaches m = true ∨ m ∈ s.chain.unreachable → exec (.memberUnreachable m) s = .next s) ∧
    ∀ src id, ∃ t, exec (.fragmentTimeout src id) s = .next t ∧
      (∀ p, p ∈ t.chain.partials ↔ p ∈ s.chain.partials ∧ ¬ (p.src = src ∧ p.id = id ∧ p.since + 64 ≤ s.tick)) ∧
      t = { s with chain := { s.chain with partials := t.chain.partials } }

/-- Replication at the unit that made a change. An acknowledgement counts once per member, until the timeout, and not of a unit that is still joining; the K-th, while the unit reaches a majority, sends the commit notice: the change of a job stands with its record, due at the second tick and marked REPLICATED, a dictionary write at the next tick, and a page that it locked is kept in a later commit group. With fewer than K by tick E + 65 the change is rolled back, counted, and its job ends with REPLICATION_TIMEOUT. A change that a restart left pending is asked about, and decided by its holders 64 ticks later. -/
def Obligations.ReplicationAtItsWriter : Prop :=
  ∀ (h : MsgHdr) (seq : Nat) (o : OwnChange) (s : State), (s.chain.own.find? fun x => decide (x.record.seq = seq)) = some o →
    let u := s.heardFrom h
    let w := s.chain.address
    (s.takes 0x31 h = true →
      (o.applyAt.isSome ∨ h.src ∈ o.acks ∨ h.src = w ∨ h.src ∉ s.members ∨ s.joiner = some h.src ∨ o.e + 65 ≤ s.tick → exec (.replAck h w seq) s = .next u) ∧
      (∀ v, v ≠ w → exec (.replAck h v seq) s = .next u) ∧
      (o.applyAt = none → h.src ∉ o.acks → h.src ≠ w → h.src ∈ s.members → s.joiner ≠ some h.src → s.tick < o.e + 65 →
        (o.acks.length + 1 < o.record.k ∨ u.majority = false → exec (.replAck h w seq) s = .next { u with chain := { u.chain with
          own := s.chain.own.map fun x => if x.record.seq = seq then { o with acks := o.acks ++ [h.src] } else x } }) ∧
        (o.record.k ≤ o.acks.length + 1 → u.majority = true → o.job.isSome ∨ o.write.isSome → ∃ t, exec (.replAck h w seq) s = .next t ∧
          t.chain.own = s.chain.own.map (fun x => if x.record.seq = seq then
            { o with acks := o.acks ++ [h.src], applyAt := some (if o.job.isSome then s.tick + 2 else s.tick + 1) } else x) ∧
          (∀ id, o.job = some id → t.jobs = s.jobs.map (fun j => if j.id = id then
            { j with phase := .output, due := s.tick + 2, replicated := true, acks := o.acks ++ [h.src] } else j)) ∧
          (∀ run, changeRun o.record.change = some run → run.1 / 8 ∈ s.vault.locked → ∃ v ∈ t.vault.waiting, v.page = run.1 / 8 ∧ v.kind = .keep) ∧
          (∃ m ∈ t.chain.waiting, m.type = 0x32 ∧ m.body = noticeBody w seq)))) ∧
    (o.applyAt = none → o.e + 65 ≤ s.tick → o.restarted = false → o.isTag = false → ∃ t, exec (.replicationTimeout seq) s = .next t ∧
      t.chain.own = s.chain.own.filter (fun x => decide (x.record.seq ≠ seq)) ∧
      (∀ id, o.job = some id → o.write = none → ∀ j ∈ t.jobs, j.id = id → j.phase = .staged ∧ j.outcome = some ⟨stReplTimeout, [], o.acks.length % 4, none, none⟩) ∧
      (o.write.isSome → t.dict.answer = .refused 9) ∧ (∃ m ∈ t.chain.waiting, m.type = 0x33 ∧ m.body = noticeBody w seq)) ∧
    (o.applyAt.isSome ∨ s.tick < o.e + 65 ∨ o.restarted = true ∨ o.isTag = true → exec (.replicationTimeout seq) s = .next s) ∧
    (o.restarted = true → o.queried = none ∨ (∃ q, o.queried = some q ∧ q + 64 ≤ s.tick) → ∃ t, exec (.replQueryDue w seq) s = .next t ∧
      t.chain.own = s.chain.own.map (fun x => if x.record.seq = seq then { x with queried := some s.tick, holders := [] } else x) ∧
      (∃ m ∈ t.chain.waiting, m.type = 0x34 ∧ m.body = noticeBody w seq) ∧ t.jobs = s.jobs ∧ t.vault = s.vault) ∧
    (∀ q, o.queried = some q → o.restarted = true → o.job = none → o.write = none → o.holders ≠ [] → q + 65 ≤ s.tick →
      ∃ t, exec (.replDecision w seq) s = .next t ∧ t.chain.own = s.chain.own.filter (fun x => decide (x.record.seq ≠ seq)) ∧
        (∃ m ∈ t.chain.waiting, m.type = (if o.record.k ≤ o.holders.length then 0x32 else 0x33) ∧ m.body = noticeBody w seq)) ∧
    (o.queried = none ∨ o.holders = [] ∨ o.restarted = false → exec (.replDecision w seq) s = .next s)

/-- Replication at a peer. A record that the log has room for, whose slot run no other live object holds, and that no change of this unit conflicts with, is logged and acknowledged. One that conflicts with a change of this unit, be its record sent or its vault change still being committed, is logged only where its writer's address is lower, and this unit's change then gives way; a change that has its acknowledgements stays. A commit notice marks the logged record, or waits for it; a rollback drops it. A holder answers a query; a record held 128 ticks is asked about, and 64 ticks later commits where K hold it, else is dropped. -/
def Obligations.ReplicationAtAPeer : Prop :=
  ∀ (h : MsgHdr) (w seq : Nat) (r : ReplRecord) (l : LogRecord) (s : State),
    let u := s.heardFrom h
    let mine := s.chain.own.filter fun o => conflicts o.record.change r.change
    let formed := s.forming r.change
    let stands := mine.any fun o => o.applyAt.isSome
    let ofLog (x : LogRecord) : Bool := x.writer == w && x.record.seq == seq
    (s.takes 0x30 h = true → s.chain.join ≠ .transferring ∨ s.chain.joinIsMember = true →
      (replicaLogSize < s.logUsed + (recordBytes r).length → exec (.replicate h r) s = .next u) ∧
      (s.logUsed + (recordBytes r).length ≤ replicaLogSize →
        (s.runTaken r.change = true → exec (.replicate h r) s = .next (u.event 0x1102)) ∧
        (s.runTaken r.change = false → s.heartNotReady r.change = true → exec (.replicate h r) s = .next u) ∧
        (s.runTaken r.change = false → s.heartNotReady r.change = false → stands = true →
          exec (.replicate h r) s = .next (if mine.any fun o => o.record.k == 0 then u.event 0x1102 else u)) ∧
        (s.runTaken r.change = false → s.heartNotReady r.change = false → mine ≠ [] ∨ formed ≠ [] → stands = false → s.chain.address ≤ h.src →
          exec (.replicate h r) s = .next u) ∧
        (s.runTaken r.change = false → s.heartNotReady r.change = false → (mine = [] ∧ formed = []) ∨ (stands = false ∧ h.src < s.chain.address) →
          ∃ t, exec (.replicate h r) s = .next t ∧
          (∃ e, t.chain.log = s.chain.log ++ [⟨h.src, r, s.tick, e, false, none, []⟩]) ∧
          (∃ m ∈ t.chain.waiting, m.type = 0x31 ∧ m.dst = h.src ∧ m.body = noticeBody h.src r.seq) ∧
          (∀ o ∈ mine, o ∉ t.chain.own) ∧ ∀ j ∈ formed, ∀ i ∈ t.jobs, i.id = j.id → i.phase = .staged))) ∧
    (w ≠ s.chain.address →
      (s.takes 0x32 h = true →
        ((s.chain.log.any ofLog || s.chain.joinLogged.any ofLog) = true →
          exec (.replCommit h w seq) s = .next (u.updLog w seq fun x => { x with committed := true })) ∧
        ((s.chain.log.any ofLog || s.chain.joinLogged.any ofLog) = false →
          exec (.replCommit h w seq) s = .next { u with chain := { u.chain with early := s.chain.early ++ [(w, seq)] } })) ∧
      (s.takes 0x33 h = true → ∃ t, exec (.replRollback h w seq) s = .next t ∧ t.chain.log = s.chain.log.filter (fun x => !ofLog x) ∧
        t.jobs = s.jobs ∧ t.vault = s.vault ∧ t.keys = s.keys) ∧
      (s.takes 0x34 h = true → (s.chain.log.find? ofLog = some l →
        (l.committed = true → exec (.replQuery h w seq) s = .next (u.sendNotice 0x32 bcast w seq)) ∧
        (l.committed = false → exec (.replQuery h w seq) s = .next ((u.updLog w seq fun x => { x with queried := some (x.queried.getD s.tick) }).sendNotice 0x35 bcast w seq))) ∧
        (s.chain.log.find? ofLog = none → exec (.replQuery h w seq) s = .next u)) ∧
      (s.takes 0x35 h = true → exec (.replState h w seq) s = .next (u.updLog w seq fun x => { x with holders := addHolder h.src w x.holders })) ∧
      (s.chain.log.find? ofLog = some l →
        (l.committed = false → l.since + 128 ≤ s.tick → l.queried = none → exec (.replQueryDue w seq) s =
          .next (((s.updLog w seq fun x => { x with queried := some s.tick }).sendNotice 0x34 bcast w seq).sendNotice 0x35 bcast w seq)) ∧
        (l.committed = true ∨ s.tick < l.since + 128 ∨ l.queried.isSome → exec (.replQueryDue w seq) s = .next s) ∧
        (∀ q, l.queried = some q → l.committed = false → q + 65 ≤ s.tick →
          exec (.replDecision w seq) s = .next (if l.record.k ≤ 1 + l.holders.length then s.updLog w seq fun x => { x with committed := true } else s.dropLog w seq)) ∧
        (l.queried = none ∨ l.committed = true → exec (.replDecision w seq) s = .next s)))

/-! ## Migration -/

/-- Migration on the chain. A request to consume an outstanding image tag is granted, once: the tag is no longer outstanding, its slice is MOVED from the next tick, its consumer is kept and told so; a second request is refused but to that same consumer. The reply completes a restore at the second tick, or ends it at the next with error 4. A save or a restore that is not answered in time ends with error 6, a freeze once its slice has no admitted job. -/
def Obligations.MigrationOnTheChain : Prop :=
  ∀ (h : MsgHdr) (tag : Bytes) (n : Nat) (s : State), SMap.wf SliceCtx.reset s.slices = true →
    let u := s.heardFrom h
    let c := s.slice n
    (s.takes 0x38 h = true →
      (∀ target, (s.chain.tags.find? fun t => t.1 == tag) = some (tag, n) → ∃ t, exec (.migConsume h tag target) s = .next t ∧
        t.slice n = { c with migDue := some (s.tick + 1), imageTag := none } ∧ (∀ x ∈ t.chain.tags, x.1 ≠ tag) ∧
        t.chain.consumed = s.chain.consumed ++ [(tag, h.src, target)] ∧ t.jobs = s.jobs ∧
        (∃ m ∈ t.chain.waiting, m.type = 0x38 ∧ m.dst = h.src ∧ m.body = Config.bodyLayout 0x38 [tag, leBytes 2 target, [1]])) ∧
      (∀ target, (s.chain.tags.find? fun t => t.1 == tag) = none → exec (.migConsume h tag target) s =
        .next (u.sendMsg 0x38 h.src (Config.bodyLayout 0x38 [tag, leBytes 2 target, [if (tag, h.src, target) ∈ s.chain.consumed then 1 else 2]]) none)) ∧
      ((s.slices.find? fun e => e.2.mig == .restoring && e.2.imageTag == some tag && e.2.migDue.isNone) = some (n, c) →
        exec (.migReply h tag true) s = .next { u with slices := SMap.set SliceCtx.reset n { c with migDue := some (s.tick + 2) } s.slices } ∧
        exec (.migReply h tag false) s = .next { u with slices := SMap.set SliceCtx.reset n { c with migFail := some 4, migDue := some (s.tick + 1) } s.slices }) ∧
      ((s.slices.find? fun e => e.2.mig == .restoring && e.2.imageTag == some tag && e.2.migDue.isNone) = none → ∀ ok, exec (.migReply h tag ok) s = .next u)) ∧
    (c.migDue = none → c.migTick + 66 ≤ s.tick →
      (c.mig = .saving → ∃ t, exec (.migrationTimeout n) s = .next t ∧ t.slice n = { c with mig := .frozen, migError := 6, imageTag := none, imageNew := none } ∧
        (∀ g, c.imageTag = some g → ∀ x ∈ t.chain.tags, x.1 ≠ g)) ∧
      (c.mig = .restoring → c.resetHeld = false → exec (.migrationTimeout n) s = .next { s with
        slices := SMap.set SliceCtx.reset n { c with mig := .running, migError := 6, migDue := none, imageTag := none, opened := none, migFail := none } s.slices })) ∧
    (c.migDue.isSome ∨ s.tick < c.migTick + 66 ∨ (c.mig ≠ .saving ∧ c.mig ≠ .restoring) → exec (.migrationTimeout n) s = .next s) ∧
    (c.mig = .freezing → c.migTick < s.tick → (∀ j ∈ s.jobs, j.slice = n → j.admitted = none) → let d := { c with mig := .frozen }
      exec (.freezeDrained n) s = .next { s with
        slices := SMap.set SliceCtx.reset n d s.slices, shown := s.shown.map fun v => { v with slices := SMap.set SliceCtx.reset n d v.slices } }) ∧
    (c.mig ≠ .freezing ∨ s.tick ≤ c.migTick ∨ (∃ j ∈ s.jobs, j.slice = n ∧ j.admitted.isSome = true) → exec (.freezeDrained n) s = .next s)

/-! ## Domains -/

/-- A join at a member and at the joining unit. An offer from an allowed lot whose signatures verify is answered, and the join is confirming; one that fails a check ends the join as failed, its keys wiped. The answer is checked the same way. The domain's key, id and members are taken only once this unit has confirmed. A step not followed within 4,096 ticks fails the join. A message that the state of the join does not ask for changes nothing. -/
def Obligations.JoinsAreAttestedAndConfirmed : Prop :=
  ∀ (h : MsgHdr) (o : Offer) (a : Answer) (g : DomainGrant) (s : State),
    let u := s.heardFrom h
    let busy := s.chain.join = .attesting ∨ s.chain.join = .confirming ∨ s.chain.join = .transferring
    let fits := s.lotAllowed o.lotEc o.lotDsa && joinVerify o.lotEc o.lotDsa (offerDigest o) o.sigEc o.sigDsa && o.kemKey.length == 1184 && kemEkOk 0x22 o.kemKey && !s.withheld && !bitOf s.keeper.debugState 3
    (s.takes 0x40 h = true → (busy ∨ s.chain.domainKey = none → exec (.attestOffer h o) s = .next u) ∧
      (¬ busy → s.chain.domainKey.isSome →
        ∃ t, exec (.attestOffer h o) s = .next t ∧ t.chain.domainKey = s.chain.domainKey ∧
          if (p384.decode o.ecKey).isSome && fits then t.chain.join = .confirming ∧ t.chain.joinSince = s.tick ∧ t.chain.joinPeer = h.src ∧
            t.chain.joinIsMember = true ∧ t.chain.joinConfirmed = false ∧ ∃ m ∈ t.chain.waiting, m.type = 0x41 ∧ m.dst = h.src
          else t.chain.join = .failed ∧ t.chain.joinKey = [] ∧ t.chain.waiting = s.chain.waiting)) ∧
    (s.takes 0x41 h = true → (s.chain.join ≠ .attesting ∨ s.chain.joinIsMember = true ∨ h.src ≠ s.chain.joinPeer → exec (.attestAnswer h a) s = .next u) ∧
      (∀ x, s.chain.join = .attesting → s.chain.joinIsMember = false → h.src = s.chain.joinPeer → s.chain.joinOffer = some x →
        let good := s.lotAllowed a.lotEc a.lotDsa && joinVerify a.lotEc a.lotDsa (answerDigest x a) a.sigEc a.sigDsa && a.kemCt.length == 1088
        ∃ t, exec (.attestAnswer h a) s = .next t ∧ t.chain.domainKey = s.chain.domainKey ∧
          if (p384.decode a.ecKey).isSome && good then t.chain.join = .confirming ∧ t.chain.joinConfirmed = false ∧ t.chain.joinSecret = []
          else t.chain.join = .failed ∧ t.chain.joinKey = [])) ∧
    (s.takes 0x42 h = true → (s.chain.join ≠ .confirming ∨ s.chain.joinIsMember = true ∨ h.src ≠ s.chain.joinPeer → exec (.domainKey h g) s = .next u) ∧
      (s.chain.join = .confirming → s.chain.joinIsMember = false → h.src = s.chain.joinPeer →
        (s.chain.joinConfirmed = false → exec (.domainKey h g) s = .next { u with chain := { u.chain with joinGrant := some g } }) ∧
        (s.chain.joinConfirmed = true → s.dict.nums.Pairwise (fun a b => a.1 < b.1) → ∃ t, exec (.domainKey h g) s = .next t ∧ t.chain.domainKey = some (fit 32 g.key) ∧
          t.chain.join = .transferring ∧ t.num Key.CHN_K = g.k ∧ t.keys = s.keys ∧ t.vault = s.vault))) ∧
    ((s.chain.join = .attesting ∨ s.chain.join = .confirming) → s.chain.joinSince + 4096 ≤ s.tick → ∃ t, exec .joinTimeout s = .next t ∧
      t.chain.join = .failed ∧ t.chain.joinSecret = [] ∧ t.chain.joinKey = [] ∧ t.chain.joinGrant = none ∧ t.chain.domainKey = s.chain.domainKey) ∧
    ((s.chain.join ≠ .attesting ∧ s.chain.join ≠ .confirming) ∨ s.tick < s.chain.joinSince + 4096 → exec .joinTimeout s = .next s)

/-- The transfer to a joining unit: each heart takes the entry sent, each object is put in line for the vault, and the end makes the unit a member, with no heart left RECOVERING and the records logged meanwhile in the replica log. From any other source, or while no transfer runs, these messages change nothing. -/
def Obligations.TransferFillsTheJoiningUnit : Prop :=
  ∀ (h : MsgHdr) (n map hearts objects : Nat) (b : Bytes) (pinned full : Bool) (s : State),
    let u := s.heardFrom h
    (s.fromMember h = false →
      (s.takes 0x43 h = true → exec (.heartTransfer h n b) s = .next u) ∧
      (s.takes 0x44 h = true → exec (.objectTransfer h n b pinned map) s = .next u) ∧
      (s.takes 0x45 h = true → exec (.transferEnd h hearts objects full) s = .next u)) ∧
    (s.fromMember h = true → SMap.wf Heart.reset s.keys.hearts = true →
      (s.takes 0x43 h = true → ∃ t, exec (.heartTransfer h n b) s = .next t ∧
        t.heart n = { heartOf (fit 64 (b.take 48)) with imageCommit := (s.heart n).imageCommit + 1 } ∧ (∀ m, m ≠ n → t.heart m = s.heart m) ∧
        t.vault = s.vault ∧ t.jobs = s.jobs) ∧
      (s.takes 0x44 h = true → b ≠ [] → ∃ t, exec (.objectTransfer h n b pinned map) s = .next t ∧
        (∃ w, t.vault.waiting = s.vault.waiting ++ [⟨n / 8, .change, w ++ writesOf n b, none, none, s.tick⟩]) ∧
        t.chain.joinSlots = s.chain.joinSlots ++ [(n, le 16 8 b)] ∧ (pinned = true → mkHandle 0 (headHeart b) (headGen b) n ∈ t.keys.pins) ∧
        t.keys.hearts = s.keys.hearts) ∧
      (s.takes 0x45 h = true → ∃ t, exec (.transferEnd h hearts objects full) s = .next t ∧ t.chain.join = .done ∧ t.chain.joinLogged = [] ∧
        t.chain.joinKey = [] ∧ (∀ m, (t.heart m).state ≠ .recovering) ∧ (∀ m, (s.heart m).state ≠ .recovering → t.heart m = s.heart m) ∧
        (∀ x ∈ s.chain.log, x ∈ t.chain.log)))


/-! ## The dictionary service -/

/-- Requests of the chain and of the Keeper's weirs wait for step 4 of the frame's window. A read of a readable entry with a good proof is answered with its value as of the next tick and changes no entry. A write that passes every check is acknowledged and waits for the frame's window. An unknown entry is refused with reason 1, one that the role may not read or write with 2, a wrong proof with 3. A broadcast write is discarded. A reply reaches the window of a tunnel master. A unit that is not live serves no request. -/
def Obligations.DictionaryRequestsAreServed : Prop :=
  ∀ (r : DictReq) (body : Bytes) (s : State),
    let u := if r.weir then s else s.heardFrom r.hdr
    let key := entryKey r.index r.sub
    (s.live = false → exec (.dictRead r) s = .next s ∧ exec (.dictWrite r) s = .next s) ∧
    (s.live = true → s.window = false → exec (.dictRead r) s = .next { s with inbox := s.inbox ++ [.dictRead r] } ∧
      exec (.dictWrite r) s = .next { s with inbox := s.inbox ++ [.dictWrite r] }) ∧
    (s.live = true → r.weir = false → s.takes 0x10 r.hdr = true → r.hdr.dst = bcast → exec (.dictWrite r) s = .next u) ∧
    (s.live = true → (r.weir = true ∧ s.window = true) ∨ (s.takes 0x10 r.hdr = true ∧ r.hdr.dst ≠ bcast) →
      (attrOf r.index r.sub = none → (∃ t, exec (.dictRead r) s = .next t ∧ t.dict.answer = .refused 1 ∧ t.dict.acked = s.dict.acked) ∧
        ∃ t, exec (.dictWrite r) s = .next t ∧ t.dict.answer = .refused 1 ∧ t.dict.acked = s.dict.acked) ∧
      ∀ a, attrOf r.index r.sub = some a →
        (a.readable = false ∨ 4 < reqRole r ∨ (reqRole r = 4 ∧ r.weir = false) → ∃ t, exec (.dictRead r) s = .next t ∧ t.dict.answer = .refused 2) ∧
        (a.readable = true → reqRole r ≤ 3 ∨ (reqRole r = 4 ∧ r.weir = true) → s.proofOk r 1 = false → ∃ t, exec (.dictRead r) s = .next t ∧ t.dict.answer = .refused 3) ∧
        (a.readable = true → reqRole r ≤ 3 ∨ (reqRole r = 4 ∧ r.weir = true) → s.proofOk r 1 = true → ∃ t, exec (.dictRead r) s = .next t ∧
          t.dict.nums = s.dict.nums ∧ t.dict.octs = s.dict.octs ∧ t.dict.acked = s.dict.acked ∧ t.jobs = s.jobs ∧ t.keys = s.keys ∧
          (r.weir = false → ∃ head, t.chain.waiting = s.chain.waiting ++ [⟨0x11, r.hdr.src, s.chain.msgId, 0,
            head ++ u.asOfNext.valueField a key, none, 0, none⟩])) ∧
        ∀ role, roleOf (reqRole r) = some role →
          (a.mayWrite role = false → ∃ t, exec (.dictWrite r) s = .next t ∧ t.dict.answer = .refused 2 ∧ t.dict.acked = s.dict.acked) ∧
          (a.mayWrite role = true → (role = .keeper → r.weir = true) → s.proofOk r 2 = false →
            ∃ t, exec (.dictWrite r) s = .next t ∧ t.dict.answer = .refused 3 ∧ t.dict.acked = s.dict.acked) ∧
          (let v := u.seeReq r
           a.mayWrite role = true → role ≠ .officer → (role = .keeper → r.weir = true) → s.proofOk r 2 = true → v.lockBars role = false → a.lengthOk r.value = true →
            v.firstRefusal a role key (a.valueOf r.value) = 0 → v.view.mayStand false key (a.valueOf r.value) = true → actsElsewhere key = false →
            ∃ t, exec (.dictWrite r) s = .next t ∧ t.dict.acked = s.dict.acked ++ [(key, a.valueOf r.value)] ∧ t.dict.answer = .acked ∧
              (r.weir = false → ∃ m ∈ t.chain.waiting, m.type = 0x11 ∧ m.dst = r.hdr.src))) ∧
    ∀ h : MsgHdr, s.takes 0x11 h = true →
      (s.tunnelOn = true → exec (.dictReply h body) s = .next { s.heardFrom h with host := { s.host with tunnel := { s.host.tunnel with
        held := s.host.tunnel.held ++ [msgHeader 0x11 h.src h.dst h.id h.frag h.last body.length h.insTick ++ body] } } }) ∧
      (s.tunnelOn = false → exec (.dictReply h body) s = .next (s.heardFrom h))

/-- Quorum writes and replicated writes. A challenge is drawn, kept and sent, at most 16 that no write holds being kept; with randomness withheld an empty one is sent. A write of role 3 with an outstanding challenge waits for approvals. An approval that does not verify is rejected and counted, one for a challenge that no write holds is kept with it, one for a pending write counts for it once. A pending write is refused with reason 8 at 4,096 ticks from its challenge, and a challenge that no write holds goes at 4,096 ticks. An enrolment without the new key's approval waits. A write of K, of a removed member or of a heart goes on the chain: it is waiting, and the entry and the heart table stay until it commits. -/
def Obligations.QuorumAndReplicatedWrites : Prop :=
  (∀ (h : MsgHdr) (s : State), s.live = true → s.takes 0x20 h = true →
    (s.withheld = true → exec (.challengeRequest h) s = .next ((s.heardFrom h).sendMsg 0x21 h.src [] none)) ∧
    (s.withheld = false → ∃ t b, exec (.challengeRequest h) s = .next t ∧ t.dict.challenges.getLast? = some ⟨b, s.tick + 1, false, []⟩ ∧
      (∃ m ∈ t.chain.waiting, m.type = 0x21 ∧ m.dst = h.src ∧ m.body = b) ∧
      ((s.dict.challenges.filter fun c => !c.held).length ≤ 16 → (t.dict.challenges.filter fun c => !c.held).length ≤ 16) ∧
      (∀ c ∈ s.dict.challenges, c.held = true → c ∈ t.dict.challenges) ∧ t.dict.nums = s.dict.nums)) ∧
  (∀ (r : DictReq) (a : Attr) (c : Challenge) (s : State), s.live = true → r.weir = false → s.takes 0x10 r.hdr = true → r.hdr.dst ≠ bcast → r.role = 3 →
    let key := entryKey r.index r.sub
    let u := s.heardFrom r.hdr
    attrOf r.index r.sub = some a → a.mayWrite .officer = true → allZero (r.proof.drop 16) = true → a.lengthOk r.value = true →
    u.firstRefusal a .officer key (a.valueOf r.value) = 0 → s.outstanding (r.proof.take 16) = some c → c.held = false → c.approvals = [] →
    s.dict.pendingWrites.length < 16 → (∀ w ∈ s.dict.pendingWrites, w.challenge ≠ c.bytes) → 0 < s.needed →
      ∃ t, exec (.dictWrite r) s = .next t ∧ t.dict.answer = .waiting ∧ t.dict.pendingWrites = s.dict.pendingWrites ++ [⟨r, c.bytes, [], false, false⟩] ∧
        t.dict.acked = s.dict.acked ∧ t.dict.nums = s.dict.nums ∧ t.dict.octs = s.dict.octs) ∧
  (∀ (h : MsgHdr) (b : Bytes) (s : State), s.live = true → s.takes 0x22 h = true →
    let officer := at8 21 b
    let key := entryKey (le 18 2 b) (at8 20 b)
    let good := at8 23 b == 0 && decide (officer < 16) && s.approver officer (at8 22 b) key (cut 24 32 b) && approvalSigned (at8 22 b) (s.officerKey officer) b
    (good = false ∨ s.outstanding (b.take 16) = none →
      exec (.approval h b) s = .next (((s.heardFrom h).count Key.OFC_APPROVALS_REJECTED).event 0xC001)) ∧
    (∀ c, good = true → s.outstanding (b.take 16) = some c → (s.dict.pendingWrites.find? fun w => w.challenge == c.bytes) = none →
      ((c.approvals.any fun a => a.1 == officer) = true → exec (.approval h b) s = .next (((s.heardFrom h).count Key.OFC_APPROVALS_REJECTED).event 0xC001)) ∧
      ((c.approvals.any fun a => a.1 == officer) = false → ∃ t, exec (.approval h b) s = .next t ∧
        (∃ x ∈ t.dict.challenges, x.bytes = c.bytes ∧ x.approvals = c.approvals ++ [(officer, le 16 2 b, key, cut 24 32 b)]) ∧
        t.dict.nums = s.dict.nums ∧ t.dict.pendingWrites = s.dict.pendingWrites)) ∧
    (∀ c w, good = true → s.outstanding (b.take 16) = some c → (s.dict.pendingWrites.find? fun w => w.challenge == c.bytes) = some w →
      s.agrees w.req (le 16 2 b) key (cut 24 32 b) = false ∨ (selfApproval officer key (cut 24 32 b) = false ∧ officer ∈ w.officers) →
      exec (.approval h b) s = .next (((s.heardFrom h).count Key.OFC_APPROVALS_REJECTED).event 0xC001)) ∧
    (∀ c w, good = true → s.outstanding (b.take 16) = some c → (s.dict.pendingWrites.find? fun w => w.challenge == c.bytes) = some w →
      s.agrees w.req (le 16 2 b) key (cut 24 32 b) = true → selfApproval officer key (cut 24 32 b) = false → officer ∉ w.officers →
      ((insertAsc officer w.officers).filter fun n => s.enrolled.contains n).length < s.needed → s.dict.nums.Pairwise (fun a b => a.1 < b.1) →
      ∃ t, exec (.approval h b) s = .next t ∧ { w with officers := insertAsc officer w.officers } ∈ t.dict.pendingWrites ∧
        t.num (Key.OFC_LAST_APPROVAL officer) = s.tick ∧ t.dict.acked = s.dict.acked)) ∧
  (∀ (b : Bytes) (s : State),
    (∀ w c, (s.dict.pendingWrites.find? fun w => w.challenge == b) = some w → (s.dict.challenges.find? fun c => c.bytes == b) = some c →
      (c.issued + 4096 ≤ s.tick → ∃ t, exec (.quorumWriteExpiry b) s = .next t ∧ t.dict.answer = .refused 8 ∧
        (∀ x ∈ t.dict.pendingWrites, x.challenge ≠ b) ∧ (∀ x ∈ t.dict.challenges, x.bytes ≠ b) ∧ t.dict.acked = s.dict.acked) ∧
      (s.tick < c.issued + 4096 → exec (.quorumWriteExpiry b) s = .next s)) ∧
    (∃ t, exec (.challengeExpiry b) s = .next t ∧
      (∀ c, c ∈ t.dict.challenges ↔ c ∈ s.dict.challenges ∧ ¬ (c.bytes = b ∧ c.held = false ∧ c.issued + 4096 ≤ s.tick)) ∧
      t = { s with dict := { s.dict with challenges := t.dict.challenges } }) ∧
    (s.live = false → ∀ h, exec (.challengeRequest h) s = .next s ∧ exec (.approval h b) s = .next s)) ∧
  (∀ (officer value : Nat) (s : State), s.live = true → officer < 16 → value ≠ 0 →
    exec (.ofcAlgorithm .officer officer value false) s = .next { s with dict := { s.dict with answer := .waiting } }) ∧
  (∀ (c : Instr) (role : Role) (key n : Nat) (s : State), dictRow c = some (true, role, key, .num n) → s.writePasses role key (.num n) = true →
    (key = Key.CHN_K ∨ key = Key.CHN_MEMBER_REMOVE ∨ (0x8000 ≤ key / 256 ∧ key / 256 < 0xC000 ∧ 3 ≤ key % 256 ∧ key % 256 ≤ 5)) →
      ∃ t o, exec c s = .next t ∧ t.dict = { s.dict with answer := .waiting } ∧ t.chain.own = s.chain.own ++ [o] ∧ t.chain.seq = s.chain.seq + 1 ∧
        o.record.seq = s.chain.seq ∧ o.record.k = s.kInForce ∧ o.e = s.tick ∧ o.write = some (key, none) ∧ t.keys.hearts = s.keys.hearts ∧
        (key = Key.CHN_K → o.record.change = .kValue n) ∧
        (key = Key.CHN_MEMBER_REMOVE → o.record.change = .members (s.members.filter fun m => decide (m ≠ n))) ∧
        (0x8000 ≤ key / 256 → key / 256 < 0xC000 → key / 256 - 0x8000 ∈ t.keys.inFlight ∧
          ∃ k, o.record.change = .heart (key / 256 - 0x8000) ((s.heart (key / 256 - 0x8000)).changed (key % 256) n k).bytes))

/-! ## Tamper -/

/-- Samples, alarms and responses. A sample sets the condition of every source of its domain, and notes an event of each armed source that meets its condition; the other domain's sources stay; with a main rail down the main domain takes none. An alarm is taken only when the source is armed and its events reach K; in service it starts the count again and reaches the Keeper with its set, and a source of the battery domain with ZEROISE_ALL destroys the base secret at once; on battery power or in STANDBY an alarm of that domain is recorded and the rest of its set is pending. The response of a frame, by a Keeper that runs, clears its alarms and wipes what the union of their sets says; without a zeroise it is over in the frame, with one within 32 µs. -/
def Obligations.TamperSampledAlarmedAndAnswered : Prop :=
  ∀ s : State,
    (∀ r, s.rst.power = .battery ∨ s.rst.railsDown ≠ [] → exec (.tamperSample false r) s = .next s) ∧
    (∀ battery r, battery = true ∨ (s.rst.power ≠ .battery ∧ s.rst.railsDown = []) → SMap.wf TamperSrc.reset s.tamper.sources = true → ∃ t, exec (.tamperSample battery r) s = .next t ∧
      (∀ n < 24, (n ≤ 10 ↔ battery = true) → (t.tmpSrc n).condition = s.tamperCondition r n ∧
        (s.tamperCondition r n = true → s.tamperArmed n = true → (if battery then t.tamper.sampleBattery else t.tamper.sampleMain) ∈ (t.tmpSrc n).events) ∧
        (s.tamperCondition r n = false ∨ s.tamperArmed n = false → ∀ e ∈ (t.tmpSrc n).events, e ∈ (s.tmpSrc n).events)) ∧
      (∀ n, ¬ (n < 24 ∧ (n ≤ 10 ↔ battery = true)) → t.tmpSrc n = s.tmpSrc n) ∧
      t.tamper.latched = s.tamper.latched ∧ t.tamper.alarms = s.tamper.alarms ∧ t.keys = s.keys ∧ t.jobs = s.jobs ∧ t.dict = s.dict) ∧
    (∀ n, s.tamperArmed n = false ∨ (s.tmpSrc n).events.length < s.tamperK n ∨ (s.tmpSrc n).events = [] → exec (.tamperAlarm n) s = .next s) ∧
    (∀ n, s.tamperArmed n = true → s.tamperK n ≤ (s.tmpSrc n).events.length → (s.tmpSrc n).events ≠ [] →
      (s.rst.power = .run → n ≤ 10 ∨ s.rst.railsDown = [] → ∃ t, exec (.tamperAlarm n) s = .next t ∧ t.tamper.alarms = s.tamper.alarms ++ [(n, s.tamperSet n)] ∧
        (SMap.wf TamperSrc.reset s.tamper.sources = true → (t.tmpSrc n).events = []) ∧
        (n ≤ 10 → bitOf (s.tamperSet n) 6 = true → t.keys.baseSecret = none ∧ t.keys.baseSecret2 = none) ∧
        (10 < n ∨ bitOf (s.tamperSet n) 6 = false → t.keys = s.keys) ∧ t.jobs = s.jobs) ∧
      (s.rst.power = .battery ∨ s.rst.power = .standby → n ≤ 10 → ∃ t, exec (.tamperAlarm n) s = .next t ∧ t.tamper.pendingActions = s.tamper.pendingActions ||| s.tamperSet n ∧
        t.tamper.alarms = s.tamper.alarms ∧ (bitOf (s.tamperSet n) 6 = true → t.keys.baseSecret = none ∧ t.keys.baseSecret2 = none) ∧
        ∃ b, t.tamper.batLog.getLast? = some b ∧ bitOf b.sources n = true ∧ (s.tamper.batSample ≠ some s.tamper.sampleBattery → b.sources = 2 ^ n))) ∧
    (s.tamper.alarms = [] ∨ s.rst.power = .battery ∨ (s.rst.power = .held ∧ 2 ≤ s.rst.reach) → exec .tamperResponse s = .next s) ∧
    (s.tamper.alarms ≠ [] → s.rst.power ≠ .battery → s.rst.power ≠ .held ∨ s.rst.reach < 2 → let set := s.tamper.alarms.foldl (fun a x => a ||| x.2) 0
      ∃ t z, exec .tamperResponse s = .next t ∧ t.tamper.alarms = [] ∧ t.tamper.respond = s.tamper.respond ++ [(z, set, s.tamper.alarms)] ∧
        s.tick ≤ z ∧ z ≤ s.tick + 32 / periodUs s.period + 1 ∧
        (bitOf set 5 = false → bitOf set 6 = false → z = s.tick ∧ t.keys = s.keys ∧ t.wm = s.wm) ∧
        (bitOf set 5 = true ∨ bitOf set 6 = true → t.keys.cache = [] ∧ t.ent.drbg.live = false ∧ t.lanes.ladder = []) ∧
        (bitOf set 6 = true → t.keys.baseSecret = none ∧ t.keys.baseSecret2 = none ∧ t.keys.hearts = [] ∧ t.keys.baseKey = none ∧ t.chain.domainKey = none) ∧
        (bitOf set 6 = false → t.keys.baseSecret = s.keys.baseSecret ∧ t.keys.hearts = s.keys.hearts)) ∧
    (s.rst.power = .battery → ∃ t, exec .batteryRemoval s = .next t ∧ t.keys.baseSecret = none ∧ t.keys.baseSecret2 = none ∧ t.vault.battery0 = none ∧
      t.vault.battery1 = none ∧ t.tamper.latched = [] ∧ t.tamper.pendingActions = 0 ∧ t.tamper.batteryBlank = true ∧ t.rst.seconds = 0 ∧
      t.life.fuses = s.life.fuses ∧ t.vault.tree = s.vault.tree) ∧
    (s.rst.power ≠ .battery → exec .batteryRemoval s = .next s)

/-! ## Life cycle -/

/-- An authorised transition lapses after the certificate's lifetime, or at any reset of WARM reach or wider: LCS_CERT_STATE is 0, and a later write of LCS_TRANSITION is refused in every state whose transitions need a certificate (in FIELDED the officers' quorum authorises one, R390). Before that, and while the transition runs, it does not lapse. -/
def Obligations.AuthorisedTransitionLapses : Prop :=
  ∀ s : State,
    (s.life.authorised.isSome → s.life.transition = none → s.life.grantEnds ≤ s.rst.seconds →
      exec .transitionLapse s = .next { s with life := { s.life with authorised := none, certState := 0 } }) ∧
    (s.life.authorised = none ∨ s.life.transition.isSome ∨ s.rst.seconds < s.life.grantEnds → exec .transitionLapse s = .next s) ∧
    (∀ reach causes, 2 ≤ reach → s.rst.starting ≤ reach → s.rst.power ≠ .held ∨ s.rst.reach < reach →
      (s.enterReset reach causes).life.authorised = none ∧ (s.enterReset reach causes).life.certState = 0) ∧
    (∀ role target, s.live = true → s.lifeCycle ≠ 2 → s.life.authorised = none →
      ∃ reason, reason ≠ 0 ∧ exec (.lcsTransition role target) s = .next (s.refused Key.LCS_TRANSITION reason))

/-- A transition goes by its marks, one step at a time: BEGUN once its conditions hold again, else it ends with a WARM reset into the old state; then WIPED, PROVISIONED and DONE, each set after its work; DONE is followed by a WARM reset. A challenge and a grant end at the end of their operating time. A certificate's check ends with the first check that fails; a grant that enables secure invasive debug first destroys the base key and the working keys, those of the jobs in flight with them. Without a transition, before its time, or while no check runs, nothing changes. -/
def Obligations.TransitionsGrantsAndCertificates : Prop :=
  ∀ s : State,
    (s.life.transition = none ∨ s.rst.power ≠ .run → exec .transitionStep s = .next s) ∧
    (∀ n target, s.life.transition = some (n, target) → s.rst.power = .run → 1 ≤ n → n ≤ 4 →
      let m := s.marks n
      (m.hasBegun = false → transitionOf s.lifeCycle target = some n → s.transitionAllowed n = true → ∃ t, exec .transitionStep s = .next t ∧
        t.marks n = { m with begun := 15 } ∧ (∀ k, 1 ≤ k → k ≤ 4 → k ≠ n → t.marks k = s.marks k) ∧ t.keys = s.keys ∧ t.vault = s.vault) ∧
      (m.hasBegun = false → transitionOf s.lifeCycle target ≠ some n ∨ s.transitionAllowed n = false → ∃ t, exec .transitionStep s = .next t ∧
        t.life.fuses = s.life.fuses ∧ t.life.transition = none ∧ 2 ≤ t.rst.dueReach ∧ bitOf t.rst.dueCauses 10 = true) ∧
      (m.hasBegun = true → m.isWiped = false → m.isProvisioned = false → ∃ t, exec .transitionStep s = .next t ∧ t.marks n = { m with wiped := 15 } ∧
        (n = 1 ∨ n = 3 ∨ n = 4 → t.keys.baseSecret = none ∧ t.keys.hearts = [] ∧ t.keys.images = [] ∧ t.keys.pins = [] ∧ t.chain.domainKey = none) ∧
        (n = 2 → t.life.fuses.vendorTest = false ∧ t.keys = s.keys)) ∧
      (m.hasBegun = true → m.isWiped = true → m.isProvisioned = false → ∃ t, exec .transitionStep s = .next t ∧ t.marks n = { m with provisioned := 15 } ∧
        (n = 1 → t.life.fuses.integratorHash = some s.life.newHash) ∧ (n = 4 → t.life.fuses.allBlown = true) ∧ t.keys = s.keys) ∧
      (m.hasBegun = true → m.isWiped = true → m.isProvisioned = true → ∃ t, exec .transitionStep s = .next t ∧ t.marks n = { m with done := 15 } ∧
        2 ≤ t.rst.dueReach ∧ bitOf t.rst.dueCauses 10 = true ∧ t.keys = s.keys)) ∧
    (∀ b d, s.life.challenge = some (b, d) →
      (d + 86400 ≤ s.rst.seconds → exec .lcsChallengeExpiry s = .next { s with life := { s.life with challenge := none } }) ∧
      (s.rst.seconds < d + 86400 → exec .lcsChallengeExpiry s = .next s)) ∧
    (s.life.granted = true → s.life.grantEnds ≤ s.rst.seconds → ∃ t, exec .grantExpiry s = .next t ∧ t.life = { s.life with endDue := true } ∧
      (bitOf s.life.grantRights 3 = true ∨ bitOf s.life.grantRights 4 = true → 2 ≤ t.rst.dueReach ∧ bitOf t.rst.dueCauses 10 = true) ∧
      t = { s with life := t.life, rst := t.rst }) ∧
    (s.life.granted = false ∨ s.rst.seconds < s.life.grantEnds → exec .grantExpiry s = .next s) ∧
    (s.life.certState = 1 → s.life.verdict = none → ∃ t, exec .certCheckEnd s = .next t ∧ t.life.verdict = some s.certCheck ∧
      if s.certCheck = 0 ∧ at8 16 s.certBytes = 1 ∧ (bitOf (at8 20 s.certBytes) 3 = true ∨ bitOf (at8 20 s.certBytes) 4 = true) then
        t.keys.cache = [] ∧ (∀ j ∈ t.jobs, j.key1 = none ∧ j.key2 = none ∧ j.heartKey = [] ∧ j.draws = []) ∧ t.keys.hearts = s.keys.hearts ∧ t.keys.baseSecret = s.keys.baseSecret ∧
          (bitOf (at8 20 s.certBytes) 3 = true → t.keys.baseKey = none ∧ t.keys.heartImageKey = none)
      else t = State.event { s with life := { s.life with verdict := some s.certCheck } } 0x2801) ∧
    (s.life.certState ≠ 1 ∨ s.life.verdict.isSome → exec .certCheckEnd s = .next s)


/-! ## Resets and power -/

/-- Sources of a reset. A FUNCTION source of the host holds a unit that serves in a FUNCTION reset, with its bit in RST_CAUSE: no job, no ring pair, no message that waits, the host link at reset with its FIFOs; the heart table, the stored objects of the key cache, the vault's tree and the fuses stay. In STANDBY, or while a reset is held, its bit alone is recorded; on battery power it does nothing, as a link that was not up. RESET_N low is a WARM reset, and held low a COLD one in the place of it. A committed tree that was to come into force does so, and changes that have their acknowledgements stand. The first rail to fall wipes the working keys and holds the unit in a COLD reset, with bit 17; with all rails down it is on battery power, the base secret with it. Once every rail is good the start may begin, with bit 16 where the unit was on battery power or first powered up. -/
def Obligations.ResetSourcesHoldTheUnit : Prop :=
  ∀ s : State,
    (∀ c b, (c = .perstNAssert ∧ b = 0) ∨ (c = .pcieHotReset ∧ b = 1) ∨ (c = .pcieLinkDown ∧ b = 2 ∧ s.host.linkUp = true) ∨ (c = .functionLevelReset ∧ b = 3) →
      (s.rst.power = .run → s.rst.starting ≤ 1 → ∃ t, exec c s = .next t ∧ t.rst.power = .held ∧ t.rst.reach = 1 ∧ t.rst.causes = s.rst.causes ||| 2 ^ b ∧
        t.jobs = [] ∧ t.rings = [] ∧ t.inbox = [] ∧ t.host = s.host.ended ∧ t.keys.hearts = s.keys.hearts ∧ t.keys.baseSecret = s.keys.baseSecret ∧
        (∀ o ∈ s.keys.cache, o.session = false → o ∈ t.keys.cache) ∧ t.vault.tree = s.vault.tree ∧ t.vault.root = s.vault.root ∧ t.ent.drbg = s.ent.drbg ∧
        t.life.fuses = s.life.fuses ∧ t.tick = s.tick) ∧
      (s.rst.power = .standby → exec c s = .next { s with rst := { s.rst with causes := s.rst.causes ||| 2 ^ b } }) ∧
      (s.rst.power = .held → 1 ≤ s.rst.reach → exec c s = .next { s with rst := { s.rst with causes := s.rst.causes ||| 2 ^ b, dueReach := 0, dueCauses := 0 } }) ∧
      (s.rst.power = .battery → exec c s = .next s)) ∧
    (s.host.linkUp = false → exec .pcieLinkDown s = .next s) ∧
    (s.rst.power = .run → s.rst.starting ≤ 2 → ∃ t, exec .resetNLow s = .next t ∧ t.rst.power = .held ∧ t.rst.reach = 2 ∧ t.rst.resetNLow = true ∧
      t.rst.causes = s.rst.causes ||| 2 ^ 8 ∧ t.jobs = [] ∧ t.rings = [] ∧ t.wm = [] ∧ t.chk = [] ∧ t.keys.hearts = [] ∧ t.keys.cache = [] ∧ t.keys.baseKey = none ∧
      t.ent.drbg.live = false ∧ t.keys.baseSecret = s.keys.baseSecret ∧ t.vault.coming = none ∧
      ((∀ o ∈ s.chain.own, o.applyAt = none) → t.keys.images = s.keys.images ∧ t.keys.pins = s.keys.pins) ∧
      (s.vault.coming = none → t.vault.tree = s.vault.tree ∧ t.vault.root = s.vault.root) ∧
      (∀ c, s.vault.coming = some c → t.vault.tree = c.tree ∧ t.vault.root = c.root) ∧ t.life.fuses = s.life.fuses ∧ t.tick = s.tick) ∧
    (s.rst.power = .battery → exec .resetNLow s = .next { s with rst := { s.rst with resetNLow := true } }) ∧
    (s.rst.resetNLow = false → exec .resetNLong s = .next s) ∧
    (s.rst.resetNLow = true → s.rst.power ≠ .battery → s.rst.reach ≤ 3 → s.rst.starting ≤ 3 → ∃ t, exec .resetNLong s = .next t ∧ t.rst.power = .held ∧
      t.rst.reach = 3 ∧ bitOf t.rst.causes 18 = true ∧ bitOf t.rst.causes 8 = false ∧ t.keys.baseSecret = s.keys.baseSecret ∧ t.life.fuses = s.life.fuses) ∧
    (s.rst.power = .battery → ∀ r, exec (.brownOut r) s = .next s) ∧
    (s.rst.power ≠ .battery → s.rst.railsDown ≠ [] → ∀ r, ∃ t, exec (.brownOut r) s = .next t ∧ t = { s with rst := { s.rst with railsDown := t.rst.railsDown, power := t.rst.power } } ∧
      (∀ x, x ∈ t.rst.railsDown ↔ x = r ∨ x ∈ s.rst.railsDown) ∧ ((∀ x, x ∈ t.rst.railsDown) → t.rst.power = .battery) ∧
      ((∃ x, x ∉ t.rst.railsDown) → t.rst.power = s.rst.power)) ∧
    (s.rst.power ≠ .battery → s.rst.railsDown = [] → s.rst.reach ≤ 3 → s.rst.starting ≤ 3 → ∀ r, ∃ t, exec (.brownOut r) s = .next t ∧
      t.rst.power = .held ∧ t.rst.reach = 3 ∧ t.rst.railsDown = [r] ∧ bitOf t.rst.causes 17 = true ∧
      t.tamper.alarms = [] ∧ t.keys.cache = [] ∧ t.ent.drbg.live = false ∧ ((∀ x ∈ s.tamper.alarms, x.1 ≤ 10 → bitOf x.2 6 = false) → t.keys.baseSecret = s.keys.baseSecret) ∧
      (s.vault.coming = none → t.vault.tree = s.vault.tree) ∧ t.life.fuses = s.life.fuses) ∧
    (∀ rails tied, s.rst.power = .battery ∨ (s.rst.power = .held ∧ s.rst.reach = 3) → (∀ r, r ∈ rails) → exec (.powerOn rails tied) s = .next { s with rst :=
      let fresh := s.rst.power = .battery ∨ s.rst.railsDown = []
      { s.rst with
        power := .held, reach := 3, railsDown := [], causes := if fresh then s.rst.causes ||| 2 ^ 16 else s.rst.causes, testMode := !tied, resetNLow := false,
        powerCycles := if fresh then (s.rst.powerCycles + 1) % 2 ^ 24 else s.rst.powerCycles } }) ∧
    (∀ rails tied r, r ∉ rails ∨ s.rst.power = .run ∨ s.rst.power = .standby → exec (.powerOn rails tied) s = .next s)

/-- Starts. A COLD start, out of a COLD reset with TEST_MODE tied, counts ticks from 0, reads the strap (code 0 where no code has 12 of 16 conversions) and, with a good ROM and image, runs on until the DRBG serves; a WARM start keeps ticks and strap. With no good image, or a bad ROM, the unit stays in reset with a battery log record; a SCRAPPED unit stops. A FUNCTION start serves at once: RST_CAUSE and RST_LAST_REACH stand, Keeper staging keeps its words, all other working memory is scrubbed. Out of any other state a start does nothing. Enough frames without work make the unit idle. -/
def Obligations.StartsLeadToService : Prop :=
  ∀ s : State,
    (∀ conv b, s.rst.power = .held → s.rst.reach = 3 → s.rst.railsDown = [] → s.rst.testMode = false → s.rst.scrapped = false →
      (b.romOk = true → s.lifeCycle ≠ 4 → s.begunTransition = none → imageOk b.slotA = true → imageOk b.slotB = true → ∃ t, exec (.coldStart conv b) s = .next t ∧
        t.rst.power = .run ∧ t.rst.starting = 3 ∧ t.rst.awaitDrbg = true ∧ t.tick = 0 ∧ t.window = false ∧ t.rst.strap = (strapCode conv).getD 0 ∧
        t.rst.bootFallback = false ∧ t.wm = [] ∧ t.keeper.running = true ∧ t.life.fuses = s.life.fuses ∧ t.keys = s.keys) ∧
      (b.romOk = true → s.lifeCycle = 4 → ∃ t, exec (.coldStart conv b) s = .next t ∧ t.rst.scrapped = true ∧ t.rst.power = .held) ∧
      (b.romOk = false ∨ (s.lifeCycle ≠ 4 ∧ imageOk b.slotA = false ∧ imageOk b.slotB = false) → ∃ t, exec (.coldStart conv b) s = .next t ∧
        t.rst.power = .held ∧ t.rst.reach = 3 ∧ t.tamper.batLog ≠ [])) ∧
    (∀ conv b, s.rst.power ≠ .held ∨ s.rst.reach ≠ 3 ∨ s.rst.railsDown ≠ [] ∨ s.rst.testMode = true ∨ s.rst.scrapped = true → exec (.coldStart conv b) s = .next s) ∧
    (∀ b, s.rst.power = .held → s.rst.reach = 2 → s.rst.scrapped = false → b.romOk = true → s.lifeCycle ≠ 4 → s.begunTransition = none →
      imageOk b.slotA = true → imageOk b.slotB = true → ∃ t, exec (.warmStart b) s = .next t ∧ t.rst.power = .run ∧ t.rst.starting = 2 ∧
        t.rst.awaitDrbg = true ∧ t.tick = s.tick ∧ t.rst.strap = s.rst.strap ∧ t.wm = [] ∧ t.keeper.running = true ∧ t.keys = s.keys) ∧
    (∀ b, s.rst.power ≠ .held ∨ s.rst.reach ≠ 2 ∨ s.rst.scrapped = true → exec (.warmStart b) s = .next s) ∧
    (s.rst.power = .held → s.rst.reach = 1 → s.rst.fromStandby = false → s.dict.nums.Pairwise (fun a b => a.1 < b.1) → Memory.wf s.rest s.wm = true →
      ∃ t, exec .functionStart s = .next t ∧ t.rst.power = .run ∧ t.rst.readyDue = true ∧ t.rst.causes = 0 ∧ t.num Key.RST_CAUSE = s.rst.causes ∧
        t.num Key.RST_LAST_REACH = 1 ∧ t.keeper.coresRunning = true ∧ (∀ w, 0x20000 ≤ w → w < 0x30000 → t.word w = s.word w) ∧
        (∀ w, w < 0x20000 ∨ 0x30000 ≤ w → t.word w = s.rest w) ∧ t.keys = s.keys ∧ t.vault = s.vault ∧ t.lanes = s.lanes) ∧
    (s.rst.power ≠ .held ∨ s.rst.reach ≠ 1 → exec .functionStart s = .next s) ∧
    (s.rst.power = .run → s.num Key.RST_IDLE_FRAMES ≤ s.sched.idleFrames → exec .idleEntry s = .next { s with sched := { s.sched with idle := true } }) ∧
    (s.rst.power ≠ .run ∨ s.sched.idleFrames < s.num Key.RST_IDLE_FRAMES → exec .idleEntry s = .next s)

/-! ## The window and the period -/

/-- The housekeeping window. Where ticks stand still it does nothing; during a start and in a WARM reset it hands over what waits, writes records of the sillage log, leaves at most 1,024 waiting, and, where no message, response or reseed waits, changes nothing else but what they send and count. In a unit that serves it is marked as begun, and a write acknowledged in the frame takes effect in it (shown for an entry of the scheduler, in a unit with nothing else to do). The armed switch takes effect at its tick: the new period stands. -/
def Obligations.WindowAppliesAndPeriodSwitches : Prop :=
  ∀ s : State,
    (s.noTick = true → exec .housekeepingWindow s = .next s) ∧
    (s.noTick = false → ∃ t, exec .housekeepingWindow s = .next t ∧ t.window = true ∧ t.tick = s.tick ∧ t.pending = s.pending) ∧
    (s.noTick = false → s.rst.starting ≠ 0 ∨ (s.rst.power = .held ∧ s.rst.reach = 2) → ∃ t, exec .housekeepingWindow s = .next t ∧
      t.sil.queue.length ≤ 1024 ∧ t.inbox = [] ∧ (s.inbox = [] → s.tamper.respond = [] → s.ent.reseedTest = none →
        t = { s with window := true, sil := t.sil, chain := t.chain, dict := t.dict })) ∧
    (∀ k v, s.rst.power = .run → s.rst.scrapped = false → s.rst.starting = 0 → s.jobs = [] → s.slices = [] → s.keeper.blocks = [] → s.tamper.respond = [] → s.inbox = [] →
      s.keeper.guardOn = true → s.vault.group = [] → s.keys.heartsLost = [] → s.ent.reseedTest = none → s.host.tunnel.ownDue = [] →
      s.dict.pendingWrites = [] → s.dict.acked = [(k, .num v)] → k / 256 = 0x1200 → s.dict.nums.Pairwise (fun a b => a.1 < b.1) →
        ∃ t, exec .housekeepingWindow s = .next t ∧ t.num k = v ∧ t.dict.acked = [] ∧ t.keys = s.keys ∧ t.vault = s.vault) ∧
    (s.switchArmed = false ∨ s.tick < s.num Key.SEI_SWITCH_TICK → exec .periodSwitch s = .next s) ∧
    (s.switchArmed = true → s.num Key.SEI_SWITCH_TICK ≤ s.tick → ∃ t, exec .periodSwitch s = .next t ∧ t.tick = s.tick ∧ t.pending = s.pending ∧ t.window = s.window ∧
      (s.live = false ∨ s.serves = false ∨ (s.jobs = [] ∧ s.chk = []) → s.dict.nums.Pairwise (fun a b => a.1 < b.1) →
        t.num Key.SEI_PERIOD = s.num Key.SEI_PERIOD_NEXT ∧ (∀ k, k ≠ Key.SEI_PERIOD → t.num k = s.num k) ∧ t.jobs = s.jobs ∧ t.keys = s.keys))

/-! ## Reset and working memory -/

/-- After reset: no ring pair is enabled, no job is held, MSI-X vectors are masked, lanes 0 to 22 are active and lane 23 is the spare, both wellsprings and the supply are starting, no scan runs, READY reads 0, the life cycle is INTEGRATOR, the shipped region map stands, the progress marks are in order, no two regions of the guard overlap, and every word of working memory has colour 15 and data 0. -/
def Obligations.ResetLeavesSpecValues : Prop :=
  let s := State.reset
  (∀ n, (s.ring n).enabled = false ∧ (s.ring n).irqEnable = true) ∧ s.jobs = [] ∧ (∀ v, (s.msixVector v).masked = true) ∧
    (∀ n < 23, (s.pkLane n).role = .active) ∧ (s.pkLane 23).role = .spare ∧ (∀ n, (s.symLane n).fenced = false) ∧
    s.ent.w0.state = .starting ∧ s.ent.w1.state = .starting ∧ s.ent.supply = 0 ∧ (∀ u, (s.chkUnit u).state = 0) ∧ s.host.ready = false ∧
    s.lifeCycle = 1 ∧ s.life.fuses.ordered = true ∧ s.keeper.regions = Region.shipped ∧ overlapOf s.keeper.regions = none ∧ Memory.wf s.rest s.wm = true ∧ (∀ w, s.word w = ⟨15, 0⟩) ∧ s.pending = []

/-- Working memory. A word written reads back, every other word stays, and the canonical form is kept; bytes stored read back, give every word they touch the colour they are stored with, and leave every other word as it was. -/
def Obligations.WorkingMemoryReadsBack : Prop :=
  ∀ s : State, Memory.wf s.rest s.wm = true →
    (∀ i w, (s.setWord i w).word i = w ∧ (∀ j, j ≠ i → (s.setWord i w).word j = s.word j) ∧ Memory.wf (s.setWord i w).rest (s.setWord i w).wm = true) ∧
    ∀ c a bs, let t := s.wmStore c a bs
      (∀ i, (h : i < bs.length) → t.wmByte (a + i) = bs[i]) ∧
      (∀ b, b < a ∨ a + bs.length ≤ b → t.wmByte b = s.wmByte b) ∧
      (∀ i < bs.length, (t.word ((a + i) / 4)).colour = c) ∧
      (∀ w, 4 * w + 4 ≤ a ∨ a + bs.length ≤ 4 * w → t.word w = s.word w) ∧
      Memory.wf t.rest t.wm = true
end

