-- ==== Sys2Proof/Laws/Ite.lean ====
section
/-! SUPPORT. The queue, the tick number and the fuses through a choice and through a fold. -/

namespace Sys2Proof.Machine

@[simp] theorem ite_pending (c : Prop) [Decidable c] (a b : State) :
    (if c then a else b).pending = if c then a.pending else b.pending := apply_ite _ _ _ _
@[simp] theorem ite_tick (c : Prop) [Decidable c] (a b : State) :
    (if c then a else b).tick = if c then a.tick else b.tick := apply_ite _ _ _ _
@[simp] theorem ite_fuses (c : Prop) [Decidable c] (a b : State) :
    (if c then a else b).life.fuses = if c then a.life.fuses else b.life.fuses := apply_ite (fun s : State => s.life.fuses) _ _ _

@[simp] theorem foldl_pending {α : Type} {f : State → α → State} (h : ∀ st x, (f st x).pending = st.pending) (l : List α) (s : State) :
    (l.foldl f s).pending = s.pending := by
  induction l generalizing s with
  | nil => rfl
  | cons x l ih => rw [List.foldl_cons, ih, h]
@[simp] theorem foldl_tick {α : Type} {f : State → α → State} (h : ∀ st x, (f st x).tick = st.tick) (l : List α) (s : State) :
    (l.foldl f s).tick = s.tick := by
  induction l generalizing s with
  | nil => rfl
  | cons x l ih => rw [List.foldl_cons, ih, h]
@[simp] theorem foldl_fuses {α : Type} {f : State → α → State} (h : ∀ st x, (f st x).life.fuses = st.life.fuses) (l : List α) (s : State) :
    (l.foldl f s).life.fuses = s.life.fuses := by
  induction l generalizing s with
  | nil => rfl
  | cons x l ih => rw [List.foldl_cons, ih, h]

@[simp] theorem foldl_pending1 {α β : Type} {f : State × β → α → State × β} (h : ∀ a x, (f a x).1.pending = a.1.pending) (l : List α) (a : State × β) :
    (l.foldl f a).1.pending = a.1.pending := by
  induction l generalizing a with
  | nil => rfl
  | cons x l ih => rw [List.foldl_cons, ih, h]
@[simp] theorem foldl_tick1 {α β : Type} {f : State × β → α → State × β} (h : ∀ a x, (f a x).1.tick = a.1.tick) (l : List α) (a : State × β) :
    (l.foldl f a).1.tick = a.1.tick := by
  induction l generalizing a with
  | nil => rfl
  | cons x l ih => rw [List.foldl_cons, ih, h]
@[simp] theorem foldl_fuses1 {α β : Type} {f : State × β → α → State × β} (h : ∀ a x, (f a x).1.life.fuses = a.1.life.fuses) (l : List α) (a : State × β) :
    (l.foldl f a).1.life.fuses = a.1.life.fuses := by
  induction l generalizing a with
  | nil => rfl
  | cons x l ih => rw [List.foldl_cons, ih, h]
@[simp] theorem foldl_pending2 {α β : Type} {f : β × State → α → β × State} (h : ∀ a x, (f a x).2.pending = a.2.pending) (l : List α) (a : β × State) :
    (l.foldl f a).2.pending = a.2.pending := by
  induction l generalizing a with
  | nil => rfl
  | cons x l ih => rw [List.foldl_cons, ih, h]
@[simp] theorem foldl_tick2 {α β : Type} {f : β × State → α → β × State} (h : ∀ a x, (f a x).2.tick = a.2.tick) (l : List α) (a : β × State) :
    (l.foldl f a).2.tick = a.2.tick := by
  induction l generalizing a with
  | nil => rfl
  | cons x l ih => rw [List.foldl_cons, ih, h]
@[simp] theorem foldl_fuses2 {α β : Type} {f : β × State → α → β × State} (h : ∀ a x, (f a x).2.life.fuses = a.2.life.fuses) (l : List α) (a : β × State) :
    (l.foldl f a).2.life.fuses = a.2.life.fuses := by
  induction l generalizing a with
  | nil => rfl
  | cons x l ih => rw [List.foldl_cons, ih, h]

@[simp] theorem ite_window (c : Prop) [Decidable c] (a b : State) :
    (if c then a else b).window = if c then a.window else b.window := apply_ite _ _ _ _
@[simp] theorem foldl_window {α : Type} {f : State → α → State} (h : ∀ st x, (f st x).window = st.window) (l : List α) (s : State) :
    (l.foldl f s).window = s.window := by
  induction l generalizing s with
  | nil => rfl
  | cons x l ih => rw [List.foldl_cons, ih, h]
@[simp] theorem foldl_window1 {α β : Type} {f : State × β → α → State × β} (h : ∀ a x, (f a x).1.window = a.1.window) (l : List α) (a : State × β) :
    (l.foldl f a).1.window = a.1.window := by
  induction l generalizing a with
  | nil => rfl
  | cons x l ih => rw [List.foldl_cons, ih, h]
@[simp] theorem foldl_window2 {α β : Type} {f : β × State → α → β × State} (h : ∀ a x, (f a x).2.window = a.2.window) (l : List α) (a : β × State) :
    (l.foldl f a).2.window = a.2.window := by
  induction l generalizing a with
  | nil => rfl
  | cons x l ih => rw [List.foldl_cons, ih, h]

end Sys2Proof.Machine
end

