-- ==== Sys2Proof/Laws/Kept.lean ====
section
/-! SUPPORT. What leaves the queue, the tick number and the fuses as they were: one lemma for each operation. -/

namespace Sys2Proof.Machine

set_option linter.unusedTactic false
set_option linter.unreachableTactic false
set_option linter.unnecessarySeqFocus false

@[simp] theorem State.setRing_kept (s : State) (n : Nat) (r : RingPair) : (State.setRing s n r).pending = s.pending ∧ (State.setRing s n r).tick = s.tick ∧ (State.setRing s n r).life.fuses = s.life.fuses := by
  simp [State.setRing]

@[simp] theorem State.updRing_kept (s : State) (n : Nat) (f : RingPair → RingPair) : (State.updRing s n f).pending = s.pending ∧ (State.updRing s n f).tick = s.tick ∧ (State.updRing s n f).life.fuses = s.life.fuses := by
  simp [State.updRing]

@[simp] theorem State.setSlice_kept (s : State) (n : Nat) (c : SliceCtx) : (State.setSlice s n c).pending = s.pending ∧ (State.setSlice s n c).tick = s.tick ∧ (State.setSlice s n c).life.fuses = s.life.fuses := by
  simp [State.setSlice]

@[simp] theorem State.updSlice_kept (s : State) (n : Nat) (f : SliceCtx → SliceCtx) : (State.updSlice s n f).pending = s.pending ∧ (State.updSlice s n f).tick = s.tick ∧ (State.updSlice s n f).life.fuses = s.life.fuses := by
  simp [State.updSlice]

@[simp] theorem State.setPk_kept (s : State) (n : Nat) (l : PkLane) : (State.setPk s n l).pending = s.pending ∧ (State.setPk s n l).tick = s.tick ∧ (State.setPk s n l).life.fuses = s.life.fuses := by
  simp [State.setPk]

@[simp] theorem State.updPk_kept (s : State) (n : Nat) (f : PkLane → PkLane) : (State.updPk s n f).pending = s.pending ∧ (State.updPk s n f).tick = s.tick ∧ (State.updPk s n f).life.fuses = s.life.fuses := by
  simp [State.updPk]

@[simp] theorem State.setSym_kept (s : State) (n : Nat) (l : SymLane) : (State.setSym s n l).pending = s.pending ∧ (State.setSym s n l).tick = s.tick ∧ (State.setSym s n l).life.fuses = s.life.fuses := by
  simp [State.setSym]

@[simp] theorem State.updSym_kept (s : State) (n : Nat) (f : SymLane → SymLane) : (State.updSym s n f).pending = s.pending ∧ (State.updSym s n f).tick = s.tick ∧ (State.updSym s n f).life.fuses = s.life.fuses := by
  simp [State.updSym]

@[simp] theorem State.setCluster_kept (s : State) (n : Nat) (c : Cluster) : (State.setCluster s n c).pending = s.pending ∧ (State.setCluster s n c).tick = s.tick ∧ (State.setCluster s n c).life.fuses = s.life.fuses := by
  simp [State.setCluster]

@[simp] theorem State.updCluster_kept (s : State) (n : Nat) (f : Cluster → Cluster) : (State.updCluster s n f).pending = s.pending ∧ (State.updCluster s n f).tick = s.tick ∧ (State.updCluster s n f).life.fuses = s.life.fuses := by
  simp [State.updCluster]

@[simp] theorem State.setHeart_kept (s : State) (n : Nat) (h : Heart) : (State.setHeart s n h).pending = s.pending ∧ (State.setHeart s n h).tick = s.tick ∧ (State.setHeart s n h).life.fuses = s.life.fuses := by
  simp [State.setHeart]

@[simp] theorem State.setImage_kept (s : State) (n : Nat) (i : Option HeartImage) : (State.setImage s n i).pending = s.pending ∧ (State.setImage s n i).tick = s.tick ∧ (State.setImage s n i).life.fuses = s.life.fuses := by
  simp [State.setImage]

@[simp] theorem State.setChk_kept (s : State) (n : Nat) (u : CheckUnit) : (State.setChk s n u).pending = s.pending ∧ (State.setChk s n u).tick = s.tick ∧ (State.setChk s n u).life.fuses = s.life.fuses := by
  simp [State.setChk]

@[simp] theorem State.updChk_kept (s : State) (n : Nat) (f : CheckUnit → CheckUnit) : (State.updChk s n f).pending = s.pending ∧ (State.updChk s n f).tick = s.tick ∧ (State.updChk s n f).life.fuses = s.life.fuses := by
  simp [State.updChk]

@[simp] theorem State.setBlock_kept (s : State) (n : Nat) (b : Block) : (State.setBlock s n b).pending = s.pending ∧ (State.setBlock s n b).tick = s.tick ∧ (State.setBlock s n b).life.fuses = s.life.fuses := by
  simp [State.setBlock]

@[simp] theorem State.updBlock_kept (s : State) (n : Nat) (f : Block → Block) : (State.updBlock s n f).pending = s.pending ∧ (State.updBlock s n f).tick = s.tick ∧ (State.updBlock s n f).life.fuses = s.life.fuses := by
  simp [State.updBlock]

@[simp] theorem State.setTmpSrc_kept (s : State) (n : Nat) (t : TamperSrc) : (State.setTmpSrc s n t).pending = s.pending ∧ (State.setTmpSrc s n t).tick = s.tick ∧ (State.setTmpSrc s n t).life.fuses = s.life.fuses := by
  simp [State.setTmpSrc]

@[simp] theorem State.setMsix_kept (s : State) (n : Nat) (v : MsixVector) : (State.setMsix s n v).pending = s.pending ∧ (State.setMsix s n v).tick = s.tick ∧ (State.setMsix s n v).life.fuses = s.life.fuses := by
  simp [State.setMsix]

@[simp] theorem State.setDrive_kept (s : State) (p : Nat) (d : Drive) : (State.setDrive s p d).pending = s.pending ∧ (State.setDrive s p d).tick = s.tick ∧ (State.setDrive s p d).life.fuses = s.life.fuses := by
  simp [State.setDrive]

@[simp] theorem State.updDrive_kept (s : State) (p : Nat) (f : Drive → Drive) : (State.updDrive s p f).pending = s.pending ∧ (State.updDrive s p f).tick = s.tick ∧ (State.updDrive s p f).life.fuses = s.life.fuses := by
  simp [State.updDrive]

@[simp] theorem State.setWsp_kept (s : State) (n : Nat) (w : Wellspring) : (State.setWsp s n w).pending = s.pending ∧ (State.setWsp s n w).tick = s.tick ∧ (State.setWsp s n w).life.fuses = s.life.fuses := by
  simp [State.setWsp]

@[simp] theorem State.setWord_kept (s : State) (i : Nat) (w : Word36) : (State.setWord s i w).pending = s.pending ∧ (State.setWord s i w).tick = s.tick ∧ (State.setWord s i w).life.fuses = s.life.fuses := by
  simp [State.setWord]

@[simp] theorem State.setWords_kept (s : State) (a : Nat) (ws : List Word36) : (State.setWords s a ws).pending = s.pending ∧ (State.setWords s a ws).tick = s.tick ∧ (State.setWords s a ws).life.fuses = s.life.fuses := by
  simp [State.setWords]

@[simp] theorem State.scrubWords_kept (s : State) (p : Nat → Bool) : (State.scrubWords s p).pending = s.pending ∧ (State.scrubWords s p).tick = s.tick ∧ (State.scrubWords s p).life.fuses = s.life.fuses := by
  simp [State.scrubWords]

@[simp] theorem State.wmStore_kept (s : State) (c a : Nat) (bs : Bytes) : (State.wmStore s c a bs).pending = s.pending ∧ (State.wmStore s c a bs).tick = s.tick ∧ (State.wmStore s c a bs).life.fuses = s.life.fuses := by
  simp [State.wmStore]

@[simp] theorem State.setNum_kept (s : State) (k v : Nat) : (State.setNum s k v).pending = s.pending ∧ (State.setNum s k v).tick = s.tick ∧ (State.setNum s k v).life.fuses = s.life.fuses := by
  simp [State.setNum]

@[simp] theorem State.setOct_kept (s : State) (k : Nat) (v : Bytes) : (State.setOct s k v).pending = s.pending ∧ (State.setOct s k v).tick = s.tick ∧ (State.setOct s k v).life.fuses = s.life.fuses := by
  simp [State.setOct]

@[simp] theorem State.count_kept (s : State) (k : Nat) (n : Nat) : (State.count s k n).pending = s.pending ∧ (State.count s k n).tick = s.tick ∧ (State.count s k n).life.fuses = s.life.fuses := by
  simp [State.count]

@[simp] theorem State.ceClear_kept (s : State) (key tick : Nat) : (State.ceClear s key tick).pending = s.pending ∧ (State.ceClear s key tick).tick = s.tick ∧ (State.ceClear s key tick).life.fuses = s.life.fuses := by
  simp [State.ceClear]

@[simp] theorem State.event_kept (s : State) (code : Nat) : (State.event s code).pending = s.pending ∧ (State.event s code).tick = s.tick ∧ (State.event s code).life.fuses = s.life.fuses := by
  simp [State.event]

@[simp] theorem State.eventSent_kept (s : State) (code : Nat) : (State.eventSent s code).pending = s.pending ∧ (State.eventSent s code).tick = s.tick ∧ (State.eventSent s code).life.fuses = s.life.fuses := by
  simp [State.eventSent]

@[simp] theorem State.eventNext_kept (s : State) (code : Nat) : (State.eventNext s code).pending = s.pending ∧ (State.eventNext s code).tick = s.tick ∧ (State.eventNext s code).life.fuses = s.life.fuses := by
  simp [State.eventNext]

@[simp] theorem State.eventOf_kept (s : State) (rule : Nat) : (State.eventOf s rule).pending = s.pending ∧ (State.eventOf s rule).tick = s.tick ∧ (State.eventOf s rule).life.fuses = s.life.fuses := by
  simp [State.eventOf]

@[simp] theorem State.raise_kept (s : State) (src : Nat) : (State.raise s src).pending = s.pending ∧ (State.raise s src).tick = s.tick ∧ (State.raise s src).life.fuses = s.life.fuses := by
  simp [State.raise]

@[simp] theorem State.emit_kept (s : State) (o : Sent) : (State.emit s o).pending = s.pending ∧ (State.emit s o).tick = s.tick ∧ (State.emit s o).life.fuses = s.life.fuses := by
  simp [State.emit]

@[simp] theorem State.takeNat_kept (s : State) : ((State.takeNat s).2).pending = s.pending ∧ ((State.takeNat s).2).tick = s.tick ∧ ((State.takeNat s).2).life.fuses = s.life.fuses := by
  simp [State.takeNat]

@[simp] theorem State.takeBytes_kept (s : State) (n : Nat) : ((State.takeBytes s n).2).pending = s.pending ∧ ((State.takeBytes s n).2).tick = s.tick ∧ ((State.takeBytes s n).2).life.fuses = s.life.fuses := by
  simp [State.takeBytes]

@[simp] theorem State.takeBool_kept (s : State) : ((State.takeBool s).2).pending = s.pending ∧ ((State.takeBool s).2).tick = s.tick ∧ ((State.takeBool s).2).life.fuses = s.life.fuses := by
  simp [State.takeBool]

@[simp] theorem State.resetDue_kept (s : State) (reach bit : Nat) : (State.resetDue s reach bit).pending = s.pending ∧ (State.resetDue s reach bit).tick = s.tick ∧ (State.resetDue s reach bit).life.fuses = s.life.fuses := by
  simp [State.resetDue]

@[simp] theorem State.guardFault_kept (s : State) (cause : Nat) (region second master : Option Nat) : (State.guardFault s cause region second master).pending = s.pending ∧ (State.guardFault s cause region second master).tick = s.tick ∧ (State.guardFault s cause region second master).life.fuses = s.life.fuses := by
  simp [State.guardFault]

@[simp] theorem State.guarded_kept (s : State) (c : Instr) (f : State → State)
    (h : ∀ st, (f st).pending = st.pending ∧ (f st).tick = st.tick ∧ (f st).life.fuses = st.life.fuses) :
    (s.guarded c f).pending = s.pending ∧ (s.guarded c f).tick = s.tick ∧ (s.guarded c f).life.fuses = s.life.fuses := by
  simp only [State.guarded]
  split <;> simp [h]

@[simp] theorem State.setJob_kept (s : State) (j : Job) : (State.setJob s j).pending = s.pending ∧ (State.setJob s j).tick = s.tick ∧ (State.setJob s j).life.fuses = s.life.fuses := by
  simp [State.setJob]

@[simp] theorem State.updJob_kept (s : State) (id : Nat) (f : Job → Job) : (State.updJob s id f).pending = s.pending ∧ (State.updJob s id f).tick = s.tick ∧ (State.updJob s id f).life.fuses = s.life.fuses := by
  simp [State.updJob]

@[simp] theorem State.dropJob_kept (s : State) (id : Nat) : (State.dropJob s id).pending = s.pending ∧ (State.dropJob s id).tick = s.tick ∧ (State.dropJob s id).life.fuses = s.life.fuses := by
  simp [State.dropJob]

@[simp] theorem State.offLane_kept (s : State) (id : Nat) : (State.offLane s id).pending = s.pending ∧ (State.offLane s id).tick = s.tick ∧ (State.offLane s id).life.fuses = s.life.fuses := by
  simp [State.offLane]

@[simp] theorem State.endLeave_kept (s : State) (id : Nat) : (State.endLeave s id).pending = s.pending ∧ (State.endLeave s id).tick = s.tick ∧ (State.endLeave s id).life.fuses = s.life.fuses := by
  simp [State.endLeave]

@[simp] theorem State.freeWindows_kept (s : State) (id : Nat) : (State.freeWindows s id).pending = s.pending ∧ (State.freeWindows s id).tick = s.tick ∧ (State.freeWindows s id).life.fuses = s.life.fuses := by
  simp [State.freeWindows]

@[simp] theorem State.stopJob_kept (s : State) (id : Nat) : (State.stopJob s id).pending = s.pending ∧ (State.stopJob s id).tick = s.tick ∧ (State.stopJob s id).life.fuses = s.life.fuses := by
  simp [State.stopJob]

@[simp] theorem State.finish_kept (s : State) (id status result due : Nat) : (State.finish s id status result due).pending = s.pending ∧ (State.finish s id status result due).tick = s.tick ∧ (State.finish s id status result due).life.fuses = s.life.fuses := by
  simp [State.finish]

@[simp] theorem State.force_kept (s : State) (id status result : Nat) : (State.force s id status result).pending = s.pending ∧ (State.force s id status result).tick = s.tick ∧ (State.force s id status result).life.fuses = s.life.fuses := by
  simp [State.force]

theorem State.debit_kept (s : State) (c : Nat) : ∀ t, State.debit s c = some t → t.pending = s.pending ∧ t.tick = s.tick ∧ t.life.fuses = s.life.fuses := by
  simp [State.debit]

@[simp] theorem State.seen_kept (s : State) : (s.seen).pending = s.pending ∧ (s.seen).tick = s.tick := by
  simp only [State.seen]
  split <;> exact ⟨rfl, rfl⟩

@[simp] theorem State.show_kept (s : State) : (State.show s).pending = s.pending ∧ (State.show s).tick = s.tick ∧ (State.show s).life.fuses = s.life.fuses := by
  simp [State.show]

@[simp] theorem State.showSlice_kept (s : State) (n : Nat) : (State.showSlice s n).pending = s.pending ∧ (State.showSlice s n).tick = s.tick ∧ (State.showSlice s n).life.fuses = s.life.fuses := by
  simp [State.showSlice]

@[simp] theorem State.orphanOwn_kept (s : State) (id : Nat) : (State.orphanOwn s id).pending = s.pending ∧ (State.orphanOwn s id).tick = s.tick ∧ (State.orphanOwn s id).life.fuses = s.life.fuses := by
  simp [State.orphanOwn]

@[simp] theorem State.abandon_kept (s : State) (id : Nat) : (State.abandon s id).pending = s.pending ∧ (State.abandon s id).tick = s.tick ∧ (State.abandon s id).life.fuses = s.life.fuses := by
  simp [State.abandon]

@[simp] theorem State.scrubJob_kept (s : State) (j : Job) : (State.scrubJob s j).pending = s.pending ∧ (State.scrubJob s j).tick = s.tick ∧ (State.scrubJob s j).life.fuses = s.life.fuses := by
  simp [State.scrubJob]

@[simp] theorem State.wipeSessions_kept (s : State) (slice : Nat) : (State.wipeSessions s slice).pending = s.pending ∧ (State.wipeSessions s slice).tick = s.tick ∧ (State.wipeSessions s slice).life.fuses = s.life.fuses := by
  simp [State.wipeSessions]

@[simp] theorem State.wipePage_kept (s : State) (slice : Nat) : (State.wipePage s slice).pending = s.pending ∧ (State.wipePage s slice).tick = s.tick ∧ (State.wipePage s slice).life.fuses = s.life.fuses := by
  simp [State.wipePage]

@[simp] theorem State.dropSliceJobs_kept (s : State) (slice : Nat) : (State.dropSliceJobs s slice).pending = s.pending ∧ (State.dropSliceJobs s slice).tick = s.tick ∧ (State.dropSliceJobs s slice).life.fuses = s.life.fuses := by
  simp [State.dropSliceJobs]

@[simp] theorem State.closeTap_kept (s : State) : (State.closeTap s).pending = s.pending ∧ (State.closeTap s).tick = s.tick ∧ (State.closeTap s).life.fuses = s.life.fuses := by
  simp [State.closeTap]

@[simp] theorem State.sliceReset_kept (s : State) (n : Nat) : (State.sliceReset s n).pending = s.pending ∧ (State.sliceReset s n).tick = s.tick ∧ (State.sliceReset s n).life.fuses = s.life.fuses := by
  simp [State.sliceReset]

@[simp] theorem State.slcWrite_kept (s : State) (n : Nat) : (State.slcWrite s n).pending = s.pending ∧ (State.slcWrite s n).tick = s.tick ∧ (State.slcWrite s n).life.fuses = s.life.fuses := by
  simp [State.slcWrite]

@[simp] theorem State.slcSample_kept (s : State) : (State.slcSample s).pending = s.pending ∧ (State.slcSample s).tick = s.tick ∧ (State.slcSample s).life.fuses = s.life.fuses := by
  simp [State.slcSample]

@[simp] theorem State.stopRings_kept (s : State) (slice : Nat) : (State.stopRings s slice).pending = s.pending ∧ (State.stopRings s slice).tick = s.tick ∧ (State.stopRings s slice).life.fuses = s.life.fuses := by
  simp [State.stopRings]

@[simp] theorem State.resetRecord_kept (s : State) (ring count : Nat) : (State.resetRecord s ring count).pending = s.pending ∧ (State.resetRecord s ring count).tick = s.tick ∧ (State.resetRecord s ring count).life.fuses = s.life.fuses := by
  simp [State.resetRecord]

@[simp] theorem State.writeShadow_kept (s : State) (ring : Nat) : (State.writeShadow s ring).pending = s.pending ∧ (State.writeShadow s ring).tick = s.tick ∧ (State.writeShadow s ring).life.fuses = s.life.fuses := by
  simp [State.writeShadow]

@[simp] theorem State.msixOne_kept (s : State) (v : Nat) : (State.msixOne s v).pending = s.pending ∧ (State.msixOne s v).tick = s.tick ∧ (State.msixOne s v).life.fuses = s.life.fuses := by
  simp [State.msixOne]

@[simp] theorem State.msixNow_kept (s : State) (p : Nat → Bool) : (State.msixNow s p).pending = s.pending ∧ (State.msixNow s p).tick = s.tick ∧ (State.msixNow s p).life.fuses = s.life.fuses := by
  simp [State.msixNow]

@[simp] theorem State.sliceResetEnd_kept (s : State) (n : Nat) : (State.sliceResetEnd s n).pending = s.pending ∧ (State.sliceResetEnd s n).tick = s.tick ∧ (State.sliceResetEnd s n).life.fuses = s.life.fuses := by
  simp only [State.sliceResetEnd]
  repeat' first
    | (simp; done)
    | split

@[simp] theorem State.setEntry_kept (s : State) (level index : Nat) (e : TreeEntry) : (State.setEntry s level index e).pending = s.pending ∧ (State.setEntry s level index e).tick = s.tick ∧ (State.setEntry s level index e).life.fuses = s.life.fuses := by
  simp [State.setEntry]

@[simp] theorem State.climb_kept (f level index seq : Nat) (s : State) : (s.climb seq f level index).pending = s.pending ∧ (s.climb seq f level index).tick = s.tick ∧ (s.climb seq f level index).life.fuses = s.life.fuses := by
  induction f generalizing s level index with
  | zero => exact ⟨rfl, rfl, rfl⟩
  | succ f ih =>
    simp only [State.climb]
    split
    · exact ⟨rfl, rfl, rfl⟩
    · simp [ih]

@[simp] theorem State.setPageEntry_kept (s : State) (p seq : Nat) (e : TreeEntry) : (s.setPageEntry p seq e).pending = s.pending ∧ (s.setPageEntry p seq e).tick = s.tick ∧ (s.setPageEntry p seq e).life.fuses = s.life.fuses := by
  simp [State.setPageEntry]

@[simp] theorem State.submit_kept (s : State) (port : Nat) (told : Bool) (op : NvmeOp) : (State.submit s port told op).pending = s.pending ∧ (State.submit s port told op).tick = s.tick ∧ (State.submit s port told op).life.fuses = s.life.fuses := by
  unfold State.submit
  repeat' first
    | (simp; done)
    | split

@[simp] theorem State.endWrites_kept (s : State) : (State.endWrites s).pending = s.pending ∧ (State.endWrites s).tick = s.tick ∧ (State.endWrites s).life.fuses = s.life.fuses := by
  simp [State.endWrites]

@[simp] theorem State.endRead_kept (s : State) (port block : Nat) : (State.endRead s port block).pending = s.pending ∧ (State.endRead s port block).tick = s.tick ∧ (State.endRead s port block).life.fuses = s.life.fuses := by
  simp [State.endRead]

@[simp] theorem State.submitAll_kept (s : State) (port : Nat) (ops : List NvmeOp) : (State.submitAll s port ops).pending = s.pending ∧ (State.submitAll s port ops).tick = s.tick ∧ (State.submitAll s port ops).life.fuses = s.life.fuses := by
  simp [State.submitAll]

@[simp] theorem State.touchNode_kept (s : State) (level index : Nat) : (State.touchNode s level index).pending = s.pending ∧ (State.touchNode s level index).tick = s.tick ∧ (State.touchNode s level index).life.fuses = s.life.fuses := by
  simp [State.touchNode]

@[simp] theorem State.touchPath_kept (s : State) (page : Nat) : (State.touchPath s page).pending = s.pending ∧ (State.touchPath s page).tick = s.tick ∧ (State.touchPath s page).life.fuses = s.life.fuses := by
  simp [State.touchPath]

@[simp] theorem State.issueRead_kept (s : State) (r : VRead) : (s.issueRead r).pending = s.pending ∧ (s.issueRead r).tick = s.tick ∧ (s.issueRead r).life.fuses = s.life.fuses := by
  simp only [State.issueRead]
  split
  · simp
  · split
    · simp
    · next st he =>
      split at he
      · cases he; simp
      · have a := State.debit_kept _ _ _ he; simp [a]

@[simp] theorem State.issueReads_kept (s : State) : (State.issueReads s).pending = s.pending ∧ (State.issueReads s).tick = s.tick ∧ (State.issueReads s).life.fuses = s.life.fuses := by
  simp [State.issueReads]

@[simp] theorem State.addRead_kept (s : State) (r : VRead) : (State.addRead s r).pending = s.pending ∧ (State.addRead s r).tick = s.tick ∧ (State.addRead s r).life.fuses = s.life.fuses := by
  simp [State.addRead]

@[simp] theorem State.beginRead_kept (s : State) (page port : Nat) (prior : Bool) (jobs : List Nat) : (State.beginRead s page port prior jobs).pending = s.pending ∧ (State.beginRead s page port prior jobs).tick = s.tick ∧ (State.beginRead s page port prior jobs).life.fuses = s.life.fuses := by
  simp [State.beginRead]

@[simp] theorem State.queueVersion_kept (s : State) (v : Version) : (State.queueVersion s v).pending = s.pending ∧ (State.queueVersion s v).tick = s.tick ∧ (State.queueVersion s v).life.fuses = s.life.fuses := by
  simp [State.queueVersion]

@[simp] theorem State.makeRoom_kept (f n : Nat) (s : State) : (s.makeRoom n f).pending = s.pending ∧ (s.makeRoom n f).tick = s.tick ∧ (s.makeRoom n f).life.fuses = s.life.fuses := by
  induction f generalizing s with
  | zero => exact ⟨rfl, rfl, rfl⟩
  | succ f ih =>
    simp only [State.makeRoom]
    split
    · exact ⟨rfl, rfl, rfl⟩
    · split <;> simp [ih]

@[simp] theorem State.cacheFill_kept (s : State) (k : KeyMat) : (s.cacheFill k).pending = s.pending ∧ (s.cacheFill k).tick = s.tick ∧ (s.cacheFill k).life.fuses = s.life.fuses := by
  simp [State.cacheFill]

@[simp] theorem State.cacheSession_kept (s : State) (slice : Nat) (k : KeyMat) : (State.cacheSession s slice k).pending = s.pending ∧ (State.cacheSession s slice k).tick = s.tick ∧ (State.cacheSession s slice k).life.fuses = s.life.fuses := by
  unfold State.cacheSession
  repeat' first
    | (simp; done)
    | split

@[simp] theorem State.cacheDrop_kept (s : State) (h : Nat) : (State.cacheDrop s h).pending = s.pending ∧ (State.cacheDrop s h).tick = s.tick ∧ (State.cacheDrop s h).life.fuses = s.life.fuses := by
  simp [State.cacheDrop]

@[simp] theorem State.sessionDrop_kept (s : State) (h : Nat) : (State.sessionDrop s h).pending = s.pending ∧ (State.sessionDrop s h).tick = s.tick ∧ (State.sessionDrop s h).life.fuses = s.life.fuses := by
  simp [State.sessionDrop]

@[simp] theorem State.pin_kept (s : State) (h : Nat) : (State.pin s h).pending = s.pending ∧ (State.pin s h).tick = s.tick ∧ (State.pin s h).life.fuses = s.life.fuses := by
  simp [State.pin]

@[simp] theorem State.unpin_kept (s : State) (h : Nat) : (State.unpin s h).pending = s.pending ∧ (State.unpin s h).tick = s.tick ∧ (State.unpin s h).life.fuses = s.life.fuses := by
  simp [State.unpin]

@[simp] theorem State.putHeart_kept (s : State) (n : Nat) (h : Heart) : (State.putHeart s n h).pending = s.pending ∧ (State.putHeart s n h).tick = s.tick ∧ (State.putHeart s n h).life.fuses = s.life.fuses := by
  simp only [State.putHeart]
  repeat' first
    | (simp; done)
    | split

@[simp] theorem State.dropGeneration_kept (s : State) (n gen : Nat) : (State.dropGeneration s n gen).pending = s.pending ∧ (State.dropGeneration s n gen).tick = s.tick ∧ (State.dropGeneration s n gen).life.fuses = s.life.fuses := by
  simp [State.dropGeneration]

@[simp] theorem State.draw_kept (s : State) (n : Nat) : ((State.draw s n).2).pending = s.pending ∧ ((State.draw s n).2).tick = s.tick ∧ ((State.draw s n).2).life.fuses = s.life.fuses := by
  simp [State.draw]

@[simp] theorem State.setOutcome_kept (s : State) (id : Nat) (o : Outcome) : (State.setOutcome s id o).pending = s.pending ∧ (State.setOutcome s id o).tick = s.tick ∧ (State.setOutcome s id o).life.fuses = s.life.fuses := by
  simp [State.setOutcome]

@[simp] theorem State.perform_kept (s : State) (op id : Nat) (f : Job → Nat → Outcome) : (State.perform s op id f).pending = s.pending ∧ (State.perform s op id f).tick = s.tick ∧ (State.perform s op id f).life.fuses = s.life.fuses := by
  unfold State.perform
  repeat' first
    | (simp; done)
    | split

@[simp] theorem State.setAddrList_kept (s : State) (key : Nat → Nat) (l : List Nat) : (State.setAddrList s key l).pending = s.pending ∧ (State.setAddrList s key l).tick = s.tick ∧ (State.setAddrList s key l).life.fuses = s.life.fuses := by
  simp [State.setAddrList]

@[simp] theorem State.setMembers_kept (s : State) (l : List Nat) : (State.setMembers s l).pending = s.pending ∧ (State.setMembers s l).tick = s.tick ∧ (State.setMembers s l).life.fuses = s.life.fuses := by
  simp [State.setMembers]

@[simp] theorem State.hear_kept (s : State) (src : Nat) : (State.hear s src).pending = s.pending ∧ (State.hear s src).tick = s.tick ∧ (State.hear s src).life.fuses = s.life.fuses := by
  simp [State.hear]

@[simp] theorem State.sendMsg_kept (s : State) (type dst : Nat) (body : Bytes) (record : Option ReplRecord) : (State.sendMsg s type dst body record).pending = s.pending ∧ (State.sendMsg s type dst body record).tick = s.tick ∧ (State.sendMsg s type dst body record).life.fuses = s.life.fuses := by
  simp [State.sendMsg]

@[simp] theorem State.sendNotice_kept (s : State) (type dst writer seq : Nat) : (State.sendNotice s type dst writer seq).pending = s.pending ∧ (State.sendNotice s type dst writer seq).tick = s.tick ∧ (State.sendNotice s type dst writer seq).life.fuses = s.life.fuses := by
  simp [State.sendNotice]

@[simp] theorem State.addCounter_kept (s : State) (slice c n : Nat) : (State.addCounter s slice c n).pending = s.pending ∧ (State.addCounter s slice c n).tick = s.tick ∧ (State.addCounter s slice c n).life.fuses = s.life.fuses := by
  simp [State.addCounter]

@[simp] theorem State.setHeartEntry_kept (s : State) (n : Nat) (entry : Bytes) : (State.setHeartEntry s n entry).pending = s.pending ∧ (State.setHeartEntry s n entry).tick = s.tick ∧ (State.setHeartEntry s n entry).life.fuses = s.life.fuses := by
  simp [State.setHeartEntry]

@[simp] theorem State.pinIn_kept (s : State) (h : Nat) : (State.pinIn s h).pending = s.pending ∧ (State.pinIn s h).tick = s.tick ∧ (State.pinIn s h).life.fuses = s.life.fuses := by
  simp [State.pinIn]

@[simp] theorem State.applyEffect_kept (s : State) (c : Change) : (State.applyEffect s c).pending = s.pending ∧ (State.applyEffect s c).tick = s.tick ∧ (State.applyEffect s c).life.fuses = s.life.fuses := by
  unfold State.applyEffect
  repeat' first
    | (simp; done)
    | split

@[simp] theorem State.queueChange_kept (s : State) (c : Change) : (State.queueChange s c).pending = s.pending ∧ (State.queueChange s c).tick = s.tick ∧ (State.queueChange s c).life.fuses = s.life.fuses := by
  unfold State.queueChange
  repeat' first
    | (simp; done)
    | split

@[simp] theorem State.applyRemote_kept (s : State) (c : Change) : (State.applyRemote s c).pending = s.pending ∧ (State.applyRemote s c).tick = s.tick ∧ (State.applyRemote s c).life.fuses = s.life.fuses := by
  simp [State.applyRemote]

@[simp] theorem State.startOwn_kept (s : State) (change : Change) (k : Nat) (job : Option Nat) (write : Option (Nat × Option DictReq)) (majority : Bool) : (State.startOwn s change k job write majority).pending = s.pending ∧ (State.startOwn s change k job write majority).tick = s.tick ∧ (State.startOwn s change k job write majority).life.fuses = s.life.fuses := by
  simp [State.startOwn]

@[simp] theorem State.resolvePage_kept (s : State) (c : Change) (kind : ItemKind) : (State.resolvePage s c kind).pending = s.pending ∧ (State.resolvePage s c kind).tick = s.tick ∧ (State.resolvePage s c kind).life.fuses = s.life.fuses := by
  unfold State.resolvePage
  repeat' first
    | (simp; done)
    | split

@[simp] theorem State.dropOwn_kept (s : State) (seq : Nat) : (State.dropOwn s seq).pending = s.pending ∧ (State.dropOwn s seq).tick = s.tick ∧ (State.dropOwn s seq).life.fuses = s.life.fuses := by
  simp [State.dropOwn]

@[simp] theorem State.applyOwnAt_kept (s : State) (o : OwnChange) (t : Nat) : (State.applyOwnAt s o t).pending = s.pending ∧ (State.applyOwnAt s o t).tick = s.tick ∧ (State.applyOwnAt s o t).life.fuses = s.life.fuses := by
  simp [State.applyOwnAt]

@[simp] theorem State.endOwn_kept (s : State) (id : Nat) : (State.endOwn s id).pending = s.pending ∧ (State.endOwn s id).tick = s.tick ∧ (State.endOwn s id).life.fuses = s.life.fuses := by
  simp [State.endOwn]

@[simp] theorem State.commitOwn_kept (s : State) (o : OwnChange) : (State.commitOwn s o).pending = s.pending ∧ (State.commitOwn s o).tick = s.tick ∧ (State.commitOwn s o).life.fuses = s.life.fuses := by
  unfold State.commitOwn
  repeat' first
    | (simp; done)
    | split

@[simp] theorem State.undoOwn_kept (s : State) (o : OwnChange) : (State.undoOwn s o).pending = s.pending ∧ (State.undoOwn s o).tick = s.tick ∧ (State.undoOwn s o).life.fuses = s.life.fuses := by
  simp [State.undoOwn]

@[simp] theorem State.settleHeart_kept (s : State) (c : Change) : (State.settleHeart s c).pending = s.pending ∧ (State.settleHeart s c).tick = s.tick ∧ (State.settleHeart s c).life.fuses = s.life.fuses := by
  unfold State.settleHeart
  repeat' first
    | (simp; done)
    | split

@[simp] theorem State.performAt_kept (s : State) (op id : Nat) (f : State → Job → Nat → Outcome) : (State.performAt s op id f).pending = s.pending ∧ (State.performAt s op id f).tick = s.tick ∧ (State.performAt s op id f).life.fuses = s.life.fuses := by
  simp [State.performAt]

@[simp] theorem State.toOutput_kept (s : State) (id : Nat) : (State.toOutput s id).pending = s.pending ∧ (State.toOutput s id).tick = s.tick ∧ (State.toOutput s id).life.fuses = s.life.fuses := by
  simp [State.toOutput]

@[simp] theorem State.workFails_kept (s : State) (id status result : Nat) : (State.workFails s id status result).pending = s.pending ∧ (State.workFails s id status result).tick = s.tick ∧ (State.workFails s id status result).life.fuses = s.life.fuses := by
  simp [State.workFails]

@[simp] theorem State.toCommit_kept (s : State) (id : Nat) (change : Change) (o : Outcome) (kind : ItemKind) (page : Nat) (writes : List (Nat × Option Bytes)) (conflict : Option Bool) : (State.toCommit s id change o kind page writes conflict).pending = s.pending ∧ (State.toCommit s id change o kind page writes conflict).tick = s.tick ∧ (State.toCommit s id change o kind page writes conflict).life.fuses = s.life.fuses := by
  simp [State.toCommit]

@[simp] theorem State.replicateJob_kept (s : State) (id : Nat) : (State.replicateJob s id).pending = s.pending ∧ (State.replicateJob s id).tick = s.tick ∧ (State.replicateJob s id).life.fuses = s.life.fuses := by
  unfold State.replicateJob
  repeat' first
    | (simp; done)
    | split

@[simp] theorem State.workDone_kept (s : State) (id : Nat) : (State.workDone s id).pending = s.pending ∧ (State.workDone s id).tick = s.tick ∧ (State.workDone s id).life.fuses = s.life.fuses := by
  simp only [State.workDone]
  repeat' first
    | (simp; done)
    | split

@[simp] theorem State.startRead_kept (s : State) (page : Nat) (port : Option Nat) (prior : Bool) (id : Nat) : (State.startRead s page port prior id).pending = s.pending ∧ (State.startRead s page port prior id).tick = s.tick ∧ (State.startRead s page port prior id).life.fuses = s.life.fuses := by
  simp [State.startRead]

@[simp] theorem State.fetchKeys_kept (s : State) (id : Nat) : (State.fetchKeys s id).pending = s.pending ∧ (State.fetchKeys s id).tick = s.tick ∧ (State.fetchKeys s id).life.fuses = s.life.fuses := by
  unfold State.fetchKeys
  repeat' first
    | (simp; done)
    | split

@[simp] theorem State.askPiece_kept (s : State) (id k : Nat) : (State.askPiece s id k).pending = s.pending ∧ (State.askPiece s id k).tick = s.tick ∧ (State.askPiece s id k).life.fuses = s.life.fuses := by
  unfold State.askPiece
  repeat' first
    | (simp; done)
    | split

@[simp] theorem State.askLabel_kept (s : State) (id : Nat) : (State.askLabel s id).pending = s.pending ∧ (State.askLabel s id).tick = s.tick ∧ (State.askLabel s id).life.fuses = s.life.fuses := by
  unfold State.askLabel
  repeat' first
    | (simp; done)
    | split

@[simp] theorem State.controlStart_kept (s : State) (id : Nat) : (State.controlStart s id).pending = s.pending ∧ (State.controlStart s id).tick = s.tick ∧ (State.controlStart s id).life.fuses = s.life.fuses := by
  simp only [State.controlStart]
  repeat' first
    | (simp; done)
    | split

theorem State.placeBuf_kept (s : State) (id n : Nat) : ∀ t, State.placeBuf s id n = some t → t.pending = s.pending ∧ t.tick = s.tick ∧ t.life.fuses = s.life.fuses := by
  simp only [State.placeBuf]
  repeat' first
    | (simp; done)
    | split

@[simp] theorem State.noRoom_kept (s : State) (id : Nat) : (State.noRoom s id).pending = s.pending ∧ (State.noRoom s id).tick = s.tick ∧ (State.noRoom s id).life.fuses = s.life.fuses := by
  simp [State.noRoom]

@[simp] theorem State.placeAll_kept (l : List Nat) (id : Nat) (s : State) : ∀ t, s.placeAll id l = some t →
    t.pending = s.pending ∧ t.tick = s.tick ∧ t.life.fuses = s.life.fuses := by
  induction l generalizing s with
  | nil => intro t h; simp only [State.placeAll, Option.some.injEq] at h; subst h; exact ⟨rfl, rfl, rfl⟩
  | cons n r ih =>
    intro t h
    simp only [State.placeAll] at h
    split at h
    · next st he =>
      have a := ih st t h
      have b := State.placeBuf_kept s id n st he
      exact ⟨a.1.trans b.1, a.2.1.trans b.2.1, a.2.2.trans b.2.2⟩
    · cases h

@[simp] theorem State.placeTo_kept (s : State) (id stage : Nat) (sizes : List Nat) (f : State → State)
    (h : ∀ st, (f st).pending = st.pending ∧ (f st).tick = st.tick ∧ (f st).life.fuses = st.life.fuses) :
    (s.placeTo id stage sizes f).pending = s.pending ∧ (s.placeTo id stage sizes f).tick = s.tick ∧ (s.placeTo id stage sizes f).life.fuses = s.life.fuses := by
  simp only [State.placeTo]
  split
  · next st he => have a := State.placeAll_kept sizes id s st he; simp [h, a]
  · simp

@[simp] theorem State.dmaCheck_kept (s : State) (j : Job) (k n : Nat) (write : Bool) : ((State.dmaCheck s j k n write).2).pending = s.pending ∧ ((State.dmaCheck s j k n write).2).tick = s.tick ∧ ((State.dmaCheck s j k n write).2).life.fuses = s.life.fuses := by
  unfold State.dmaCheck
  repeat' first
    | (simp; done)
    | split

@[simp] theorem State.fillBuf_kept (s : State) (j : Job) (k : Nat) (b : Bytes) : (State.fillBuf s j k b).pending = s.pending ∧ (State.fillBuf s j k b).tick = s.tick ∧ (State.fillBuf s j k b).life.fuses = s.life.fuses := by
  simp [State.fillBuf]

@[simp] theorem State.dmaFill_kept (s : State) (j : Job) (k : Nat) (b : Bytes) : (State.dmaFill s j k b).pending = s.pending ∧ (State.dmaFill s j k b).tick = s.tick ∧ (State.dmaFill s j k b).life.fuses = s.life.fuses := by
  simp [State.dmaFill]

@[simp] theorem State.parseJob_kept (s : State) (id : Nat) : (s.parseJob id).pending = s.pending ∧ (s.parseJob id).tick = s.tick ∧ (s.parseJob id).life.fuses = s.life.fuses := by
  unfold State.parseJob
  repeat' first
    | (simp; done)
    | (exact State.placeTo_kept _ _ _ _ _ fun st => by simp)
    | split

@[simp] theorem State.parseIfReady_kept (s : State) (id : Nat) : (State.parseIfReady s id).pending = s.pending ∧ (State.parseIfReady s id).tick = s.tick ∧ (State.parseIfReady s id).life.fuses = s.life.fuses := by
  unfold State.parseIfReady
  repeat' first
    | (simp; done)
    | split

@[simp] theorem State.placeInput_kept (s : State) (id : Nat) : (s.placeInput id).pending = s.pending ∧ (s.placeInput id).tick = s.tick ∧ (s.placeInput id).life.fuses = s.life.fuses := by
  unfold State.placeInput
  repeat' first
    | (simp; done)
    | (exact State.placeTo_kept _ _ _ _ _ fun st => by simp)
    | split

@[simp] theorem State.descArrived_kept (s : State) (j : Job) (b : Bytes) : (State.descArrived s j b).pending = s.pending ∧ (State.descArrived s j b).tick = s.tick ∧ (State.descArrived s j b).life.fuses = s.life.fuses := by
  simp only [State.descArrived]
  repeat' first
    | (simp; done)
    | split

@[simp] theorem State.readFault_kept (s : State) (ring : Nat) : (State.readFault s ring).pending = s.pending ∧ (State.readFault s ring).tick = s.tick ∧ (State.readFault s ring).life.fuses = s.life.fuses := by
  simp [State.readFault]

@[simp] theorem State.descFailed_kept (s : State) (j : Job) : (State.descFailed s j).pending = s.pending ∧ (State.descFailed s j).tick = s.tick ∧ (State.descFailed s j).life.fuses = s.life.fuses := by
  simp [State.descFailed]

@[simp] theorem State.bufferFault_kept (s : State) (j : Job) : (State.bufferFault s j).pending = s.pending ∧ (State.bufferFault s j).tick = s.tick ∧ (State.bufferFault s j).life.fuses = s.life.fuses := by
  simp [State.bufferFault]

@[simp] theorem State.readEnds_kept (s : State) (id : Nat) (what : ReadKind) (data : Option Bytes) : (State.readEnds s id what data).pending = s.pending ∧ (State.readEnds s id what data).tick = s.tick ∧ (State.readEnds s id what data).life.fuses = s.life.fuses := by
  unfold State.readEnds
  repeat' first
    | (simp; done)
    | split

@[simp] theorem State.dropVersions_kept (s : State) (id : Nat) : (State.dropVersions s id).pending = s.pending ∧ (State.dropVersions s id).tick = s.tick ∧ (State.dropVersions s id).life.fuses = s.life.fuses := by
  simp [State.dropVersions]

@[simp] theorem State.withdrawOwn_kept (s : State) (o : OwnChange) : (State.withdrawOwn s o).pending = s.pending ∧ (State.withdrawOwn s o).tick = s.tick ∧ (State.withdrawOwn s o).life.fuses = s.life.fuses := by
  simp [State.withdrawOwn]

@[simp] theorem State.takeBack_kept (s : State) (c : Change) : (State.takeBack s c).pending = s.pending ∧ (State.takeBack s c).tick = s.tick ∧ (State.takeBack s c).life.fuses = s.life.fuses := by
  simp only [State.takeBack]
  repeat' first
    | (simp; done)
    | split

@[simp] theorem State.abortJob_kept (s : State) (j : Job) : (State.abortJob s j).pending = s.pending ∧ (State.abortJob s j).tick = s.tick ∧ (State.abortJob s j).life.fuses = s.life.fuses := by
  unfold State.abortJob
  repeat' first
    | (simp; done)
    | split

@[simp] theorem State.abortIndex_kept (s : State) (ring index : Nat) : (State.abortIndex s ring index).pending = s.pending ∧ (State.abortIndex s ring index).tick = s.tick ∧ (State.abortIndex s ring index).life.fuses = s.life.fuses := by
  unfold State.abortIndex
  repeat' first
    | (simp; done)
    | split

@[simp] theorem State.ownTimesOut_kept (s : State) (o : OwnChange) : (State.ownTimesOut s o).pending = s.pending ∧ (State.ownTimesOut s o).tick = s.tick ∧ (State.ownTimesOut s o).life.fuses = s.life.fuses := by
  unfold State.ownTimesOut
  repeat' first
    | (simp; done)
    | split

@[simp] theorem State.setCopy_kept (s : State) (id : Nat) (c : CopyLeave) : (State.setCopy s id c).pending = s.pending ∧ (State.setCopy s id c).tick = s.tick ∧ (State.setCopy s id c).life.fuses = s.life.fuses := by
  simp [State.setCopy]

@[simp] theorem State.chkBegin_kept (s : State) (u reg position : Nat) : (State.chkBegin s u reg position).pending = s.pending ∧ (State.chkBegin s u reg position).tick = s.tick ∧ (State.chkBegin s u reg position).life.fuses = s.life.fuses := by
  simp [State.chkBegin]

@[simp] theorem State.chkStop_kept (s : State) (u state fault : Nat) : (State.chkStop s u state fault).pending = s.pending ∧ (State.chkStop s u state fault).tick = s.tick ∧ (State.chkStop s u state fault).life.fuses = s.life.fuses := by
  simp [State.chkStop]

@[simp] theorem State.chkCommand_kept (s : State) (u cmd : Nat) : (State.chkCommand s u cmd).pending = s.pending ∧ (State.chkCommand s u cmd).tick = s.tick ∧ (State.chkCommand s u cmd).life.fuses = s.life.fuses := by
  unfold State.chkCommand
  repeat' first
    | (simp; done)
    | split

@[simp] theorem State.chkMismatch_kept (s : State) : (State.chkMismatch s).pending = s.pending ∧ (State.chkMismatch s).tick = s.tick ∧ (State.chkMismatch s).life.fuses = s.life.fuses := by
  simp [State.chkMismatch]

@[simp] theorem State.chkTick_kept (s : State) : (State.chkTick s).pending = s.pending ∧ (State.chkTick s).tick = s.tick ∧ (State.chkTick s).life.fuses = s.life.fuses := by
  unfold State.chkTick
  repeat' first
    | (simp (disch := (intros; repeat' first | rfl | (simp; done) | split)); done)
    | split

@[simp] theorem State.chkHalt_kept (s : State) (u : Nat) : (State.chkHalt s u).pending = s.pending ∧ (State.chkHalt s u).tick = s.tick ∧ (State.chkHalt s u).life.fuses = s.life.fuses := by
  simp [State.chkHalt]

@[simp] theorem State.chkZeroise_kept (s : State) : (State.chkZeroise s).pending = s.pending ∧ (State.chkZeroise s).tick = s.tick ∧ (State.chkZeroise s).life.fuses = s.life.fuses := by
  simp [State.chkZeroise]

@[simp] theorem State.chkFunctionReset_kept (s : State) : (State.chkFunctionReset s).pending = s.pending ∧ (State.chkFunctionReset s).tick = s.tick ∧ (State.chkFunctionReset s).life.fuses = s.life.fuses := by
  simp [State.chkFunctionReset]

@[simp] theorem State.chkHandOver_kept (s : State) (u : Nat) : (State.chkHandOver s u).pending = s.pending ∧ (State.chkHandOver s u).tick = s.tick ∧ (State.chkHandOver s u).life.fuses = s.life.fuses := by
  simp [State.chkHandOver]

@[simp] theorem State.chkUncorrectable_kept (s : State) (word : Nat) : (State.chkUncorrectable s word).pending = s.pending ∧ (State.chkUncorrectable s word).tick = s.tick ∧ (State.chkUncorrectable s word).life.fuses = s.life.fuses := by
  simp [State.chkUncorrectable]

@[simp] theorem State.trapJob_kept (s : State) (id detail : Nat) : (State.trapJob s id detail).pending = s.pending ∧ (State.trapJob s id detail).tick = s.tick ∧ (State.trapJob s id detail).life.fuses = s.life.fuses := by
  unfold State.trapJob
  repeat' first
    | (simp; done)
    | split

@[simp] theorem State.leaveCore_kept (s : State) (core : Nat) : (State.leaveCore s core).pending = s.pending ∧ (State.leaveCore s core).tick = s.tick ∧ (State.leaveCore s core).life.fuses = s.life.fuses := by
  simp [State.leaveCore]

@[simp] theorem State.failGroup_kept (s : State) (due : Nat) : (State.failGroup s due).pending = s.pending ∧ (State.failGroup s due).tick = s.tick ∧ (State.failGroup s due).life.fuses = s.life.fuses := by
  simp [State.failGroup]

@[simp] theorem State.failReads_kept (s : State) (due : Nat) : (State.failReads s due).pending = s.pending ∧ (State.failReads s due).tick = s.tick ∧ (State.failReads s due).life.fuses = s.life.fuses := by
  simp [State.failReads]

@[simp] theorem State.heartFails_kept (s : State) (n : Nat) (i : HeartImage) : (State.heartFails s n i).pending = s.pending ∧ (State.heartFails s n i).tick = s.tick ∧ (State.heartFails s n i).life.fuses = s.life.fuses := by
  simp [State.heartFails]

@[simp] theorem State.reloadHeart_kept (s : State) (n : Nat) : (State.reloadHeart s n).pending = s.pending ∧ (State.reloadHeart s n).tick = s.tick ∧ (State.reloadHeart s n).life.fuses = s.life.fuses := by
  unfold State.reloadHeart
  repeat' first
    | (simp; done)
    | split

@[simp] theorem State.delayHeart_kept (s : State) (n : Nat) : (State.delayHeart s n).pending = s.pending ∧ (State.delayHeart s n).tick = s.tick ∧ (State.delayHeart s n).life.fuses = s.life.fuses := by
  simp [State.delayHeart]

@[simp] theorem State.reloadHearts_kept (s : State) : (State.reloadHearts s).pending = s.pending ∧ (State.reloadHearts s).tick = s.tick ∧ (State.reloadHearts s).life.fuses = s.life.fuses := by
  simp [State.reloadHearts]

@[simp] theorem State.setReturn_kept (s : State) (core v : Nat) : (State.setReturn s core v).pending = s.pending ∧ (State.setReturn s core v).tick = s.tick ∧ (State.setReturn s core v).life.fuses = s.life.fuses := by
  simp [State.setReturn]

@[simp] theorem State.gateFault_kept (s : State) (core cause : Nat) : (State.gateFault s core cause).pending = s.pending ∧ (State.gateFault s core cause).tick = s.tick ∧ (State.gateFault s core cause).life.fuses = s.life.fuses := by
  simp only [State.gateFault]
  repeat' first
    | (simp; done)
    | split

@[simp] theorem State.writeResult_kept (s : State) (colour addr : Nat) (result : Bytes) : (State.writeResult s colour addr result).pending = s.pending ∧ (State.writeResult s colour addr result).tick = s.tick ∧ (State.writeResult s colour addr result).life.fuses = s.life.fuses := by
  simp [State.writeResult]

@[simp] theorem State.guardOff_kept (s : State) : (State.guardOff s).pending = s.pending ∧ (State.guardOff s).tick = s.tick ∧ (State.guardOff s).life.fuses = s.life.fuses := by
  simp [State.guardOff]

@[simp] theorem State.guardOnAgain_kept (s : State) : (State.guardOnAgain s).pending = s.pending ∧ (State.guardOnAgain s).tick = s.tick ∧ (State.guardOnAgain s).life.fuses = s.life.fuses := by
  unfold State.guardOnAgain
  repeat' first
    | (simp; done)
    | split

@[simp] theorem State.debugDenied_kept (s : State) (word : Nat) : (State.debugDenied s word).pending = s.pending ∧ (State.debugDenied s word).tick = s.tick ∧ (State.debugDenied s word).life.fuses = s.life.fuses := by
  simp [State.debugDenied]

@[simp] theorem State.debugAccess_kept (s : State) (write : Bool) (word data : Nat) (allBits : Bool) : (State.debugAccess s write word data allBits).pending = s.pending ∧ (State.debugAccess s write word data allBits).tick = s.tick ∧ (State.debugAccess s write word data allBits).life.fuses = s.life.fuses := by
  unfold State.debugAccess
  repeat' first
    | (simp; done)
    | split

@[simp] theorem State.moveLaneJobs_kept (s : State) (lane : Nat) : (s.moveLaneJobs lane).pending = s.pending ∧ (s.moveLaneJobs lane).tick = s.tick ∧ (s.moveLaneJobs lane).life.fuses = s.life.fuses := by
  simp only [State.moveLaneJobs]
  refine ⟨foldl_pending ?_ _ _, foldl_tick ?_ _ _, foldl_fuses ?_ _ _⟩ <;> (intro st id; simp; split <;> simp)

@[simp] theorem State.wipeBlock_kept (s : State) (b : Nat) : (State.wipeBlock s b).pending = s.pending ∧ (State.wipeBlock s b).tick = s.tick ∧ (State.wipeBlock s b).life.fuses = s.life.fuses := by
  unfold State.wipeBlock
  repeat' first
    | (simp; done)
    | split

@[simp] theorem State.setOwner_kept (s : State) (b : Nat) (keeper : Bool) : (State.setOwner s b keeper).pending = s.pending ∧ (State.setOwner s b keeper).tick = s.tick ∧ (State.setOwner s b keeper).life.fuses = s.life.fuses := by
  simp only [State.setOwner]
  repeat' first
    | (simp; done)
    | split

@[simp] theorem State.gateNow_kept (s : State) (b : Nat) : (State.gateNow s b).pending = s.pending ∧ (State.gateNow s b).tick = s.tick ∧ (State.gateNow s b).life.fuses = s.life.fuses := by
  simp only [State.gateNow]
  repeat' first
    | (simp; done)
    | split

@[simp] theorem State.ungateNow_kept (s : State) (b : Nat) : (State.ungateNow s b).pending = s.pending ∧ (State.ungateNow s b).tick = s.tick ∧ (State.ungateNow s b).life.fuses = s.life.fuses := by
  simp only [State.ungateNow]
  repeat' first
    | (simp; done)
    | split

@[simp] theorem State.gateRequest_kept (s : State) (b : Nat) : (State.gateRequest s b).pending = s.pending ∧ (State.gateRequest s b).tick = s.tick ∧ (State.gateRequest s b).life.fuses = s.life.fuses := by
  unfold State.gateRequest
  repeat' first
    | (simp; done)
    | split

@[simp] theorem State.handTick_kept (s : State) : (State.handTick s).pending = s.pending ∧ (State.handTick s).tick = s.tick ∧ (State.handTick s).life.fuses = s.life.fuses := by
  unfold State.handTick
  repeat' first
    | (simp (disch := (intros; repeat' first | rfl | (simp; done) | split)); done)
    | split

@[simp] theorem State.handWindow_kept (s : State) : (State.handWindow s).pending = s.pending ∧ (State.handWindow s).tick = s.tick ∧ (State.handWindow s).life.fuses = s.life.fuses := by
  unfold State.handWindow
  repeat' first
    | (simp (disch := (intros; repeat' first | rfl | (simp; done) | split)); done)
    | split

@[simp] theorem State.endByFault_kept (s : State) (src due id : Nat) : (State.endByFault s src due id).pending = s.pending ∧ (State.endByFault s src due id).tick = s.tick ∧ (State.endByFault s src due id).life.fuses = s.life.fuses := by
  simp [State.endByFault]

@[simp] theorem State.faultJob_kept (s : State) (j : Job) (src : Nat) (void : Bool) : (State.faultJob s j src void).pending = s.pending ∧ (State.faultJob s j src void).tick = s.tick ∧ (State.faultJob s j src void).life.fuses = s.life.fuses := by
  simp [State.faultJob]

@[simp] theorem State.recordPkFault_kept (s : State) (lane cause : Nat) : (State.recordPkFault s lane cause).pending = s.pending ∧ (State.recordPkFault s lane cause).tick = s.tick ∧ (State.recordPkFault s lane cause).life.fuses = s.life.fuses := by
  simp [State.recordPkFault]

@[simp] theorem State.pkFault_kept (s : State) (n cause : Nat) : (State.pkFault s n cause).pending = s.pending ∧ (State.pkFault s n cause).tick = s.tick ∧ (State.pkFault s n cause).life.fuses = s.life.fuses := by
  simp only [State.pkFault]
  repeat' first
    | (simp; done)
    | split

@[simp] theorem State.takeSpare_kept (s : State) : (State.takeSpare s).pending = s.pending ∧ (State.takeSpare s).tick = s.tick ∧ (State.takeSpare s).life.fuses = s.life.fuses := by
  simp only [State.takeSpare]
  repeat' first
    | (simp; done)
    | split

@[simp] theorem State.pkDue_kept (s : State) (n : Nat) : (State.pkDue s n).pending = s.pending ∧ (State.pkDue s n).tick = s.tick ∧ (State.pkDue s n).life.fuses = s.life.fuses := by
  simp only [State.pkDue]
  repeat' first
    | (simp; done)
    | split

@[simp] theorem State.settleSpare_kept (s : State) (lane : Nat) : (State.settleSpare s lane).pending = s.pending ∧ (State.settleSpare s lane).tick = s.tick ∧ (State.settleSpare s lane).life.fuses = s.life.fuses := by
  simp [State.settleSpare]

@[simp] theorem State.pkRoles_kept (s : State) : (State.pkRoles s).pending = s.pending ∧ (State.pkRoles s).tick = s.tick ∧ (State.pkRoles s).life.fuses = s.life.fuses := by
  simp [State.pkRoles]

@[simp] theorem State.testSegment_kept (s : State) (n : Nat) : (s.testSegment n).pending = s.pending ∧ (s.testSegment n).tick = s.tick ∧ (s.testSegment n).life.fuses = s.life.fuses := by
  unfold State.testSegment
  split
  · dsimp only
    split
    · exact ⟨rfl, rfl, rfl⟩
    · split
      · next t he => have a := State.debit_kept _ _ _ he; simp [a]
      · exact ⟨rfl, rfl, rfl⟩
  · exact ⟨rfl, rfl, rfl⟩

@[simp] theorem State.startSpareTest_kept (s : State) (n : Nat) : (State.startSpareTest s n).pending = s.pending ∧ (State.startSpareTest s n).tick = s.tick ∧ (State.startSpareTest s n).life.fuses = s.life.fuses := by
  simp [State.startSpareTest]

@[simp] theorem State.spareTests_kept (s : State) : (State.spareTests s).pending = s.pending ∧ (State.spareTests s).tick = s.tick ∧ (State.spareTests s).life.fuses = s.life.fuses := by
  simp [State.spareTests]

@[simp] theorem State.unfencePk_kept (s : State) (v : Nat) : (State.unfencePk s v).pending = s.pending ∧ (State.unfencePk s v).tick = s.tick ∧ (State.unfencePk s v).life.fuses = s.life.fuses := by
  simp [State.unfencePk]

@[simp] theorem State.lowerSpare_kept (s : State) : (State.lowerSpare s).pending = s.pending ∧ (State.lowerSpare s).tick = s.tick ∧ (State.lowerSpare s).life.fuses = s.life.fuses := by
  unfold State.lowerSpare
  repeat' first
    | (simp; done)
    | split

@[simp] theorem State.raiseSpare_kept (s : State) : (State.raiseSpare s).pending = s.pending ∧ (State.raiseSpare s).tick = s.tick ∧ (State.raiseSpare s).life.fuses = s.life.fuses := by
  unfold State.raiseSpare
  repeat' first
    | (simp; done)
    | split

@[simp] theorem State.setSpareCount_kept (s : State) (v : Nat) : (State.setSpareCount s v).pending = s.pending ∧ (State.setSpareCount s v).tick = s.tick ∧ (State.setSpareCount s v).life.fuses = s.life.fuses := by
  simp [State.setSpareCount]

@[simp] theorem State.unfenceLat_kept (s : State) (v : Nat) : (State.unfenceLat s v).pending = s.pending ∧ (State.unfenceLat s v).tick = s.tick ∧ (State.unfenceLat s v).life.fuses = s.life.fuses := by
  simp [State.unfenceLat]

@[simp] theorem State.clusterDue_kept (s : State) : (State.clusterDue s).pending = s.pending ∧ (State.clusterDue s).tick = s.tick ∧ (State.clusterDue s).life.fuses = s.life.fuses := by
  unfold State.clusterDue
  repeat' first
    | (simp (disch := (intros; repeat' first | rfl | (simp; done) | split)); done)
    | split

@[simp] theorem State.symFault_kept (s : State) (n cause : Nat) : (State.symFault s n cause).pending = s.pending ∧ (State.symFault s n cause).tick = s.tick ∧ (State.symFault s n cause).life.fuses = s.life.fuses := by
  simp [State.symFault]

@[simp] theorem State.unfenceSym_kept (s : State) (v : Nat) : (State.unfenceSym s v).pending = s.pending ∧ (State.unfenceSym s v).tick = s.tick ∧ (State.unfenceSym s v).life.fuses = s.life.fuses := by
  simp [State.unfenceSym]

@[simp] theorem State.symDue_kept (s : State) : (State.symDue s).pending = s.pending ∧ (State.symDue s).tick = s.tick ∧ (State.symDue s).life.fuses = s.life.fuses := by
  unfold State.symDue
  repeat' first
    | (simp (disch := (intros; repeat' first | rfl | (simp; done) | split)); done)
    | split

@[simp] theorem State.openGroup_kept (s : State) : (State.openGroup s).pending = s.pending ∧ (State.openGroup s).tick = s.tick ∧ (State.openGroup s).life.fuses = s.life.fuses := by
  simp [State.openGroup]

@[simp] theorem State.unlockPage_kept (s : State) (p : Nat) : (State.unlockPage s p).pending = s.pending ∧ (State.unlockPage s p).tick = s.tick ∧ (State.unlockPage s p).life.fuses = s.life.fuses := by
  simp [State.unlockPage]

@[simp] theorem State.entryBack_kept (s : State) (seq p : Nat) : (State.entryBack s seq p).pending = s.pending ∧ (State.entryBack s seq p).tick = s.tick ∧ (State.entryBack s seq p).life.fuses = s.life.fuses := by
  unfold State.entryBack
  repeat' first
    | (simp; done)
    | split

@[simp] theorem State.writeBlock_kept (s : State) (w : Nat × Bytes) : (State.writeBlock s w).pending = s.pending ∧ (State.writeBlock s w).tick = s.tick ∧ (State.writeBlock s w).life.fuses = s.life.fuses := by
  simp [State.writeBlock]

@[simp] theorem State.vaultFault_kept (s : State) (region : Nat) : (State.vaultFault s region).pending = s.pending ∧ (State.vaultFault s region).tick = s.tick ∧ (State.vaultFault s region).life.fuses = s.life.fuses := by
  simp [State.vaultFault]

@[simp] theorem State.issueWrites_kept (s : State) : (State.issueWrites s).pending = s.pending ∧ (State.issueWrites s).tick = s.tick ∧ (State.issueWrites s).life.fuses = s.life.fuses := by
  unfold State.issueWrites
  repeat' first
    | (simp; done)
    | split

@[simp] theorem State.phase2_kept (s : State) : (State.phase2 s).pending = s.pending ∧ (State.phase2 s).tick = s.tick ∧ (State.phase2 s).life.fuses = s.life.fuses := by
  unfold State.phase2
  repeat' first
    | (simp (disch := (intros; repeat' first | rfl | (simp; done) | split)); done)
    | split

@[simp] theorem State.groupWindow_kept (s : State) : (State.groupWindow s).pending = s.pending ∧ (State.groupWindow s).tick = s.tick ∧ (State.groupWindow s).life.fuses = s.life.fuses := by
  simp [State.groupWindow]

@[simp] theorem State.deallocatePage_kept (s : State) (p : Nat) : (State.deallocatePage s p).pending = s.pending ∧ (State.deallocatePage s p).tick = s.tick ∧ (State.deallocatePage s p).life.fuses = s.life.fuses := by
  simp [State.deallocatePage]

@[simp] theorem State.comeIntoForce_kept (s : State) : (State.comeIntoForce s).pending = s.pending ∧ (State.comeIntoForce s).tick = s.tick ∧ (State.comeIntoForce s).life.fuses = s.life.fuses := by
  unfold State.comeIntoForce
  repeat' first
    | (simp; done)
    | split

theorem State.ladderTake_kept (s : State) : ∀ t, State.ladderTake s = some t → t.pending = s.pending ∧ t.tick = s.tick ∧ t.life.fuses = s.life.fuses := by
  intro t h
  simp only [State.ladderTake] at h
  split at h
  · obtain ⟨st, he, rfl⟩ := Option.map_eq_some_iff.mp h
    exact State.debit_kept s 1 st he
  · cases h

@[simp] theorem State.giveKey_kept (s : State) (id h : Nat) (k : KeyMat) : (State.giveKey s id h k).pending = s.pending ∧ (State.giveKey s id h k).tick = s.tick ∧ (State.giveKey s id h k).life.fuses = s.life.fuses := by
  simp [State.giveKey]

@[simp] theorem State.openFor_kept (s : State) (u : Unwrap) (id h : Nat) : (State.openFor s u id h).pending = s.pending ∧ (State.openFor s u id h).tick = s.tick ∧ (State.openFor s u id h).life.fuses = s.life.fuses := by
  simp only [State.openFor]
  repeat' first
    | (simp; done)
    | split

@[simp] theorem State.checkKeyed_kept (s : State) (id : Nat) : (State.checkKeyed s id).pending = s.pending ∧ (State.checkKeyed s id).tick = s.tick ∧ (State.checkKeyed s id).life.fuses = s.life.fuses := by
  simp only [State.checkKeyed]
  repeat' first
    | (simp; done)
    | split

@[simp] theorem State.unwrapJob_kept (s : State) (u : Unwrap) (id : Nat) : ((s.unwrapJob u id).1).pending = s.pending ∧ ((s.unwrapJob u id).1).tick = s.tick ∧ ((s.unwrapJob u id).1).life.fuses = s.life.fuses := by
  have key (l : List Nat) (a : State × Bool) : ((l.foldl (fun (a : State × Bool) h => if !a.2 then a else match a.1.ladderTake with | some st => (st.openFor u id h, true) | none => (a.1, false)) a).1).pending = a.1.pending ∧ ((l.foldl (fun (a : State × Bool) h => if !a.2 then a else match a.1.ladderTake with | some st => (st.openFor u id h, true) | none => (a.1, false)) a).1).tick = a.1.tick ∧ ((l.foldl (fun (a : State × Bool) h => if !a.2 then a else match a.1.ladderTake with | some st => (st.openFor u id h, true) | none => (a.1, false)) a).1).life.fuses = a.1.life.fuses := by
    refine ⟨foldl_pending1 ?_ _ _, foldl_tick1 ?_ _ _, foldl_fuses1 ?_ _ _⟩ <;>
      (intro a h; split
       · rfl
       · split
         · next t e => have a := State.ladderTake_kept _ _ e; simp [a]
         · rfl)
  unfold State.unwrapJob
  split
  · simp
  · split
    · simp
    · dsimp only
      split
      · exact ⟨(State.checkKeyed_kept _ _).1.trans (key _ _).1, (State.checkKeyed_kept _ _).2.1.trans (key _ _).2.1, (State.checkKeyed_kept _ _).2.2.trans (key _ _).2.2⟩
      · exact key _ _

@[simp] theorem State.reloadPin_kept (s : State) (u : Unwrap) (h : Nat) : ((State.reloadPin s u h).1).pending = s.pending ∧ ((State.reloadPin s u h).1).tick = s.tick ∧ ((State.reloadPin s u h).1).life.fuses = s.life.fuses := by
  unfold State.reloadPin
  repeat' first
    | rfl
    | (simp; done)
    | (have a := State.ladderTake_kept _ _ ‹_›; simp [a]; done)
    | (intro h; have a := State.ladderTake_kept _ _ h; simp [a]; done)
    | (intro h; cases h; have a := State.ladderTake_kept _ _ ‹_›; simp [a]; done)
    | (refine ⟨foldl_pending ?_ _ _, foldl_tick ?_ _ _, foldl_fuses ?_ _ _⟩)
    | (intro h; cases h; simp; done)
    | (intro h; cases h; done)
    | (intro st x; try dsimp only)
    | split
    | dsimp only

@[simp] theorem State.unwrapOne_kept (s : State) (u : Unwrap) : ((State.unwrapOne s u).1).pending = s.pending ∧ ((State.unwrapOne s u).1).tick = s.tick ∧ ((State.unwrapOne s u).1).life.fuses = s.life.fuses := by
  unfold State.unwrapOne
  repeat' first
    | (simp; done)
    | split

@[simp] theorem State.unwrapAll_kept (s : State) : (State.unwrapAll s).pending = s.pending ∧ (State.unwrapAll s).tick = s.tick ∧ (State.unwrapAll s).life.fuses = s.life.fuses := by
  simp [State.unwrapAll]

@[simp] theorem State.pinReads_kept (s : State) : (State.pinReads s).pending = s.pending ∧ (State.pinReads s).tick = s.tick ∧ (State.pinReads s).life.fuses = s.life.fuses := by
  unfold State.pinReads
  repeat' first
    | (simp; done)
    | split

@[simp] theorem State.dropRead_kept (s : State) (r : VRead) : (State.dropRead s r).pending = s.pending ∧ (State.dropRead s r).tick = s.tick ∧ (State.dropRead s r).life.fuses = s.life.fuses := by
  simp [State.dropRead]

@[simp] theorem State.readLost_kept (s : State) (jobs : List Nat) (due : Nat) : (State.readLost s jobs due).pending = s.pending ∧ (State.readLost s jobs due).tick = s.tick ∧ (State.readLost s jobs due).life.fuses = s.life.fuses := by
  simp [State.readLost]

@[simp] theorem State.readOther_kept (s : State) (r : VRead) (data : Bool) : (State.readOther s r data).pending = s.pending ∧ (State.readOther s r data).tick = s.tick ∧ (State.readOther s r data).life.fuses = s.life.fuses := by
  simp [State.readOther]

@[simp] theorem State.repairCopy_kept (s : State) (r : VRead) : (State.repairCopy s r).pending = s.pending ∧ (State.repairCopy s r).tick = s.tick ∧ (State.repairCopy s r).life.fuses = s.life.fuses := by
  simp [State.repairCopy]

@[simp] theorem State.takeNode_kept (s : State) (level index : Nat) (b : Bytes) : (State.takeNode s level index b).pending = s.pending ∧ (State.takeNode s level index b).tick = s.tick ∧ (State.takeNode s level index b).life.fuses = s.life.fuses := by
  simp [State.takeNode]

@[simp] theorem State.readEmpty_kept (s : State) (jobs : List Nat) : (State.readEmpty s jobs).pending = s.pending ∧ (State.readEmpty s jobs).tick = s.tick ∧ (State.readEmpty s jobs).life.fuses = s.life.fuses := by
  simp [State.readEmpty]

@[simp] theorem State.nodeDone_kept (s : State) (r : VRead) (data : Option Bytes) : (State.nodeDone s r data).pending = s.pending ∧ (State.nodeDone s r data).tick = s.tick ∧ (State.nodeDone s r data).life.fuses = s.life.fuses := by
  unfold State.nodeDone
  repeat' first
    | (simp; done)
    | split

@[simp] theorem State.refuseAbsent_kept (u : Unwrap) (s : State) (id : Nat) : (State.refuseAbsent u s id).pending = s.pending ∧ (State.refuseAbsent u s id).tick = s.tick ∧ (State.refuseAbsent u s id).life.fuses = s.life.fuses := by
  unfold State.refuseAbsent
  repeat' first
    | (simp; done)
    | split

@[simp] theorem State.deliver_kept (s : State) (u : Unwrap) : (State.deliver s u).pending = s.pending ∧ (State.deliver s u).tick = s.tick ∧ (State.deliver s u).life.fuses = s.life.fuses := by
  simp [State.deliver]

@[simp] theorem State.takeCopies_kept (s : State) (jobs : List Nat) (data : Option Bytes) : (State.takeCopies s jobs data).pending = s.pending ∧ (State.takeCopies s jobs data).tick = s.tick ∧ (State.takeCopies s jobs data).life.fuses = s.life.fuses := by
  unfold State.takeCopies
  repeat' first
    | rfl
    | (simp; done)
    | (refine ⟨foldl_pending ?_ _ _, foldl_tick ?_ _ _, foldl_fuses ?_ _ _⟩)
    | (intro h; cases h; simp; done)
    | (intro h; cases h; done)
    | (intro st x; try dsimp only)
    | split
    | dsimp only

@[simp] theorem State.bothFail_kept (s : State) (r : VRead) (e : TreeEntry) : (State.bothFail s r e).pending = s.pending ∧ (State.bothFail s r e).tick = s.tick ∧ (State.bothFail s r e).life.fuses = s.life.fuses := by
  simp [State.bothFail]

@[simp] theorem State.pageDone_kept (s : State) (r : VRead) (data : Option Bytes) : (State.pageDone s r data).pending = s.pending ∧ (State.pageDone s r data).tick = s.tick ∧ (State.pageDone s r data).life.fuses = s.life.fuses := by
  unfold State.pageDone
  repeat' first
    | (simp; done)
    | split

@[simp] theorem State.readDone_kept (s : State) (r : VRead) (data : Option Bytes) : (State.readDone s r data).pending = s.pending ∧ (State.readDone s r data).tick = s.tick ∧ (State.readDone s r data).life.fuses = s.life.fuses := by
  simp only [State.readDone]
  repeat' first
    | (simp; done)
    | split

@[simp] theorem State.readComplete_kept (s : State) (page port : Nat) (data : Option Bytes) : (State.readComplete s page port data).pending = s.pending ∧ (State.readComplete s page port data).tick = s.tick ∧ (State.readComplete s page port data).life.fuses = s.life.fuses := by
  unfold State.readComplete
  repeat' first
    | (simp; done)
    | split

@[simp] theorem State.rereads_kept (s : State) (port : Nat) : (State.rereads s port).pending = s.pending ∧ (State.rereads s port).tick = s.tick ∧ (State.rereads s port).life.fuses = s.life.fuses := by
  simp [State.rereads]

@[simp] theorem State.driveLost_kept (s : State) (port : Nat) (next : PortState) : (State.driveLost s port next).pending = s.pending ∧ (State.driveLost s port next).tick = s.tick ∧ (State.driveLost s port next).life.fuses = s.life.fuses := by
  simp [State.driveLost]

@[simp] theorem State.copyBlock_kept (s : State) (port block : Nat) : (State.copyBlock s port block).pending = s.pending ∧ (State.copyBlock s port block).tick = s.tick ∧ (State.copyBlock s port block).life.fuses = s.life.fuses := by
  simp [State.copyBlock]

@[simp] theorem State.startCopy_kept (s : State) (port : Nat) : (State.startCopy s port).pending = s.pending ∧ (State.startCopy s port).tick = s.tick ∧ (State.startCopy s port).life.fuses = s.life.fuses := by
  simp [State.startCopy]

@[simp] theorem State.driveFound_kept (s : State) (port : Nat) (i : DriveIdent) : (State.driveFound s port i).pending = s.pending ∧ (State.driveFound s port i).tick = s.tick ∧ (State.driveFound s port i).life.fuses = s.life.fuses := by
  simp [State.driveFound]

@[simp] theorem State.portLeaves_kept (s : State) (port : Nat) (next : PortState) : (State.portLeaves s port next).pending = s.pending ∧ (State.portLeaves s port next).tick = s.tick ∧ (State.portLeaves s port next).life.fuses = s.life.fuses := by
  simp [State.portLeaves]

@[simp] theorem State.portTick_kept (s : State) (port : Nat) : (State.portTick s port).pending = s.pending ∧ (State.portTick s port).tick = s.tick ∧ (State.portTick s port).life.fuses = s.life.fuses := by
  simp only [State.portTick]
  repeat' first
    | (simp; done)
    | split

@[simp] theorem State.driveTick_kept (s : State) : (State.driveTick s).pending = s.pending ∧ (State.driveTick s).tick = s.tick ∧ (State.driveTick s).life.fuses = s.life.fuses := by
  unfold State.driveTick
  repeat' first
    | (simp (disch := (intros; repeat' first | rfl | (simp; done) | split)); done)
    | split

@[simp] theorem State.sweepPage_kept (s : State) (p : Nat) : (State.sweepPage s p).pending = s.pending ∧ (State.sweepPage s p).tick = s.tick ∧ (State.sweepPage s p).life.fuses = s.life.fuses := by
  simp [State.sweepPage]

@[simp] theorem State.sweepFrame_kept (s : State) : (State.sweepFrame s).pending = s.pending ∧ (State.sweepFrame s).tick = s.tick ∧ (State.sweepFrame s).life.fuses = s.life.fuses := by
  unfold State.sweepFrame
  repeat' first
    | rfl
    | (simp; done)
    | (have a := State.debit_kept _ _ _ ‹_›; simp [a]; done)
    | (intro h; have a := State.debit_kept _ _ _ h; simp [a]; done)
    | (intro h; cases h; have a := State.debit_kept _ _ _ ‹_›; simp [a]; done)
    | (refine ⟨foldl_pending ?_ _ _, foldl_tick ?_ _ _, foldl_fuses ?_ _ _⟩)
    | (intro h; cases h; simp; done)
    | (intro h; cases h; done)
    | (intro st x; try dsimp only)
    | split
    | dsimp only

@[simp] theorem State.certify_kept (s : State) (n : Nat) : (State.certify s n).pending = s.pending ∧ (State.certify s n).tick = s.tick ∧ (State.certify s n).life.fuses = s.life.fuses := by
  simp [State.certify]

@[simp] theorem State.scrubPage_kept (s : State) (p : Nat) : (State.scrubPage s p).pending = s.pending ∧ (State.scrubPage s p).tick = s.tick ∧ (State.scrubPage s p).life.fuses = s.life.fuses := by
  simp [State.scrubPage]

@[simp] theorem State.copyPay_kept (s : State) (id : Nat) : ((State.copyPay s id).2).pending = s.pending ∧ ((State.copyPay s id).2).tick = s.tick ∧ ((State.copyPay s id).2).life.fuses = s.life.fuses := by
  simp only [State.copyPay]
  repeat' first
    | (simp; done)
    | split

@[simp] theorem State.scrubNode_kept (s : State) (k : Nat) : (State.scrubNode s k).pending = s.pending ∧ (State.scrubNode s k).tick = s.tick ∧ (State.scrubNode s k).life.fuses = s.life.fuses := by
  simp [State.scrubNode]

@[simp] theorem State.scrubFrame_kept (s : State) : (State.scrubFrame s).pending = s.pending ∧ (State.scrubFrame s).tick = s.tick ∧ (State.scrubFrame s).life.fuses = s.life.fuses := by
  unfold State.scrubFrame
  repeat' first
    | rfl
    | (simp; done)
    | (refine ⟨foldl_pending ?_ _ _, foldl_tick ?_ _ _, foldl_fuses ?_ _ _⟩)
    | (intro h; cases h; simp; done)
    | (intro h; cases h; done)
    | (intro st x; try dsimp only)
    | split
    | dsimp only

@[simp] theorem State.resilverFrame_kept (s : State) : (State.resilverFrame s).pending = s.pending ∧ (State.resilverFrame s).tick = s.tick ∧ (State.resilverFrame s).life.fuses = s.life.fuses := by
  unfold State.resilverFrame
  repeat' first
    | rfl
    | (simp; done)
    | (refine ⟨foldl_pending ?_ _ _, foldl_tick ?_ _ _, foldl_fuses ?_ _ _⟩)
    | (intro h; cases h; simp; done)
    | (intro h; cases h; done)
    | (intro st x; try dsimp only)
    | split
    | dsimp only

@[simp] theorem State.startFormat_kept (s : State) (n : Nat) : (State.startFormat s n).pending = s.pending ∧ (State.startFormat s n).tick = s.tick ∧ (State.startFormat s n).life.fuses = s.life.fuses := by
  simp [State.startFormat]

@[simp] theorem State.formatDrive_kept (s : State) (p n : Nat) : (State.formatDrive s p n).pending = s.pending ∧ (State.formatDrive s p n).tick = s.tick ∧ (State.formatDrive s p n).life.fuses = s.life.fuses := by
  simp [State.formatDrive]

@[simp] theorem State.takeRoot_kept (s : State) (r : Root) : (State.takeRoot s r).pending = s.pending ∧ (State.takeRoot s r).tick = s.tick ∧ (State.takeRoot s r).life.fuses = s.life.fuses := by
  simp [State.takeRoot]

@[simp] theorem State.rootSelect_kept (s : State) (port : Nat) : (State.rootSelect s port).pending = s.pending ∧ (State.rootSelect s port).tick = s.tick ∧ (State.rootSelect s port).life.fuses = s.life.fuses := by
  unfold State.rootSelect
  repeat' first
    | (simp; done)
    | split

@[simp] theorem State.portOffline_kept (s : State) (port v : Nat) : (State.portOffline s port v).pending = s.pending ∧ (State.portOffline s port v).tick = s.tick ∧ (State.portOffline s port v).life.fuses = s.life.fuses := by
  simp [State.portOffline]

@[simp] theorem State.wspFail_kept (s : State) (n : Nat) : (State.wspFail s n).pending = s.pending ∧ (State.wspFail s n).tick = s.tick ∧ (State.wspFail s n).life.fuses = s.life.fuses := by
  simp [State.wspFail]

@[simp] theorem State.entropyTick_kept (s : State) : (State.entropyTick s).pending = s.pending ∧ (State.entropyTick s).tick = s.tick ∧ (State.entropyTick s).life.fuses = s.life.fuses := by
  simp [State.entropyTick]

@[simp] theorem State.reseed_kept (s : State) (testPasses : Bool) : (State.reseed s testPasses).pending = s.pending ∧ (State.reseed s testPasses).tick = s.tick ∧ (State.reseed s testPasses).life.fuses = s.life.fuses := by
  simp only [State.reseed]
  repeat' first
    | (simp; done)
    | split

@[simp] theorem State.reseedWindow_kept (s : State) : (State.reseedWindow s).pending = s.pending ∧ (State.reseedWindow s).tick = s.tick ∧ (State.reseedWindow s).life.fuses = s.life.fuses := by
  unfold State.reseedWindow
  repeat' first
    | (simp; done)
    | split

@[simp] theorem State.endGrantNext_kept (s : State) : (State.endGrantNext s).pending = s.pending ∧ (State.endGrantNext s).tick = s.tick ∧ (State.endGrantNext s).life.fuses = s.life.fuses := by
  simp [State.endGrantNext]

@[simp] theorem State.dropGrant_kept (s : State) : (State.dropGrant s).pending = s.pending ∧ (State.dropGrant s).tick = s.tick ∧ (State.dropGrant s).life.fuses = s.life.fuses := by
  simp [State.dropGrant]

@[simp] theorem State.serveOne_kept (s : State) (c : Instr) : (s.serveOne c).pending = s.pending ∧ (s.serveOne c).tick = s.tick ∧ (s.serveOne c).life.fuses = s.life.fuses := by
  cases c <;> simp [State.serveOne, execDmaReadComplete, execVaultReadComplete, execDebugMasterAccess]

@[simp] theorem State.serveHeld_kept (s : State) : (State.serveHeld s).pending = s.pending ∧ (State.serveHeld s).tick = s.tick ∧ (State.serveHeld s).life.fuses = s.life.fuses := by
  simp [State.serveHeld]

@[simp] theorem State.guardLimit_kept (s : State) : (State.guardLimit s).pending = s.pending ∧ (State.guardLimit s).tick = s.tick ∧ (State.guardLimit s).life.fuses = s.life.fuses := by
  simp [State.guardLimit]

@[simp] theorem State.seeReq_kept (s : State) (r : DictReq) : (State.seeReq s r).pending = s.pending ∧ (State.seeReq s r).tick = s.tick ∧ (State.seeReq s r).life.fuses = s.life.fuses := by
  simp [State.seeReq]

@[simp] theorem State.reply_kept (s : State) (r : DictReq) (slot : Option Nat) (op reason : Nat) (value : Bytes) : (State.reply s r slot op reason value).pending = s.pending ∧ (State.reply s r slot op reason value).tick = s.tick ∧ (State.reply s r slot op reason value).life.fuses = s.life.fuses := by
  simp [State.reply]

@[simp] theorem State.refused_kept (s : State) (key reason : Nat) : (State.refused s key reason).pending = s.pending ∧ (State.refused s key reason).tick = s.tick ∧ (State.refused s key reason).life.fuses = s.life.fuses := by
  simp [State.refused]

@[simp] theorem State.refuse_kept (s : State) (key reason : Nat) (req : Option (DictReq × Option Nat)) : (State.refuse s key reason req).pending = s.pending ∧ (State.refuse s key reason req).tick = s.tick ∧ (State.refuse s key reason req).life.fuses = s.life.fuses := by
  unfold State.refuse
  repeat' first
    | (simp; done)
    | split

@[simp] theorem State.ackWrite_kept (s : State) (key : Nat) (v : DVal) (req : Option (DictReq × Option Nat)) : (State.ackWrite s key v req).pending = s.pending ∧ (State.ackWrite s key v req).tick = s.tick ∧ (State.ackWrite s key v req).life.fuses = s.life.fuses := by
  unfold State.ackWrite
  repeat' first
    | (simp; done)
    | split

@[simp] theorem State.refuseOwn_kept (s : State) (o : OwnChange) (reason : Nat) : (State.refuseOwn s o reason).pending = s.pending ∧ (State.refuseOwn s o reason).tick = s.tick ∧ (State.refuseOwn s o reason).life.fuses = s.life.fuses := by
  unfold State.refuseOwn
  repeat' first
    | (simp; done)
    | split

@[simp] theorem State.finishOwnWrite_kept (s : State) (o : OwnChange) : (State.finishOwnWrite s o).pending = s.pending ∧ (State.finishOwnWrite s o).tick = s.tick ∧ (State.finishOwnWrite s o).life.fuses = s.life.fuses := by
  unfold State.finishOwnWrite
  repeat' first
    | (simp; done)
    | split

@[simp] theorem State.park_kept (s : State) (j : Job) : (State.park s j).pending = s.pending ∧ (State.park s j).tick = s.tick ∧ (State.park s j).life.fuses = s.life.fuses := by
  simp [State.park]

@[simp] theorem State.parkWhere_kept (s : State) (n : Nat) (p : Job → Bool) : (State.parkWhere s n p).pending = s.pending ∧ (State.parkWhere s n p).tick = s.tick ∧ (State.parkWhere s n p).life.fuses = s.life.fuses := by
  simp [State.parkWhere]

@[simp] theorem State.migTo_kept (s : State) (n : Nat) (m : MigState) : (State.migTo s n m).pending = s.pending ∧ (State.migTo s n m).tick = s.tick ∧ (State.migTo s n m).life.fuses = s.life.fuses := by
  simp [State.migTo]

@[simp] theorem State.migRefuse_kept (s : State) (n code : Nat) : (State.migRefuse s n code).pending = s.pending ∧ (State.migRefuse s n code).tick = s.tick ∧ (State.migRefuse s n code).life.fuses = s.life.fuses := by
  simp [State.migRefuse]

@[simp] theorem State.freeze_kept (s : State) (n : Nat) : (State.freeze s n).pending = s.pending ∧ (State.freeze s n).tick = s.tick ∧ (State.freeze s n).life.fuses = s.life.fuses := by
  simp [State.freeze]

@[simp] theorem State.freezeNow_kept (s : State) (n : Nat) : (State.freezeNow s n).pending = s.pending ∧ (State.freezeNow s n).tick = s.tick ∧ (State.freezeNow s n).life.fuses = s.life.fuses := by
  simp [State.freezeNow]

@[simp] theorem State.dropTag_kept (s : State) (t : Bytes) : (State.dropTag s t).pending = s.pending ∧ (State.dropTag s t).tick = s.tick ∧ (State.dropTag s t).life.fuses = s.life.fuses := by
  simp [State.dropTag]

@[simp] theorem State.markMoved_kept (s : State) (n : Nat) : (State.markMoved s n).pending = s.pending ∧ (State.markMoved s n).tick = s.tick ∧ (State.markMoved s n).life.fuses = s.life.fuses := by
  simp [State.markMoved]

@[simp] theorem State.movesNext_kept (s : State) (n : Nat) : (State.movesNext s n).pending = s.pending ∧ (State.movesNext s n).tick = s.tick ∧ (State.movesNext s n).life.fuses = s.life.fuses := by
  simp [State.movesNext]

@[simp] theorem State.thaw_kept (s : State) (n : Nat) : (State.thaw s n).pending = s.pending ∧ (State.thaw s n).tick = s.tick ∧ (State.thaw s n).life.fuses = s.life.fuses := by
  unfold State.thaw
  repeat' first
    | (simp; done)
    | split

@[simp] theorem State.imageWrite_kept (s : State) (n : Nat) (v : Bytes) : (State.imageWrite s n v).pending = s.pending ∧ (State.imageWrite s n v).tick = s.tick ∧ (State.imageWrite s n v).life.fuses = s.life.fuses := by
  simp [State.imageWrite]

@[simp] theorem State.setImageBytes_kept (s : State) (n : Nat) (b : Bytes) : (State.setImageBytes s n b).pending = s.pending ∧ (State.setImageBytes s n b).tick = s.tick ∧ (State.setImageBytes s n b).life.fuses = s.life.fuses := by
  simp [State.setImageBytes]

@[simp] theorem State.saveStart_kept (s : State) (n : Nat) : (State.saveStart s n).pending = s.pending ∧ (State.saveStart s n).tick = s.tick ∧ (State.saveStart s n).life.fuses = s.life.fuses := by
  simp [State.saveStart]

@[simp] theorem State.saveBuild_kept (s : State) (n : Nat) : (State.saveBuild s n).pending = s.pending ∧ (State.saveBuild s n).tick = s.tick ∧ (State.saveBuild s n).life.fuses = s.life.fuses := by
  simp [State.saveBuild]

@[simp] theorem State.restoreStart_kept (s : State) (n : Nat) : (State.restoreStart s n).pending = s.pending ∧ (State.restoreStart s n).tick = s.tick ∧ (State.restoreStart s n).life.fuses = s.life.fuses := by
  simp [State.restoreStart]

@[simp] theorem State.releaseReset_kept (s : State) (n : Nat) : (State.releaseReset s n).pending = s.pending ∧ (State.releaseReset s n).tick = s.tick ∧ (State.releaseReset s n).life.fuses = s.life.fuses := by
  simp [State.releaseReset]

@[simp] theorem State.restoreFails_kept (s : State) (n code : Nat) : (State.restoreFails s n code).pending = s.pending ∧ (State.restoreFails s n code).tick = s.tick ∧ (State.restoreFails s n code).life.fuses = s.life.fuses := by
  simp [State.restoreFails]

@[simp] theorem State.restoreFailsNext_kept (s : State) (n code : Nat) : (State.restoreFailsNext s n code).pending = s.pending ∧ (State.restoreFailsNext s n code).tick = s.tick ∧ (State.restoreFailsNext s n code).life.fuses = s.life.fuses := by
  simp [State.restoreFailsNext]

@[simp] theorem State.consumeTag_kept (s : State) (tag : Bytes) (src target : Nat) : (State.consumeTag s tag src target).pending = s.pending ∧ (State.consumeTag s tag src target).tick = s.tick ∧ (State.consumeTag s tag src target).life.fuses = s.life.fuses := by
  unfold State.consumeTag
  repeat' first
    | (simp; done)
    | split

@[simp] theorem State.restoreAnswered_kept (s : State) (n : Nat) (accepted : Bool) : (State.restoreAnswered s n accepted).pending = s.pending ∧ (State.restoreAnswered s n accepted).tick = s.tick ∧ (State.restoreAnswered s n accepted).life.fuses = s.life.fuses := by
  simp [State.restoreAnswered]

@[simp] theorem State.restoreCheck_kept (s : State) (n : Nat) : (State.restoreCheck s n).pending = s.pending ∧ (State.restoreCheck s n).tick = s.tick ∧ (State.restoreCheck s n).life.fuses = s.life.fuses := by
  unfold State.restoreCheck
  repeat' first
    | (simp; done)
    | split

@[simp] theorem State.restoreOwn_kept (s : State) (n : Nat) : (State.restoreOwn s n).pending = s.pending ∧ (State.restoreOwn s n).tick = s.tick ∧ (State.restoreOwn s n).life.fuses = s.life.fuses := by
  simp only [State.restoreOwn]
  repeat' first
    | (simp; done)
    | split

@[simp] theorem State.takeRing_kept (s : State) (r : Nat) (b : Bytes) : (State.takeRing s r b).pending = s.pending ∧ (State.takeRing s r b).tick = s.tick ∧ (State.takeRing s r b).life.fuses = s.life.fuses := by
  simp [State.takeRing]

@[simp] theorem State.restoreDone_kept (s : State) (n : Nat) : (State.restoreDone s n).pending = s.pending ∧ (State.restoreDone s n).tick = s.tick ∧ (State.restoreDone s n).life.fuses = s.life.fuses := by
  unfold State.restoreDone
  repeat' first
    | (simp; done)
    | split

@[simp] theorem State.migCommand_kept (s : State) (n v : Nat) : (State.migCommand s n v).pending = s.pending ∧ (State.migCommand s n v).tick = s.tick ∧ (State.migCommand s n v).life.fuses = s.life.fuses := by
  unfold State.migCommand
  repeat' first
    | (simp; done)
    | split

@[simp] theorem State.migWindow_kept (s : State) : (s.migWindow).pending = s.pending ∧ (s.migWindow).tick = s.tick ∧ (s.migWindow).life.fuses = s.life.fuses := by
  simp (disch := (intros; repeat' first | rfl | (simp; done) | split)) [State.migWindow]

@[simp] theorem State.migTickDue_kept (s : State) : (State.migTickDue s).pending = s.pending ∧ (State.migTickDue s).tick = s.tick ∧ (State.migTickDue s).life.fuses = s.life.fuses := by
  unfold State.migTickDue
  repeat' first
    | rfl
    | (simp; done)
    | (refine ⟨foldl_pending ?_ _ _, foldl_tick ?_ _ _, foldl_fuses ?_ _ _⟩)
    | (intro h; cases h; simp; done)
    | (intro h; cases h; done)
    | (intro st x; try dsimp only)
    | split
    | dsimp only

@[simp] theorem State.badMessage_kept (s : State) : (State.badMessage s).pending = s.pending ∧ (State.badMessage s).tick = s.tick ∧ (State.badMessage s).life.fuses = s.life.fuses := by
  simp [State.badMessage]

@[simp] theorem State.addFragment_kept (s : State) (h : MsgHdr) : ((State.addFragment s h).1).pending = s.pending ∧ ((State.addFragment s h).1).tick = s.tick ∧ ((State.addFragment s h).1).life.fuses = s.life.fuses := by
  unfold State.addFragment
  repeat' first
    | (simp; done)
    | split

@[simp] theorem State.receive_kept (s : State) (type : Nat) (m : MsgHdr) (f : State → State)
    (h : ∀ st, (f st).pending = st.pending ∧ (f st).tick = st.tick ∧ (f st).life.fuses = st.life.fuses) :
    (s.receive type m f).pending = s.pending ∧ (s.receive type m f).tick = s.tick ∧ (s.receive type m f).life.fuses = s.life.fuses := by
  simp only [State.receive]
  repeat' first
    | (simp [h]; done)
    | split

@[simp] theorem State.atStep4_kept (s : State) (c : Instr) (f : State → State)
    (h : ∀ st, (f st).pending = st.pending ∧ (f st).tick = st.tick ∧ (f st).life.fuses = st.life.fuses) :
    (s.atStep4 c f).pending = s.pending ∧ (s.atStep4 c f).tick = s.tick ∧ (s.atStep4 c f).life.fuses = s.life.fuses := by
  simp only [State.atStep4]
  split <;> simp [h]

@[simp] theorem State.ownMarker_kept (s : State) (m : Marker) : (State.ownMarker s m).pending = s.pending ∧ (State.ownMarker s m).tick = s.tick ∧ (State.ownMarker s m).life.fuses = s.life.fuses := by
  simp [State.ownMarker]

@[simp] theorem State.takeHeader_kept (s : State) (m : Marker) : (State.takeHeader s m).pending = s.pending ∧ (State.takeHeader s m).tick = s.tick ∧ (State.takeHeader s m).life.fuses = s.life.fuses := by
  simp [State.takeHeader]

@[simp] theorem State.measure_kept (s : State) : (State.measure s).pending = s.pending ∧ (State.measure s).tick = s.tick ∧ (State.measure s).life.fuses = s.life.fuses := by
  unfold State.measure
  repeat' first
    | (simp; done)
    | split

@[simp] theorem State.portLocks_kept (s : State) (ring : Nat) : (State.portLocks s ring).pending = s.pending ∧ (State.portLocks s ring).tick = s.tick ∧ (State.portLocks s ring).life.fuses = s.life.fuses := by
  simp [State.portLocks]

@[simp] theorem State.follow_kept (s : State) (m : Marker) : (State.follow s m).pending = s.pending ∧ (State.follow s m).life.fuses = s.life.fuses := by
  unfold State.follow
  repeat' first
    | (simp; done)
    | split

@[simp] theorem State.forward_kept (s : State) (type : Nat) (h : MsgHdr) (body : Bytes) : (State.forward s type h body).pending = s.pending ∧ (State.forward s type h body).tick = s.tick ∧ (State.forward s type h body).life.fuses = s.life.fuses := by
  simp [State.forward]

@[simp] theorem State.dropAddress_kept (s : State) (entries : List Nat) : (State.dropAddress s entries).pending = s.pending ∧ (State.dropAddress s entries).tick = s.tick ∧ (State.dropAddress s entries).life.fuses = s.life.fuses := by
  simp [State.dropAddress]

@[simp] theorem State.setRingOrder_kept (s : State) (l : List Nat) : (State.setRingOrder s l).pending = s.pending ∧ (State.setRingOrder s l).tick = s.tick ∧ (State.setRingOrder s l).life.fuses = s.life.fuses := by
  simp [State.setRingOrder]

@[simp] theorem State.rollCall_kept (s : State) (h : MsgHdr) (count : Nat) (entries : List Nat) : (State.rollCall s h count entries).pending = s.pending ∧ (State.rollCall s h count entries).tick = s.tick ∧ (State.rollCall s h count entries).life.fuses = s.life.fuses := by
  simp [State.rollCall]

@[simp] theorem State.fillCall_kept (s : State) (h : MsgHdr) (order entries : List Nat) : (State.fillCall s h order entries).pending = s.pending ∧ (State.fillCall s h order entries).tick = s.tick ∧ (State.fillCall s h order entries).life.fuses = s.life.fuses := by
  simp [State.fillCall]

@[simp] theorem State.abandonOwn_kept (s : State) (o : OwnChange) : (State.abandonOwn s o).pending = s.pending ∧ (State.abandonOwn s o).tick = s.tick ∧ (State.abandonOwn s o).life.fuses = s.life.fuses := by
  unfold State.abandonOwn
  repeat' first
    | (simp; done)
    | split

@[simp] theorem State.logRecord_kept (s : State) (src : Nat) (r : ReplRecord) : (State.logRecord s src r).pending = s.pending ∧ (State.logRecord s src r).tick = s.tick ∧ (State.logRecord s src r).life.fuses = s.life.fuses := by
  simp [State.logRecord]

@[simp] theorem State.abandonForming_kept (s : State) (j : Job) : (State.abandonForming s j).pending = s.pending ∧ (State.abandonForming s j).tick = s.tick ∧ (State.abandonForming s j).life.fuses = s.life.fuses := by
  simp [State.abandonForming]

@[simp] theorem State.replicate_kept (s : State) (src : Nat) (r : ReplRecord) : (State.replicate s src r).pending = s.pending ∧ (State.replicate s src r).tick = s.tick ∧ (State.replicate s src r).life.fuses = s.life.fuses := by
  simp [State.replicate]

@[simp] theorem State.updOwn_kept (s : State) (seq : Nat) (f : OwnChange → OwnChange) : (State.updOwn s seq f).pending = s.pending ∧ (State.updOwn s seq f).tick = s.tick ∧ (State.updOwn s seq f).life.fuses = s.life.fuses := by
  simp [State.updOwn]

@[simp] theorem State.takeAck_kept (s : State) (src : Nat) (o : OwnChange) : (State.takeAck s src o).pending = s.pending ∧ (State.takeAck s src o).tick = s.tick ∧ (State.takeAck s src o).life.fuses = s.life.fuses := by
  simp [State.takeAck]

@[simp] theorem State.updLog_kept (s : State) (writer seq : Nat) (f : LogRecord → LogRecord) : (State.updLog s writer seq f).pending = s.pending ∧ (State.updLog s writer seq f).tick = s.tick ∧ (State.updLog s writer seq f).life.fuses = s.life.fuses := by
  simp [State.updLog]

@[simp] theorem State.dropLog_kept (s : State) (writer seq : Nat) : (State.dropLog s writer seq).pending = s.pending ∧ (State.dropLog s writer seq).tick = s.tick ∧ (State.dropLog s writer seq).life.fuses = s.life.fuses := by
  simp [State.dropLog]

@[simp] theorem State.settleOrphan_kept (s : State) (o : OwnChange) (commit : Bool) : (State.settleOrphan s o commit).pending = s.pending ∧ (State.settleOrphan s o commit).tick = s.tick ∧ (State.settleOrphan s o commit).life.fuses = s.life.fuses := by
  simp [State.settleOrphan]

@[simp] theorem State.takeCommit_kept (s : State) (writer seq : Nat) : (State.takeCommit s writer seq).pending = s.pending ∧ (State.takeCommit s writer seq).tick = s.tick ∧ (State.takeCommit s writer seq).life.fuses = s.life.fuses := by
  unfold State.takeCommit
  repeat' first
    | (simp; done)
    | split

@[simp] theorem State.answerQuery_kept (s : State) (writer seq : Nat) : (State.answerQuery s writer seq).pending = s.pending ∧ (State.answerQuery s writer seq).tick = s.tick ∧ (State.answerQuery s writer seq).life.fuses = s.life.fuses := by
  unfold State.answerQuery
  repeat' first
    | (simp; done)
    | split

@[simp] theorem State.countHolder_kept (s : State) (src writer seq : Nat) : (State.countHolder s src writer seq).pending = s.pending ∧ (State.countHolder s src writer seq).tick = s.tick ∧ (State.countHolder s src writer seq).life.fuses = s.life.fuses := by
  unfold State.countHolder
  repeat' first
    | (simp; done)
    | split

@[simp] theorem State.applyLogged_kept (s : State) : (State.applyLogged s).pending = s.pending ∧ (State.applyLogged s).tick = s.tick ∧ (State.applyLogged s).life.fuses = s.life.fuses := by
  simp [State.applyLogged]

@[simp] theorem State.consume_kept (s : State) (src : Nat) (tag : Bytes) (target : Nat) : (State.consume s src tag target).pending = s.pending ∧ (State.consume s src tag target).tick = s.tick ∧ (State.consume s src tag target).life.fuses = s.life.fuses := by
  unfold State.consume
  repeat' first
    | (simp; done)
    | split

@[simp] theorem State.migAnswered_kept (s : State) (tag : Bytes) (accepted : Bool) : (State.migAnswered s tag accepted).pending = s.pending ∧ (State.migAnswered s tag accepted).tick = s.tick ∧ (State.migAnswered s tag accepted).life.fuses = s.life.fuses := by
  unfold State.migAnswered
  repeat' first
    | (simp; done)
    | split

@[simp] theorem State.joinWipe_kept (s : State) (j : JoinState) : (State.joinWipe s j).pending = s.pending ∧ (State.joinWipe s j).tick = s.tick ∧ (State.joinWipe s j).life.fuses = s.life.fuses := by
  simp [State.joinWipe]

@[simp] theorem State.joinFails_kept (s : State) : (State.joinFails s).pending = s.pending ∧ (State.joinFails s).tick = s.tick ∧ (State.joinFails s).life.fuses = s.life.fuses := by
  simp [State.joinFails]

@[simp] theorem State.joinAgree_kept (s : State) (ec kem transcript : Bytes) : (State.joinAgree s ec kem transcript).pending = s.pending ∧ (State.joinAgree s ec kem transcript).tick = s.tick ∧ (State.joinAgree s ec kem transcript).life.fuses = s.life.fuses := by
  simp [State.joinAgree]

@[simp] theorem State.foundDomain_kept (s : State) : (State.foundDomain s).pending = s.pending ∧ (State.foundDomain s).tick = s.tick ∧ (State.foundDomain s).life.fuses = s.life.fuses := by
  simp [State.foundDomain]

@[simp] theorem State.joinStart_kept (s : State) (peer : Nat) : (State.joinStart s peer).pending = s.pending ∧ (State.joinStart s peer).tick = s.tick ∧ (State.joinStart s peer).life.fuses = s.life.fuses := by
  simp [State.joinStart]

@[simp] theorem State.takeAnswer_kept (s : State) (a : Answer) : (State.takeAnswer s a).pending = s.pending ∧ (State.takeAnswer s a).tick = s.tick ∧ (State.takeAnswer s a).life.fuses = s.life.fuses := by
  unfold State.takeAnswer
  repeat' first
    | (simp; done)
    | split

@[simp] theorem State.takeDomain_kept (s : State) (g : DomainGrant) : (State.takeDomain s g).pending = s.pending ∧ (State.takeDomain s g).tick = s.tick ∧ (State.takeDomain s g).life.fuses = s.life.fuses := by
  simp [State.takeDomain]

@[simp] theorem State.transferStart_kept (s : State) (o : Offer) : (State.transferStart s o).pending = s.pending ∧ (State.transferStart s o).tick = s.tick ∧ (State.transferStart s o).life.fuses = s.life.fuses := by
  simp [State.transferStart]

@[simp] theorem State.grantDomain_kept (s : State) : (State.grantDomain s).pending = s.pending ∧ (State.grantDomain s).tick = s.tick ∧ (State.grantDomain s).life.fuses = s.life.fuses := by
  unfold State.grantDomain
  repeat' first
    | (simp; done)
    | split

@[simp] theorem State.joinConfirm_kept (s : State) : (State.joinConfirm s).pending = s.pending ∧ (State.joinConfirm s).tick = s.tick ∧ (State.joinConfirm s).life.fuses = s.life.fuses := by
  simp only [State.joinConfirm]
  repeat' first
    | (simp; done)
    | split

@[simp] theorem State.takeOffer_kept (s : State) (src : Nat) (o : Offer) : (State.takeOffer s src o).pending = s.pending ∧ (State.takeOffer s src o).tick = s.tick ∧ (State.takeOffer s src o).life.fuses = s.life.fuses := by
  unfold State.takeOffer
  repeat' first
    | (simp; done)
    | split

@[simp] theorem State.transferOne_kept (s : State) (peer : Nat) : (State.transferOne s peer).pending = s.pending ∧ (State.transferOne s peer).tick = s.tick ∧ (State.transferOne s peer).life.fuses = s.life.fuses := by
  unfold State.transferOne
  repeat' first
    | (simp; done)
    | split

@[simp] theorem State.transferFrame_kept (s : State) : (State.transferFrame s).pending = s.pending ∧ (State.transferFrame s).tick = s.tick ∧ (State.transferFrame s).life.fuses = s.life.fuses := by
  unfold State.transferFrame
  repeat' first
    | rfl
    | (simp; done)
    | (refine ⟨foldl_pending ?_ _ _, foldl_tick ?_ _ _, foldl_fuses ?_ _ _⟩)
    | (intro h; cases h; simp; done)
    | (intro h; cases h; done)
    | (intro st x; try dsimp only)
    | split
    | dsimp only

@[simp] theorem State.freeOutside_kept (s : State) (page map : Nat) : (State.freeOutside s page map).pending = s.pending ∧ (State.freeOutside s page map).tick = s.tick ∧ (State.freeOutside s page map).life.fuses = s.life.fuses := by
  simp [State.freeOutside]

@[simp] theorem State.takeObject_kept (s : State) (slot : Nat) (b : Bytes) (pinned : Bool) (map : Nat) : (State.takeObject s slot b pinned map).pending = s.pending ∧ (State.takeObject s slot b pinned map).tick = s.tick ∧ (State.takeObject s slot b pinned map).life.fuses = s.life.fuses := by
  simp [State.takeObject]

@[simp] theorem State.spendRecovering_kept (s : State) : (State.spendRecovering s).pending = s.pending ∧ (State.spendRecovering s).tick = s.tick ∧ (State.spendRecovering s).life.fuses = s.life.fuses := by
  simp [State.spendRecovering]

@[simp] theorem State.freeUnnamed_kept (s : State) : (State.freeUnnamed s).pending = s.pending ∧ (State.freeUnnamed s).tick = s.tick ∧ (State.freeUnnamed s).life.fuses = s.life.fuses := by
  simp [State.freeUnnamed]

@[simp] theorem State.transferDone_kept (s : State) (full : Bool) : (State.transferDone s full).pending = s.pending ∧ (State.transferDone s full).tick = s.tick ∧ (State.transferDone s full).life.fuses = s.life.fuses := by
  simp [State.transferDone]

@[simp] theorem State.sampleSource_kept (s : State) (r : Reading) (n : Nat) : (State.sampleSource s r n).pending = s.pending ∧ (State.sampleSource s r n).tick = s.tick ∧ (State.sampleSource s r n).life.fuses = s.life.fuses := by
  simp [State.sampleSource]

@[simp] theorem State.zeroiseWorking_kept (s : State) : (State.zeroiseWorking s).pending = s.pending ∧ (State.zeroiseWorking s).tick = s.tick ∧ (State.zeroiseWorking s).life.fuses = s.life.fuses := by
  simp [State.zeroiseWorking]

@[simp] theorem State.zeroiseBattery_kept (s : State) : (State.zeroiseBattery s).pending = s.pending ∧ (State.zeroiseBattery s).tick = s.tick ∧ (State.zeroiseBattery s).life.fuses = s.life.fuses := by
  simp [State.zeroiseBattery]

@[simp] theorem State.zeroiseAll_kept (s : State) : (State.zeroiseAll s).pending = s.pending ∧ (State.zeroiseAll s).tick = s.tick ∧ (State.zeroiseAll s).life.fuses = s.life.fuses := by
  simp [State.zeroiseAll]

@[simp] theorem State.latch_kept (s : State) (n r : Nat) : (State.latch s n r).pending = s.pending ∧ (State.latch s n r).tick = s.tick ∧ (State.latch s n r).life.fuses = s.life.fuses := by
  simp [State.latch]

@[simp] theorem State.batRecord_kept (s : State) (sources applied held state : Nat) : (State.batRecord s sources applied held state).pending = s.pending ∧ (State.batRecord s sources applied held state).tick = s.tick ∧ (State.batRecord s sources applied held state).life.fuses = s.life.fuses := by
  simp [State.batRecord]

@[simp] theorem State.batAlarmRecord_kept (s : State) (n applied held state : Nat) : (State.batAlarmRecord s n applied held state).pending = s.pending ∧ (State.batAlarmRecord s n applied held state).tick = s.tick ∧ (State.batAlarmRecord s n applied held state).life.fuses = s.life.fuses := by
  unfold State.batAlarmRecord
  repeat' first
    | (simp; done)
    | split

@[simp] theorem State.batteryPart_kept (s : State) (n r held state : Nat) : (State.batteryPart s n r held state).pending = s.pending ∧ (State.batteryPart s n r held state).tick = s.tick ∧ (State.batteryPart s n r held state).life.fuses = s.life.fuses := by
  simp [State.batteryPart]

@[simp] theorem State.batteryAlarm_kept (s : State) (n r state : Nat) : (State.batteryAlarm s n r state).pending = s.pending ∧ (State.batteryAlarm s n r state).tick = s.tick ∧ (State.batteryAlarm s n r state).life.fuses = s.life.fuses := by
  simp [State.batteryAlarm]

@[simp] theorem State.keeperAlarm_kept (s : State) (n r : Nat) : (State.keeperAlarm s n r).pending = s.pending ∧ (State.keeperAlarm s n r).tick = s.tick ∧ (State.keeperAlarm s n r).life.fuses = s.life.fuses := by
  simp [State.keeperAlarm]

@[simp] theorem State.tamperJob_kept (s : State) (zero : Bool) (j : Job) : (State.tamperJob s zero j).pending = s.pending ∧ (State.tamperJob s zero j).tick = s.tick ∧ (State.tamperJob s zero j).life.fuses = s.life.fuses := by
  simp [State.tamperJob]

@[simp] theorem State.respond_kept (s : State) : (State.respond s).pending = s.pending ∧ (State.respond s).tick = s.tick ∧ (State.respond s).life.fuses = s.life.fuses := by
  simp [State.respond]

@[simp] theorem State.reloadPins_kept (s : State) : (State.reloadPins s).pending = s.pending ∧ (State.reloadPins s).tick = s.tick ∧ (State.reloadPins s).life.fuses = s.life.fuses := by
  simp [State.reloadPins]

@[simp] theorem State.enterLock_kept (s : State) (cause : Nat) : (State.enterLock s cause).pending = s.pending ∧ (State.enterLock s cause).tick = s.tick ∧ (State.enterLock s cause).life.fuses = s.life.fuses := by
  simp [State.enterLock]

@[simp] theorem State.respondEnd_kept (s : State) (r : Nat × Nat × List (Nat × Nat)) : (State.respondEnd s r).pending = s.pending ∧ (State.respondEnd s r).tick = s.tick ∧ (State.respondEnd s r).life.fuses = s.life.fuses := by
  simp [State.respondEnd]

@[simp] theorem State.respondWindow_kept (s : State) : (State.respondWindow s).pending = s.pending ∧ (State.respondWindow s).tick = s.tick ∧ (State.respondWindow s).life.fuses = s.life.fuses := by
  simp [State.respondWindow]

@[simp] theorem State.respondStart_kept (s : State) : (State.respondStart s).pending = s.pending ∧ (State.respondStart s).tick = s.tick ∧ (State.respondStart s).life.fuses = s.life.fuses := by
  simp [State.respondStart]

@[simp] theorem State.copyBatLog_kept (s : State) : (State.copyBatLog s).pending = s.pending ∧ (State.copyBatLog s).tick = s.tick ∧ (State.copyBatLog s).life.fuses = s.life.fuses := by
  simp [State.copyBatLog]

@[simp] theorem State.applyPending_kept (s : State) : (State.applyPending s).pending = s.pending ∧ (State.applyPending s).tick = s.tick ∧ (State.applyPending s).life.fuses = s.life.fuses := by
  simp [State.applyPending]

@[simp] theorem State.batteryLost_kept (s : State) : (State.batteryLost s).pending = s.pending ∧ (State.batteryLost s).tick = s.tick ∧ (State.batteryLost s).life.fuses = s.life.fuses := by
  simp [State.batteryLost]

@[simp] theorem State.clearLatches_kept (s : State) (v : Nat) : (State.clearLatches s v).pending = s.pending ∧ (State.clearLatches s v).tick = s.tick ∧ (State.clearLatches s v).life.fuses = s.life.fuses := by
  simp [State.clearLatches]

@[simp] theorem State.clearLock_kept (s : State) : (State.clearLock s).pending = s.pending ∧ (State.clearLock s).tick = s.tick ∧ (State.clearLock s).life.fuses = s.life.fuses := by
  simp [State.clearLock]

@[simp] theorem State.setMarks_kept (s : State) (n : Nat) (m : Marks) : (State.setMarks s n m).pending = s.pending ∧ (State.setMarks s n m).tick = s.tick := by
  unfold State.setMarks
  repeat' first
    | (simp; done)
    | split

@[simp] theorem State.endAllJobs_kept (s : State) : (State.endAllJobs s).pending = s.pending ∧ (State.endAllJobs s).tick = s.tick ∧ (State.endAllJobs s).life.fuses = s.life.fuses := by
  simp [State.endAllJobs]

@[simp] theorem State.transitionStart_kept (s : State) (target : Nat) : (State.transitionStart s target).pending = s.pending ∧ (State.transitionStart s target).tick = s.tick ∧ (State.transitionStart s target).life.fuses = s.life.fuses := by
  unfold State.transitionStart
  repeat' first
    | (simp; done)
    | split

@[simp] theorem State.dropEntries_kept (s : State) (p : Reach → Bool) (keep : Nat → Bool) : (State.dropEntries s p keep).pending = s.pending ∧ (State.dropEntries s p keep).tick = s.tick ∧ (State.dropEntries s p keep).life.fuses = s.life.fuses := by
  simp [State.dropEntries]

@[simp] theorem State.wipeKeys_kept (s : State) : (State.wipeKeys s).pending = s.pending ∧ (State.wipeKeys s).tick = s.tick ∧ (State.wipeKeys s).life.fuses = s.life.fuses := by
  simp [State.wipeKeys]

@[simp] theorem State.deallocateDrive_kept (s : State) (p : Nat) : (State.deallocateDrive s p).pending = s.pending ∧ (State.deallocateDrive s p).tick = s.tick ∧ (State.deallocateDrive s p).life.fuses = s.life.fuses := by
  simp [State.deallocateDrive]

@[simp] theorem State.endLock_kept (s : State) : (State.endLock s).pending = s.pending ∧ (State.endLock s).tick = s.tick ∧ (State.endLock s).life.fuses = s.life.fuses := by
  simp [State.endLock]

@[simp] theorem State.wipeCustomer_kept (s : State) : (State.wipeCustomer s).pending = s.pending ∧ (State.wipeCustomer s).tick = s.tick ∧ (State.wipeCustomer s).life.fuses = s.life.fuses := by
  simp [State.wipeCustomer]

@[simp] theorem State.unformat_kept (s : State) : (State.unformat s).pending = s.pending ∧ (State.unformat s).tick = s.tick ∧ (State.unformat s).life.fuses = s.life.fuses := by
  simp [State.unformat]

@[simp] theorem State.transitionWipe_kept (s : State) (n : Nat) : (State.transitionWipe s n).pending = s.pending ∧ (State.transitionWipe s n).tick = s.tick := by
  unfold State.transitionWipe
  repeat' first
    | (simp; done)
    | split

@[simp] theorem State.transitionProvision_kept (s : State) (n : Nat) : (State.transitionProvision s n).pending = s.pending ∧ (State.transitionProvision s n).tick = s.tick := by
  unfold State.transitionProvision
  repeat' first
    | (simp; done)
    | split

@[simp] theorem State.transitionNext_kept (s : State) (n : Nat) : (State.transitionNext s n).pending = s.pending ∧ (State.transitionNext s n).tick = s.tick := by
  unfold State.transitionNext
  repeat' first
    | rfl
    | (simp; done)
    | (refine ⟨foldl_pending ?_ _ _, foldl_tick ?_ _ _, foldl_fuses ?_ _ _⟩)
    | (intro h; cases h; simp; done)
    | (intro h; cases h; done)
    | (intro st x; try dsimp only)
    | split
    | dsimp only

@[simp] theorem State.transitionResume_kept (s : State) : (State.transitionResume s).pending = s.pending ∧ (State.transitionResume s).tick = s.tick := by
  unfold State.transitionResume
  repeat' first
    | rfl
    | (simp; done)
    | (refine ⟨foldl_pending ?_ _ _, foldl_tick ?_ _ _, foldl_fuses ?_ _ _⟩)
    | (intro h; cases h; simp; done)
    | (intro h; cases h; done)
    | (intro st x; try dsimp only)
    | split
    | dsimp only

@[simp] theorem State.lifeChallenge_kept (s : State) : (State.lifeChallenge s).pending = s.pending ∧ (State.lifeChallenge s).tick = s.tick ∧ (State.lifeChallenge s).life.fuses = s.life.fuses := by
  simp [State.lifeChallenge]

@[simp] theorem State.certWrite_kept (s : State) (v : Bytes) : (State.certWrite s v).pending = s.pending ∧ (State.certWrite s v).tick = s.tick ∧ (State.certWrite s v).life.fuses = s.life.fuses := by
  simp [State.certWrite]

@[simp] theorem State.certApply_kept (s : State) : (State.certApply s).pending = s.pending ∧ (State.certApply s).tick = s.tick ∧ (State.certApply s).life.fuses = s.life.fuses := by
  simp [State.certApply]

@[simp] theorem State.lifeTick_kept (s : State) : (State.lifeTick s).pending = s.pending ∧ (State.lifeTick s).tick = s.tick ∧ (State.lifeTick s).life.fuses = s.life.fuses := by
  simp only [State.lifeTick]
  repeat' first
    | (simp; done)
    | split

@[simp] theorem State.lifeReset_kept (s : State) : (State.lifeReset s).pending = s.pending ∧ (State.lifeReset s).tick = s.tick ∧ (State.lifeReset s).life.fuses = s.life.fuses := by
  simp [State.lifeReset]

@[simp] theorem State.trimSelect_kept (s : State) (v : Nat) : (State.trimSelect s v).pending = s.pending ∧ (State.trimSelect s v).tick = s.tick := by
  unfold State.trimSelect
  repeat' first
    | (simp; done)
    | split

@[simp] theorem State.silWrite_kept (s : State) (e : SilEvent) : (State.silWrite s e).pending = s.pending ∧ (State.silWrite s e).tick = s.tick ∧ (State.silWrite s e).life.fuses = s.life.fuses := by
  simp [State.silWrite]

@[simp] theorem State.silOne_kept (s : State × Nat) (e : SilEvent) : ((State.silOne s e).1).pending = s.1.pending ∧ ((State.silOne s e).1).tick = s.1.tick ∧ ((State.silOne s e).1).life.fuses = s.1.life.fuses := by
  unfold State.silOne
  repeat' first
    | (simp; done)
    | split
    | dsimp only

@[simp] theorem State.silTake_kept (s : State) (snap : Nat → Nat × Bytes) : (State.silTake s snap).pending = s.pending ∧ (State.silTake s snap).tick = s.tick ∧ (State.silTake s snap).life.fuses = s.life.fuses := by
  simp [State.silTake]

@[simp] theorem State.silWindow_kept (s : State) (snap : Nat → Nat × Bytes) : (State.silWindow s snap).pending = s.pending ∧ (State.silWindow s snap).tick = s.tick ∧ (State.silWindow s snap).life.fuses = s.life.fuses := by
  unfold State.silWindow
  repeat' first
    | rfl
    | (simp; done)
    | (refine ⟨foldl_pending ?_ _ _, foldl_tick ?_ _ _, foldl_fuses ?_ _ _⟩)
    | (intro h; cases h; simp; done)
    | (intro h; cases h; done)
    | (intro st x; try dsimp only)
    | split
    | dsimp only

@[simp] theorem State.silClear_kept (s : State) (snap : Nat → Nat × Bytes) : (State.silClear s snap).pending = s.pending ∧ (State.silClear s snap).tick = s.tick ∧ (State.silClear s snap).life.fuses = s.life.fuses := by
  simp [State.silClear]

@[simp] theorem State.silReset_kept (s : State) : (State.silReset s).pending = s.pending ∧ (State.silReset s).tick = s.tick ∧ (State.silReset s).life.fuses = s.life.fuses := by
  simp [State.silReset]

@[simp] theorem State.slicesReset_kept (s : State) : (State.slicesReset s).pending = s.pending ∧ (State.slicesReset s).tick = s.tick ∧ (State.slicesReset s).life.fuses = s.life.fuses := by
  simp [State.slicesReset]

@[simp] theorem State.functionReset_kept (s : State) : (State.functionReset s).pending = s.pending ∧ (State.functionReset s).tick = s.tick ∧ (State.functionReset s).life.fuses = s.life.fuses := by
  simp [State.functionReset]

@[simp] theorem State.lanesReset_kept (s : State) : (State.lanesReset s).pending = s.pending ∧ (State.lanesReset s).tick = s.tick ∧ (State.lanesReset s).life.fuses = s.life.fuses := by
  simp [State.lanesReset]

@[simp] theorem State.assignSpares_kept (s : State) : (State.assignSpares s).pending = s.pending ∧ (State.assignSpares s).tick = s.tick ∧ (State.assignSpares s).life.fuses = s.life.fuses := by
  simp [State.assignSpares]

@[simp] theorem State.vaultReset_kept (s : State) : (State.vaultReset s).pending = s.pending ∧ (State.vaultReset s).tick = s.tick ∧ (State.vaultReset s).life.fuses = s.life.fuses := by
  simp [State.vaultReset]

@[simp] theorem State.chainWarm_kept (s : State) : (State.chainWarm s).pending = s.pending ∧ (State.chainWarm s).tick = s.tick ∧ (State.chainWarm s).life.fuses = s.life.fuses := by
  simp [State.chainWarm]

@[simp] theorem State.dictReset_kept (s : State) (p : Reach → Bool) : (State.dictReset s p).pending = s.pending ∧ (State.dictReset s p).tick = s.tick ∧ (State.dictReset s p).life.fuses = s.life.fuses := by
  simp [State.dictReset]

@[simp] theorem State.warmReset_kept (s : State) : (State.warmReset s).pending = s.pending ∧ (State.warmReset s).tick = s.tick ∧ (State.warmReset s).life.fuses = s.life.fuses := by
  simp [State.warmReset]

@[simp] theorem State.coldReset_kept (s : State) : (State.coldReset s).pending = s.pending ∧ (State.coldReset s).tick = s.tick ∧ (State.coldReset s).life.fuses = s.life.fuses := by
  simp [State.coldReset]

@[simp] theorem State.enterReset_kept (s : State) (reach bits_ : Nat) : (State.enterReset s reach bits_).pending = s.pending ∧ (State.enterReset s reach bits_).tick = s.tick ∧ (State.enterReset s reach bits_).life.fuses = s.life.fuses := by
  simp [State.enterReset]

@[simp] theorem State.pinReset_kept (s : State) (reach bit : Nat) : (State.pinReset s reach bit).pending = s.pending ∧ (State.pinReset s reach bit).tick = s.tick ∧ (State.pinReset s reach bit).life.fuses = s.life.fuses := by
  simp [State.pinReset]

@[simp] theorem State.hostReset_kept (s : State) (bit : Nat) : (State.hostReset s bit).pending = s.pending ∧ (State.hostReset s bit).tick = s.tick ∧ (State.hostReset s bit).life.fuses = s.life.fuses := by
  simp [State.hostReset]

@[simp] theorem State.railFalls_kept (s : State) (rail : Rail) : (State.railFalls s rail).pending = s.pending ∧ (State.railFalls s rail).tick = s.tick ∧ (State.railFalls s rail).life.fuses = s.life.fuses := by
  simp [State.railFalls]

@[simp] theorem State.dropLockCause_kept (s : State) (bit : Nat) : (State.dropLockCause s bit).pending = s.pending ∧ (State.dropLockCause s bit).tick = s.tick ∧ (State.dropLockCause s bit).life.fuses = s.life.fuses := by
  simp [State.dropLockCause]

@[simp] theorem State.fuseLoad_kept (s : State) : (State.fuseLoad s).pending = s.pending ∧ (State.fuseLoad s).tick = s.tick ∧ (State.fuseLoad s).life.fuses = s.life.fuses := by
  simp [State.fuseLoad]

@[simp] theorem State.strapRead_kept (s : State) (conv : List Nat) : (State.strapRead s conv).pending = s.pending ∧ (State.strapRead s conv).tick = s.tick ∧ (State.strapRead s conv).life.fuses = s.life.fuses := by
  unfold State.strapRead
  repeat' first
    | (simp; done)
    | split

theorem State.imageSelect_kept (s : State) (boot : Boot) : ∀ t, State.imageSelect s boot = some t → t.pending = s.pending ∧ t.tick = s.tick ∧ t.life.fuses = s.life.fuses := by
  simp only [State.imageSelect]
  repeat' first
    | (simp; done)
    | split

@[simp] theorem State.baseSecretForm_kept (s : State) : (State.baseSecretForm s).pending = s.pending ∧ (State.baseSecretForm s).tick = s.tick ∧ (State.baseSecretForm s).life.fuses = s.life.fuses := by
  unfold State.baseSecretForm
  repeat' first
    | (simp; done)
    | split

@[simp] theorem State.baseKeyForm_kept (s : State) : (State.baseKeyForm s).pending = s.pending ∧ (State.baseKeyForm s).tick = s.tick ∧ (State.baseKeyForm s).life.fuses = s.life.fuses := by
  simp [State.baseKeyForm]

@[simp] theorem State.loadHearts_kept (s : State) : (State.loadHearts s).pending = s.pending ∧ (State.loadHearts s).tick = s.tick ∧ (State.loadHearts s).life.fuses = s.life.fuses := by
  unfold State.loadHearts
  repeat' first
    | rfl
    | (simp; done)
    | (refine ⟨foldl_pending ?_ _ _, foldl_tick ?_ _ _, foldl_fuses ?_ _ _⟩)
    | (intro h; cases h; simp; done)
    | (intro h; cases h; done)
    | (intro st x; try dsimp only)
    | split
    | dsimp only

@[simp] theorem State.portsStart_kept (s : State) (mirror : Nat → Bool) : (State.portsStart s mirror).pending = s.pending ∧ (State.portsStart s mirror).tick = s.tick ∧ (State.portsStart s mirror).life.fuses = s.life.fuses := by
  simp [State.portsStart]

@[simp] theorem State.vaultAt_kept (s : State) (v : VaultState) : (State.vaultAt s v).pending = s.pending ∧ (State.vaultAt s v).tick = s.tick ∧ (State.vaultAt s v).life.fuses = s.life.fuses := by
  simp [State.vaultAt]

@[simp] theorem State.vaultStart_kept (s : State) : (State.vaultStart s).pending = s.pending ∧ (State.vaultStart s).tick = s.tick ∧ (State.vaultStart s).life.fuses = s.life.fuses := by
  unfold State.vaultStart
  repeat' first
    | (simp; done)
    | split

@[simp] theorem State.endStart_kept (s : State) (reach : Nat) : (State.endStart s reach).pending = s.pending ∧ (State.endStart s reach).tick = s.tick ∧ (State.endStart s reach).life.fuses = s.life.fuses := by
  simp [State.endStart]

@[simp] theorem State.readyReload_kept (s : State) : (State.readyReload s).pending = s.pending ∧ (State.readyReload s).tick = s.tick ∧ (State.readyReload s).life.fuses = s.life.fuses := by
  simp [State.readyReload]

@[simp] theorem State.setReady_kept (s : State) : (State.setReady s).pending = s.pending ∧ (State.setReady s).tick = s.tick ∧ (State.setReady s).life.fuses = s.life.fuses := by
  simp [State.setReady]

@[simp] theorem State.blankStart_kept (s : State) : (State.blankStart s).pending = s.pending ∧ (State.blankStart s).tick = s.tick ∧ (State.blankStart s).life.fuses = s.life.fuses := by
  simp [State.blankStart]

@[simp] theorem State.pendingZeroise_kept (s : State) : (State.pendingZeroise s).pending = s.pending ∧ (State.pendingZeroise s).tick = s.tick ∧ (State.pendingZeroise s).life.fuses = s.life.fuses := by
  simp [State.pendingZeroise]

@[simp] theorem State.startFinish_kept (s : State) : (State.startFinish s).pending = s.pending ∧ (State.startFinish s).tick = s.tick ∧ (State.startFinish s).life.fuses = s.life.fuses := by
  simp [State.startFinish]

@[simp] theorem State.bootStops_kept (s : State) : (State.bootStops s).pending = s.pending ∧ (State.bootStops s).tick = s.tick ∧ (State.bootStops s).life.fuses = s.life.fuses := by
  simp [State.bootStops]

@[simp] theorem State.startFrom_kept (s : State) (reach : Nat) (boot : Boot) : (State.startFrom s reach boot).pending = s.pending ∧ (State.startFrom s reach boot).tick = s.tick := by
  unfold State.startFrom
  repeat' first
    | rfl
    | (simp; done)
    | (have a := State.imageSelect_kept _ _ _ ‹_›; simp [a]; done)
    | (intro h; have a := State.imageSelect_kept _ _ _ h; simp [a]; done)
    | (intro h; cases h; have a := State.imageSelect_kept _ _ _ ‹_›; simp [a]; done)
    | (refine ⟨foldl_pending ?_ _ _, foldl_tick ?_ _ _, foldl_fuses ?_ _ _⟩)
    | (intro h; cases h; simp; done)
    | (intro h; cases h; done)
    | (intro st x; try dsimp only)
    | split
    | dsimp only

@[simp] theorem State.scrubNormal_kept (s : State) : (State.scrubNormal s).pending = s.pending ∧ (State.scrubNormal s).tick = s.tick ∧ (State.scrubNormal s).life.fuses = s.life.fuses := by
  simp [State.scrubNormal]

@[simp] theorem State.pendingReset_kept (s : State) (p : Nat) : (State.pendingReset s p).pending = s.pending ∧ (State.pendingReset s p).tick = s.tick ∧ (State.pendingReset s p).life.fuses = s.life.fuses := by
  simp [State.pendingReset]

@[simp] theorem State.standbyOn_kept (s : State) : (State.standbyOn s).pending = s.pending ∧ (State.standbyOn s).tick = s.tick ∧ (State.standbyOn s).life.fuses = s.life.fuses := by
  simp [State.standbyOn]

@[simp] theorem State.standbyOff_kept (s : State) : (State.standbyOff s).pending = s.pending ∧ (State.standbyOff s).tick = s.tick ∧ (State.standbyOff s).life.fuses = s.life.fuses := by
  simp [State.standbyOff]

@[simp] theorem State.moveRing_kept (s : State) (n v : Nat) : (State.moveRing s n v).pending = s.pending ∧ (State.moveRing s n v).tick = s.tick ∧ (State.moveRing s n v).life.fuses = s.life.fuses := by
  simp [State.moveRing]

@[simp] theorem State.setSource_kept (s : State) (key n v : Nat) : (State.setSource s key n v).pending = s.pending ∧ (State.setSource s key n v).tick = s.tick ∧ (State.setSource s key n v).life.fuses = s.life.fuses := by
  simp [State.setSource]

@[simp] theorem State.setWeirs_kept (s : State) (v : Nat) : (State.setWeirs s v).pending = s.pending ∧ (State.setWeirs s v).tick = s.tick ∧ (State.setWeirs s v).life.fuses = s.life.fuses := by
  simp [State.setWeirs]

@[simp] theorem State.setRegion_kept (s : State) (n sub v : Nat) : (State.setRegion s n sub v).pending = s.pending ∧ (State.setRegion s n sub v).tick = s.tick ∧ (State.setRegion s n sub v).life.fuses = s.life.fuses := by
  simp [State.setRegion]

@[simp] theorem State.setStandby_kept (s : State) (v : Nat) : (State.setStandby s v).pending = s.pending ∧ (State.setStandby s v).tick = s.tick ∧ (State.setStandby s v).life.fuses = s.life.fuses := by
  simp [State.setStandby]

@[simp] theorem State.setGate_kept (s : State) (b v : Nat) : (State.setGate s b v).pending = s.pending ∧ (State.setGate s b v).tick = s.tick ∧ (State.setGate s b v).life.fuses = s.life.fuses := by
  simp [State.setGate]

@[simp] theorem State.dropOfficer_kept (s : State) (n : Nat) : (State.dropOfficer s n).pending = s.pending ∧ (State.dropOfficer s n).tick = s.tick ∧ (State.dropOfficer s n).life.fuses = s.life.fuses := by
  simp [State.dropOfficer]

@[simp] theorem State.applyLow_kept (s : State) (index sub key v : Nat) : (State.applyLow s index sub key v).pending = s.pending ∧ (State.applyLow s index sub key v).tick = s.tick ∧ (State.applyLow s index sub key v).life.fuses = s.life.fuses := by
  unfold State.applyLow
  repeat' first
    | (simp; done)
    | split

@[simp] theorem State.applyHigh_kept (s : State) (index sub key v : Nat) : (State.applyHigh s index sub key v).pending = s.pending ∧ (State.applyHigh s index sub key v).tick = s.tick := by
  unfold State.applyHigh
  repeat' first
    | rfl
    | (simp; done)
    | (refine ⟨foldl_pending ?_ _ _, foldl_tick ?_ _ _, foldl_fuses ?_ _ _⟩)
    | (intro h; cases h; simp; done)
    | (intro h; cases h; done)
    | (intro st x; try dsimp only)
    | split
    | dsimp only

@[simp] theorem State.applyOctets_kept (s : State) (index sub key : Nat) (b : Bytes) : (State.applyOctets s index sub key b).pending = s.pending ∧ (State.applyOctets s index sub key b).tick = s.tick ∧ (State.applyOctets s index sub key b).life.fuses = s.life.fuses := by
  unfold State.applyOctets
  repeat' first
    | (simp; done)
    | split

@[simp] theorem State.applyWrite_kept (s : State) (w : Nat × DVal) : (State.applyWrite s w).pending = s.pending ∧ (State.applyWrite s w).tick = s.tick := by
  unfold State.applyWrite
  repeat' first
    | rfl
    | (simp; done)
    | (refine ⟨foldl_pending ?_ _ _, foldl_tick ?_ _ _, foldl_fuses ?_ _ _⟩)
    | (intro h; cases h; simp; done)
    | (intro h; cases h; done)
    | (intro st x; try dsimp only)
    | split
    | dsimp only

@[simp] theorem State.applyAcked_kept (s : State) : (State.applyAcked s).pending = s.pending ∧ (State.applyAcked s).tick = s.tick := by
  simp [State.applyAcked]

@[simp] theorem State.applyMaps_kept (s : State) : (s.applyMaps).pending = s.pending ∧ (s.applyMaps).tick = s.tick ∧ (s.applyMaps).life.fuses = s.life.fuses := by
  have key (l : List (Nat × DVal)) (st : State) (h : ∀ w ∈ l, mapWrite w = true) : (l.foldl State.applyWrite st).life.fuses = st.life.fuses := by
    induction l generalizing st with
    | nil => rfl
    | cons w l ih =>
      rw [List.foldl_cons, ih _ fun x hx => h x (List.mem_cons_of_mem _ hx)]
      have b := h w List.mem_cons_self
      have c : w.1 / 256 < 0x2600 := by
        simp only [mapWrite, Bool.and_eq_true, decide_eq_true_eq] at b
        have d : Key.HST_MSIX_MAP 4224 = 0x1310 * 256 + 4224 := rfl
        omega
      simp only [State.applyWrite, c, if_true]
      split <;> simp
  refine ⟨by simp [State.applyMaps], by simp [State.applyMaps], ?_⟩
  simp only [State.applyMaps]
  rw [key]
  intro w hw
  exact (List.mem_filter.mp hw).2

@[simp] theorem State.view_kept (s : State) : (State.view s).pending = s.pending ∧ (State.view s).tick = s.tick := by
  simp [State.view]

@[simp] theorem State.crossFifo_kept (s : State) (n : Nat) (e : BitVec 72) : (State.crossFifo s n e).pending = s.pending ∧ (State.crossFifo s n e).tick = s.tick ∧ (State.crossFifo s n e).life.fuses = s.life.fuses := by
  simp [State.crossFifo]

@[simp] theorem State.ringEnable_kept (s : State) (ring : Nat) : (State.ringEnable s ring).pending = s.pending ∧ (State.ringEnable s ring).tick = s.tick ∧ (State.ringEnable s ring).life.fuses = s.life.fuses := by
  unfold State.ringEnable
  repeat' first
    | (simp; done)
    | split

@[simp] theorem State.ringDisable_kept (s : State) (ring : Nat) : (State.ringDisable s ring).pending = s.pending ∧ (State.ringDisable s ring).tick = s.tick ∧ (State.ringDisable s ring).life.fuses = s.life.fuses := by
  unfold State.ringDisable
  repeat' first
    | (simp; done)
    | split

@[simp] theorem State.enableSample_kept (s : State) (n : Nat) : (State.enableSample s n).pending = s.pending ∧ (State.enableSample s n).tick = s.tick ∧ (State.enableSample s n).life.fuses = s.life.fuses := by
  simp only [State.enableSample]
  repeat' first
    | (simp; done)
    | split

@[simp] theorem State.moveFrame_kept (s : State) : (State.moveFrame s).pending = s.pending ∧ (State.moveFrame s).tick = s.tick ∧ (State.moveFrame s).life.fuses = s.life.fuses := by
  simp [State.moveFrame]

@[simp] theorem State.enableFrame_kept (s : State) : (State.enableFrame s).pending = s.pending ∧ (State.enableFrame s).tick = s.tick ∧ (State.enableFrame s).life.fuses = s.life.fuses := by
  simp [State.enableFrame]

@[simp] theorem State.enableShows_kept (s : State) (n : Nat) : (State.enableShows s n).pending = s.pending ∧ (State.enableShows s n).tick = s.tick ∧ (State.enableShows s n).life.fuses = s.life.fuses := by
  simp only [State.enableShows]
  repeat' first
    | (simp; done)
    | split

@[simp] theorem State.enablesShow_kept (s : State) : (State.enablesShow s).pending = s.pending ∧ (State.enablesShow s).tick = s.tick ∧ (State.enablesShow s).life.fuses = s.life.fuses := by
  simp [State.enablesShow]

@[simp] theorem State.outGo_kept (s : State) : (State.outGo s).pending = s.pending ∧ (State.outGo s).tick = s.tick ∧ (State.outGo s).life.fuses = s.life.fuses := by
  unfold State.outGo
  repeat' first
    | (simp; done)
    | split

@[simp] theorem State.inFullClear_kept (s : State) : (State.inFullClear s).pending = s.pending ∧ (State.inFullClear s).tick = s.tick ∧ (State.inFullClear s).life.fuses = s.life.fuses := by
  unfold State.inFullClear
  repeat' first
    | (simp; done)
    | split

@[simp] theorem State.msixUnmask_kept (s : State) (vector : Nat) : (State.msixUnmask s vector).pending = s.pending ∧ (State.msixUnmask s vector).tick = s.tick ∧ (State.msixUnmask s vector).life.fuses = s.life.fuses := by
  unfold State.msixUnmask
  repeat' first
    | (simp; done)
    | split

@[simp] theorem State.tunnelControl_kept (s : State) (v : Nat) : (State.tunnelControl s v).pending = s.pending ∧ (State.tunnelControl s v).tick = s.tick ∧ (State.tunnelControl s v).life.fuses = s.life.fuses := by
  unfold State.tunnelControl
  repeat' first
    | (simp; done)
    | split

@[simp] theorem State.bar0Write_kept (s : State) (o v : Nat) : (State.bar0Write s o v).pending = s.pending ∧ (State.bar0Write s o v).tick = s.tick ∧ (State.bar0Write s o v).life.fuses = s.life.fuses := by
  unfold State.bar0Write
  repeat' first
    | (simp; done)
    | split

@[simp] theorem State.bar2Write_kept (s : State) (o v : Nat) : (State.bar2Write s o v).pending = s.pending ∧ (State.bar2Write s o v).tick = s.tick ∧ (State.bar2Write s o v).life.fuses = s.life.fuses := by
  unfold State.bar2Write
  repeat' first
    | (simp; done)
    | split

@[simp] theorem State.ringConfig_kept (s : State) (n v : Nat) : (State.ringConfig s n v).pending = s.pending ∧ (State.ringConfig s n v).tick = s.tick ∧ (State.ringConfig s n v).life.fuses = s.life.fuses := by
  unfold State.ringConfig
  repeat' first
    | (simp; done)
    | split

@[simp] theorem State.bar4Write_kept (s : State) (o v : Nat) : (State.bar4Write s o v).pending = s.pending ∧ (State.bar4Write s o v).tick = s.tick ∧ (State.bar4Write s o v).life.fuses = s.life.fuses := by
  unfold State.bar4Write
  repeat' first
    | (simp; done)
    | split

@[simp] theorem State.barWrite32_kept (s : State) (bar o v : Nat) : (State.barWrite32 s bar o v).pending = s.pending ∧ (State.barWrite32 s bar o v).tick = s.tick ∧ (State.barWrite32 s bar o v).life.fuses = s.life.fuses := by
  unfold State.barWrite32
  repeat' first
    | (simp; done)
    | split

@[simp] theorem State.badAccess_kept (s : State) (bar offset : Nat) : (State.badAccess s bar offset).pending = s.pending ∧ (State.badAccess s bar offset).tick = s.tick ∧ (State.badAccess s bar offset).life.fuses = s.life.fuses := by
  simp [State.badAccess]

@[simp] theorem State.nextFrame_kept (s : State) : (State.nextFrame s).pending = s.pending ∧ (State.nextFrame s).tick = s.tick ∧ (State.nextFrame s).life.fuses = s.life.fuses := by
  simp [State.nextFrame]

@[simp] theorem State.linkTick_kept (s : State) : (State.linkTick s).pending = s.pending ∧ (State.linkTick s).tick = s.tick ∧ (State.linkTick s).life.fuses = s.life.fuses := by
  simp [State.linkTick]

@[simp] theorem State.errorShows_kept (s : State) (n : Nat) : (State.errorShows s n).pending = s.pending ∧ (State.errorShows s n).tick = s.tick ∧ (State.errorShows s n).life.fuses = s.life.fuses := by
  simp only [State.errorShows]
  repeat' first
    | (simp; done)
    | split

@[simp] theorem State.errorsShow_kept (s : State) : (State.errorsShow s).pending = s.pending ∧ (State.errorsShow s).tick = s.tick ∧ (State.errorsShow s).life.fuses = s.life.fuses := by
  simp [State.errorsShow]

@[simp] theorem State.foldReservoir_kept (s : State) : (State.foldReservoir s).pending = s.pending ∧ (State.foldReservoir s).tick = s.tick ∧ (State.foldReservoir s).life.fuses = s.life.fuses := by
  simp [State.foldReservoir]

@[simp] theorem State.frameEnds_kept (s : State) : (State.frameEnds s).pending = s.pending ∧ (State.frameEnds s).tick = (s.tick + 1) % 2 ^ 64 ∧
    (State.frameEnds s).life.fuses = s.life.fuses := by
  simp only [State.frameEnds]
  split <;> simp

@[simp] theorem State.ownWritesDue_kept (s : State) : (State.ownWritesDue s).pending = s.pending ∧ (State.ownWritesDue s).tick = s.tick ∧ (State.ownWritesDue s).life.fuses = s.life.fuses := by
  simp [State.ownWritesDue]

@[simp] theorem State.closeEnrolment_kept (s : State) : (State.closeEnrolment s).pending = s.pending ∧ (State.closeEnrolment s).tick = s.tick ∧ (State.closeEnrolment s).life.fuses = s.life.fuses := by
  simp [State.closeEnrolment]

@[simp] theorem State.tickValues_kept (s : State) : (State.tickValues s).pending = s.pending ∧ (State.tickValues s).tick = s.tick ∧ (State.tickValues s).life.fuses = s.life.fuses := by
  simp [State.tickValues]

@[simp] theorem State.asOfNext_kept (s : State) : (s.asOfNext).pending = s.pending ∧ (s.asOfNext).tick = (s.tick + 1) % 2 ^ 64 := by
  simp [State.asOfNext]

theorem State.replicated_kept (s : State) (key v : Nat) (c : Change × State) (h : s.replicated key v = some c) :
    c.2.pending = s.pending ∧ c.2.tick = s.tick ∧ c.2.life.fuses = s.life.fuses := by
  simp only [State.replicated] at h
  repeat' split at h
  all_goals (cases h; try simp)

@[simp] theorem nextOf_guardDisable (s : State) : (nextOf (execGuardDisable s) s).pending = s.pending ∧ (nextOf (execGuardDisable s) s).tick = s.tick ∧ (nextOf (execGuardDisable s) s).life.fuses = s.life.fuses := by
  simp only [execGuardDisable]
  repeat' split
  all_goals simp [nextOf]

@[simp] theorem nextOf_guardEnable (s : State) : (nextOf (execGuardEnable s) s).pending = s.pending ∧ (nextOf (execGuardEnable s) s).tick = s.tick ∧ (nextOf (execGuardEnable s) s).life.fuses = s.life.fuses := by
  simp only [execGuardEnable]
  repeat' split
  all_goals simp [nextOf]

@[simp] theorem nextOf_swdtRefresh (s : State) (v : Nat) : (nextOf (execSwdtRefresh v s) s).pending = s.pending ∧ (nextOf (execSwdtRefresh v s) s).tick = s.tick ∧ (nextOf (execSwdtRefresh v s) s).life.fuses = s.life.fuses := by
  simp only [execSwdtRefresh]
  repeat' split
  all_goals simp [nextOf]

theorem State.atOnce_kept (s : State) (key v : Nat) : ∀ t, State.atOnce s key v = some t → t.pending = s.pending ∧ t.tick = s.tick ∧ t.life.fuses = s.life.fuses := by
  intro t h
  simp only [State.atOnce] at h
  repeat' split at h
  all_goals (cases h; try simp)

@[simp] theorem State.acceptWrite_kept (s : State) (officer : Bool) (key : Nat) (v : DVal) (req : Option (DictReq × Option Nat)) :
    (s.acceptWrite officer key v req).pending = s.pending ∧ (s.acceptWrite officer key v req).tick = s.tick ∧ (s.acceptWrite officer key v req).life.fuses = s.life.fuses := by
  unfold State.acceptWrite
  split
  · simp
  · split
    · simp
    · split
      · next t h => have a := State.atOnce_kept _ _ _ _ h; dsimp only; split <;> simp [a]
      · split
        · next c h => have a := State.replicated_kept _ _ _ _ h; simp [a]
        · simp

@[simp] theorem State.writeEntry_kept (s : State) (exists_ : Bool) (role : Role) (key : Nat) (v : DVal) : (State.writeEntry s exists_ role key v).pending = s.pending ∧ (State.writeEntry s exists_ role key v).tick = s.tick ∧ (State.writeEntry s exists_ role key v).life.fuses = s.life.fuses := by
  unfold State.writeEntry
  repeat' first
    | (simp; done)
    | split

@[simp] theorem State.rowWrite_kept (s : State) (exists_ : Bool) (role : Role) (key : Nat) (v : DVal) : (State.rowWrite s exists_ role key v).pending = s.pending ∧ (State.rowWrite s exists_ role key v).tick = s.tick ∧ (State.rowWrite s exists_ role key v).life.fuses = s.life.fuses := by
  simp [State.rowWrite]

@[simp] theorem State.serveRead_kept (s : State) (r : DictReq) : (State.serveRead s r).pending = s.pending ∧ (State.serveRead s r).tick = s.tick ∧ (State.serveRead s r).life.fuses = s.life.fuses := by
  unfold State.serveRead
  repeat' first
    | (simp; done)
    | split

@[simp] theorem State.issueChallenge_kept (s : State) (dst : Nat) : (State.issueChallenge s dst).pending = s.pending ∧ (State.issueChallenge s dst).tick = s.tick ∧ (State.issueChallenge s dst).life.fuses = s.life.fuses := by
  simp [State.issueChallenge]

@[simp] theorem State.spend_kept (s : State) (c : Bytes) : (State.spend s c).pending = s.pending ∧ (State.spend s c).tick = s.tick ∧ (State.spend s c).life.fuses = s.life.fuses := by
  simp [State.spend]

@[simp] theorem State.completeWrite_kept (s : State) (w : PendingWrite) : (State.completeWrite s w).pending = s.pending ∧ (State.completeWrite s w).tick = s.tick ∧ (State.completeWrite s w).life.fuses = s.life.fuses := by
  unfold State.completeWrite
  repeat' first
    | (simp; done)
    | split

@[simp] theorem State.tryComplete_kept (s : State) (c : Bytes) : (State.tryComplete s c).pending = s.pending ∧ (State.tryComplete s c).tick = s.tick ∧ (State.tryComplete s c).life.fuses = s.life.fuses := by
  unfold State.tryComplete
  repeat' first
    | (simp; done)
    | split

@[simp] theorem State.rejectApproval_kept (s : State) : (State.rejectApproval s).pending = s.pending ∧ (State.rejectApproval s).tick = s.tick ∧ (State.rejectApproval s).life.fuses = s.life.fuses := by
  simp [State.rejectApproval]

@[simp] theorem State.countApproval_kept (s : State) (c : Bytes) (officer : Nat) (self : Bool) : (State.countApproval s c officer self).pending = s.pending ∧ (State.countApproval s c officer self).tick = s.tick ∧ (State.countApproval s c officer self).life.fuses = s.life.fuses := by
  simp [State.countApproval]

@[simp] theorem State.holdWrite_kept (s : State) (r : DictReq) (c : Challenge) : (State.holdWrite s r c).pending = s.pending ∧ (State.holdWrite s r c).tick = s.tick ∧ (State.holdWrite s r c).life.fuses = s.life.fuses := by
  simp [State.holdWrite]

@[simp] theorem State.quorumRequest_kept (s : State) (r : DictReq) (key : Nat) : (State.quorumRequest s r key).pending = s.pending ∧ (State.quorumRequest s r key).tick = s.tick ∧ (State.quorumRequest s r key).life.fuses = s.life.fuses := by
  unfold State.quorumRequest
  repeat' first
    | (simp; done)
    | split

@[simp] theorem State.serveWrite_kept (s : State) (r : DictReq) : (State.serveWrite s r).pending = s.pending ∧ (State.serveWrite s r).tick = s.tick ∧ (State.serveWrite s r).life.fuses = s.life.fuses := by
  unfold State.serveWrite
  repeat' first
    | (simp; done)
    | split

@[simp] theorem State.takeApproval_kept (s : State) (b : Bytes) : (State.takeApproval s b).pending = s.pending ∧ (State.takeApproval s b).tick = s.tick ∧ (State.takeApproval s b).life.fuses = s.life.fuses := by
  unfold State.takeApproval
  repeat' first
    | (simp; done)
    | split

@[simp] theorem State.dictWindow_kept (s : State) : (State.dictWindow s).pending = s.pending ∧ (State.dictWindow s).tick = s.tick ∧ (State.dictWindow s).life.fuses = s.life.fuses := by
  simp [State.dictWindow]

@[simp] theorem State.tunnelIn_kept (s : State) (d : Bytes) : (State.tunnelIn s d).pending = s.pending ∧ (State.tunnelIn s d).tick = s.tick ∧ (State.tunnelIn s d).life.fuses = s.life.fuses := by
  simp [State.tunnelIn]

@[simp] theorem State.takeOwn_kept (s : State) (d : Bytes) : (State.takeOwn s d).pending = s.pending ∧ (State.takeOwn s d).tick = s.tick ∧ (State.takeOwn s d).life.fuses = s.life.fuses := by
  unfold State.takeOwn
  repeat' first
    | (simp; done)
    | split

@[simp] theorem State.takeOwnDue_kept (s : State) : (State.takeOwnDue s).pending = s.pending ∧ (State.takeOwnDue s).tick = s.tick ∧ (State.takeOwnDue s).life.fuses = s.life.fuses := by
  simp [State.takeOwnDue]

@[simp] theorem State.tunnelOut_kept (s : State) : (State.tunnelOut s).pending = s.pending ∧ (State.tunnelOut s).tick = s.tick ∧ (State.tunnelOut s).life.fuses = s.life.fuses := by
  simp [State.tunnelOut]

@[simp] theorem State.tunnelDeliver_kept (s : State) : (State.tunnelDeliver s).pending = s.pending ∧ (State.tunnelDeliver s).tick = s.tick ∧ (State.tunnelDeliver s).life.fuses = s.life.fuses := by
  simp only [State.tunnelDeliver]
  repeat' first
    | (simp; done)
    | split

@[simp] theorem State.retryPlace_kept (s : State) (id : Nat) : (s.retryPlace id).pending = s.pending ∧ (s.retryPlace id).tick = s.tick ∧ (s.retryPlace id).life.fuses = s.life.fuses := by
  unfold State.retryPlace
  repeat' first
    | (simp; done)
    | (exact State.placeTo_kept _ _ _ _ _ fun st => by simp)
    | split

@[simp] theorem State.newContext_kept (s : State) (ring index : Nat) (refetch void : Bool) : (State.newContext s ring index refetch void).pending = s.pending ∧ (State.newContext s ring index refetch void).tick = s.tick ∧ (State.newContext s ring index refetch void).life.fuses = s.life.fuses := by
  simp [State.newContext]

@[simp] theorem State.fetchOne_kept (s : State) (n : Nat) : (State.fetchOne s n).pending = s.pending ∧ (State.fetchOne s n).tick = s.tick ∧ (State.fetchOne s n).life.fuses = s.life.fuses := by
  simp [State.fetchOne]

@[simp] theorem State.fetchTurn_kept (a : State × Nat) (n : Nat) : ((State.fetchTurn a n).1).pending = a.1.pending ∧ ((State.fetchTurn a n).1).tick = a.1.tick ∧ ((State.fetchTurn a n).1).life.fuses = a.1.life.fuses := by
  simp only [State.fetchTurn]
  split <;> simp

@[simp] theorem State.fetchRounds_kept (f : Nat) (ns : List Nat) (a : State × Nat) : (State.fetchRounds ns f a).pending = a.1.pending ∧ (State.fetchRounds ns f a).tick = a.1.tick ∧ (State.fetchRounds ns f a).life.fuses = a.1.life.fuses := by
  induction f generalizing a with
  | zero => exact ⟨rfl, rfl, rfl⟩
  | succ f ih =>
    simp only [State.fetchRounds]
    split <;> simp [ih]

@[simp] theorem State.fetchParked_kept (s : State) : ((State.fetchParked s).1).pending = s.pending ∧ ((State.fetchParked s).1).tick = s.tick ∧ ((State.fetchParked s).1).life.fuses = s.life.fuses := by
  unfold State.fetchParked
  repeat' first
    | (simp; done)
    | split

@[simp] theorem State.retryContexts_kept (s : State) : (State.retryContexts s).pending = s.pending ∧ (State.retryContexts s).tick = s.tick ∧ (State.retryContexts s).life.fuses = s.life.fuses := by
  simp [State.retryContexts]

@[simp] theorem State.fetchFrame_kept (s : State) : (State.fetchFrame s).pending = s.pending ∧ (State.fetchFrame s).tick = s.tick ∧ (State.fetchFrame s).life.fuses = s.life.fuses := by
  unfold State.fetchFrame
  repeat' first
    | (simp; done)
    | split

@[simp] theorem State.deriveOne_kept (s : State) (j : Job) (h : Nat) : (State.deriveOne s j h).pending = s.pending ∧ (State.deriveOne s j h).tick = s.tick ∧ (State.deriveOne s j h).life.fuses = s.life.fuses := by
  simp [State.deriveOne]

@[simp] theorem State.deriveClass0_kept (s : State) (j : Job) : (State.deriveClass0 s j).pending = s.pending ∧ (State.deriveClass0 s j).tick = s.tick ∧ (State.deriveClass0 s j).life.fuses = s.life.fuses := by
  simp [State.deriveClass0]

@[simp] theorem State.deriveOther_kept (s : State) (id : Nat) : (State.deriveOther s id).pending = s.pending ∧ (State.deriveOther s id).tick = s.tick ∧ (State.deriveOther s id).life.fuses = s.life.fuses := by
  unfold State.deriveOther
  repeat' first
    | rfl
    | (simp; done)
    | (have a := State.ladderTake_kept _ _ ‹_›; simp [a]; done)
    | (intro h; have a := State.ladderTake_kept _ _ h; simp [a]; done)
    | (intro h; cases h; have a := State.ladderTake_kept _ _ ‹_›; simp [a]; done)
    | (refine ⟨foldl_pending ?_ _ _, foldl_tick ?_ _ _, foldl_fuses ?_ _ _⟩)
    | (intro h; cases h; simp; done)
    | (intro h; cases h; done)
    | (intro st x; try dsimp only)
    | split
    | dsimp only

@[simp] theorem State.ladderFrame_kept (s : State) : (State.ladderFrame s).pending = s.pending ∧ (State.ladderFrame s).tick = s.tick ∧ (State.ladderFrame s).life.fuses = s.life.fuses := by
  simp [State.ladderFrame]

@[simp] theorem State.setLane_kept (s : State) (eng n : Nat) (run : Option Nat) (c : Nat) : (State.setLane s eng n run c).pending = s.pending ∧ (State.setLane s eng n run c).tick = s.tick ∧ (State.setLane s eng n run c).life.fuses = s.life.fuses := by
  simp [State.setLane]

@[simp] theorem State.parkOn_kept (s : State) (eng n : Nat) : (State.parkOn s eng n).pending = s.pending ∧ (State.parkOn s eng n).tick = s.tick ∧ (State.parkOn s eng n).life.fuses = s.life.fuses := by
  unfold State.parkOn
  repeat' first
    | (simp; done)
    | split

theorem State.claim_kept (s : State) (j : Job) (lane : Nat) : ∀ t, State.claim s j lane = some t → t.pending = s.pending ∧ t.tick = s.tick ∧ t.life.fuses = s.life.fuses := by
  simp only [State.claim]
  repeat' first
    | (simp; done)
    | split

@[simp] theorem State.takeStream_kept (s : State) (lane n : Nat) : ((State.takeStream s lane n).2).pending = s.pending ∧ ((State.takeStream s lane n).2).tick = s.tick ∧ ((State.takeStream s lane n).2).life.fuses = s.life.fuses := by
  simp [State.takeStream]

@[simp] theorem State.blindJob_kept (s : State) (id lane : Nat) : (State.blindJob s id lane).pending = s.pending ∧ (State.blindJob s id lane).tick = s.tick ∧ (State.blindJob s id lane).life.fuses = s.life.fuses := by
  unfold State.blindJob
  repeat' first
    | (simp; done)
    | split

@[simp] theorem State.fillBanks_kept (s : State) (id lane : Nat) : (State.fillBanks s id lane).pending = s.pending ∧ (State.fillBanks s id lane).tick = s.tick ∧ (State.fillBanks s id lane).life.fuses = s.life.fuses := by
  unfold State.fillBanks
  repeat' first
    | (simp; done)
    | split

theorem State.pay_kept (s : State) (j : Job) (p : Pay) (c : Nat) : ∀ t, State.pay s j p c = some t → t.pending = s.pending ∧ t.tick = s.tick ∧ t.life.fuses = s.life.fuses := by
  intro t h
  simp only [State.pay] at h
  revert h
  repeat' first
    | rfl
    | (simp; done)
    | (have a := State.debit_kept _ _ _ ‹_›; simp [a]; done)
    | (intro h; have a := State.debit_kept _ _ _ h; simp [a]; done)
    | (intro h; cases h; have a := State.debit_kept _ _ _ ‹_›; simp [a]; done)
    | (refine ⟨foldl_pending ?_ _ _, foldl_tick ?_ _ _, foldl_fuses ?_ _ _⟩)
    | (intro h; cases h; simp; done)
    | (intro h; cases h; done)
    | (intro st x; try dsimp only)
    | split
    | dsimp only

theorem State.runSeg_kept (s : State) (id lane : Nat) (p : Pay) : ∀ t, State.runSeg s id lane p = some t → (t).pending = s.pending ∧ (t).tick = s.tick ∧ (t).life.fuses = s.life.fuses := by
  intro t h
  simp only [State.runSeg] at h
  cases hj : s.job? id with
  | none => simp [hj] at h
  | some j =>
    simp only [hj, Option.ite_none_left_eq_some] at h
    obtain ⟨-, -, -, -, h⟩ := h
    obtain ⟨a, ha, h⟩ := Option.bind_eq_some_iff.mp h
    obtain ⟨b, hb, h⟩ := Option.map_eq_some_iff.mp h
    have ka := State.claim_kept _ _ _ _ ha
    have kb := State.pay_kept _ _ _ _ _ hb
    subst h
    repeat' split
    all_goals simp [ka, kb]

@[simp] theorem State.admitJob_kept (s : State) (k : Job) : (State.admitJob s k).pending = s.pending ∧ (State.admitJob s k).tick = s.tick ∧ (State.admitJob s k).life.fuses = s.life.fuses := by
  simp only [State.admitJob]
  repeat' first
    | (simp; done)
    | split

theorem State.tryStart_kept (s : State) (k : Job) (lane : Nat) (p : Pay) : ∀ t, State.tryStart s k lane p = some t → (t).pending = s.pending ∧ (t).tick = s.tick ∧ (t).life.fuses = s.life.fuses := by
  intro t h
  simp only [State.tryStart] at h
  repeat' split at h
  all_goals first | (cases h; done) | (cases h; simp; done) | (have a := State.runSeg_kept _ _ _ _ _ h; simpa using a)

@[simp] theorem State.addUse_kept (s : State) (j : Job) (u : Nat) : (State.addUse s j u).pending = s.pending ∧ (State.addUse s j u).tick = s.tick ∧ (State.addUse s j u).life.fuses = s.life.fuses := by
  simp [State.addUse]

@[simp] theorem State.runClass0_kept (s : State) (id lane : Nat) : (State.runClass0 s id lane).pending = s.pending ∧ (State.runClass0 s id lane).tick = s.tick ∧ (State.runClass0 s id lane).life.fuses = s.life.fuses := by
  unfold State.runClass0
  repeat' first
    | rfl
    | (simp; done)
    | (have a := State.runSeg_kept _ _ _ _ _ ‹_›; simp [a]; done)
    | (intro h; have a := State.runSeg_kept _ _ _ _ _ h; simp [a]; done)
    | (intro h; cases h; have a := State.runSeg_kept _ _ _ _ _ ‹_›; simp [a]; done)
    | (refine ⟨foldl_pending ?_ _ _, foldl_tick ?_ _ _, foldl_fuses ?_ _ _⟩)
    | (intro h; cases h; simp; done)
    | (intro h; cases h; done)
    | (intro st x; try dsimp only)
    | split
    | dsimp only

@[simp] theorem State.continueClass0_kept (s : State) (eng n : Nat) : (State.continueClass0 s eng n).pending = s.pending ∧ (State.continueClass0 s eng n).tick = s.tick ∧ (State.continueClass0 s eng n).life.fuses = s.life.fuses := by
  unfold State.continueClass0
  repeat' first
    | (simp; done)
    | split

@[simp] theorem State.clearLane_kept (s : State) (k : Job) (n : Nat) : (State.clearLane s k n).pending = s.pending ∧ (State.clearLane s k n).tick = s.tick ∧ (State.clearLane s k n).life.fuses = s.life.fuses := by
  simp [State.clearLane]

@[simp] theorem State.toClass1_kept (s : State) (id : Nat) : (State.toClass1 s id).pending = s.pending ∧ (State.toClass1 s id).tick = s.tick ∧ (State.toClass1 s id).life.fuses = s.life.fuses := by
  simp [State.toClass1]

@[simp] theorem State.voidBound_kept (s : State) (id : Nat) (v : Bool) : (State.voidBound s id v).pending = s.pending ∧ (State.voidBound s id v).tick = s.tick ∧ (State.voidBound s id v).life.fuses = s.life.fuses := by
  simp [State.voidBound]

@[simp] theorem State.class0New_kept (s : State) (id : Nat) : (State.class0New s id).pending = s.pending ∧ (State.class0New s id).tick = s.tick ∧ (State.class0New s id).life.fuses = s.life.fuses := by
  unfold State.class0New
  repeat' first
    | rfl
    | (simp; done)
    | (have a := State.claim_kept _ _ _ _ ‹_›; simp [a]; done)
    | (intro h; have a := State.claim_kept _ _ _ _ h; simp [a]; done)
    | (intro h; cases h; have a := State.claim_kept _ _ _ _ ‹_›; simp [a]; done)
    | (have a := State.tryStart_kept _ _ _ _ _ ‹_›; simp [a]; done)
    | (intro h; have a := State.tryStart_kept _ _ _ _ _ h; simp [a]; done)
    | (intro h; cases h; have a := State.tryStart_kept _ _ _ _ _ ‹_›; simp [a]; done)
    | (refine ⟨foldl_pending ?_ _ _, foldl_tick ?_ _ _, foldl_fuses ?_ _ _⟩)
    | (intro h; cases h; simp; done)
    | (intro h; cases h; done)
    | (intro st x; try dsimp only)
    | split
    | dsimp only

@[simp] theorem State.rerunOne_kept (spares : List Nat) (s : State) (j : Job) : (State.rerunOne spares s j).pending = s.pending ∧ (State.rerunOne spares s j).tick = s.tick ∧ (State.rerunOne spares s j).life.fuses = s.life.fuses := by
  unfold State.rerunOne
  repeat' first
    | (simp; done)
    | split

@[simp] theorem State.class0Cont_kept (spares : List Nat) (s : State) : (State.class0Cont spares s).pending = s.pending ∧ (State.class0Cont spares s).tick = s.tick ∧ (State.class0Cont spares s).life.fuses = s.life.fuses := by
  simp [State.class0Cont]

@[simp] theorem State.class0News_kept (s : State) : (State.class0News s).pending = s.pending ∧ (State.class0News s).tick = s.tick ∧ (State.class0News s).life.fuses = s.life.fuses := by
  simp [State.class0News]

@[simp] theorem State.commitFrame_kept (s : State) : (State.commitFrame s).pending = s.pending ∧ (State.commitFrame s).tick = s.tick ∧ (State.commitFrame s).life.fuses = s.life.fuses := by
  simp [State.commitFrame]

@[simp] theorem State.releaseReserve_kept (s : State) : (State.releaseReserve s).pending = s.pending ∧ (State.releaseReserve s).tick = s.tick ∧ (State.releaseReserve s).life.fuses = s.life.fuses := by
  simp [State.releaseReserve]

theorem State.startLow_kept (s : State) (k : Job) (n : Nat) (p : Pay) : ∀ t, State.startLow s k n p = some t → t.pending = s.pending ∧ t.tick = s.tick ∧ t.life.fuses = s.life.fuses := by
  intro t h
  have a := State.tryStart_kept _ _ _ _ _ h
  simpa using a

theorem State.contOne_kept (s : State) (eng n id : Nat) (p : Pay) : ∀ t, State.contOne s eng n id p = some t → t.pending = s.pending ∧ t.tick = s.tick ∧ t.life.fuses = s.life.fuses := by
  intro t h
  simp only [State.contOne] at h
  split at h
  · split at h
    · exact State.runSeg_kept _ _ _ _ _ h
    · cases h
  · have a := State.runSeg_kept _ _ _ _ _ h; simpa using a

theorem State.contAt_kept (s : State) (o : Option Nat) (eng id : Nat) (p : Pay) : ∀ t, (o.bind fun n => s.contOne eng n id p) = some t → t.pending = s.pending ∧ t.tick = s.tick ∧ t.life.fuses = s.life.fuses := by
  intro t h
  obtain ⟨n, -, h⟩ := Option.bind_eq_some_iff.mp h
  exact State.contOne_kept _ _ _ _ _ _ h

@[simp] theorem State.putLeave_kept (s : State) (id n first m : Nat) : (State.putLeave s id n first m).pending = s.pending ∧ (State.putLeave s id n first m).tick = s.tick ∧ (State.putLeave s id n first m).life.fuses = s.life.fuses := by
  simp [State.putLeave]

@[simp] theorem State.leavePassed_kept (s : State) : (State.leavePassed s).pending = s.pending ∧ (State.leavePassed s).tick = s.tick ∧ (State.leavePassed s).life.fuses = s.life.fuses := by
  simp [State.leavePassed]

@[simp] theorem State.renewOne_kept (s : State) (id : Nat) : (State.renewOne s id).pending = s.pending ∧ (State.renewOne s id).tick = s.tick ∧ (State.renewOne s id).life.fuses = s.life.fuses := by
  unfold State.renewOne
  repeat' first
    | (simp; done)
    | split

@[simp] theorem State.renewals_kept (s : State) : (State.renewals s).pending = s.pending ∧ (State.renewals s).tick = s.tick ∧ (State.renewals s).life.fuses = s.life.fuses := by
  simp [State.renewals]

@[simp] theorem State.freeLeave_kept (s : State) (n : Nat) : (State.freeLeave s n).pending = s.pending ∧ (State.freeLeave s n).tick = s.tick ∧ (State.freeLeave s n).life.fuses = s.life.fuses := by
  simp [State.freeLeave]

@[simp] theorem State.leaveSeg_kept (s : State) (l : Leave) : (s.leaveSeg l).pending = s.pending ∧ (s.leaveSeg l).tick = s.tick ∧ (s.leaveSeg l).life.fuses = s.life.fuses := by
  simp only [State.leaveSeg]
  split
  · split
    · simp
    · split
      · next t he =>
        obtain ⟨n, -, hc⟩ := Option.bind_eq_some_iff.mp he
        have a := State.contOne_kept _ _ _ _ _ _ hc; simp [a]
      · simp
  · simp

@[simp] theorem State.leaveSegs_kept (s : State) : (s.leaveSegs).pending = s.pending ∧ (s.leaveSegs).tick = s.tick ∧ (s.leaveSegs).life.fuses = s.life.fuses := by
  simp [State.leaveSegs]

@[simp] theorem State.grantJob_kept (s : State) (a : Ask) : (s.grantJob a).pending = s.pending ∧ (s.grantJob a).tick = s.tick ∧ (s.grantJob a).life.fuses = s.life.fuses := by
  have key (x : State) (k : Job) (n : Nat) (hx : x.pending = s.pending ∧ x.tick = s.tick ∧ x.life.fuses = s.life.fuses) :
      ((x.startLow k n .leave).getD s).pending = s.pending ∧ ((x.startLow k n .leave).getD s).tick = s.tick ∧ ((x.startLow k n .leave).getD s).life.fuses = s.life.fuses := by
    cases h : x.startLow k n .leave with
    | none => simp
    | some t => have a := State.startLow_kept _ _ _ _ _ h; simp [a, hx]
  unfold State.grantJob
  repeat' first
    | (simp; done)
    | (apply key; simp; done)
    | split
    | dsimp only

@[simp] theorem State.grantChk_kept (s : State) (a : Ask) : (State.grantChk s a).pending = s.pending ∧ (State.grantChk s a).tick = s.tick ∧ (State.grantChk s a).life.fuses = s.life.fuses := by
  simp [State.grantChk]

@[simp] theorem State.grantCopy_kept (s : State) (a : Ask) : (State.grantCopy s a).pending = s.pending ∧ (State.grantCopy s a).tick = s.tick ∧ (State.grantCopy s a).life.fuses = s.life.fuses := by
  simp [State.grantCopy]

@[simp] theorem State.askCopy_kept (s : State) (id : Nat) : (State.askCopy s id).pending = s.pending ∧ (State.askCopy s id).tick = s.tick ∧ (State.askCopy s id).life.fuses = s.life.fuses := by
  simp [State.askCopy]

@[simp] theorem State.askLeave_kept (s : State) : (State.askLeave s).pending = s.pending ∧ (State.askLeave s).tick = s.tick ∧ (State.askLeave s).life.fuses = s.life.fuses := by
  simp [State.askLeave]

@[simp] theorem State.grant_kept (s : State) (a : Ask) : (State.grant s a).pending = s.pending ∧ (State.grant s a).tick = s.tick ∧ (State.grant s a).life.fuses = s.life.fuses := by
  simp [State.grant]

@[simp] theorem State.leaveFrame_kept (s : State) : (State.leaveFrame s).pending = s.pending ∧ (State.leaveFrame s).tick = s.tick ∧ (State.leaveFrame s).life.fuses = s.life.fuses := by
  simp [State.leaveFrame]

@[simp] theorem State.clusterTest_kept (s : State) (c : Nat) : (State.clusterTest s c).pending = s.pending ∧ (State.clusterTest s c).tick = s.tick ∧ (State.clusterTest s c).life.fuses = s.life.fuses := by
  unfold State.clusterTest
  repeat' first
    | rfl
    | (simp; done)
    | (have a := State.debit_kept _ _ _ ‹_›; simp [a]; done)
    | (intro h; have a := State.debit_kept _ _ _ h; simp [a]; done)
    | (intro h; cases h; have a := State.debit_kept _ _ _ ‹_›; simp [a]; done)
    | (refine ⟨foldl_pending ?_ _ _, foldl_tick ?_ _ _, foldl_fuses ?_ _ _⟩)
    | (intro h; cases h; simp; done)
    | (intro h; cases h; done)
    | (intro st x; try dsimp only)
    | split
    | dsimp only

@[simp] theorem State.testFrame_kept (s : State) : (State.testFrame s).pending = s.pending ∧ (State.testFrame s).tick = s.tick ∧ (State.testFrame s).life.fuses = s.life.fuses := by
  simp [State.testFrame]

theorem State.tryLow_kept (s : State) (j : Job) : ∀ t, State.tryLow s j = some t → t.pending = s.pending ∧ t.tick = s.tick ∧ t.life.fuses = s.life.fuses := by
  intro t h
  simp only [State.tryLow] at h
  split at h
  · cases h; simp
  · obtain ⟨n, -, h⟩ := Option.bind_eq_some_iff.mp h
    exact State.startLow_kept _ _ _ _ _ h

@[simp] theorem State.contLow_kept (s : State) (cls : Nat) : (s.contLow cls).pending = s.pending ∧ (s.contLow cls).tick = s.tick ∧ (s.contLow cls).life.fuses = s.life.fuses := by
  simp only [State.contLow]
  refine ⟨foldl_pending ?_ _ _, foldl_tick ?_ _ _, foldl_fuses ?_ _ _⟩ <;>
    (intro st j
     cases h : ((st.laneOf j).bind fun n => st.contOne (opEngine j.op) n j.id .remainder) with
     | none => simp
     | some t => have a := State.contAt_kept _ _ _ _ _ _ h; simp [a])

@[simp] theorem State.turnOne_kept (q : Quantum) (s : State) (j : Job) : (State.turnOne q s j).pending = s.pending ∧ (State.turnOne q s j).tick = s.tick ∧ (State.turnOne q s j).life.fuses = s.life.fuses := by
  simp only [State.turnOne]
  split
  · simp
  · cases h : s.tryLow j with
    | none => simp
    | some t => have a := State.tryLow_kept _ _ _ h; simp [a]

@[simp] theorem State.sliceTurn_kept (s : State) (q : Quantum) : (s.sliceTurn q).pending = s.pending ∧ (s.sliceTurn q).tick = s.tick ∧ (s.sliceTurn q).life.fuses = s.life.fuses := by
  simp only [State.sliceTurn]
  refine ⟨foldl_pending ?_ _ _, foldl_tick ?_ _ _, foldl_fuses ?_ _ _⟩ <;> simp

@[simp] theorem State.classRest_kept (s : State) (eng cls : Nat) : (s.classRest eng cls).pending = s.pending ∧ (s.classRest eng cls).tick = s.tick ∧ (s.classRest eng cls).life.fuses = s.life.fuses := by
  simp only [State.classRest]
  refine ⟨foldl_pending ?_ _ _, foldl_tick ?_ _ _, foldl_fuses ?_ _ _⟩ <;>
    (intro st j
     cases h : st.tryLow j with
     | none => simp
     | some t => have a := State.tryLow_kept _ _ _ h; simp [a])

@[simp] theorem State.settleDeficits_kept (s : State) (eng : Nat) (qs : List Quantum) : (State.settleDeficits s eng qs).pending = s.pending ∧ (State.settleDeficits s eng qs).tick = s.tick ∧ (State.settleDeficits s eng qs).life.fuses = s.life.fuses := by
  simp [State.settleDeficits]

@[simp] theorem State.fillPool_kept (s : State) (eng : Nat) : (State.fillPool s eng).pending = s.pending ∧ (State.fillPool s eng).tick = s.tick ∧ (State.fillPool s eng).life.fuses = s.life.fuses := by
  simp [State.fillPool]

@[simp] theorem State.holdDraws_kept (s : State) : (State.holdDraws s).pending = s.pending ∧ (State.holdDraws s).tick = s.tick ∧ (State.holdDraws s).life.fuses = s.life.fuses := by
  simp [State.holdDraws]

@[simp] theorem State.fillFrame_kept (s : State) : (State.fillFrame s).pending = s.pending ∧ (State.fillFrame s).tick = s.tick ∧ (State.fillFrame s).life.fuses = s.life.fuses := by
  simp [State.fillFrame]

@[simp] theorem State.fillClass3_kept (s : State) : (State.fillClass3 s).pending = s.pending ∧ (State.fillClass3 s).tick = s.tick ∧ (State.fillClass3 s).life.fuses = s.life.fuses := by
  simp [State.fillClass3]

@[simp] theorem State.reseedLane_kept (s : State) (n : Nat) : (State.reseedLane s n).pending = s.pending ∧ (State.reseedLane s n).tick = s.tick ∧ (State.reseedLane s n).life.fuses = s.life.fuses := by
  simp [State.reseedLane]

@[simp] theorem State.blindReseed_kept (s : State) : (State.blindReseed s).pending = s.pending ∧ (State.blindReseed s).tick = s.tick ∧ (State.blindReseed s).life.fuses = s.life.fuses := by
  simp [State.blindReseed]

@[simp] theorem State.wipeBank_kept (n : Nat) (s : State) (b : BankUse) : (State.wipeBank n s b).pending = s.pending ∧ (State.wipeBank n s b).tick = s.tick ∧ (State.wipeBank n s b).life.fuses = s.life.fuses := by
  unfold State.wipeBank
  repeat' first
    | (simp; done)
    | split

@[simp] theorem State.wipeFrame_kept (s : State) : (State.wipeFrame s).pending = s.pending ∧ (State.wipeFrame s).tick = s.tick ∧ (State.wipeFrame s).life.fuses = s.life.fuses := by
  simp [State.wipeFrame]

@[simp] theorem State.chkFoldMemory_kept (s : State) (u n : Nat) : (State.chkFoldMemory s u n).pending = s.pending ∧ (State.chkFoldMemory s u n).tick = s.tick ∧ (State.chkFoldMemory s u n).life.fuses = s.life.fuses := by
  simp [State.chkFoldMemory]

@[simp] theorem State.chkFoldPage_kept (s : State) (u : Nat) : (State.chkFoldPage s u).pending = s.pending ∧ (State.chkFoldPage s u).tick = s.tick ∧ (State.chkFoldPage s u).life.fuses = s.life.fuses := by
  simp [State.chkFoldPage]

theorem State.chkPay_kept (s : State) (leave cost : Nat) : ∀ t, State.chkPay s leave cost = some t → t.pending = s.pending ∧ t.tick = s.tick ∧ t.life.fuses = s.life.fuses := by
  intro t h
  simp only [State.chkPay] at h
  revert h
  repeat' first
    | rfl
    | (simp; done)
    | (have a := State.debit_kept _ _ _ ‹_›; simp [a]; done)
    | (intro h; have a := State.debit_kept _ _ _ h; simp [a]; done)
    | (intro h; cases h; have a := State.debit_kept _ _ _ ‹_›; simp [a]; done)
    | (refine ⟨foldl_pending ?_ _ _, foldl_tick ?_ _ _, foldl_fuses ?_ _ _⟩)
    | (intro h; cases h; simp; done)
    | (intro h; cases h; done)
    | (intro st x; try dsimp only)
    | split
    | dsimp only

@[simp] theorem State.chkUnitFrame_kept (s : State) (u : Nat) : (State.chkUnitFrame s u).pending = s.pending ∧ (State.chkUnitFrame s u).tick = s.tick ∧ (State.chkUnitFrame s u).life.fuses = s.life.fuses := by
  unfold State.chkUnitFrame
  repeat' first
    | rfl
    | (simp; done)
    | (have a := State.chkPay_kept _ _ _ _ ‹_›; simp [a]; done)
    | (intro h; have a := State.chkPay_kept _ _ _ _ h; simp [a]; done)
    | (intro h; cases h; have a := State.chkPay_kept _ _ _ _ ‹_›; simp [a]; done)
    | (refine ⟨foldl_pending ?_ _ _, foldl_tick ?_ _ _, foldl_fuses ?_ _ _⟩)
    | (intro h; cases h; simp; done)
    | (intro h; cases h; done)
    | (intro st x; try dsimp only)
    | split
    | dsimp only

@[simp] theorem State.chkFrame_kept (s : State) : (State.chkFrame s).pending = s.pending ∧ (State.chkFrame s).tick = s.tick ∧ (State.chkFrame s).life.fuses = s.life.fuses := by
  simp [State.chkFrame]

@[simp] theorem State.takeEffect_kept (s : State) (j : Job) (o : Outcome) : ((State.takeEffect s j o).1).pending = s.pending ∧ ((State.takeEffect s j o).1).tick = s.tick ∧ ((State.takeEffect s j o).1).life.fuses = s.life.fuses := by
  simp only [State.takeEffect]
  repeat' first
    | (simp; done)
    | split

@[simp] theorem State.releaseOne_kept (grant : Nat) (s : State) (j : Job) : (State.releaseOne grant s j).pending = s.pending ∧ (State.releaseOne grant s j).tick = s.tick ∧ (State.releaseOne grant s j).life.fuses = s.life.fuses := by
  simp [State.releaseOne]

@[simp] theorem State.releaseRing_kept (s : State) (n : Nat) : (State.releaseRing s n).pending = s.pending ∧ (State.releaseRing s n).tick = s.tick ∧ (State.releaseRing s n).life.fuses = s.life.fuses := by
  simp only [State.releaseRing]
  repeat' first
    | (simp; done)
    | split

@[simp] theorem State.releaseFrame_kept (s : State) : (State.releaseFrame s).pending = s.pending ∧ (State.releaseFrame s).tick = s.tick ∧ (State.releaseFrame s).life.fuses = s.life.fuses := by
  simp [State.releaseFrame]

@[simp] theorem State.errorImage_kept (s : State) : (State.errorImage s).pending = s.pending ∧ (State.errorImage s).tick = s.tick ∧ (State.errorImage s).life.fuses = s.life.fuses := by
  simp [State.errorImage]

@[simp] theorem State.pendingImage_kept (s : State) : (State.pendingImage s).pending = s.pending ∧ (State.pendingImage s).tick = s.tick ∧ (State.pendingImage s).life.fuses = s.life.fuses := by
  simp [State.pendingImage]

@[simp] theorem State.shadowOne_kept (s : State) (n : Nat) : (State.shadowOne s n).pending = s.pending ∧ (State.shadowOne s n).tick = s.tick ∧ (State.shadowOne s n).life.fuses = s.life.fuses := by
  simp [State.shadowOne]

@[simp] theorem State.shadowFrame_kept (s : State) : (State.shadowFrame s).pending = s.pending ∧ (State.shadowFrame s).tick = s.tick ∧ (State.shadowFrame s).life.fuses = s.life.fuses := by
  simp [State.shadowFrame]

@[simp] theorem State.msixFrame_kept (s : State) : (State.msixFrame s).pending = s.pending ∧ (State.msixFrame s).tick = s.tick ∧ (State.msixFrame s).life.fuses = s.life.fuses := by
  simp [State.msixFrame]

@[simp] theorem State.refuseIndex_kept (s : State) (n code : Nat) : (State.refuseIndex s n code).pending = s.pending ∧ (State.refuseIndex s n code).tick = s.tick ∧ (State.refuseIndex s n code).life.fuses = s.life.fuses := by
  simp [State.refuseIndex]

@[simp] theorem State.sampleTail_kept (s : State) (n : Nat) : (State.sampleTail s n).pending = s.pending ∧ (State.sampleTail s n).tick = s.tick ∧ (State.sampleTail s n).life.fuses = s.life.fuses := by
  simp only [State.sampleTail]
  repeat' first
    | (simp; done)
    | split

@[simp] theorem State.sampleHead_kept (s : State) (n : Nat) : (State.sampleHead s n).pending = s.pending ∧ (State.sampleHead s n).tick = s.tick ∧ (State.sampleHead s n).life.fuses = s.life.fuses := by
  simp only [State.sampleHead]
  repeat' first
    | (simp; done)
    | split

@[simp] theorem State.sampleAbort_kept (s : State) (n : Nat) : (State.sampleAbort s n).pending = s.pending ∧ (State.sampleAbort s n).tick = s.tick ∧ (State.sampleAbort s n).life.fuses = s.life.fuses := by
  simp only [State.sampleAbort]
  repeat' first
    | (simp; done)
    | split

@[simp] theorem State.sampleFrame_kept (s : State) : (State.sampleFrame s).pending = s.pending ∧ (State.sampleFrame s).tick = s.tick ∧ (State.sampleFrame s).life.fuses = s.life.fuses := by
  simp [State.sampleFrame]

@[simp] theorem State.advanceOne_kept (s : State × Option Nat) (e : Nat) : ((State.advanceOne s e).1).pending = s.1.pending ∧ ((State.advanceOne s e).1).tick = s.1.tick ∧ ((State.advanceOne s e).1).life.fuses = s.1.life.fuses := by
  unfold State.advanceOne
  repeat' first
    | (simp; done)
    | split
    | dsimp only

@[simp] theorem State.advanceSlice_kept (s : State) (sl : Nat) : (State.advanceSlice s sl).pending = s.pending ∧ (State.advanceSlice s sl).tick = s.tick ∧ (State.advanceSlice s sl).life.fuses = s.life.fuses := by
  unfold State.advanceSlice
  repeat' first
    | rfl
    | (simp; done)
    | (refine ⟨foldl_pending ?_ _ _, foldl_tick ?_ _ _, foldl_fuses ?_ _ _⟩)
    | (intro h; cases h; simp; done)
    | (intro h; cases h; done)
    | (intro st x; try dsimp only)
    | split
    | dsimp only

@[simp] theorem State.creditFrame_kept (s : State) : (State.creditFrame s).pending = s.pending ∧ (State.creditFrame s).tick = s.tick ∧ (State.creditFrame s).life.fuses = s.life.fuses := by
  simp [State.creditFrame]

@[simp] theorem State.originate_kept (s : State) : (State.originate s).pending = s.pending ∧ (State.originate s).tick = s.tick ∧ (State.originate s).life.fuses = s.life.fuses := by
  simp [State.originate]

@[simp] theorem State.countMarkers_kept (s : State) : (State.countMarkers s).pending = s.pending ∧ (State.countMarkers s).tick = s.tick ∧ (State.countMarkers s).life.fuses = s.life.fuses := by
  simp [State.countMarkers]

@[simp] theorem State.chainCalls_kept (s : State) : (State.chainCalls s).pending = s.pending ∧ (State.chainCalls s).tick = s.tick ∧ (State.chainCalls s).life.fuses = s.life.fuses := by
  simp [State.chainCalls]

@[simp] theorem State.keepOwn_kept (s : State) : (State.keepOwn s).pending = s.pending ∧ (State.keepOwn s).tick = s.tick ∧ (State.keepOwn s).life.fuses = s.life.fuses := by
  simp [State.keepOwn]

@[simp] theorem State.repliesOnly_kept (s : State) : (State.repliesOnly s).pending = s.pending ∧ (State.repliesOnly s).tick = s.tick ∧ (State.repliesOnly s).life.fuses = s.life.fuses := by
  simp [State.repliesOnly]

@[simp] theorem State.placeFrags_kept (f : Nat) (m : ChainMsg) (a : State × Nat) (i : Nat) : ((State.placeFrags m f a i).1).pending = a.1.pending ∧ ((State.placeFrags m f a i).1).tick = a.1.tick ∧ ((State.placeFrags m f a i).1).life.fuses = a.1.life.fuses := by
  induction f generalizing a i with
  | zero => exact ⟨rfl, rfl, rfl⟩
  | succ f ih =>
    simp only [State.placeFrags]
    split <;> simp [ih]

@[simp] theorem State.placeMsgs_kept (l : List ChainMsg) (a : State × Nat) : ((State.placeMsgs l a).1).pending = a.1.pending ∧ ((State.placeMsgs l a).1).tick = a.1.tick ∧ ((State.placeMsgs l a).1).life.fuses = a.1.life.fuses := by
  induction l generalizing a with
  | nil => exact ⟨rfl, rfl, rfl⟩
  | cons m r ih =>
    simp only [State.placeMsgs]
    split <;> simp [ih]

@[simp] theorem State.chainTick_kept (s : State) : (State.chainTick s).pending = s.pending ∧ (State.chainTick s).tick = s.tick ∧ (State.chainTick s).life.fuses = s.life.fuses := by
  unfold State.chainTick
  repeat' first
    | (simp; done)
    | split

@[simp] theorem State.retryJobs_kept (s : State) : (State.retryJobs s).pending = s.pending ∧ (State.retryJobs s).tick = s.tick ∧ (State.retryJobs s).life.fuses = s.life.fuses := by
  simp [State.retryJobs]

@[simp] theorem State.voidLate_kept (s : State) : (State.voidLate s).pending = s.pending ∧ (State.voidLate s).tick = s.tick ∧ (State.voidLate s).life.fuses = s.life.fuses := by
  simp [State.voidLate]

@[simp] theorem State.overBudget_kept (s : State) : (State.overBudget s).pending = s.pending ∧ (State.overBudget s).tick = s.tick ∧ (State.overBudget s).life.fuses = s.life.fuses := by
  simp [State.overBudget]

@[simp] theorem State.schedule_kept (spares : List Nat) (s : State) : (State.schedule spares s).pending = s.pending ∧ (State.schedule spares s).tick = s.tick ∧ (State.schedule spares s).life.fuses = s.life.fuses := by
  simp [State.schedule]

@[simp] theorem State.endFrame_kept (s : State) : (State.endFrame s).pending = s.pending ∧ (State.endFrame s).tick = (s.tick + 1) % 2 ^ 64 ∧
    (State.endFrame s).life.fuses = s.life.fuses := by
  simp [State.endFrame]

@[simp] theorem State.boundRaises_kept (b : Nat) (s : State) : (State.boundRaises b s).pending = s.pending ∧ (State.boundRaises b s).tick = s.tick ∧ (State.boundRaises b s).life.fuses = s.life.fuses := by
  simp [State.boundRaises]

@[simp] theorem State.tickEffects_kept (s : State) : (State.tickEffects s).pending = s.pending ∧ (State.tickEffects s).tick = s.tick ∧ (State.tickEffects s).life.fuses = s.life.fuses := by
  simp [State.tickEffects]

@[simp] theorem State.tickHost_kept (s : State) : (State.tickHost s).pending = s.pending ∧ (State.tickHost s).tick = s.tick ∧ (State.tickHost s).life.fuses = s.life.fuses := by
  simp [State.tickHost]

@[simp] theorem State.serveTick_kept (bound : Nat) (s : State) : (State.serveTick bound s).pending = s.pending ∧ (State.serveTick bound s).tick = s.tick ∧ (State.serveTick bound s).life.fuses = s.life.fuses := by
  simp [State.serveTick]

@[simp] theorem State.startTick_kept (s : State) : (State.startTick s).pending = s.pending ∧ (State.startTick s).tick = s.tick ∧ (State.startTick s).life.fuses = s.life.fuses := by
  simp [State.startTick]

@[simp] theorem State.tickOnce_kept (s : State) : (State.tickOnce s).pending = s.pending ∧ (State.tickOnce s).life.fuses = s.life.fuses := by
  unfold State.tickOnce
  repeat' first
    | (simp; done)
    | split

/-- A tick that is not held back advances the tick number by one. -/
theorem State.tickOnce_tick (s : State) (h : s.noTick = false) : (State.tickOnce s).tick = (s.tick + 1) % 2 ^ 64 := by
  simp only [State.tickOnce, h, Bool.false_eq_true, if_false]
  repeat' first
    | (simp; done)
    | split

@[simp] theorem State.holdResult_kept (s : State) (id : Nat) : (State.holdResult s id).pending = s.pending ∧ (State.holdResult s id).tick = s.tick ∧ (State.holdResult s id).life.fuses = s.life.fuses := by
  unfold State.holdResult
  repeat' first
    | (simp; done)
    | split

@[simp] theorem State.stageOutput_kept (s : State) (id : Nat) : (State.stageOutput s id).pending = s.pending ∧ (State.stageOutput s id).tick = s.tick ∧ (State.stageOutput s id).life.fuses = s.life.fuses := by
  unfold State.stageOutput
  repeat' first
    | (simp (disch := (intros; repeat' first | rfl | (simp; done) | split)); done)
    | split

@[simp] theorem State.dummyRun_kept (s : State) (id : Nat) : (State.dummyRun s id).pending = s.pending ∧ (State.dummyRun s id).tick = s.tick ∧ (State.dummyRun s id).life.fuses = s.life.fuses := by
  unfold State.dummyRun
  repeat' first
    | (simp; done)
    | split

@[simp] theorem State.stageJob_kept (s : State) (j : Job) : (State.stageJob s j).pending = s.pending ∧ (State.stageJob s j).tick = s.tick ∧ (State.stageJob s j).life.fuses = s.life.fuses := by
  simp [State.stageJob]

@[simp] theorem State.countSigns_kept (s : State) (j : Job) : (State.countSigns s j).pending = s.pending ∧ (State.countSigns s j).tick = s.tick ∧ (State.countSigns s j).life.fuses = s.life.fuses := by
  simp [State.countSigns]

@[simp] theorem State.outputJob_kept (s : State) (j : Job) : (State.outputJob s j).pending = s.pending ∧ (State.outputJob s j).tick = s.tick ∧ (State.outputJob s j).life.fuses = s.life.fuses := by
  simp [State.outputJob]

@[simp] theorem State.scrubEnded_kept (s : State) (j : Job) : (State.scrubEnded s j).pending = s.pending ∧ (State.scrubEnded s j).tick = s.tick ∧ (State.scrubEnded s j).life.fuses = s.life.fuses := by
  simp [State.scrubEnded]

@[simp] theorem State.alertEnds_kept (s : State) : (State.alertEnds s).pending = s.pending ∧ (State.alertEnds s).tick = s.tick ∧ (State.alertEnds s).life.fuses = s.life.fuses := by
  simp [State.alertEnds]

@[simp] theorem State.handOne_kept (s : State) (c : Instr) : (s.handOne c).pending = s.pending ∧ (s.handOne c).tick = s.tick ∧ (s.handOne c).life.fuses = s.life.fuses := by
  cases c <;> simp only [State.handOne, execHello, execDictRead, execDictWrite, execDictReply, execChallengeRequest, execApproval, execReplicate, execReplAck, execReplCommit, execReplRollback,
    execReplQuery, execReplState, execMigConsume, execMigReply, execAttestOffer, execAttestAnswer, execDomainKey, execHeartTransfer, execObjectTransfer, execTransferEnd]
  all_goals first
    | (simp; done)
    | (cases s.live <;> simp (disch := (intros; repeat' first | rfl | (simp; done) | split)); done)
    | (exact State.atStep4_kept _ _ _ fun _ => State.receive_kept _ _ _ _ fun _ => by repeat' first | (simp; done) | split)

@[simp] theorem State.handOver_kept (s : State) : (State.handOver s).pending = s.pending ∧ (State.handOver s).tick = s.tick ∧ (State.handOver s).life.fuses = s.life.fuses := by
  simp [State.handOver]

@[simp] theorem State.windowWork_kept (s : State) : (State.windowWork s).pending = s.pending ∧ (State.windowWork s).tick = s.tick := by
  simp [State.windowWork]

@[simp] theorem State.periodSwitch_kept (s : State) : (State.periodSwitch s).pending = s.pending ∧ (State.periodSwitch s).tick = s.tick ∧ (State.periodSwitch s).life.fuses = s.life.fuses := by
  simp [State.periodSwitch]

end Sys2Proof.Machine
end

