-- ==== Sys2Proof/Laws/Fuses.lean ====
section
/-! SUPPORT. The fuses through a transition's steps, a start, and the window: they only blow, and the marks stay in order. -/

namespace Sys2Proof.Machine

set_option linter.unusedTactic false
set_option linter.unreachableTactic false
set_option linter.unnecessarySeqFocus false

theorem Marks.grows_refl (m : Marks) : m.grows m := ⟨.inl rfl, .inl rfl, .inl rfl, .inl rfl⟩

theorem markGrows_trans {a b c : Nat} (h : markGrows a b) (k : markGrows b c) : markGrows a c := by
  rcases k with k | k
  · rcases h with h | h
    · exact .inl (k.trans h)
    · exact .inr (k.trans h)
  · exact .inr k

theorem Marks.grows_trans {a b c : Marks} (h : a.grows b) (k : b.grows c) : a.grows c :=
  ⟨markGrows_trans h.1 k.1, markGrows_trans h.2.1 k.2.1, markGrows_trans h.2.2.1 k.2.2.1, markGrows_trans h.2.2.2 k.2.2.2⟩

theorem Fuses.grows_refl (f : Fuses) : f.grows f :=
  ⟨f.m1.grows_refl, f.m2.grows_refl, f.m3.grows_refl, f.m4.grows_refl, id, id⟩

theorem Fuses.grows_of_eq {f g : Fuses} (h : g = f) : f.grows g := h ▸ f.grows_refl

theorem Fuses.grows_trans {a b c : Fuses} (h : a.grows b) (k : b.grows c) : a.grows c :=
  ⟨Marks.grows_trans h.1 k.1, Marks.grows_trans h.2.1 k.2.1, Marks.grows_trans h.2.2.1 k.2.2.1, Marks.grows_trans h.2.2.2.1 k.2.2.2.1,
   fun x => h.2.2.2.2.1 (k.2.2.2.2.1 x), fun x => k.2.2.2.2.2 (h.2.2.2.2.2 x)⟩

/-- New marks of one transition that have grown make the fuses grow. -/
theorem Fuses.setMarks_grows (f : Fuses) (n : Nat) (m : Marks) (h : (f.marks n).grows m) : f.grows (f.setMarks n m) := by
  simp only [Fuses.marks] at h
  simp only [Fuses.setMarks]
  split at h
  · next e => rw [if_pos e]; exact ⟨h, f.m2.grows_refl, f.m3.grows_refl, f.m4.grows_refl, id, id⟩
  · next e =>
    rw [if_neg e]
    split at h
    · next e => rw [if_pos e]; exact ⟨f.m1.grows_refl, h, f.m3.grows_refl, f.m4.grows_refl, id, id⟩
    · next e =>
      rw [if_neg e]
      split at h
      · next e => rw [if_pos e]; exact ⟨f.m1.grows_refl, f.m2.grows_refl, h, f.m4.grows_refl, id, id⟩
      · next e => rw [if_neg e]; exact ⟨f.m1.grows_refl, f.m2.grows_refl, f.m3.grows_refl, h, id, id⟩

/-- The wipe of a transition leaves the marks, and takes vendor test access at most. -/
theorem State.transitionWipe_fuses (s : State) (n : Nat) :
    (s.transitionWipe n).life.fuses = s.life.fuses ∨ (s.transitionWipe n).life.fuses = { s.life.fuses with vendorTest := false } := by
  unfold State.transitionWipe
  split
  · left; simp
  · split
    · right; rfl
    · left; split <;> simp

/-- The provisioning of a transition leaves the marks. -/
theorem State.transitionProvision_fuses (s : State) (n : Nat) :
    (∃ h, (s.transitionProvision n).life.fuses = { s.life.fuses with integratorHash := h }) ∨
      (s.transitionProvision n).life.fuses = { s.life.fuses with allBlown := true } := by
  unfold State.transitionProvision
  split
  · exact .inl ⟨_, rfl⟩
  · split
    · exact .inl ⟨s.life.fuses.integratorHash, rfl⟩
    · split
      · exact .inl ⟨s.life.fuses.integratorHash, by simp⟩
      · exact .inr rfl

theorem State.transitionWipe_grows (s : State) (n : Nat) :
    s.life.fuses.grows (s.transitionWipe n).life.fuses ∧ (s.transitionWipe n).life.fuses.marks n = s.life.fuses.marks n := by
  rcases s.transitionWipe_fuses n with h | h <;> rw [h]
  · exact ⟨Fuses.grows_refl _, rfl⟩
  · exact ⟨⟨Marks.grows_refl _, Marks.grows_refl _, Marks.grows_refl _, Marks.grows_refl _, by simp, id⟩, rfl⟩

theorem State.transitionProvision_grows (s : State) (n : Nat) :
    s.life.fuses.grows (s.transitionProvision n).life.fuses ∧ (s.transitionProvision n).life.fuses.marks n = s.life.fuses.marks n := by
  rcases s.transitionProvision_fuses n with ⟨x, h⟩ | h <;> rw [h]
  · exact ⟨⟨Marks.grows_refl _, Marks.grows_refl _, Marks.grows_refl _, Marks.grows_refl _, id, id⟩, rfl⟩
  · exact ⟨⟨Marks.grows_refl _, Marks.grows_refl _, Marks.grows_refl _, Marks.grows_refl _, id, fun _ => rfl⟩, rfl⟩

/-- One step of a transition blows one mark. -/
theorem State.transitionNext_grows (s : State) (n : Nat) : s.life.fuses.grows (s.transitionNext n).life.fuses := by
  have w := s.transitionWipe_grows n
  have p := s.transitionProvision_grows n
  simp only [State.transitionNext]
  split
  · exact Fuses.setMarks_grows _ _ _ ⟨.inr rfl, .inl rfl, .inl rfl, .inl rfl⟩
  · split
    · refine Fuses.grows_trans w.1 (Fuses.setMarks_grows _ _ _ ?_)
      rw [w.2]
      exact ⟨.inl rfl, .inr rfl, .inl rfl, .inl rfl⟩
    · split
      · refine Fuses.grows_trans p.1 (Fuses.setMarks_grows _ _ _ ?_)
        rw [p.2]
        exact ⟨.inl rfl, .inl rfl, .inr rfl, .inl rfl⟩
      · exact Fuses.setMarks_grows _ _ _ ⟨.inl rfl, .inl rfl, .inl rfl, .inr rfl⟩

theorem State.transitionResume_grows (s : State) : s.life.fuses.grows s.transitionResume.life.fuses := by
  simp only [State.transitionResume]
  split
  · exact Fuses.grows_refl _
  · next n _ =>
    have a := Fuses.grows_trans (s.transitionNext_grows n) ((s.transitionNext n).transitionNext_grows n)
    split
    · exact a
    · exact Fuses.grows_trans a (State.transitionNext_grows _ n)

theorem State.startFrom_grows (s : State) (reach : Nat) (boot : Boot) : s.life.fuses.grows (s.startFrom reach boot).life.fuses := by
  unfold State.startFrom
  split
  · exact Fuses.grows_of_eq (by simp)
  · split
    · exact Fuses.grows_refl _
    · split
      · exact Fuses.grows_of_eq (by simp)
      · next t h =>
        have a := State.imageSelect_kept _ _ _ h
        have b : s.life.fuses.grows t.transitionResume.life.fuses := a.2.2 ▸ t.transitionResume_grows
        dsimp only
        split
        · exact b
        · simpa using b

theorem State.applyWrite_grows (s : State) (w : Nat × DVal) : s.life.fuses.grows (s.applyWrite w).life.fuses := by
  unfold State.applyWrite
  dsimp only
  split
  · split
    · exact Fuses.grows_of_eq (by simp)
    · unfold State.applyHigh
      repeat' split
      all_goals first
        | exact Fuses.grows_of_eq (by simp)
        | exact ⟨Marks.grows_refl _, Marks.grows_refl _, Marks.grows_refl _, Marks.grows_refl _, id, id⟩
  · exact Fuses.grows_of_eq (by simp)

theorem State.applyWrites_grows (l : List (Nat × DVal)) (s : State) : s.life.fuses.grows (l.foldl State.applyWrite s).life.fuses := by
  induction l generalizing s with
  | nil => exact Fuses.grows_refl _
  | cons w l ih => exact Fuses.grows_trans (s.applyWrite_grows w) (ih _)

theorem State.windowWork_grows (s : State) : s.life.fuses.grows s.windowWork.life.fuses := by
  have h : ∀ st : State, st.life.fuses = s.life.fuses → s.life.fuses.grows st.applyAcked.life.fuses := fun st e =>
    e ▸ State.applyWrites_grows _ _
  simp only [State.windowWork]
  simpa using h _ (by simp)

/-! ## The order of the marks -/

/-- One new mark, reached after the one before it, keeps the order. -/
theorem Marks.ordered_iff (m : Marks) : m.ordered = true ↔
    (m.isDone = true → m.isProvisioned = true) ∧ (m.isProvisioned = true → m.isWiped = true) ∧ (m.isWiped = true → m.hasBegun = true) := by
  simp only [Marks.ordered, Bool.and_eq_true, Bool.or_eq_true, Bool.not_eq_true']
  cases m.isDone <;> cases m.isProvisioned <;> cases m.isWiped <;> cases m.hasBegun <;> decide

theorem Fuses.ordered_iff (f : Fuses) : f.ordered = true ↔ ∀ n, (f.marks n).ordered = true := by
  simp only [Fuses.ordered, Bool.and_eq_true, Fuses.marks]
  constructor
  · intro h n
    repeat' split
    · exact h.1.1.1
    · exact h.1.1.2
    · exact h.1.2
    · exact h.2
  · intro h
    exact ⟨⟨⟨h 1, h 2⟩, h 3⟩, h 4⟩

theorem Fuses.setMarks_ordered (f : Fuses) (n : Nat) (m : Marks) (h : f.ordered = true) (k : m.ordered = true) : (f.setMarks n m).ordered = true := by
  simp only [Fuses.ordered, Bool.and_eq_true] at h ⊢
  simp only [Fuses.setMarks]
  repeat' split
  · exact ⟨⟨⟨k, h.1.1.2⟩, h.1.2⟩, h.2⟩
  · exact ⟨⟨⟨h.1.1.1, k⟩, h.1.2⟩, h.2⟩
  · exact ⟨⟨⟨h.1.1.1, h.1.1.2⟩, k⟩, h.2⟩
  · exact ⟨h.1, k⟩

theorem State.transitionNext_ordered (s : State) (n : Nat) (h : s.life.fuses.ordered = true) : (s.transitionNext n).life.fuses.ordered = true := by
  have hm := (Marks.ordered_iff (s.marks n)).mp ((Fuses.ordered_iff _).mp h n)
  have hw : (s.transitionWipe n).life.fuses.ordered = true := by
    rcases s.transitionWipe_fuses n with e | e <;> rw [e] <;> exact h
  have hp : (s.transitionProvision n).life.fuses.ordered = true := by
    rcases s.transitionProvision_fuses n with ⟨x, e⟩ | e <;> rw [e] <;> exact h
  have full : popCount blown = 4 := by decide
  simp only [State.transitionNext]
  by_cases b : (s.marks n).hasBegun = true
  · rw [if_neg (by simp [b])]
    by_cases w : (s.marks n).isWiped = true
    · rw [if_neg (by simp [w])]
      by_cases p : (s.marks n).isProvisioned = true
      · rw [if_neg (by simp [p])]
        exact Fuses.setMarks_ordered _ _ _ h ((Marks.ordered_iff _).mpr ⟨fun _ => p, hm.2⟩)
      · rw [if_pos (by simp [p])]
        refine Fuses.setMarks_ordered _ _ _ hp ((Marks.ordered_iff _).mpr ⟨fun _ => ?_, fun _ => w, hm.2.2⟩)
        simp [Marks.isProvisioned, full]
    · rw [if_pos (by simp [w])]
      refine Fuses.setMarks_ordered _ _ _ hw ((Marks.ordered_iff _).mpr ⟨hm.1, fun _ => ?_, fun _ => b⟩)
      simp [Marks.isWiped, full]
  · rw [if_pos (by simp [b])]
    refine Fuses.setMarks_ordered _ _ _ h ((Marks.ordered_iff _).mpr ⟨hm.1, hm.2.1, fun _ => ?_⟩)
    simp [Marks.hasBegun, full]

theorem State.transitionResume_ordered (s : State) (h : s.life.fuses.ordered = true) : s.transitionResume.life.fuses.ordered = true := by
  simp only [State.transitionResume]
  split
  · exact h
  · next n _ =>
    have a := State.transitionNext_ordered _ n (State.transitionNext_ordered s n h)
    split
    · exact a
    · exact State.transitionNext_ordered _ n a

theorem State.startFrom_ordered (s : State) (reach : Nat) (boot : Boot) (h : s.life.fuses.ordered = true) :
    (s.startFrom reach boot).life.fuses.ordered = true := by
  unfold State.startFrom
  split
  · simpa using h
  · split
    · exact h
    · split
      · simpa using h
      · next t e =>
        have a := State.imageSelect_kept _ _ _ e
        have b : t.transitionResume.life.fuses.ordered = true := State.transitionResume_ordered t (a.2.2 ▸ h)
        dsimp only
        split
        · exact b
        · simpa using b

theorem State.applyWrite_ordered (s : State) (w : Nat × DVal) (h : s.life.fuses.ordered = true) : (s.applyWrite w).life.fuses.ordered = true := by
  unfold State.applyWrite
  dsimp only
  split
  · split
    · simpa using h
    · unfold State.applyHigh
      repeat' split
      all_goals first
        | (simpa using h; done)
        | exact h
  · simpa using h

theorem State.windowWork_ordered (s : State) (h : s.life.fuses.ordered = true) : s.windowWork.life.fuses.ordered = true := by
  have key : ∀ (l : List (Nat × DVal)) (st : State), st.life.fuses.ordered = true → (l.foldl State.applyWrite st).life.fuses.ordered = true := by
    intro l
    induction l with
    | nil => exact fun _ h => h
    | cons w l ih => exact fun st h => ih _ (State.applyWrite_ordered st w h)
  have one : ∀ st : State, st.life.fuses = s.life.fuses → st.applyAcked.life.fuses.ordered = true := fun st e => key _ _ (by simpa [e] using h)
  simp only [State.windowWork]
  simpa using one _ (by simp)

end Sys2Proof.Machine
end

