-- ==== Sys2Proof/Laws/Memory.lean ====
section
/-! SUPPORT. Reading after writing, and the canonical form, for the sparse maps and for working memory. -/

namespace Sys2Proof

/-! ## Sparse maps -/

section Maps
variable {α : Type} [DecidableEq α] (d : α)

/-- Every key of a map lies above `k`. -/
def SMap.above (k : Nat) (m : List (Nat × α)) : Prop := ∀ e ∈ m, k < e.1

/-- The canonical form, spelled for the first entry and the rest. -/
theorem SMap.wf_cons (k : Nat) (v : α) (m : List (Nat × α)) :
    SMap.wf d ((k, v) :: m) = true ↔ v ≠ d ∧ SMap.above k m ∧ SMap.wf d m = true := by
  induction m generalizing k v with
  | nil => simp [SMap.wf, SMap.above]
  | cons e m ih =>
    obtain ⟨k', v'⟩ := e
    constructor
    · intro h
      simp only [SMap.wf, Bool.and_eq_true, decide_eq_true_eq] at h
      refine ⟨h.1.1, ?_, h.2⟩
      intro e he
      cases he with
      | head => exact h.1.2
      | tail _ he => exact Nat.lt_trans h.1.2 (((ih k' v').mp h.2).2.1 e he)
    · rintro ⟨h1, h2, h3⟩
      simp only [SMap.wf, Bool.and_eq_true, decide_eq_true_eq]
      exact ⟨⟨h1, h2 (k', v') List.mem_cons_self⟩, h3⟩

omit [DecidableEq α] in
theorem SMap.get_above {k : Nat} {m : List (Nat × α)} (h : SMap.above k m) : SMap.get d m k = d := by
  induction m with
  | nil => rfl
  | cons e m ih =>
    obtain ⟨k', v'⟩ := e
    have h1 : k < k' := h (k', v') List.mem_cons_self
    simp only [SMap.get, if_neg (Nat.ne_of_gt h1)]
    exact ih fun e he => h e (List.mem_cons_of_mem _ he)

/-- A read of another key gives what it gave before. -/
theorem SMap.get_set_ne (d' : α) (k k' : Nat) (v : α) (m : List (Nat × α)) (h : k' ≠ k) :
    SMap.get d' (SMap.set d k v m) k' = SMap.get d' m k' := by
  induction m with
  | nil =>
    simp only [SMap.set]
    split
    · rfl
    · simp only [SMap.get, if_neg (Ne.symm h)]
  | cons e m ih =>
    obtain ⟨a, w⟩ := e
    simp only [SMap.set]
    split
    · split
      · rfl
      · simp only [SMap.get, if_neg (Ne.symm h)]
    · split
      · next hk =>
        subst hk
        split
        · simp only [SMap.get, if_neg (Ne.symm h)]
        · simp only [SMap.get, if_neg (Ne.symm h)]
      · simp only [SMap.get, ih]

/-- A read of the key gives the value written. -/
theorem SMap.get_set (k : Nat) (v : α) (m : List (Nat × α)) (hm : SMap.wf d m = true) :
    SMap.get d (SMap.set d k v m) k = v := by
  induction m with
  | nil =>
    simp only [SMap.set]
    split
    · next h => rw [h]; rfl
    · simp [SMap.get]
  | cons e m ih =>
    obtain ⟨a, w⟩ := e
    have hw := (SMap.wf_cons d a w m).mp hm
    simp only [SMap.set]
    split
    · next hlt =>
      split
      · next hv =>
        rw [hv]
        refine SMap.get_above d ?_
        intro e he
        cases he with
        | head => exact hlt
        | tail _ he => exact Nat.lt_trans hlt (hw.2.1 e he)
      · simp [SMap.get]
    · split
      · next hk =>
        subst hk
        split
        · next hv => rw [hv]; exact SMap.get_above d hw.2.1
        · simp [SMap.get]
      · next hne => simp only [SMap.get, if_neg (Ne.symm hne), ih hw.2.2]

theorem SMap.set_above {k j : Nat} {v : α} {m : List (Nat × α)} (h : SMap.above j m) (hk : j < k) : SMap.above j (SMap.set d k v m) := by
  induction m with
  | nil =>
    simp only [SMap.set]
    split
    · exact h
    · intro e he
      cases he with
      | head => exact hk
      | tail _ he => cases he
  | cons e m ih =>
    obtain ⟨a, w⟩ := e
    have h1 : j < a := h (a, w) List.mem_cons_self
    have h2 : SMap.above j m := fun e he => h e (List.mem_cons_of_mem _ he)
    simp only [SMap.set]
    split
    · split
      · exact h
      · intro e he
        cases he with
        | head => exact hk
        | tail _ he => exact h e he
    · split
      · split
        · exact h2
        · intro e he
          cases he with
          | head => exact hk
          | tail _ he => exact h2 e he
      · intro e he
        cases he with
        | head => exact h1
        | tail _ he => exact ih h2 e he

/-- A write keeps the canonical form. -/
theorem SMap.wf_set (k : Nat) (v : α) (m : List (Nat × α)) (hm : SMap.wf d m = true) : SMap.wf d (SMap.set d k v m) = true := by
  induction m with
  | nil =>
    simp only [SMap.set]
    split
    · rfl
    · next h => simp [SMap.wf, h]
  | cons e m ih =>
    obtain ⟨a, w⟩ := e
    have hw := (SMap.wf_cons d a w m).mp hm
    simp only [SMap.set]
    split
    · next hlt =>
      split
      · exact hm
      · next hv =>
        refine (SMap.wf_cons d k v _).mpr ⟨hv, ?_, hm⟩
        intro e he
        cases he with
        | head => exact hlt
        | tail _ he => exact Nat.lt_trans hlt (hw.2.1 e he)
    · split
      · next hk =>
        subst hk
        split
        · exact hw.2.2
        · next hv => exact (SMap.wf_cons d k v m).mpr ⟨hv, hw.2⟩
      · next hge hne =>
        have hlt : a < k := Nat.lt_of_le_of_ne (Nat.le_of_not_lt hge) fun h => hne h.symm
        exact (SMap.wf_cons d a w _).mpr ⟨hw.1, SMap.set_above d hw.2.1 hlt, ih hw.2.2⟩

/-- Rewriting every value keeps the canonical form. -/
theorem SMap.wf_mapVals (f : α → α) (m : List (Nat × α)) (hm : SMap.wf d m = true) : SMap.wf d (SMap.mapVals d f m) = true := by
  induction m with
  | nil => rfl
  | cons e m ih =>
    obtain ⟨k, v⟩ := e
    have hw := (SMap.wf_cons d k v m).mp hm
    have h := ih hw.2.2
    simp only [SMap.mapVals, List.map_cons, List.filter_cons]
    split
    · next hv =>
      refine (SMap.wf_cons d k (f v) _).mpr ⟨by simpa using hv, ?_, h⟩
      intro e he
      obtain ⟨x, hx, rfl⟩ := List.mem_map.mp (List.mem_filter.mp he).1
      exact hw.2.1 x hx
    · exact h

/-- A value after rewriting, where the default stays the default. -/
theorem SMap.get_mapVals (f : α → α) (hf : f d = d) (k : Nat) (m : List (Nat × α)) (hm : SMap.wf d m = true) :
    SMap.get d (SMap.mapVals d f m) k = f (SMap.get d m k) := by
  induction m with
  | nil => exact hf.symm
  | cons e m ih =>
    obtain ⟨a, v⟩ := e
    have hw := (SMap.wf_cons d a v m).mp hm
    have h := ih hw.2.2
    simp only [SMap.mapVals, List.map_cons, List.filter_cons]
    by_cases ha : a = k
    · subst ha
      split
      · simp [SMap.get]
      · next hv =>
        have : f v = d := by simpa using hv
        rw [SMap.get_above d]
        · simp [SMap.get, this]
        · intro e he
          obtain ⟨x, hx, rfl⟩ := List.mem_map.mp (List.mem_filter.mp he).1
          exact hw.2.1 x hx
    · split
      · simp only [SMap.get, if_neg ha]; exact h
      · simp only [SMap.get, if_neg ha]; exact h

/-- Rising keys alone: what a map needs where its entries have defaults of their own. -/
theorem SMap.set_rising (k : Nat) (v : α) (m : List (Nat × α)) (hm : m.Pairwise fun a b => a.1 < b.1) :
    (SMap.set d k v m).Pairwise fun a b => a.1 < b.1 := by
  induction m with
  | nil =>
    simp only [SMap.set]
    split
    · exact hm
    · exact List.pairwise_singleton _ _
  | cons e m ih =>
    obtain ⟨a, w⟩ := e
    have hw := List.pairwise_cons.mp hm
    simp only [SMap.set]
    split
    · next hlt =>
      split
      · exact hm
      · refine List.pairwise_cons.mpr ⟨?_, hm⟩
        intro e he
        cases he with
        | head => exact hlt
        | tail _ he => exact Nat.lt_trans hlt (hw.1 e he)
    · split
      · next hk =>
        subst hk
        split
        · exact hw.2
        · exact List.pairwise_cons.mpr ⟨hw.1, hw.2⟩
      · next hge hne =>
        have hlt : a < k := Nat.lt_of_le_of_ne (Nat.le_of_not_lt hge) fun h => hne h.symm
        exact List.pairwise_cons.mpr ⟨SMap.set_above d hw.1 hlt, ih hw.2⟩

theorem SMap.get_set_rising (k : Nat) (v : α) (m : List (Nat × α)) (hm : m.Pairwise fun a b => a.1 < b.1) :
    SMap.get d (SMap.set d k v m) k = v := by
  induction m with
  | nil =>
    simp only [SMap.set]
    split
    · next h => rw [h]; rfl
    · simp [SMap.get]
  | cons e m ih =>
    obtain ⟨a, w⟩ := e
    have hw := List.pairwise_cons.mp hm
    simp only [SMap.set]
    split
    · next hlt =>
      split
      · next hv =>
        rw [hv]
        refine SMap.get_above d ?_
        intro e he
        cases he with
        | head => exact hlt
        | tail _ he => exact Nat.lt_trans hlt (hw.1 e he)
      · simp [SMap.get]
    · split
      · next hk =>
        subst hk
        split
        · next hv => rw [hv]; exact SMap.get_above d hw.1
        · simp [SMap.get]
      · next hne => simp only [SMap.get, if_neg (Ne.symm hne), ih hw.2]

end Maps

/-! ## Working memory -/

namespace Machine

theorem Memory.wf_cons (rest : Nat → Word36) (k : Nat) (v : Word36) (m : List (Nat × Word36)) :
    Memory.wf rest ((k, v) :: m) = true ↔ v ≠ rest k ∧ SMap.above k m ∧ Memory.wf rest m = true := by
  induction m generalizing k v with
  | nil => simp [Memory.wf, SMap.above]
  | cons e m ih =>
    obtain ⟨k', v'⟩ := e
    constructor
    · intro h
      simp only [Memory.wf, Bool.and_eq_true, decide_eq_true_eq] at h
      refine ⟨h.1.1, ?_, h.2⟩
      intro e he
      cases he with
      | head => exact h.1.2
      | tail _ he => exact Nat.lt_trans h.1.2 (((ih k' v').mp h.2).2.1 e he)
    · rintro ⟨h1, h2, h3⟩
      simp only [Memory.wf, Bool.and_eq_true, decide_eq_true_eq]
      exact ⟨⟨h1, h2 (k', v') List.mem_cons_self⟩, h3⟩

/-- The canonical form is: rising keys, and no entry equal to what its key reads as unlisted. -/
theorem Memory.wf_iff (rest : Nat → Word36) (m : List (Nat × Word36)) :
    Memory.wf rest m = true ↔ m.Pairwise (fun a b => a.1 < b.1) ∧ ∀ e ∈ m, e.2 ≠ rest e.1 := by
  induction m with
  | nil => simp [Memory.wf]
  | cons e m ih =>
    obtain ⟨k, v⟩ := e
    rw [Memory.wf_cons, ih, List.pairwise_cons]
    constructor
    · rintro ⟨h1, h2, h3, h4⟩
      refine ⟨⟨h2, h3⟩, ?_⟩
      intro e he
      cases he with
      | head => exact h1
      | tail _ he => exact h4 e he
    · rintro ⟨⟨h2, h3⟩, h4⟩
      exact ⟨h4 (k, v) List.mem_cons_self, h2, h3, fun e he => h4 e (List.mem_cons_of_mem _ he)⟩

theorem Memory.wf_set (rest : Nat → Word36) (k : Nat) (v : Word36) (m : List (Nat × Word36)) (hm : Memory.wf rest m = true) :
    Memory.wf rest (SMap.set (rest k) k v m) = true := by
  induction m with
  | nil =>
    simp only [SMap.set]
    split
    · rfl
    · next h => simp [Memory.wf, h]
  | cons e m ih =>
    obtain ⟨a, w⟩ := e
    have hw := (Memory.wf_cons rest a w m).mp hm
    simp only [SMap.set]
    split
    · next hlt =>
      split
      · exact hm
      · next hv =>
        refine (Memory.wf_cons rest k v _).mpr ⟨hv, ?_, hm⟩
        intro e he
        cases he with
        | head => exact hlt
        | tail _ he => exact Nat.lt_trans hlt (hw.2.1 e he)
    · split
      · next hk =>
        subst hk
        split
        · exact hw.2.2
        · next hv => exact (Memory.wf_cons rest k v m).mpr ⟨hv, hw.2⟩
      · next hge hne =>
        have hlt : a < k := Nat.lt_of_le_of_ne (Nat.le_of_not_lt hge) fun h => hne h.symm
        exact (Memory.wf_cons rest a w _).mpr ⟨hw.1, SMap.set_above (rest k) hw.2.1 hlt, ih hw.2.2⟩

/-! ## Numeric entries -/

/-- A write of another entry leaves a numeric entry. -/
theorem State.num_setNum_ne (s : State) (k k' v : Nat) (h : k' ≠ k) : (s.setNum k v).num k' = s.num k' := SMap.get_set_ne _ _ _ _ _ _ h
theorem State.num_count_ne (s : State) (k k' n : Nat) (h : k' ≠ k) : (s.count k n).num k' = s.num k' := SMap.get_set_ne _ _ _ _ _ _ h

/-- A numeric entry reads as written, in a dictionary whose keys rise. -/
theorem State.num_setNum (s : State) (k v : Nat) (h : s.dict.nums.Pairwise fun a b => a.1 < b.1) : (s.setNum k v).num k = v :=
  SMap.get_set_rising _ _ _ _ h
theorem State.num_count (s : State) (k n : Nat) (h : s.dict.nums.Pairwise fun a b => a.1 < b.1) :
    (s.count k n).num k = min (topOf k) (s.num k + n) := SMap.get_set_rising _ _ _ _ h
theorem State.setNum_rising (s : State) (k v : Nat) (h : s.dict.nums.Pairwise fun a b => a.1 < b.1) :
    (s.setNum k v).dict.nums.Pairwise fun a b => a.1 < b.1 := SMap.set_rising _ _ _ _ h

/-- What an unlisted word reads as does not depend on the words listed. -/
@[simp] theorem State.setWord_rest (s : State) (i : Nat) (w : Word36) : (s.setWord i w).rest = s.rest := rfl
@[simp] theorem State.setWord_wm (s : State) (i : Nat) (w : Word36) : (s.setWord i w).wm = SMap.set (s.rest i) i w s.wm := rfl

theorem State.setWord_wf (s : State) (i : Nat) (w : Word36) (h : Memory.wf s.rest s.wm = true) :
    Memory.wf (s.setWord i w).rest (s.setWord i w).wm = true := Memory.wf_set s.rest i w s.wm h

theorem State.scrubWords_wf (s : State) (p : Nat → Bool) (h : Memory.wf s.rest s.wm = true) :
    Memory.wf (s.scrubWords p).rest (s.scrubWords p).wm = true := by
  rw [Memory.wf_iff] at h ⊢
  exact ⟨h.1.sublist List.filter_sublist, fun e he => h.2 e (List.mem_filter.mp he).1⟩

theorem State.wmStore_wf (s : State) (c a : Nat) (bs : Bytes) (h : Memory.wf s.rest s.wm = true) :
    Memory.wf (s.wmStore c a bs).rest (s.wmStore c a bs).wm = true := by
  simp only [State.wmStore]
  generalize bs.zipIdx = l
  induction l generalizing s with
  | nil => exact h
  | cons b l ih => exact ih _ (State.setWord_wf _ _ _ h)

/-- The words of a run, numbered from `a`, that differ from what they read as unlisted. -/
theorem State.runOf_mem (s : State) (a : Nat) (ws : List Word36) (e : Nat × Word36)
    (h : e ∈ (ws.zipIdx a).filterMap fun x => if x.1 = s.rest x.2 then none else some (x.2, x.1)) :
    a ≤ e.1 ∧ e.1 < a + ws.length ∧ e.2 ≠ s.rest e.1 := by
  obtain ⟨x, hx, he⟩ := List.mem_filterMap.mp h
  have hb := List.mem_zipIdx hx
  split at he
  · cases he
  · next hne => cases he; exact ⟨hb.1, hb.2.1, hne⟩

theorem State.runOf_rising (s : State) (a : Nat) (ws : List Word36) :
    ((ws.zipIdx a).filterMap fun x => if x.1 = s.rest x.2 then none else some (x.2, x.1)).Pairwise fun x y => x.1 < y.1 := by
  induction ws generalizing a with
  | nil => exact List.Pairwise.nil
  | cons w ws ih =>
    rw [List.zipIdx_cons, List.filterMap_cons]
    split
    · exact ih (a + 1)
    · next b hb =>
      refine List.pairwise_cons.mpr ⟨?_, ih (a + 1)⟩
      intro e he
      have := (State.runOf_mem s (a + 1) ws e he).1
      split at hb
      · cases hb
      · cases hb; exact this

theorem State.setWords_wf (s : State) (a : Nat) (ws : List Word36) (h : Memory.wf s.rest s.wm = true) :
    Memory.wf (s.setWords a ws).rest (s.setWords a ws).wm = true := by
  have hr : (s.setWords a ws).rest = s.rest := rfl
  rw [hr]
  rw [Memory.wf_iff] at h ⊢
  simp only [State.setWords]
  refine ⟨?_, ?_⟩
  · rw [List.pairwise_append, List.pairwise_append]
    refine ⟨⟨h.1.sublist List.filter_sublist, State.runOf_rising s a ws, ?_⟩, h.1.sublist List.filter_sublist, ?_⟩
    · intro x hx y hy
      have h1 := (List.mem_filter.mp hx).2
      have h2 := (State.runOf_mem s a ws y hy).1
      simp only [decide_eq_true_eq] at h1
      omega
    · intro x hx y hy
      have h2 := (List.mem_filter.mp hy).2
      simp only [decide_eq_true_eq] at h2
      rcases List.mem_append.mp hx with hx | hx
      · have h1 := (List.mem_filter.mp hx).2
        simp only [decide_eq_true_eq] at h1
        omega
      · have h1 := (State.runOf_mem s a ws x hx).2.1
        omega
  · intro e he
    rcases List.mem_append.mp he with he | he
    · rcases List.mem_append.mp he with he | he
      · exact h.2 e (List.mem_filter.mp he).1
      · exact (State.runOf_mem s a ws e he).2.2
    · exact h.2 e (List.mem_filter.mp he).1

theorem State.reset_wf : Memory.wf State.reset.rest State.reset.wm = true := rfl

end Machine
end Sys2Proof
end

