-- ==== Sys2Proof/WellFormed.lean ====
section
/-! DEFINITION. When a command is well formed: each number names a thing that the unit has, and each byte string fits its field. -/

namespace Sys2Proof

/-- The fields of a message header in their ranges (Table 13.3): addresses 12 bits, id 32, fragment numbers 4, tick 32. -/
def MsgHdr.wf (h : MsgHdr) : Bool :=
  decide (h.src < 4096) && decide (h.dst < 4096) && decide (h.id < 4294967296) && decide (h.frag < 16) &&
  decide (h.last < 16) && decide (h.insTick < 4294967296)

/-- The fields of a dictionary request in their ranges (Table 13.6). -/
def DictReq.wf (r : DictReq) : Bool :=
  r.hdr.wf && decide (r.reqId < 4294967296) && decide (r.role < 256) && decide (r.index < 65536) && decide (r.sub < 256) &&
  decide (r.proof.length = 32) && decide (r.value.length ≤ 956)

/-- Every number of a command names a thing that the unit has; every byte string fits its field. -/
def Instr.wf : Instr → Bool
  | .tick => true
  | .housekeepingWindow => true
  | .periodSwitch => true
  | .sqTailWrite ring _ => decide (ring < 4096)
  | .cqHeadWrite ring _ => decide (ring < 4096)
  | .abortIndexWrite ring _ => decide (ring < 4096)
  | .ringEnable ring => decide (ring < 4096)
  | .ringDisable ring => decide (ring < 4096)
  | .barRegisterWrite bar _ _ _ => decide (bar < 6)
  | .slcReset slice => decide (slice < 1024)
  | .sliceResetDone slice => decide (slice < 1024)
  | .outGo => true
  | .inFullClear => true
  | .msixUnmask vector => decide (vector < 2048)
  | .dmaReadComplete _ _ _ => true
  | .readTimeout _ _ => true
  | .hostLinkRetrain _ _ => true
  | .ecdsaSign _ => true
  | .ecdsaVerify _ => true
  | .eddsaSign _ => true
  | .eddsaVerify _ => true
  | .ecKeygen _ => true
  | .ecdhDerive _ => true
  | .rsaSignPss _ => true
  | .rsaSignPkcs1 _ => true
  | .rsaVerify _ => true
  | .rsaDecryptOaep _ => true
  | .rsaEncryptOaep _ => true
  | .rsaKeygen _ => true
  | .mlkemKeygen _ => true
  | .mlkemEncaps _ => true
  | .mlkemDecaps _ => true
  | .mldsaKeygen _ => true
  | .mldsaSign _ => true
  | .mldsaVerify _ => true
  | .pairedSign _ => true
  | .pairedVerify _ => true
  | .aeadSeal _ => true
  | .aeadOpen _ => true
  | .cipherEncrypt _ => true
  | .cipherDecrypt _ => true
  | .macGenerate _ => true
  | .macVerify _ => true
  | .hash _ => true
  | .kdfDerive _ => true
  | .fpeEncrypt _ => true
  | .fpeDecrypt _ => true
  | .pinTranslate _ => true
  | .pinVerify _ => true
  | .dukptDerive _ => true
  | .keyblockImport _ => true
  | .keyblockExport _ => true
  | .lockerCodeIssue _ => true
  | .lockerCodeCheck _ => true
  | .lockerTokenSign _ => true
  | .keyGenerate _ => true
  | .keyImportWrapped _ => true
  | .keyExportWrapped _ => true
  | .keyPin _ => true
  | .keyUnpin _ => true
  | .keyDestroy _ => true
  | .keyQuery _ => true
  | .attestKey _ => true
  | .recordSeal _ => true
  | .recordOpen _ => true
  | .counterIncrement _ => true
  | .objectRepair _ => true
  | .randomBytes _ => true
  | .replicationTimeout _ => true
  | .entropyWaitExpiry _ => true
  | .laneFault lane _ => decide (lane < 24)
  | .comingSpareSettle lane => decide (lane < 24)
  | .spareTestDue => true
  | .spareTestEnd lane _ => decide (lane < 24)
  | .pkeUnfence _ _ => true
  | .unfenceTestEnd lane _ => decide (lane < 24)
  | .pkeSpareCount _ _ => true
  | .sharedUnitFault cluster => decide (cluster < 6)
  | .pkeLatUnfence _ _ => true
  | .latUnfenceTestEnd cluster _ => decide (cluster < 6)
  | .symLaneFault lane _ => decide (lane < 8)
  | .symUnfence _ _ => true
  | .symUnfenceTestEnd lane _ => decide (lane < 8)
  | .registerPageWipe slice => decide (slice < 1024)
  | .wmUncorrectable word => decide (word < 2097152)
  | .keyCacheUncorrectable _ => true
  | .heartTableUncorrectable heart => decide (heart < 16384)
  | .keeperSramUncorrectable => true
  | .fifoUncorrectable fifo _ => decide (fifo < 96)
  | .colourFault core _ _ => decide (core < 8)
  | .gatewayCall core weir _ _ _ => decide (core < 8) && decide (weir < 256)
  | .gatewayFaultLimit => true
  | .keeperCallServe result => decide (result.length ≤ 512)
  | .weirInvalidate weir => decide (weir < 64)
  | .guardDisable => true
  | .guardEnable => true
  | .guardHoldLimit => true
  | .debugMasterAccess _ word _ _ => decide (word < 2097152)
  | .keeperHandoverRequest block => decide (block < 7)
  | .keeperHandoverRelease block => decide (block < 7)
  | .normalHandoverRequest block => decide (block < 7)
  | .swdtRefresh _ => true
  | .swdtExpiry => true
  | .nwdtCheckin core => decide (core < 8)
  | .nwdtExpiry => true
  | .vaultReadComplete _ port _ => decide (port < 2)
  | .commitGroupOpen => true
  | .commitPhase2 => true
  | .driveLinkUp port d => decide (port < 2) && decide (1 ≤ d.gen ∧ d.gen ≤ 4) && [1, 2, 4].contains d.width &&
      [d.header0, d.header1, d.node0, d.node1].all fun b => decide (b.length = 4096)
  | .driveLinkDown port => decide (port < 2)
  | .vaultCmdError port _ => decide (port < 2)
  | .vaultCmdTimeout port => decide (port < 2)
  | .smartPoll port _ => decide (port < 2)
  | .resilverDone port => decide (port < 2)
  | .sweepPassEnd => true
  | .scrubPassEnd => true
  | .vltFormat _ _ => true
  | .formatDone => true
  | .vltRootSelect _ port => decide (port < 256)
  | .vltPortOfflineSet _ port => decide (port < 2)
  | .vltPortOfflineClear _ port => decide (port < 2)
  | .wspBlock source samples => decide (source < 2) && decide (samples.length = 1024)
  | .wspDeclaredFailed source => decide (source < 2)
  | .wspSettled source => decide (source < 2)
  | .reseedDue _ => true
  | .drbgRequestLimit => true
  | .chainTickMarker _ => true
  | .chainUp => true
  | .portBroken _ => true
  | .loopbackRestore _ => true
  | .holdoverEntry => true
  | .rollCall hdr _ _ => hdr.wf
  | .fillCall hdr _ _ => hdr.wf
  | .hello hdr => hdr.wf
  | .dictRead req => req.wf
  | .dictWrite req => req.wf
  | .dictReply hdr _ => hdr.wf
  | .challengeRequest hdr => hdr.wf
  | .approval hdr _ => hdr.wf
  | .quorumWriteExpiry challenge => decide (challenge.length = 16)
  | .replicate hdr _ => hdr.wf
  | .replAck hdr _ _ => hdr.wf
  | .replCommit hdr _ _ => hdr.wf
  | .replRollback hdr _ _ => hdr.wf
  | .replQueryDue _ _ => true
  | .replQuery hdr _ _ => hdr.wf
  | .replState hdr _ _ => hdr.wf
  | .replDecision _ _ => true
  | .memberUnreachable member => decide (member < 4095)
  | .fragmentTimeout source _ => decide (source < 4095)
  | .migConsume hdr tag _ => hdr.wf && decide (tag.length = 8)
  | .migReply hdr tag _ => hdr.wf && decide (tag.length = 8)
  | .migrationTimeout slice => decide (slice < 1024)
  | .attestOffer hdr _ => hdr.wf
  | .attestAnswer hdr _ => hdr.wf
  | .domainKey hdr _ => hdr.wf
  | .heartTransfer hdr heart _ => hdr.wf && decide (heart < 16384)
  | .objectTransfer hdr _ _ _ _ => hdr.wf
  | .transferEnd hdr _ _ _ => hdr.wf
  | .joinTimeout => true
  | .seiPeriodNext _ _ => true
  | .seiSwitchTick _ _ => true
  | .slcPasid _ slice _ => decide (slice < 1024)
  | .slcShareWrite _ slice _ _ => decide (slice < 1024)
  | .freeze _ slice => decide (slice < 1024)
  | .freezeNow _ slice => decide (slice < 1024)
  | .freezeDrained slice => decide (slice < 1024)
  | .thaw _ slice => decide (slice < 1024)
  | .save _ slice => decide (slice < 1024)
  | .restore _ slice => decide (slice < 1024)
  | .rngSlice _ ring _ => decide (ring < 4096)
  | .hstMsixMap _ source _ => decide (source < 4224)
  | .hrtOwner _ heart _ => decide (heart < 16384)
  | .hrtInvalidate _ heart _ => decide (heart < 16384)
  | .hrtRetire _ heart _ => decide (heart < 16384)
  | .chnK _ _ => true
  | .chnDomainFound _ _ => true
  | .chnDomainJoin _ _ => true
  | .chnDomainConfirm _ value => decide (value.length = 8)
  | .chnMemberRemove _ _ => true
  | .ofcAlgorithm _ officer _ _ => decide (officer < 16)
  | .tamperAlarm source => decide (source < 24)
  | .tamperResponse => true
  | .batteryRemoval => true
  | .tmpClear _ _ => true
  | .tmpLockClear _ _ => true
  | .lcsTransition _ _ => true
  | .transitionStep => true
  | .transitionLapse => true
  | .lcsChallengeDraw _ _ => true
  | .lcsChallengeExpiry => true
  | .lcsCertApply _ _ => true
  | .certCheckEnd => true
  | .lcsGrantEnd _ _ => true
  | .grantExpiry => true
  | .lcsTrimSelect _ _ => true
  | .chkStart _ unit => decide (unit < 4)
  | .chkContinue _ unit => decide (unit < 4)
  | .chkSuspend _ unit => decide (unit < 4)
  | .chkScanEnd unit => decide (unit < 4)
  | .silClearCircular _ _ => true
  | .rstResetRequest _ _ => true
  | .standbyEnter _ => true
  | .standbyExit _ => true
  | .gateRequest _ block => decide (block < 7)
  | .ungateRequest _ block => decide (block < 7)
  | .laneGateDrained block => decide (block < 7)
  | .idleEntry => true
  | .powerOn _ _ => true
  | .brownOut _ => true
  | .resetNLow => true
  | .resetNLong => true
  | .perstNAssert => true
  | .pcieHotReset => true
  | .pcieLinkDown => true
  | .functionLevelReset => true
  | .coldStart _ _ => true
  | .warmStart _ => true
  | .functionStart => true
  | .tamperSample _ _ => true
  | .pasidEnable _ => true
  | .debugHalt _ => true
  | .debugResume _ => true
  | .rawSampleTapOpen source => decide (source < 2)
  | .challengeExpiry challenge => decide (challenge.length = 16)

end Sys2Proof
end

