-- ==== Sys2Proof/Laws/PerInstr.lean ====
section
/-! SUPPORT. The family Engine: a command that performs an operation names an opcode of Table 4.8 and is well formed whatever its job. -/

namespace Sys2Proof.Laws

/-- What the family says of one command. -/
def Engine.Statement (i : Instr) : Prop :=
  ∀ op job, Machine.engineRow i = some (op, job) → Machine.opKnown op = true ∧ i.wf = true

theorem Engine.tick : Engine.Statement .tick := fun _ _ h => nomatch h
theorem Engine.housekeepingWindow : Engine.Statement .housekeepingWindow := fun _ _ h => nomatch h
theorem Engine.periodSwitch : Engine.Statement .periodSwitch := fun _ _ h => nomatch h
theorem Engine.sqTailWrite : ∀ x0 x1, Engine.Statement (.sqTailWrite x0 x1) := fun _ _ _ _ h => nomatch h
theorem Engine.cqHeadWrite : ∀ x0 x1, Engine.Statement (.cqHeadWrite x0 x1) := fun _ _ _ _ h => nomatch h
theorem Engine.abortIndexWrite : ∀ x0 x1, Engine.Statement (.abortIndexWrite x0 x1) := fun _ _ _ _ h => nomatch h
theorem Engine.ringEnable : ∀ x0, Engine.Statement (.ringEnable x0) := fun _ _ _ h => nomatch h
theorem Engine.ringDisable : ∀ x0, Engine.Statement (.ringDisable x0) := fun _ _ _ h => nomatch h
theorem Engine.barRegisterWrite : ∀ x0 x1 x2 x3, Engine.Statement (.barRegisterWrite x0 x1 x2 x3) := fun _ _ _ _ _ _ h => nomatch h
theorem Engine.slcReset : ∀ x0, Engine.Statement (.slcReset x0) := fun _ _ _ h => nomatch h
theorem Engine.sliceResetDone : ∀ x0, Engine.Statement (.sliceResetDone x0) := fun _ _ _ h => nomatch h
theorem Engine.outGo : Engine.Statement .outGo := fun _ _ h => nomatch h
theorem Engine.inFullClear : Engine.Statement .inFullClear := fun _ _ h => nomatch h
theorem Engine.msixUnmask : ∀ x0, Engine.Statement (.msixUnmask x0) := fun _ _ _ h => nomatch h
theorem Engine.dmaReadComplete : ∀ x0 x1 x2, Engine.Statement (.dmaReadComplete x0 x1 x2) := fun _ _ _ _ _ h => nomatch h
theorem Engine.readTimeout : ∀ x0 x1, Engine.Statement (.readTimeout x0 x1) := fun _ _ _ _ h => nomatch h
theorem Engine.hostLinkRetrain : ∀ x0 x1, Engine.Statement (.hostLinkRetrain x0 x1) := fun _ _ _ _ h => nomatch h
theorem Engine.ecdsaSign (x0 : Nat) : Engine.Statement (.ecdsaSign x0) := by
  intro op job h
  cases h
  exact ⟨by decide, rfl⟩
theorem Engine.ecdsaVerify (x0 : Nat) : Engine.Statement (.ecdsaVerify x0) := by
  intro op job h
  cases h
  exact ⟨by decide, rfl⟩
theorem Engine.eddsaSign (x0 : Nat) : Engine.Statement (.eddsaSign x0) := by
  intro op job h
  cases h
  exact ⟨by decide, rfl⟩
theorem Engine.eddsaVerify (x0 : Nat) : Engine.Statement (.eddsaVerify x0) := by
  intro op job h
  cases h
  exact ⟨by decide, rfl⟩
theorem Engine.ecKeygen (x0 : Nat) : Engine.Statement (.ecKeygen x0) := by
  intro op job h
  cases h
  exact ⟨by decide, rfl⟩
theorem Engine.ecdhDerive (x0 : Nat) : Engine.Statement (.ecdhDerive x0) := by
  intro op job h
  cases h
  exact ⟨by decide, rfl⟩
theorem Engine.rsaSignPss (x0 : Nat) : Engine.Statement (.rsaSignPss x0) := by
  intro op job h
  cases h
  exact ⟨by decide, rfl⟩
theorem Engine.rsaSignPkcs1 (x0 : Nat) : Engine.Statement (.rsaSignPkcs1 x0) := by
  intro op job h
  cases h
  exact ⟨by decide, rfl⟩
theorem Engine.rsaVerify (x0 : Nat) : Engine.Statement (.rsaVerify x0) := by
  intro op job h
  cases h
  exact ⟨by decide, rfl⟩
theorem Engine.rsaDecryptOaep (x0 : Nat) : Engine.Statement (.rsaDecryptOaep x0) := by
  intro op job h
  cases h
  exact ⟨by decide, rfl⟩
theorem Engine.rsaEncryptOaep (x0 : Nat) : Engine.Statement (.rsaEncryptOaep x0) := by
  intro op job h
  cases h
  exact ⟨by decide, rfl⟩
theorem Engine.rsaKeygen (x0 : Nat) : Engine.Statement (.rsaKeygen x0) := by
  intro op job h
  cases h
  exact ⟨by decide, rfl⟩
theorem Engine.mlkemKeygen (x0 : Nat) : Engine.Statement (.mlkemKeygen x0) := by
  intro op job h
  cases h
  exact ⟨by decide, rfl⟩
theorem Engine.mlkemEncaps (x0 : Nat) : Engine.Statement (.mlkemEncaps x0) := by
  intro op job h
  cases h
  exact ⟨by decide, rfl⟩
theorem Engine.mlkemDecaps (x0 : Nat) : Engine.Statement (.mlkemDecaps x0) := by
  intro op job h
  cases h
  exact ⟨by decide, rfl⟩
theorem Engine.mldsaKeygen (x0 : Nat) : Engine.Statement (.mldsaKeygen x0) := by
  intro op job h
  cases h
  exact ⟨by decide, rfl⟩
theorem Engine.mldsaSign (x0 : Nat) : Engine.Statement (.mldsaSign x0) := by
  intro op job h
  cases h
  exact ⟨by decide, rfl⟩
theorem Engine.mldsaVerify (x0 : Nat) : Engine.Statement (.mldsaVerify x0) := by
  intro op job h
  cases h
  exact ⟨by decide, rfl⟩
theorem Engine.pairedSign (x0 : Nat) : Engine.Statement (.pairedSign x0) := by
  intro op job h
  cases h
  exact ⟨by decide, rfl⟩
theorem Engine.pairedVerify (x0 : Nat) : Engine.Statement (.pairedVerify x0) := by
  intro op job h
  cases h
  exact ⟨by decide, rfl⟩
theorem Engine.aeadSeal (x0 : Nat) : Engine.Statement (.aeadSeal x0) := by
  intro op job h
  cases h
  exact ⟨by decide, rfl⟩
theorem Engine.aeadOpen (x0 : Nat) : Engine.Statement (.aeadOpen x0) := by
  intro op job h
  cases h
  exact ⟨by decide, rfl⟩
theorem Engine.cipherEncrypt (x0 : Nat) : Engine.Statement (.cipherEncrypt x0) := by
  intro op job h
  cases h
  exact ⟨by decide, rfl⟩
theorem Engine.cipherDecrypt (x0 : Nat) : Engine.Statement (.cipherDecrypt x0) := by
  intro op job h
  cases h
  exact ⟨by decide, rfl⟩
theorem Engine.macGenerate (x0 : Nat) : Engine.Statement (.macGenerate x0) := by
  intro op job h
  cases h
  exact ⟨by decide, rfl⟩
theorem Engine.macVerify (x0 : Nat) : Engine.Statement (.macVerify x0) := by
  intro op job h
  cases h
  exact ⟨by decide, rfl⟩
theorem Engine.hash (x0 : Nat) : Engine.Statement (.hash x0) := by
  intro op job h
  cases h
  exact ⟨by decide, rfl⟩
theorem Engine.kdfDerive (x0 : Nat) : Engine.Statement (.kdfDerive x0) := by
  intro op job h
  cases h
  exact ⟨by decide, rfl⟩
theorem Engine.fpeEncrypt (x0 : Nat) : Engine.Statement (.fpeEncrypt x0) := by
  intro op job h
  cases h
  exact ⟨by decide, rfl⟩
theorem Engine.fpeDecrypt (x0 : Nat) : Engine.Statement (.fpeDecrypt x0) := by
  intro op job h
  cases h
  exact ⟨by decide, rfl⟩
theorem Engine.pinTranslate (x0 : Nat) : Engine.Statement (.pinTranslate x0) := by
  intro op job h
  cases h
  exact ⟨by decide, rfl⟩
theorem Engine.pinVerify (x0 : Nat) : Engine.Statement (.pinVerify x0) := by
  intro op job h
  cases h
  exact ⟨by decide, rfl⟩
theorem Engine.dukptDerive (x0 : Nat) : Engine.Statement (.dukptDerive x0) := by
  intro op job h
  cases h
  exact ⟨by decide, rfl⟩
theorem Engine.keyblockImport (x0 : Nat) : Engine.Statement (.keyblockImport x0) := by
  intro op job h
  cases h
  exact ⟨by decide, rfl⟩
theorem Engine.keyblockExport (x0 : Nat) : Engine.Statement (.keyblockExport x0) := by
  intro op job h
  cases h
  exact ⟨by decide, rfl⟩
theorem Engine.lockerCodeIssue (x0 : Nat) : Engine.Statement (.lockerCodeIssue x0) := by
  intro op job h
  cases h
  exact ⟨by decide, rfl⟩
theorem Engine.lockerCodeCheck (x0 : Nat) : Engine.Statement (.lockerCodeCheck x0) := by
  intro op job h
  cases h
  exact ⟨by decide, rfl⟩
theorem Engine.lockerTokenSign (x0 : Nat) : Engine.Statement (.lockerTokenSign x0) := by
  intro op job h
  cases h
  exact ⟨by decide, rfl⟩
theorem Engine.keyGenerate (x0 : Nat) : Engine.Statement (.keyGenerate x0) := by
  intro op job h
  cases h
  exact ⟨by decide, rfl⟩
theorem Engine.keyImportWrapped (x0 : Nat) : Engine.Statement (.keyImportWrapped x0) := by
  intro op job h
  cases h
  exact ⟨by decide, rfl⟩
theorem Engine.keyExportWrapped (x0 : Nat) : Engine.Statement (.keyExportWrapped x0) := by
  intro op job h
  cases h
  exact ⟨by decide, rfl⟩
theorem Engine.keyPin (x0 : Nat) : Engine.Statement (.keyPin x0) := by
  intro op job h
  cases h
  exact ⟨by decide, rfl⟩
theorem Engine.keyUnpin (x0 : Nat) : Engine.Statement (.keyUnpin x0) := by
  intro op job h
  cases h
  exact ⟨by decide, rfl⟩
theorem Engine.keyDestroy (x0 : Nat) : Engine.Statement (.keyDestroy x0) := by
  intro op job h
  cases h
  exact ⟨by decide, rfl⟩
theorem Engine.keyQuery (x0 : Nat) : Engine.Statement (.keyQuery x0) := by
  intro op job h
  cases h
  exact ⟨by decide, rfl⟩
theorem Engine.attestKey (x0 : Nat) : Engine.Statement (.attestKey x0) := by
  intro op job h
  cases h
  exact ⟨by decide, rfl⟩
theorem Engine.recordSeal (x0 : Nat) : Engine.Statement (.recordSeal x0) := by
  intro op job h
  cases h
  exact ⟨by decide, rfl⟩
theorem Engine.recordOpen (x0 : Nat) : Engine.Statement (.recordOpen x0) := by
  intro op job h
  cases h
  exact ⟨by decide, rfl⟩
theorem Engine.counterIncrement (x0 : Nat) : Engine.Statement (.counterIncrement x0) := by
  intro op job h
  cases h
  exact ⟨by decide, rfl⟩
theorem Engine.objectRepair (x0 : Nat) : Engine.Statement (.objectRepair x0) := by
  intro op job h
  cases h
  exact ⟨by decide, rfl⟩
theorem Engine.randomBytes (x0 : Nat) : Engine.Statement (.randomBytes x0) := by
  intro op job h
  cases h
  exact ⟨by decide, rfl⟩
theorem Engine.replicationTimeout : ∀ x0, Engine.Statement (.replicationTimeout x0) := fun _ _ _ h => nomatch h
theorem Engine.entropyWaitExpiry : ∀ x0, Engine.Statement (.entropyWaitExpiry x0) := fun _ _ _ h => nomatch h
theorem Engine.laneFault : ∀ x0 x1, Engine.Statement (.laneFault x0 x1) := fun _ _ _ _ h => nomatch h
theorem Engine.comingSpareSettle : ∀ x0, Engine.Statement (.comingSpareSettle x0) := fun _ _ _ h => nomatch h
theorem Engine.spareTestDue : Engine.Statement .spareTestDue := fun _ _ h => nomatch h
theorem Engine.spareTestEnd : ∀ x0 x1, Engine.Statement (.spareTestEnd x0 x1) := fun _ _ _ _ h => nomatch h
theorem Engine.pkeUnfence : ∀ x0 x1, Engine.Statement (.pkeUnfence x0 x1) := fun _ _ _ _ h => nomatch h
theorem Engine.unfenceTestEnd : ∀ x0 x1, Engine.Statement (.unfenceTestEnd x0 x1) := fun _ _ _ _ h => nomatch h
theorem Engine.pkeSpareCount : ∀ x0 x1, Engine.Statement (.pkeSpareCount x0 x1) := fun _ _ _ _ h => nomatch h
theorem Engine.sharedUnitFault : ∀ x0, Engine.Statement (.sharedUnitFault x0) := fun _ _ _ h => nomatch h
theorem Engine.pkeLatUnfence : ∀ x0 x1, Engine.Statement (.pkeLatUnfence x0 x1) := fun _ _ _ _ h => nomatch h
theorem Engine.latUnfenceTestEnd : ∀ x0 x1, Engine.Statement (.latUnfenceTestEnd x0 x1) := fun _ _ _ _ h => nomatch h
theorem Engine.symLaneFault : ∀ x0 x1, Engine.Statement (.symLaneFault x0 x1) := fun _ _ _ _ h => nomatch h
theorem Engine.symUnfence : ∀ x0 x1, Engine.Statement (.symUnfence x0 x1) := fun _ _ _ _ h => nomatch h
theorem Engine.symUnfenceTestEnd : ∀ x0 x1, Engine.Statement (.symUnfenceTestEnd x0 x1) := fun _ _ _ _ h => nomatch h
theorem Engine.registerPageWipe : ∀ x0, Engine.Statement (.registerPageWipe x0) := fun _ _ _ h => nomatch h
theorem Engine.wmUncorrectable : ∀ x0, Engine.Statement (.wmUncorrectable x0) := fun _ _ _ h => nomatch h
theorem Engine.keyCacheUncorrectable : ∀ x0, Engine.Statement (.keyCacheUncorrectable x0) := fun _ _ _ h => nomatch h
theorem Engine.heartTableUncorrectable : ∀ x0, Engine.Statement (.heartTableUncorrectable x0) := fun _ _ _ h => nomatch h
theorem Engine.keeperSramUncorrectable : Engine.Statement .keeperSramUncorrectable := fun _ _ h => nomatch h
theorem Engine.fifoUncorrectable : ∀ x0 x1, Engine.Statement (.fifoUncorrectable x0 x1) := fun _ _ _ _ h => nomatch h
theorem Engine.colourFault : ∀ x0 x1 x2, Engine.Statement (.colourFault x0 x1 x2) := fun _ _ _ _ _ h => nomatch h
theorem Engine.gatewayCall : ∀ x0 x1 x2 x3 x4, Engine.Statement (.gatewayCall x0 x1 x2 x3 x4) := fun _ _ _ _ _ _ _ h => nomatch h
theorem Engine.gatewayFaultLimit : Engine.Statement .gatewayFaultLimit := fun _ _ h => nomatch h
theorem Engine.keeperCallServe : ∀ x0, Engine.Statement (.keeperCallServe x0) := fun _ _ _ h => nomatch h
theorem Engine.weirInvalidate : ∀ x0, Engine.Statement (.weirInvalidate x0) := fun _ _ _ h => nomatch h
theorem Engine.guardDisable : Engine.Statement .guardDisable := fun _ _ h => nomatch h
theorem Engine.guardEnable : Engine.Statement .guardEnable := fun _ _ h => nomatch h
theorem Engine.guardHoldLimit : Engine.Statement .guardHoldLimit := fun _ _ h => nomatch h
theorem Engine.debugMasterAccess : ∀ x0 x1 x2 x3, Engine.Statement (.debugMasterAccess x0 x1 x2 x3) := fun _ _ _ _ _ _ h => nomatch h
theorem Engine.keeperHandoverRequest : ∀ x0, Engine.Statement (.keeperHandoverRequest x0) := fun _ _ _ h => nomatch h
theorem Engine.keeperHandoverRelease : ∀ x0, Engine.Statement (.keeperHandoverRelease x0) := fun _ _ _ h => nomatch h
theorem Engine.normalHandoverRequest : ∀ x0, Engine.Statement (.normalHandoverRequest x0) := fun _ _ _ h => nomatch h
theorem Engine.swdtRefresh : ∀ x0, Engine.Statement (.swdtRefresh x0) := fun _ _ _ h => nomatch h
theorem Engine.swdtExpiry : Engine.Statement .swdtExpiry := fun _ _ h => nomatch h
theorem Engine.nwdtCheckin : ∀ x0, Engine.Statement (.nwdtCheckin x0) := fun _ _ _ h => nomatch h
theorem Engine.nwdtExpiry : Engine.Statement .nwdtExpiry := fun _ _ h => nomatch h
theorem Engine.vaultReadComplete : ∀ x0 x1 x2, Engine.Statement (.vaultReadComplete x0 x1 x2) := fun _ _ _ _ _ h => nomatch h
theorem Engine.commitGroupOpen : Engine.Statement .commitGroupOpen := fun _ _ h => nomatch h
theorem Engine.commitPhase2 : Engine.Statement .commitPhase2 := fun _ _ h => nomatch h
theorem Engine.driveLinkUp : ∀ x0 x1, Engine.Statement (.driveLinkUp x0 x1) := fun _ _ _ _ h => nomatch h
theorem Engine.driveLinkDown : ∀ x0, Engine.Statement (.driveLinkDown x0) := fun _ _ _ h => nomatch h
theorem Engine.vaultCmdError : ∀ x0 x1, Engine.Statement (.vaultCmdError x0 x1) := fun _ _ _ _ h => nomatch h
theorem Engine.vaultCmdTimeout : ∀ x0, Engine.Statement (.vaultCmdTimeout x0) := fun _ _ _ h => nomatch h
theorem Engine.smartPoll : ∀ x0 x1, Engine.Statement (.smartPoll x0 x1) := fun _ _ _ _ h => nomatch h
theorem Engine.resilverDone : ∀ x0, Engine.Statement (.resilverDone x0) := fun _ _ _ h => nomatch h
theorem Engine.sweepPassEnd : Engine.Statement .sweepPassEnd := fun _ _ h => nomatch h
theorem Engine.scrubPassEnd : Engine.Statement .scrubPassEnd := fun _ _ h => nomatch h
theorem Engine.vltFormat : ∀ x0 x1, Engine.Statement (.vltFormat x0 x1) := fun _ _ _ _ h => nomatch h
theorem Engine.formatDone : Engine.Statement .formatDone := fun _ _ h => nomatch h
theorem Engine.vltRootSelect : ∀ x0 x1, Engine.Statement (.vltRootSelect x0 x1) := fun _ _ _ _ h => nomatch h
theorem Engine.vltPortOfflineSet : ∀ x0 x1, Engine.Statement (.vltPortOfflineSet x0 x1) := fun _ _ _ _ h => nomatch h
theorem Engine.vltPortOfflineClear : ∀ x0 x1, Engine.Statement (.vltPortOfflineClear x0 x1) := fun _ _ _ _ h => nomatch h
theorem Engine.wspBlock : ∀ x0 x1, Engine.Statement (.wspBlock x0 x1) := fun _ _ _ _ h => nomatch h
theorem Engine.wspDeclaredFailed : ∀ x0, Engine.Statement (.wspDeclaredFailed x0) := fun _ _ _ h => nomatch h
theorem Engine.wspSettled : ∀ x0, Engine.Statement (.wspSettled x0) := fun _ _ _ h => nomatch h
theorem Engine.reseedDue : ∀ x0, Engine.Statement (.reseedDue x0) := fun _ _ _ h => nomatch h
theorem Engine.drbgRequestLimit : Engine.Statement .drbgRequestLimit := fun _ _ h => nomatch h
theorem Engine.chainTickMarker : ∀ x0, Engine.Statement (.chainTickMarker x0) := fun _ _ _ h => nomatch h
theorem Engine.chainUp : Engine.Statement .chainUp := fun _ _ h => nomatch h
theorem Engine.portBroken : ∀ x0, Engine.Statement (.portBroken x0) := fun _ _ _ h => nomatch h
theorem Engine.loopbackRestore : ∀ x0, Engine.Statement (.loopbackRestore x0) := fun _ _ _ h => nomatch h
theorem Engine.holdoverEntry : Engine.Statement .holdoverEntry := fun _ _ h => nomatch h
theorem Engine.rollCall : ∀ x0 x1 x2, Engine.Statement (.rollCall x0 x1 x2) := fun _ _ _ _ _ h => nomatch h
theorem Engine.fillCall : ∀ x0 x1 x2, Engine.Statement (.fillCall x0 x1 x2) := fun _ _ _ _ _ h => nomatch h
theorem Engine.hello : ∀ x0, Engine.Statement (.hello x0) := fun _ _ _ h => nomatch h
theorem Engine.dictRead : ∀ x0, Engine.Statement (.dictRead x0) := fun _ _ _ h => nomatch h
theorem Engine.dictWrite : ∀ x0, Engine.Statement (.dictWrite x0) := fun _ _ _ h => nomatch h
theorem Engine.dictReply : ∀ x0 x1, Engine.Statement (.dictReply x0 x1) := fun _ _ _ _ h => nomatch h
theorem Engine.challengeRequest : ∀ x0, Engine.Statement (.challengeRequest x0) := fun _ _ _ h => nomatch h
theorem Engine.approval : ∀ x0 x1, Engine.Statement (.approval x0 x1) := fun _ _ _ _ h => nomatch h
theorem Engine.quorumWriteExpiry : ∀ x0, Engine.Statement (.quorumWriteExpiry x0) := fun _ _ _ h => nomatch h
theorem Engine.replicate : ∀ x0 x1, Engine.Statement (.replicate x0 x1) := fun _ _ _ _ h => nomatch h
theorem Engine.replAck : ∀ x0 x1 x2, Engine.Statement (.replAck x0 x1 x2) := fun _ _ _ _ _ h => nomatch h
theorem Engine.replCommit : ∀ x0 x1 x2, Engine.Statement (.replCommit x0 x1 x2) := fun _ _ _ _ _ h => nomatch h
theorem Engine.replRollback : ∀ x0 x1 x2, Engine.Statement (.replRollback x0 x1 x2) := fun _ _ _ _ _ h => nomatch h
theorem Engine.replQueryDue : ∀ x0 x1, Engine.Statement (.replQueryDue x0 x1) := fun _ _ _ _ h => nomatch h
theorem Engine.replQuery : ∀ x0 x1 x2, Engine.Statement (.replQuery x0 x1 x2) := fun _ _ _ _ _ h => nomatch h
theorem Engine.replState : ∀ x0 x1 x2, Engine.Statement (.replState x0 x1 x2) := fun _ _ _ _ _ h => nomatch h
theorem Engine.replDecision : ∀ x0 x1, Engine.Statement (.replDecision x0 x1) := fun _ _ _ _ h => nomatch h
theorem Engine.memberUnreachable : ∀ x0, Engine.Statement (.memberUnreachable x0) := fun _ _ _ h => nomatch h
theorem Engine.fragmentTimeout : ∀ x0 x1, Engine.Statement (.fragmentTimeout x0 x1) := fun _ _ _ _ h => nomatch h
theorem Engine.migConsume : ∀ x0 x1 x2, Engine.Statement (.migConsume x0 x1 x2) := fun _ _ _ _ _ h => nomatch h
theorem Engine.migReply : ∀ x0 x1 x2, Engine.Statement (.migReply x0 x1 x2) := fun _ _ _ _ _ h => nomatch h
theorem Engine.migrationTimeout : ∀ x0, Engine.Statement (.migrationTimeout x0) := fun _ _ _ h => nomatch h
theorem Engine.attestOffer : ∀ x0 x1, Engine.Statement (.attestOffer x0 x1) := fun _ _ _ _ h => nomatch h
theorem Engine.attestAnswer : ∀ x0 x1, Engine.Statement (.attestAnswer x0 x1) := fun _ _ _ _ h => nomatch h
theorem Engine.domainKey : ∀ x0 x1, Engine.Statement (.domainKey x0 x1) := fun _ _ _ _ h => nomatch h
theorem Engine.heartTransfer : ∀ x0 x1 x2, Engine.Statement (.heartTransfer x0 x1 x2) := fun _ _ _ _ _ h => nomatch h
theorem Engine.objectTransfer : ∀ x0 x1 x2 x3 x4, Engine.Statement (.objectTransfer x0 x1 x2 x3 x4) := fun _ _ _ _ _ _ _ h => nomatch h
theorem Engine.transferEnd : ∀ x0 x1 x2 x3, Engine.Statement (.transferEnd x0 x1 x2 x3) := fun _ _ _ _ _ _ h => nomatch h
theorem Engine.joinTimeout : Engine.Statement .joinTimeout := fun _ _ h => nomatch h
theorem Engine.seiPeriodNext : ∀ x0 x1, Engine.Statement (.seiPeriodNext x0 x1) := fun _ _ _ _ h => nomatch h
theorem Engine.seiSwitchTick : ∀ x0 x1, Engine.Statement (.seiSwitchTick x0 x1) := fun _ _ _ _ h => nomatch h
theorem Engine.slcPasid : ∀ x0 x1 x2, Engine.Statement (.slcPasid x0 x1 x2) := fun _ _ _ _ _ h => nomatch h
theorem Engine.slcShareWrite : ∀ x0 x1 x2 x3, Engine.Statement (.slcShareWrite x0 x1 x2 x3) := fun _ _ _ _ _ _ h => nomatch h
theorem Engine.freeze : ∀ x0 x1, Engine.Statement (.freeze x0 x1) := fun _ _ _ _ h => nomatch h
theorem Engine.freezeNow : ∀ x0 x1, Engine.Statement (.freezeNow x0 x1) := fun _ _ _ _ h => nomatch h
theorem Engine.freezeDrained : ∀ x0, Engine.Statement (.freezeDrained x0) := fun _ _ _ h => nomatch h
theorem Engine.thaw : ∀ x0 x1, Engine.Statement (.thaw x0 x1) := fun _ _ _ _ h => nomatch h
theorem Engine.save : ∀ x0 x1, Engine.Statement (.save x0 x1) := fun _ _ _ _ h => nomatch h
theorem Engine.restore : ∀ x0 x1, Engine.Statement (.restore x0 x1) := fun _ _ _ _ h => nomatch h
theorem Engine.rngSlice : ∀ x0 x1 x2, Engine.Statement (.rngSlice x0 x1 x2) := fun _ _ _ _ _ h => nomatch h
theorem Engine.hstMsixMap : ∀ x0 x1 x2, Engine.Statement (.hstMsixMap x0 x1 x2) := fun _ _ _ _ _ h => nomatch h
theorem Engine.hrtOwner : ∀ x0 x1 x2, Engine.Statement (.hrtOwner x0 x1 x2) := fun _ _ _ _ _ h => nomatch h
theorem Engine.hrtInvalidate : ∀ x0 x1 x2, Engine.Statement (.hrtInvalidate x0 x1 x2) := fun _ _ _ _ _ h => nomatch h
theorem Engine.hrtRetire : ∀ x0 x1 x2, Engine.Statement (.hrtRetire x0 x1 x2) := fun _ _ _ _ _ h => nomatch h
theorem Engine.chnK : ∀ x0 x1, Engine.Statement (.chnK x0 x1) := fun _ _ _ _ h => nomatch h
theorem Engine.chnDomainFound : ∀ x0 x1, Engine.Statement (.chnDomainFound x0 x1) := fun _ _ _ _ h => nomatch h
theorem Engine.chnDomainJoin : ∀ x0 x1, Engine.Statement (.chnDomainJoin x0 x1) := fun _ _ _ _ h => nomatch h
theorem Engine.chnDomainConfirm : ∀ x0 x1, Engine.Statement (.chnDomainConfirm x0 x1) := fun _ _ _ _ h => nomatch h
theorem Engine.chnMemberRemove : ∀ x0 x1, Engine.Statement (.chnMemberRemove x0 x1) := fun _ _ _ _ h => nomatch h
theorem Engine.ofcAlgorithm : ∀ x0 x1 x2 x3, Engine.Statement (.ofcAlgorithm x0 x1 x2 x3) := fun _ _ _ _ _ _ h => nomatch h
theorem Engine.tamperAlarm : ∀ x0, Engine.Statement (.tamperAlarm x0) := fun _ _ _ h => nomatch h
theorem Engine.tamperResponse : Engine.Statement .tamperResponse := fun _ _ h => nomatch h
theorem Engine.batteryRemoval : Engine.Statement .batteryRemoval := fun _ _ h => nomatch h
theorem Engine.tmpClear : ∀ x0 x1, Engine.Statement (.tmpClear x0 x1) := fun _ _ _ _ h => nomatch h
theorem Engine.tmpLockClear : ∀ x0 x1, Engine.Statement (.tmpLockClear x0 x1) := fun _ _ _ _ h => nomatch h
theorem Engine.lcsTransition : ∀ x0 x1, Engine.Statement (.lcsTransition x0 x1) := fun _ _ _ _ h => nomatch h
theorem Engine.transitionStep : Engine.Statement .transitionStep := fun _ _ h => nomatch h
theorem Engine.transitionLapse : Engine.Statement .transitionLapse := fun _ _ h => nomatch h
theorem Engine.lcsChallengeDraw : ∀ x0 x1, Engine.Statement (.lcsChallengeDraw x0 x1) := fun _ _ _ _ h => nomatch h
theorem Engine.lcsChallengeExpiry : Engine.Statement .lcsChallengeExpiry := fun _ _ h => nomatch h
theorem Engine.lcsCertApply : ∀ x0 x1, Engine.Statement (.lcsCertApply x0 x1) := fun _ _ _ _ h => nomatch h
theorem Engine.certCheckEnd : Engine.Statement .certCheckEnd := fun _ _ h => nomatch h
theorem Engine.lcsGrantEnd : ∀ x0 x1, Engine.Statement (.lcsGrantEnd x0 x1) := fun _ _ _ _ h => nomatch h
theorem Engine.grantExpiry : Engine.Statement .grantExpiry := fun _ _ h => nomatch h
theorem Engine.lcsTrimSelect : ∀ x0 x1, Engine.Statement (.lcsTrimSelect x0 x1) := fun _ _ _ _ h => nomatch h
theorem Engine.chkStart : ∀ x0 x1, Engine.Statement (.chkStart x0 x1) := fun _ _ _ _ h => nomatch h
theorem Engine.chkContinue : ∀ x0 x1, Engine.Statement (.chkContinue x0 x1) := fun _ _ _ _ h => nomatch h
theorem Engine.chkSuspend : ∀ x0 x1, Engine.Statement (.chkSuspend x0 x1) := fun _ _ _ _ h => nomatch h
theorem Engine.chkScanEnd : ∀ x0, Engine.Statement (.chkScanEnd x0) := fun _ _ _ h => nomatch h
theorem Engine.silClearCircular : ∀ x0 x1, Engine.Statement (.silClearCircular x0 x1) := fun _ _ _ _ h => nomatch h
theorem Engine.rstResetRequest : ∀ x0 x1, Engine.Statement (.rstResetRequest x0 x1) := fun _ _ _ _ h => nomatch h
theorem Engine.standbyEnter : ∀ x0, Engine.Statement (.standbyEnter x0) := fun _ _ _ h => nomatch h
theorem Engine.standbyExit : ∀ x0, Engine.Statement (.standbyExit x0) := fun _ _ _ h => nomatch h
theorem Engine.gateRequest : ∀ x0 x1, Engine.Statement (.gateRequest x0 x1) := fun _ _ _ _ h => nomatch h
theorem Engine.ungateRequest : ∀ x0 x1, Engine.Statement (.ungateRequest x0 x1) := fun _ _ _ _ h => nomatch h
theorem Engine.laneGateDrained : ∀ x0, Engine.Statement (.laneGateDrained x0) := fun _ _ _ h => nomatch h
theorem Engine.idleEntry : Engine.Statement .idleEntry := fun _ _ h => nomatch h
theorem Engine.powerOn : ∀ x0 x1, Engine.Statement (.powerOn x0 x1) := fun _ _ _ _ h => nomatch h
theorem Engine.brownOut : ∀ x0, Engine.Statement (.brownOut x0) := fun _ _ _ h => nomatch h
theorem Engine.resetNLow : Engine.Statement .resetNLow := fun _ _ h => nomatch h
theorem Engine.resetNLong : Engine.Statement .resetNLong := fun _ _ h => nomatch h
theorem Engine.perstNAssert : Engine.Statement .perstNAssert := fun _ _ h => nomatch h
theorem Engine.pcieHotReset : Engine.Statement .pcieHotReset := fun _ _ h => nomatch h
theorem Engine.pcieLinkDown : Engine.Statement .pcieLinkDown := fun _ _ h => nomatch h
theorem Engine.functionLevelReset : Engine.Statement .functionLevelReset := fun _ _ h => nomatch h
theorem Engine.coldStart : ∀ x0 x1, Engine.Statement (.coldStart x0 x1) := fun _ _ _ _ h => nomatch h
theorem Engine.warmStart : ∀ x0, Engine.Statement (.warmStart x0) := fun _ _ _ h => nomatch h
theorem Engine.functionStart : Engine.Statement .functionStart := fun _ _ h => nomatch h
theorem Engine.tamperSample : ∀ x0 x1, Engine.Statement (.tamperSample x0 x1) := fun _ _ _ _ h => nomatch h
theorem Engine.pasidEnable : ∀ x0, Engine.Statement (.pasidEnable x0) := fun _ _ _ h => nomatch h
theorem Engine.debugHalt : ∀ x0, Engine.Statement (.debugHalt x0) := fun _ _ _ h => nomatch h
theorem Engine.debugResume : ∀ x0, Engine.Statement (.debugResume x0) := fun _ _ _ h => nomatch h
theorem Engine.rawSampleTapOpen : ∀ x0, Engine.Statement (.rawSampleTapOpen x0) := fun _ _ _ h => nomatch h
theorem Engine.challengeExpiry : ∀ x0, Engine.Statement (.challengeExpiry x0) := fun _ _ _ h => nomatch h

end Sys2Proof.Laws
end

