-- ==== Sys2Proof/Laws/State.lean ====
section
/-! SUPPORT. What each shared operation of Machine/Ops.lean leaves as it was, field by field. -/

namespace Sys2Proof.Machine

@[simp] theorem State.setRing_tick (s : State) (n : Nat) (x : RingPair) : (s.setRing n x).tick = s.tick := by rfl
@[simp] theorem State.setRing_window (s : State) (n : Nat) (x : RingPair) : (s.setRing n x).window = s.window := by rfl
@[simp] theorem State.setRing_host (s : State) (n : Nat) (x : RingPair) : (s.setRing n x).host = s.host := by rfl
@[simp] theorem State.setRing_slices (s : State) (n : Nat) (x : RingPair) : (s.setRing n x).slices = s.slices := by rfl
@[simp] theorem State.setRing_jobs (s : State) (n : Nat) (x : RingPair) : (s.setRing n x).jobs = s.jobs := by rfl
@[simp] theorem State.setRing_lanes (s : State) (n : Nat) (x : RingPair) : (s.setRing n x).lanes = s.lanes := by rfl
@[simp] theorem State.setRing_sched (s : State) (n : Nat) (x : RingPair) : (s.setRing n x).sched = s.sched := by rfl
@[simp] theorem State.setRing_keys (s : State) (n : Nat) (x : RingPair) : (s.setRing n x).keys = s.keys := by rfl
@[simp] theorem State.setRing_vault (s : State) (n : Nat) (x : RingPair) : (s.setRing n x).vault = s.vault := by rfl
@[simp] theorem State.setRing_ent (s : State) (n : Nat) (x : RingPair) : (s.setRing n x).ent = s.ent := by rfl
@[simp] theorem State.setRing_keeper (s : State) (n : Nat) (x : RingPair) : (s.setRing n x).keeper = s.keeper := by rfl
@[simp] theorem State.setRing_wm (s : State) (n : Nat) (x : RingPair) : (s.setRing n x).wm = s.wm := by rfl
@[simp] theorem State.setRing_chain (s : State) (n : Nat) (x : RingPair) : (s.setRing n x).chain = s.chain := by rfl
@[simp] theorem State.setRing_dict (s : State) (n : Nat) (x : RingPair) : (s.setRing n x).dict = s.dict := by rfl
@[simp] theorem State.setRing_tamper (s : State) (n : Nat) (x : RingPair) : (s.setRing n x).tamper = s.tamper := by rfl
@[simp] theorem State.setRing_life (s : State) (n : Nat) (x : RingPair) : (s.setRing n x).life = s.life := by rfl
@[simp] theorem State.setRing_chk (s : State) (n : Nat) (x : RingPair) : (s.setRing n x).chk = s.chk := by rfl
@[simp] theorem State.setRing_sil (s : State) (n : Nat) (x : RingPair) : (s.setRing n x).sil = s.sil := by rfl
@[simp] theorem State.setRing_rst (s : State) (n : Nat) (x : RingPair) : (s.setRing n x).rst = s.rst := by rfl
@[simp] theorem State.setRing_sent (s : State) (n : Nat) (x : RingPair) : (s.setRing n x).sent = s.sent := by rfl
@[simp] theorem State.setRing_free (s : State) (n : Nat) (x : RingPair) : (s.setRing n x).free = s.free := by rfl
@[simp] theorem State.setRing_pending (s : State) (n : Nat) (x : RingPair) : (s.setRing n x).pending = s.pending := by rfl

@[simp] theorem State.updRing_tick (s : State) (n : Nat) (f : RingPair → RingPair) : (s.updRing n f).tick = s.tick := by rfl
@[simp] theorem State.updRing_window (s : State) (n : Nat) (f : RingPair → RingPair) : (s.updRing n f).window = s.window := by rfl
@[simp] theorem State.updRing_host (s : State) (n : Nat) (f : RingPair → RingPair) : (s.updRing n f).host = s.host := by rfl
@[simp] theorem State.updRing_slices (s : State) (n : Nat) (f : RingPair → RingPair) : (s.updRing n f).slices = s.slices := by rfl
@[simp] theorem State.updRing_jobs (s : State) (n : Nat) (f : RingPair → RingPair) : (s.updRing n f).jobs = s.jobs := by rfl
@[simp] theorem State.updRing_lanes (s : State) (n : Nat) (f : RingPair → RingPair) : (s.updRing n f).lanes = s.lanes := by rfl
@[simp] theorem State.updRing_sched (s : State) (n : Nat) (f : RingPair → RingPair) : (s.updRing n f).sched = s.sched := by rfl
@[simp] theorem State.updRing_keys (s : State) (n : Nat) (f : RingPair → RingPair) : (s.updRing n f).keys = s.keys := by rfl
@[simp] theorem State.updRing_vault (s : State) (n : Nat) (f : RingPair → RingPair) : (s.updRing n f).vault = s.vault := by rfl
@[simp] theorem State.updRing_ent (s : State) (n : Nat) (f : RingPair → RingPair) : (s.updRing n f).ent = s.ent := by rfl
@[simp] theorem State.updRing_keeper (s : State) (n : Nat) (f : RingPair → RingPair) : (s.updRing n f).keeper = s.keeper := by rfl
@[simp] theorem State.updRing_wm (s : State) (n : Nat) (f : RingPair → RingPair) : (s.updRing n f).wm = s.wm := by rfl
@[simp] theorem State.updRing_chain (s : State) (n : Nat) (f : RingPair → RingPair) : (s.updRing n f).chain = s.chain := by rfl
@[simp] theorem State.updRing_dict (s : State) (n : Nat) (f : RingPair → RingPair) : (s.updRing n f).dict = s.dict := by rfl
@[simp] theorem State.updRing_tamper (s : State) (n : Nat) (f : RingPair → RingPair) : (s.updRing n f).tamper = s.tamper := by rfl
@[simp] theorem State.updRing_life (s : State) (n : Nat) (f : RingPair → RingPair) : (s.updRing n f).life = s.life := by rfl
@[simp] theorem State.updRing_chk (s : State) (n : Nat) (f : RingPair → RingPair) : (s.updRing n f).chk = s.chk := by rfl
@[simp] theorem State.updRing_sil (s : State) (n : Nat) (f : RingPair → RingPair) : (s.updRing n f).sil = s.sil := by rfl
@[simp] theorem State.updRing_rst (s : State) (n : Nat) (f : RingPair → RingPair) : (s.updRing n f).rst = s.rst := by rfl
@[simp] theorem State.updRing_sent (s : State) (n : Nat) (f : RingPair → RingPair) : (s.updRing n f).sent = s.sent := by rfl
@[simp] theorem State.updRing_free (s : State) (n : Nat) (f : RingPair → RingPair) : (s.updRing n f).free = s.free := by rfl
@[simp] theorem State.updRing_pending (s : State) (n : Nat) (f : RingPair → RingPair) : (s.updRing n f).pending = s.pending := by rfl

@[simp] theorem State.setSlice_tick (s : State) (n : Nat) (x : SliceCtx) : (s.setSlice n x).tick = s.tick := by rfl
@[simp] theorem State.setSlice_window (s : State) (n : Nat) (x : SliceCtx) : (s.setSlice n x).window = s.window := by rfl
@[simp] theorem State.setSlice_host (s : State) (n : Nat) (x : SliceCtx) : (s.setSlice n x).host = s.host := by rfl
@[simp] theorem State.setSlice_rings (s : State) (n : Nat) (x : SliceCtx) : (s.setSlice n x).rings = s.rings := by rfl
@[simp] theorem State.setSlice_jobs (s : State) (n : Nat) (x : SliceCtx) : (s.setSlice n x).jobs = s.jobs := by rfl
@[simp] theorem State.setSlice_lanes (s : State) (n : Nat) (x : SliceCtx) : (s.setSlice n x).lanes = s.lanes := by rfl
@[simp] theorem State.setSlice_sched (s : State) (n : Nat) (x : SliceCtx) : (s.setSlice n x).sched = s.sched := by rfl
@[simp] theorem State.setSlice_keys (s : State) (n : Nat) (x : SliceCtx) : (s.setSlice n x).keys = s.keys := by rfl
@[simp] theorem State.setSlice_vault (s : State) (n : Nat) (x : SliceCtx) : (s.setSlice n x).vault = s.vault := by rfl
@[simp] theorem State.setSlice_ent (s : State) (n : Nat) (x : SliceCtx) : (s.setSlice n x).ent = s.ent := by rfl
@[simp] theorem State.setSlice_keeper (s : State) (n : Nat) (x : SliceCtx) : (s.setSlice n x).keeper = s.keeper := by rfl
@[simp] theorem State.setSlice_wm (s : State) (n : Nat) (x : SliceCtx) : (s.setSlice n x).wm = s.wm := by rfl
@[simp] theorem State.setSlice_chain (s : State) (n : Nat) (x : SliceCtx) : (s.setSlice n x).chain = s.chain := by rfl
@[simp] theorem State.setSlice_dict (s : State) (n : Nat) (x : SliceCtx) : (s.setSlice n x).dict = s.dict := by rfl
@[simp] theorem State.setSlice_tamper (s : State) (n : Nat) (x : SliceCtx) : (s.setSlice n x).tamper = s.tamper := by rfl
@[simp] theorem State.setSlice_life (s : State) (n : Nat) (x : SliceCtx) : (s.setSlice n x).life = s.life := by rfl
@[simp] theorem State.setSlice_chk (s : State) (n : Nat) (x : SliceCtx) : (s.setSlice n x).chk = s.chk := by rfl
@[simp] theorem State.setSlice_sil (s : State) (n : Nat) (x : SliceCtx) : (s.setSlice n x).sil = s.sil := by rfl
@[simp] theorem State.setSlice_rst (s : State) (n : Nat) (x : SliceCtx) : (s.setSlice n x).rst = s.rst := by rfl
@[simp] theorem State.setSlice_sent (s : State) (n : Nat) (x : SliceCtx) : (s.setSlice n x).sent = s.sent := by rfl
@[simp] theorem State.setSlice_free (s : State) (n : Nat) (x : SliceCtx) : (s.setSlice n x).free = s.free := by rfl
@[simp] theorem State.setSlice_pending (s : State) (n : Nat) (x : SliceCtx) : (s.setSlice n x).pending = s.pending := by rfl

@[simp] theorem State.updSlice_tick (s : State) (n : Nat) (f : SliceCtx → SliceCtx) : (s.updSlice n f).tick = s.tick := by rfl
@[simp] theorem State.updSlice_window (s : State) (n : Nat) (f : SliceCtx → SliceCtx) : (s.updSlice n f).window = s.window := by rfl
@[simp] theorem State.updSlice_host (s : State) (n : Nat) (f : SliceCtx → SliceCtx) : (s.updSlice n f).host = s.host := by rfl
@[simp] theorem State.updSlice_rings (s : State) (n : Nat) (f : SliceCtx → SliceCtx) : (s.updSlice n f).rings = s.rings := by rfl
@[simp] theorem State.updSlice_jobs (s : State) (n : Nat) (f : SliceCtx → SliceCtx) : (s.updSlice n f).jobs = s.jobs := by rfl
@[simp] theorem State.updSlice_lanes (s : State) (n : Nat) (f : SliceCtx → SliceCtx) : (s.updSlice n f).lanes = s.lanes := by rfl
@[simp] theorem State.updSlice_sched (s : State) (n : Nat) (f : SliceCtx → SliceCtx) : (s.updSlice n f).sched = s.sched := by rfl
@[simp] theorem State.updSlice_keys (s : State) (n : Nat) (f : SliceCtx → SliceCtx) : (s.updSlice n f).keys = s.keys := by rfl
@[simp] theorem State.updSlice_vault (s : State) (n : Nat) (f : SliceCtx → SliceCtx) : (s.updSlice n f).vault = s.vault := by rfl
@[simp] theorem State.updSlice_ent (s : State) (n : Nat) (f : SliceCtx → SliceCtx) : (s.updSlice n f).ent = s.ent := by rfl
@[simp] theorem State.updSlice_keeper (s : State) (n : Nat) (f : SliceCtx → SliceCtx) : (s.updSlice n f).keeper = s.keeper := by rfl
@[simp] theorem State.updSlice_wm (s : State) (n : Nat) (f : SliceCtx → SliceCtx) : (s.updSlice n f).wm = s.wm := by rfl
@[simp] theorem State.updSlice_chain (s : State) (n : Nat) (f : SliceCtx → SliceCtx) : (s.updSlice n f).chain = s.chain := by rfl
@[simp] theorem State.updSlice_dict (s : State) (n : Nat) (f : SliceCtx → SliceCtx) : (s.updSlice n f).dict = s.dict := by rfl
@[simp] theorem State.updSlice_tamper (s : State) (n : Nat) (f : SliceCtx → SliceCtx) : (s.updSlice n f).tamper = s.tamper := by rfl
@[simp] theorem State.updSlice_life (s : State) (n : Nat) (f : SliceCtx → SliceCtx) : (s.updSlice n f).life = s.life := by rfl
@[simp] theorem State.updSlice_chk (s : State) (n : Nat) (f : SliceCtx → SliceCtx) : (s.updSlice n f).chk = s.chk := by rfl
@[simp] theorem State.updSlice_sil (s : State) (n : Nat) (f : SliceCtx → SliceCtx) : (s.updSlice n f).sil = s.sil := by rfl
@[simp] theorem State.updSlice_rst (s : State) (n : Nat) (f : SliceCtx → SliceCtx) : (s.updSlice n f).rst = s.rst := by rfl
@[simp] theorem State.updSlice_sent (s : State) (n : Nat) (f : SliceCtx → SliceCtx) : (s.updSlice n f).sent = s.sent := by rfl
@[simp] theorem State.updSlice_free (s : State) (n : Nat) (f : SliceCtx → SliceCtx) : (s.updSlice n f).free = s.free := by rfl
@[simp] theorem State.updSlice_pending (s : State) (n : Nat) (f : SliceCtx → SliceCtx) : (s.updSlice n f).pending = s.pending := by rfl

@[simp] theorem State.setPk_tick (s : State) (n : Nat) (x : PkLane) : (s.setPk n x).tick = s.tick := by rfl
@[simp] theorem State.setPk_window (s : State) (n : Nat) (x : PkLane) : (s.setPk n x).window = s.window := by rfl
@[simp] theorem State.setPk_host (s : State) (n : Nat) (x : PkLane) : (s.setPk n x).host = s.host := by rfl
@[simp] theorem State.setPk_rings (s : State) (n : Nat) (x : PkLane) : (s.setPk n x).rings = s.rings := by rfl
@[simp] theorem State.setPk_slices (s : State) (n : Nat) (x : PkLane) : (s.setPk n x).slices = s.slices := by rfl
@[simp] theorem State.setPk_jobs (s : State) (n : Nat) (x : PkLane) : (s.setPk n x).jobs = s.jobs := by rfl
@[simp] theorem State.setPk_sched (s : State) (n : Nat) (x : PkLane) : (s.setPk n x).sched = s.sched := by rfl
@[simp] theorem State.setPk_keys (s : State) (n : Nat) (x : PkLane) : (s.setPk n x).keys = s.keys := by rfl
@[simp] theorem State.setPk_vault (s : State) (n : Nat) (x : PkLane) : (s.setPk n x).vault = s.vault := by rfl
@[simp] theorem State.setPk_ent (s : State) (n : Nat) (x : PkLane) : (s.setPk n x).ent = s.ent := by rfl
@[simp] theorem State.setPk_keeper (s : State) (n : Nat) (x : PkLane) : (s.setPk n x).keeper = s.keeper := by rfl
@[simp] theorem State.setPk_wm (s : State) (n : Nat) (x : PkLane) : (s.setPk n x).wm = s.wm := by rfl
@[simp] theorem State.setPk_chain (s : State) (n : Nat) (x : PkLane) : (s.setPk n x).chain = s.chain := by rfl
@[simp] theorem State.setPk_dict (s : State) (n : Nat) (x : PkLane) : (s.setPk n x).dict = s.dict := by rfl
@[simp] theorem State.setPk_tamper (s : State) (n : Nat) (x : PkLane) : (s.setPk n x).tamper = s.tamper := by rfl
@[simp] theorem State.setPk_life (s : State) (n : Nat) (x : PkLane) : (s.setPk n x).life = s.life := by rfl
@[simp] theorem State.setPk_chk (s : State) (n : Nat) (x : PkLane) : (s.setPk n x).chk = s.chk := by rfl
@[simp] theorem State.setPk_sil (s : State) (n : Nat) (x : PkLane) : (s.setPk n x).sil = s.sil := by rfl
@[simp] theorem State.setPk_rst (s : State) (n : Nat) (x : PkLane) : (s.setPk n x).rst = s.rst := by rfl
@[simp] theorem State.setPk_sent (s : State) (n : Nat) (x : PkLane) : (s.setPk n x).sent = s.sent := by rfl
@[simp] theorem State.setPk_free (s : State) (n : Nat) (x : PkLane) : (s.setPk n x).free = s.free := by rfl
@[simp] theorem State.setPk_pending (s : State) (n : Nat) (x : PkLane) : (s.setPk n x).pending = s.pending := by rfl

@[simp] theorem State.updPk_tick (s : State) (n : Nat) (f : PkLane → PkLane) : (s.updPk n f).tick = s.tick := by rfl
@[simp] theorem State.updPk_window (s : State) (n : Nat) (f : PkLane → PkLane) : (s.updPk n f).window = s.window := by rfl
@[simp] theorem State.updPk_host (s : State) (n : Nat) (f : PkLane → PkLane) : (s.updPk n f).host = s.host := by rfl
@[simp] theorem State.updPk_rings (s : State) (n : Nat) (f : PkLane → PkLane) : (s.updPk n f).rings = s.rings := by rfl
@[simp] theorem State.updPk_slices (s : State) (n : Nat) (f : PkLane → PkLane) : (s.updPk n f).slices = s.slices := by rfl
@[simp] theorem State.updPk_jobs (s : State) (n : Nat) (f : PkLane → PkLane) : (s.updPk n f).jobs = s.jobs := by rfl
@[simp] theorem State.updPk_sched (s : State) (n : Nat) (f : PkLane → PkLane) : (s.updPk n f).sched = s.sched := by rfl
@[simp] theorem State.updPk_keys (s : State) (n : Nat) (f : PkLane → PkLane) : (s.updPk n f).keys = s.keys := by rfl
@[simp] theorem State.updPk_vault (s : State) (n : Nat) (f : PkLane → PkLane) : (s.updPk n f).vault = s.vault := by rfl
@[simp] theorem State.updPk_ent (s : State) (n : Nat) (f : PkLane → PkLane) : (s.updPk n f).ent = s.ent := by rfl
@[simp] theorem State.updPk_keeper (s : State) (n : Nat) (f : PkLane → PkLane) : (s.updPk n f).keeper = s.keeper := by rfl
@[simp] theorem State.updPk_wm (s : State) (n : Nat) (f : PkLane → PkLane) : (s.updPk n f).wm = s.wm := by rfl
@[simp] theorem State.updPk_chain (s : State) (n : Nat) (f : PkLane → PkLane) : (s.updPk n f).chain = s.chain := by rfl
@[simp] theorem State.updPk_dict (s : State) (n : Nat) (f : PkLane → PkLane) : (s.updPk n f).dict = s.dict := by rfl
@[simp] theorem State.updPk_tamper (s : State) (n : Nat) (f : PkLane → PkLane) : (s.updPk n f).tamper = s.tamper := by rfl
@[simp] theorem State.updPk_life (s : State) (n : Nat) (f : PkLane → PkLane) : (s.updPk n f).life = s.life := by rfl
@[simp] theorem State.updPk_chk (s : State) (n : Nat) (f : PkLane → PkLane) : (s.updPk n f).chk = s.chk := by rfl
@[simp] theorem State.updPk_sil (s : State) (n : Nat) (f : PkLane → PkLane) : (s.updPk n f).sil = s.sil := by rfl
@[simp] theorem State.updPk_rst (s : State) (n : Nat) (f : PkLane → PkLane) : (s.updPk n f).rst = s.rst := by rfl
@[simp] theorem State.updPk_sent (s : State) (n : Nat) (f : PkLane → PkLane) : (s.updPk n f).sent = s.sent := by rfl
@[simp] theorem State.updPk_free (s : State) (n : Nat) (f : PkLane → PkLane) : (s.updPk n f).free = s.free := by rfl
@[simp] theorem State.updPk_pending (s : State) (n : Nat) (f : PkLane → PkLane) : (s.updPk n f).pending = s.pending := by rfl

@[simp] theorem State.setSym_tick (s : State) (n : Nat) (x : SymLane) : (s.setSym n x).tick = s.tick := by rfl
@[simp] theorem State.setSym_window (s : State) (n : Nat) (x : SymLane) : (s.setSym n x).window = s.window := by rfl
@[simp] theorem State.setSym_host (s : State) (n : Nat) (x : SymLane) : (s.setSym n x).host = s.host := by rfl
@[simp] theorem State.setSym_rings (s : State) (n : Nat) (x : SymLane) : (s.setSym n x).rings = s.rings := by rfl
@[simp] theorem State.setSym_slices (s : State) (n : Nat) (x : SymLane) : (s.setSym n x).slices = s.slices := by rfl
@[simp] theorem State.setSym_jobs (s : State) (n : Nat) (x : SymLane) : (s.setSym n x).jobs = s.jobs := by rfl
@[simp] theorem State.setSym_sched (s : State) (n : Nat) (x : SymLane) : (s.setSym n x).sched = s.sched := by rfl
@[simp] theorem State.setSym_keys (s : State) (n : Nat) (x : SymLane) : (s.setSym n x).keys = s.keys := by rfl
@[simp] theorem State.setSym_vault (s : State) (n : Nat) (x : SymLane) : (s.setSym n x).vault = s.vault := by rfl
@[simp] theorem State.setSym_ent (s : State) (n : Nat) (x : SymLane) : (s.setSym n x).ent = s.ent := by rfl
@[simp] theorem State.setSym_keeper (s : State) (n : Nat) (x : SymLane) : (s.setSym n x).keeper = s.keeper := by rfl
@[simp] theorem State.setSym_wm (s : State) (n : Nat) (x : SymLane) : (s.setSym n x).wm = s.wm := by rfl
@[simp] theorem State.setSym_chain (s : State) (n : Nat) (x : SymLane) : (s.setSym n x).chain = s.chain := by rfl
@[simp] theorem State.setSym_dict (s : State) (n : Nat) (x : SymLane) : (s.setSym n x).dict = s.dict := by rfl
@[simp] theorem State.setSym_tamper (s : State) (n : Nat) (x : SymLane) : (s.setSym n x).tamper = s.tamper := by rfl
@[simp] theorem State.setSym_life (s : State) (n : Nat) (x : SymLane) : (s.setSym n x).life = s.life := by rfl
@[simp] theorem State.setSym_chk (s : State) (n : Nat) (x : SymLane) : (s.setSym n x).chk = s.chk := by rfl
@[simp] theorem State.setSym_sil (s : State) (n : Nat) (x : SymLane) : (s.setSym n x).sil = s.sil := by rfl
@[simp] theorem State.setSym_rst (s : State) (n : Nat) (x : SymLane) : (s.setSym n x).rst = s.rst := by rfl
@[simp] theorem State.setSym_sent (s : State) (n : Nat) (x : SymLane) : (s.setSym n x).sent = s.sent := by rfl
@[simp] theorem State.setSym_free (s : State) (n : Nat) (x : SymLane) : (s.setSym n x).free = s.free := by rfl
@[simp] theorem State.setSym_pending (s : State) (n : Nat) (x : SymLane) : (s.setSym n x).pending = s.pending := by rfl

@[simp] theorem State.updSym_tick (s : State) (n : Nat) (f : SymLane → SymLane) : (s.updSym n f).tick = s.tick := by rfl
@[simp] theorem State.updSym_window (s : State) (n : Nat) (f : SymLane → SymLane) : (s.updSym n f).window = s.window := by rfl
@[simp] theorem State.updSym_host (s : State) (n : Nat) (f : SymLane → SymLane) : (s.updSym n f).host = s.host := by rfl
@[simp] theorem State.updSym_rings (s : State) (n : Nat) (f : SymLane → SymLane) : (s.updSym n f).rings = s.rings := by rfl
@[simp] theorem State.updSym_slices (s : State) (n : Nat) (f : SymLane → SymLane) : (s.updSym n f).slices = s.slices := by rfl
@[simp] theorem State.updSym_jobs (s : State) (n : Nat) (f : SymLane → SymLane) : (s.updSym n f).jobs = s.jobs := by rfl
@[simp] theorem State.updSym_sched (s : State) (n : Nat) (f : SymLane → SymLane) : (s.updSym n f).sched = s.sched := by rfl
@[simp] theorem State.updSym_keys (s : State) (n : Nat) (f : SymLane → SymLane) : (s.updSym n f).keys = s.keys := by rfl
@[simp] theorem State.updSym_vault (s : State) (n : Nat) (f : SymLane → SymLane) : (s.updSym n f).vault = s.vault := by rfl
@[simp] theorem State.updSym_ent (s : State) (n : Nat) (f : SymLane → SymLane) : (s.updSym n f).ent = s.ent := by rfl
@[simp] theorem State.updSym_keeper (s : State) (n : Nat) (f : SymLane → SymLane) : (s.updSym n f).keeper = s.keeper := by rfl
@[simp] theorem State.updSym_wm (s : State) (n : Nat) (f : SymLane → SymLane) : (s.updSym n f).wm = s.wm := by rfl
@[simp] theorem State.updSym_chain (s : State) (n : Nat) (f : SymLane → SymLane) : (s.updSym n f).chain = s.chain := by rfl
@[simp] theorem State.updSym_dict (s : State) (n : Nat) (f : SymLane → SymLane) : (s.updSym n f).dict = s.dict := by rfl
@[simp] theorem State.updSym_tamper (s : State) (n : Nat) (f : SymLane → SymLane) : (s.updSym n f).tamper = s.tamper := by rfl
@[simp] theorem State.updSym_life (s : State) (n : Nat) (f : SymLane → SymLane) : (s.updSym n f).life = s.life := by rfl
@[simp] theorem State.updSym_chk (s : State) (n : Nat) (f : SymLane → SymLane) : (s.updSym n f).chk = s.chk := by rfl
@[simp] theorem State.updSym_sil (s : State) (n : Nat) (f : SymLane → SymLane) : (s.updSym n f).sil = s.sil := by rfl
@[simp] theorem State.updSym_rst (s : State) (n : Nat) (f : SymLane → SymLane) : (s.updSym n f).rst = s.rst := by rfl
@[simp] theorem State.updSym_sent (s : State) (n : Nat) (f : SymLane → SymLane) : (s.updSym n f).sent = s.sent := by rfl
@[simp] theorem State.updSym_free (s : State) (n : Nat) (f : SymLane → SymLane) : (s.updSym n f).free = s.free := by rfl
@[simp] theorem State.updSym_pending (s : State) (n : Nat) (f : SymLane → SymLane) : (s.updSym n f).pending = s.pending := by rfl

@[simp] theorem State.setCluster_tick (s : State) (n : Nat) (x : Cluster) : (s.setCluster n x).tick = s.tick := by rfl
@[simp] theorem State.setCluster_window (s : State) (n : Nat) (x : Cluster) : (s.setCluster n x).window = s.window := by rfl
@[simp] theorem State.setCluster_host (s : State) (n : Nat) (x : Cluster) : (s.setCluster n x).host = s.host := by rfl
@[simp] theorem State.setCluster_rings (s : State) (n : Nat) (x : Cluster) : (s.setCluster n x).rings = s.rings := by rfl
@[simp] theorem State.setCluster_slices (s : State) (n : Nat) (x : Cluster) : (s.setCluster n x).slices = s.slices := by rfl
@[simp] theorem State.setCluster_jobs (s : State) (n : Nat) (x : Cluster) : (s.setCluster n x).jobs = s.jobs := by rfl
@[simp] theorem State.setCluster_sched (s : State) (n : Nat) (x : Cluster) : (s.setCluster n x).sched = s.sched := by rfl
@[simp] theorem State.setCluster_keys (s : State) (n : Nat) (x : Cluster) : (s.setCluster n x).keys = s.keys := by rfl
@[simp] theorem State.setCluster_vault (s : State) (n : Nat) (x : Cluster) : (s.setCluster n x).vault = s.vault := by rfl
@[simp] theorem State.setCluster_ent (s : State) (n : Nat) (x : Cluster) : (s.setCluster n x).ent = s.ent := by rfl
@[simp] theorem State.setCluster_keeper (s : State) (n : Nat) (x : Cluster) : (s.setCluster n x).keeper = s.keeper := by rfl
@[simp] theorem State.setCluster_wm (s : State) (n : Nat) (x : Cluster) : (s.setCluster n x).wm = s.wm := by rfl
@[simp] theorem State.setCluster_chain (s : State) (n : Nat) (x : Cluster) : (s.setCluster n x).chain = s.chain := by rfl
@[simp] theorem State.setCluster_dict (s : State) (n : Nat) (x : Cluster) : (s.setCluster n x).dict = s.dict := by rfl
@[simp] theorem State.setCluster_tamper (s : State) (n : Nat) (x : Cluster) : (s.setCluster n x).tamper = s.tamper := by rfl
@[simp] theorem State.setCluster_life (s : State) (n : Nat) (x : Cluster) : (s.setCluster n x).life = s.life := by rfl
@[simp] theorem State.setCluster_chk (s : State) (n : Nat) (x : Cluster) : (s.setCluster n x).chk = s.chk := by rfl
@[simp] theorem State.setCluster_sil (s : State) (n : Nat) (x : Cluster) : (s.setCluster n x).sil = s.sil := by rfl
@[simp] theorem State.setCluster_rst (s : State) (n : Nat) (x : Cluster) : (s.setCluster n x).rst = s.rst := by rfl
@[simp] theorem State.setCluster_sent (s : State) (n : Nat) (x : Cluster) : (s.setCluster n x).sent = s.sent := by rfl
@[simp] theorem State.setCluster_free (s : State) (n : Nat) (x : Cluster) : (s.setCluster n x).free = s.free := by rfl
@[simp] theorem State.setCluster_pending (s : State) (n : Nat) (x : Cluster) : (s.setCluster n x).pending = s.pending := by rfl

@[simp] theorem State.updCluster_tick (s : State) (n : Nat) (f : Cluster → Cluster) : (s.updCluster n f).tick = s.tick := by rfl
@[simp] theorem State.updCluster_window (s : State) (n : Nat) (f : Cluster → Cluster) : (s.updCluster n f).window = s.window := by rfl
@[simp] theorem State.updCluster_host (s : State) (n : Nat) (f : Cluster → Cluster) : (s.updCluster n f).host = s.host := by rfl
@[simp] theorem State.updCluster_rings (s : State) (n : Nat) (f : Cluster → Cluster) : (s.updCluster n f).rings = s.rings := by rfl
@[simp] theorem State.updCluster_slices (s : State) (n : Nat) (f : Cluster → Cluster) : (s.updCluster n f).slices = s.slices := by rfl
@[simp] theorem State.updCluster_jobs (s : State) (n : Nat) (f : Cluster → Cluster) : (s.updCluster n f).jobs = s.jobs := by rfl
@[simp] theorem State.updCluster_sched (s : State) (n : Nat) (f : Cluster → Cluster) : (s.updCluster n f).sched = s.sched := by rfl
@[simp] theorem State.updCluster_keys (s : State) (n : Nat) (f : Cluster → Cluster) : (s.updCluster n f).keys = s.keys := by rfl
@[simp] theorem State.updCluster_vault (s : State) (n : Nat) (f : Cluster → Cluster) : (s.updCluster n f).vault = s.vault := by rfl
@[simp] theorem State.updCluster_ent (s : State) (n : Nat) (f : Cluster → Cluster) : (s.updCluster n f).ent = s.ent := by rfl
@[simp] theorem State.updCluster_keeper (s : State) (n : Nat) (f : Cluster → Cluster) : (s.updCluster n f).keeper = s.keeper := by rfl
@[simp] theorem State.updCluster_wm (s : State) (n : Nat) (f : Cluster → Cluster) : (s.updCluster n f).wm = s.wm := by rfl
@[simp] theorem State.updCluster_chain (s : State) (n : Nat) (f : Cluster → Cluster) : (s.updCluster n f).chain = s.chain := by rfl
@[simp] theorem State.updCluster_dict (s : State) (n : Nat) (f : Cluster → Cluster) : (s.updCluster n f).dict = s.dict := by rfl
@[simp] theorem State.updCluster_tamper (s : State) (n : Nat) (f : Cluster → Cluster) : (s.updCluster n f).tamper = s.tamper := by rfl
@[simp] theorem State.updCluster_life (s : State) (n : Nat) (f : Cluster → Cluster) : (s.updCluster n f).life = s.life := by rfl
@[simp] theorem State.updCluster_chk (s : State) (n : Nat) (f : Cluster → Cluster) : (s.updCluster n f).chk = s.chk := by rfl
@[simp] theorem State.updCluster_sil (s : State) (n : Nat) (f : Cluster → Cluster) : (s.updCluster n f).sil = s.sil := by rfl
@[simp] theorem State.updCluster_rst (s : State) (n : Nat) (f : Cluster → Cluster) : (s.updCluster n f).rst = s.rst := by rfl
@[simp] theorem State.updCluster_sent (s : State) (n : Nat) (f : Cluster → Cluster) : (s.updCluster n f).sent = s.sent := by rfl
@[simp] theorem State.updCluster_free (s : State) (n : Nat) (f : Cluster → Cluster) : (s.updCluster n f).free = s.free := by rfl
@[simp] theorem State.updCluster_pending (s : State) (n : Nat) (f : Cluster → Cluster) : (s.updCluster n f).pending = s.pending := by rfl

@[simp] theorem State.setHeart_tick (s : State) (n : Nat) (x : Heart) : (s.setHeart n x).tick = s.tick := by rfl
@[simp] theorem State.setHeart_window (s : State) (n : Nat) (x : Heart) : (s.setHeart n x).window = s.window := by rfl
@[simp] theorem State.setHeart_host (s : State) (n : Nat) (x : Heart) : (s.setHeart n x).host = s.host := by rfl
@[simp] theorem State.setHeart_rings (s : State) (n : Nat) (x : Heart) : (s.setHeart n x).rings = s.rings := by rfl
@[simp] theorem State.setHeart_slices (s : State) (n : Nat) (x : Heart) : (s.setHeart n x).slices = s.slices := by rfl
@[simp] theorem State.setHeart_jobs (s : State) (n : Nat) (x : Heart) : (s.setHeart n x).jobs = s.jobs := by rfl
@[simp] theorem State.setHeart_lanes (s : State) (n : Nat) (x : Heart) : (s.setHeart n x).lanes = s.lanes := by rfl
@[simp] theorem State.setHeart_sched (s : State) (n : Nat) (x : Heart) : (s.setHeart n x).sched = s.sched := by rfl
@[simp] theorem State.setHeart_vault (s : State) (n : Nat) (x : Heart) : (s.setHeart n x).vault = s.vault := by rfl
@[simp] theorem State.setHeart_ent (s : State) (n : Nat) (x : Heart) : (s.setHeart n x).ent = s.ent := by rfl
@[simp] theorem State.setHeart_keeper (s : State) (n : Nat) (x : Heart) : (s.setHeart n x).keeper = s.keeper := by rfl
@[simp] theorem State.setHeart_wm (s : State) (n : Nat) (x : Heart) : (s.setHeart n x).wm = s.wm := by rfl
@[simp] theorem State.setHeart_chain (s : State) (n : Nat) (x : Heart) : (s.setHeart n x).chain = s.chain := by rfl
@[simp] theorem State.setHeart_dict (s : State) (n : Nat) (x : Heart) : (s.setHeart n x).dict = s.dict := by rfl
@[simp] theorem State.setHeart_tamper (s : State) (n : Nat) (x : Heart) : (s.setHeart n x).tamper = s.tamper := by rfl
@[simp] theorem State.setHeart_life (s : State) (n : Nat) (x : Heart) : (s.setHeart n x).life = s.life := by rfl
@[simp] theorem State.setHeart_chk (s : State) (n : Nat) (x : Heart) : (s.setHeart n x).chk = s.chk := by rfl
@[simp] theorem State.setHeart_sil (s : State) (n : Nat) (x : Heart) : (s.setHeart n x).sil = s.sil := by rfl
@[simp] theorem State.setHeart_rst (s : State) (n : Nat) (x : Heart) : (s.setHeart n x).rst = s.rst := by rfl
@[simp] theorem State.setHeart_sent (s : State) (n : Nat) (x : Heart) : (s.setHeart n x).sent = s.sent := by rfl
@[simp] theorem State.setHeart_free (s : State) (n : Nat) (x : Heart) : (s.setHeart n x).free = s.free := by rfl
@[simp] theorem State.setHeart_pending (s : State) (n : Nat) (x : Heart) : (s.setHeart n x).pending = s.pending := by rfl

@[simp] theorem State.setImage_tick (s : State) (n : Nat) (x : Option HeartImage) : (s.setImage n x).tick = s.tick := by rfl
@[simp] theorem State.setImage_window (s : State) (n : Nat) (x : Option HeartImage) : (s.setImage n x).window = s.window := by rfl
@[simp] theorem State.setImage_host (s : State) (n : Nat) (x : Option HeartImage) : (s.setImage n x).host = s.host := by rfl
@[simp] theorem State.setImage_rings (s : State) (n : Nat) (x : Option HeartImage) : (s.setImage n x).rings = s.rings := by rfl
@[simp] theorem State.setImage_slices (s : State) (n : Nat) (x : Option HeartImage) : (s.setImage n x).slices = s.slices := by rfl
@[simp] theorem State.setImage_jobs (s : State) (n : Nat) (x : Option HeartImage) : (s.setImage n x).jobs = s.jobs := by rfl
@[simp] theorem State.setImage_lanes (s : State) (n : Nat) (x : Option HeartImage) : (s.setImage n x).lanes = s.lanes := by rfl
@[simp] theorem State.setImage_sched (s : State) (n : Nat) (x : Option HeartImage) : (s.setImage n x).sched = s.sched := by rfl
@[simp] theorem State.setImage_vault (s : State) (n : Nat) (x : Option HeartImage) : (s.setImage n x).vault = s.vault := by rfl
@[simp] theorem State.setImage_ent (s : State) (n : Nat) (x : Option HeartImage) : (s.setImage n x).ent = s.ent := by rfl
@[simp] theorem State.setImage_keeper (s : State) (n : Nat) (x : Option HeartImage) : (s.setImage n x).keeper = s.keeper := by rfl
@[simp] theorem State.setImage_wm (s : State) (n : Nat) (x : Option HeartImage) : (s.setImage n x).wm = s.wm := by rfl
@[simp] theorem State.setImage_chain (s : State) (n : Nat) (x : Option HeartImage) : (s.setImage n x).chain = s.chain := by rfl
@[simp] theorem State.setImage_dict (s : State) (n : Nat) (x : Option HeartImage) : (s.setImage n x).dict = s.dict := by rfl
@[simp] theorem State.setImage_tamper (s : State) (n : Nat) (x : Option HeartImage) : (s.setImage n x).tamper = s.tamper := by rfl
@[simp] theorem State.setImage_life (s : State) (n : Nat) (x : Option HeartImage) : (s.setImage n x).life = s.life := by rfl
@[simp] theorem State.setImage_chk (s : State) (n : Nat) (x : Option HeartImage) : (s.setImage n x).chk = s.chk := by rfl
@[simp] theorem State.setImage_sil (s : State) (n : Nat) (x : Option HeartImage) : (s.setImage n x).sil = s.sil := by rfl
@[simp] theorem State.setImage_rst (s : State) (n : Nat) (x : Option HeartImage) : (s.setImage n x).rst = s.rst := by rfl
@[simp] theorem State.setImage_sent (s : State) (n : Nat) (x : Option HeartImage) : (s.setImage n x).sent = s.sent := by rfl
@[simp] theorem State.setImage_free (s : State) (n : Nat) (x : Option HeartImage) : (s.setImage n x).free = s.free := by rfl
@[simp] theorem State.setImage_pending (s : State) (n : Nat) (x : Option HeartImage) : (s.setImage n x).pending = s.pending := by rfl

@[simp] theorem State.setChk_tick (s : State) (n : Nat) (x : CheckUnit) : (s.setChk n x).tick = s.tick := by rfl
@[simp] theorem State.setChk_window (s : State) (n : Nat) (x : CheckUnit) : (s.setChk n x).window = s.window := by rfl
@[simp] theorem State.setChk_host (s : State) (n : Nat) (x : CheckUnit) : (s.setChk n x).host = s.host := by rfl
@[simp] theorem State.setChk_rings (s : State) (n : Nat) (x : CheckUnit) : (s.setChk n x).rings = s.rings := by rfl
@[simp] theorem State.setChk_slices (s : State) (n : Nat) (x : CheckUnit) : (s.setChk n x).slices = s.slices := by rfl
@[simp] theorem State.setChk_jobs (s : State) (n : Nat) (x : CheckUnit) : (s.setChk n x).jobs = s.jobs := by rfl
@[simp] theorem State.setChk_lanes (s : State) (n : Nat) (x : CheckUnit) : (s.setChk n x).lanes = s.lanes := by rfl
@[simp] theorem State.setChk_sched (s : State) (n : Nat) (x : CheckUnit) : (s.setChk n x).sched = s.sched := by rfl
@[simp] theorem State.setChk_keys (s : State) (n : Nat) (x : CheckUnit) : (s.setChk n x).keys = s.keys := by rfl
@[simp] theorem State.setChk_vault (s : State) (n : Nat) (x : CheckUnit) : (s.setChk n x).vault = s.vault := by rfl
@[simp] theorem State.setChk_ent (s : State) (n : Nat) (x : CheckUnit) : (s.setChk n x).ent = s.ent := by rfl
@[simp] theorem State.setChk_keeper (s : State) (n : Nat) (x : CheckUnit) : (s.setChk n x).keeper = s.keeper := by rfl
@[simp] theorem State.setChk_wm (s : State) (n : Nat) (x : CheckUnit) : (s.setChk n x).wm = s.wm := by rfl
@[simp] theorem State.setChk_chain (s : State) (n : Nat) (x : CheckUnit) : (s.setChk n x).chain = s.chain := by rfl
@[simp] theorem State.setChk_dict (s : State) (n : Nat) (x : CheckUnit) : (s.setChk n x).dict = s.dict := by rfl
@[simp] theorem State.setChk_tamper (s : State) (n : Nat) (x : CheckUnit) : (s.setChk n x).tamper = s.tamper := by rfl
@[simp] theorem State.setChk_life (s : State) (n : Nat) (x : CheckUnit) : (s.setChk n x).life = s.life := by rfl
@[simp] theorem State.setChk_sil (s : State) (n : Nat) (x : CheckUnit) : (s.setChk n x).sil = s.sil := by rfl
@[simp] theorem State.setChk_rst (s : State) (n : Nat) (x : CheckUnit) : (s.setChk n x).rst = s.rst := by rfl
@[simp] theorem State.setChk_sent (s : State) (n : Nat) (x : CheckUnit) : (s.setChk n x).sent = s.sent := by rfl
@[simp] theorem State.setChk_free (s : State) (n : Nat) (x : CheckUnit) : (s.setChk n x).free = s.free := by rfl
@[simp] theorem State.setChk_pending (s : State) (n : Nat) (x : CheckUnit) : (s.setChk n x).pending = s.pending := by rfl

@[simp] theorem State.updChk_tick (s : State) (n : Nat) (f : CheckUnit → CheckUnit) : (s.updChk n f).tick = s.tick := by rfl
@[simp] theorem State.updChk_window (s : State) (n : Nat) (f : CheckUnit → CheckUnit) : (s.updChk n f).window = s.window := by rfl
@[simp] theorem State.updChk_host (s : State) (n : Nat) (f : CheckUnit → CheckUnit) : (s.updChk n f).host = s.host := by rfl
@[simp] theorem State.updChk_rings (s : State) (n : Nat) (f : CheckUnit → CheckUnit) : (s.updChk n f).rings = s.rings := by rfl
@[simp] theorem State.updChk_slices (s : State) (n : Nat) (f : CheckUnit → CheckUnit) : (s.updChk n f).slices = s.slices := by rfl
@[simp] theorem State.updChk_jobs (s : State) (n : Nat) (f : CheckUnit → CheckUnit) : (s.updChk n f).jobs = s.jobs := by rfl
@[simp] theorem State.updChk_lanes (s : State) (n : Nat) (f : CheckUnit → CheckUnit) : (s.updChk n f).lanes = s.lanes := by rfl
@[simp] theorem State.updChk_sched (s : State) (n : Nat) (f : CheckUnit → CheckUnit) : (s.updChk n f).sched = s.sched := by rfl
@[simp] theorem State.updChk_keys (s : State) (n : Nat) (f : CheckUnit → CheckUnit) : (s.updChk n f).keys = s.keys := by rfl
@[simp] theorem State.updChk_vault (s : State) (n : Nat) (f : CheckUnit → CheckUnit) : (s.updChk n f).vault = s.vault := by rfl
@[simp] theorem State.updChk_ent (s : State) (n : Nat) (f : CheckUnit → CheckUnit) : (s.updChk n f).ent = s.ent := by rfl
@[simp] theorem State.updChk_keeper (s : State) (n : Nat) (f : CheckUnit → CheckUnit) : (s.updChk n f).keeper = s.keeper := by rfl
@[simp] theorem State.updChk_wm (s : State) (n : Nat) (f : CheckUnit → CheckUnit) : (s.updChk n f).wm = s.wm := by rfl
@[simp] theorem State.updChk_chain (s : State) (n : Nat) (f : CheckUnit → CheckUnit) : (s.updChk n f).chain = s.chain := by rfl
@[simp] theorem State.updChk_dict (s : State) (n : Nat) (f : CheckUnit → CheckUnit) : (s.updChk n f).dict = s.dict := by rfl
@[simp] theorem State.updChk_tamper (s : State) (n : Nat) (f : CheckUnit → CheckUnit) : (s.updChk n f).tamper = s.tamper := by rfl
@[simp] theorem State.updChk_life (s : State) (n : Nat) (f : CheckUnit → CheckUnit) : (s.updChk n f).life = s.life := by rfl
@[simp] theorem State.updChk_sil (s : State) (n : Nat) (f : CheckUnit → CheckUnit) : (s.updChk n f).sil = s.sil := by rfl
@[simp] theorem State.updChk_rst (s : State) (n : Nat) (f : CheckUnit → CheckUnit) : (s.updChk n f).rst = s.rst := by rfl
@[simp] theorem State.updChk_sent (s : State) (n : Nat) (f : CheckUnit → CheckUnit) : (s.updChk n f).sent = s.sent := by rfl
@[simp] theorem State.updChk_free (s : State) (n : Nat) (f : CheckUnit → CheckUnit) : (s.updChk n f).free = s.free := by rfl
@[simp] theorem State.updChk_pending (s : State) (n : Nat) (f : CheckUnit → CheckUnit) : (s.updChk n f).pending = s.pending := by rfl

@[simp] theorem State.setBlock_tick (s : State) (n : Nat) (x : Block) : (s.setBlock n x).tick = s.tick := by rfl
@[simp] theorem State.setBlock_window (s : State) (n : Nat) (x : Block) : (s.setBlock n x).window = s.window := by rfl
@[simp] theorem State.setBlock_host (s : State) (n : Nat) (x : Block) : (s.setBlock n x).host = s.host := by rfl
@[simp] theorem State.setBlock_rings (s : State) (n : Nat) (x : Block) : (s.setBlock n x).rings = s.rings := by rfl
@[simp] theorem State.setBlock_slices (s : State) (n : Nat) (x : Block) : (s.setBlock n x).slices = s.slices := by rfl
@[simp] theorem State.setBlock_jobs (s : State) (n : Nat) (x : Block) : (s.setBlock n x).jobs = s.jobs := by rfl
@[simp] theorem State.setBlock_lanes (s : State) (n : Nat) (x : Block) : (s.setBlock n x).lanes = s.lanes := by rfl
@[simp] theorem State.setBlock_sched (s : State) (n : Nat) (x : Block) : (s.setBlock n x).sched = s.sched := by rfl
@[simp] theorem State.setBlock_keys (s : State) (n : Nat) (x : Block) : (s.setBlock n x).keys = s.keys := by rfl
@[simp] theorem State.setBlock_vault (s : State) (n : Nat) (x : Block) : (s.setBlock n x).vault = s.vault := by rfl
@[simp] theorem State.setBlock_ent (s : State) (n : Nat) (x : Block) : (s.setBlock n x).ent = s.ent := by rfl
@[simp] theorem State.setBlock_wm (s : State) (n : Nat) (x : Block) : (s.setBlock n x).wm = s.wm := by rfl
@[simp] theorem State.setBlock_chain (s : State) (n : Nat) (x : Block) : (s.setBlock n x).chain = s.chain := by rfl
@[simp] theorem State.setBlock_dict (s : State) (n : Nat) (x : Block) : (s.setBlock n x).dict = s.dict := by rfl
@[simp] theorem State.setBlock_tamper (s : State) (n : Nat) (x : Block) : (s.setBlock n x).tamper = s.tamper := by rfl
@[simp] theorem State.setBlock_life (s : State) (n : Nat) (x : Block) : (s.setBlock n x).life = s.life := by rfl
@[simp] theorem State.setBlock_chk (s : State) (n : Nat) (x : Block) : (s.setBlock n x).chk = s.chk := by rfl
@[simp] theorem State.setBlock_sil (s : State) (n : Nat) (x : Block) : (s.setBlock n x).sil = s.sil := by rfl
@[simp] theorem State.setBlock_rst (s : State) (n : Nat) (x : Block) : (s.setBlock n x).rst = s.rst := by rfl
@[simp] theorem State.setBlock_sent (s : State) (n : Nat) (x : Block) : (s.setBlock n x).sent = s.sent := by rfl
@[simp] theorem State.setBlock_free (s : State) (n : Nat) (x : Block) : (s.setBlock n x).free = s.free := by rfl
@[simp] theorem State.setBlock_pending (s : State) (n : Nat) (x : Block) : (s.setBlock n x).pending = s.pending := by rfl

@[simp] theorem State.updBlock_tick (s : State) (n : Nat) (f : Block → Block) : (s.updBlock n f).tick = s.tick := by rfl
@[simp] theorem State.updBlock_window (s : State) (n : Nat) (f : Block → Block) : (s.updBlock n f).window = s.window := by rfl
@[simp] theorem State.updBlock_host (s : State) (n : Nat) (f : Block → Block) : (s.updBlock n f).host = s.host := by rfl
@[simp] theorem State.updBlock_rings (s : State) (n : Nat) (f : Block → Block) : (s.updBlock n f).rings = s.rings := by rfl
@[simp] theorem State.updBlock_slices (s : State) (n : Nat) (f : Block → Block) : (s.updBlock n f).slices = s.slices := by rfl
@[simp] theorem State.updBlock_jobs (s : State) (n : Nat) (f : Block → Block) : (s.updBlock n f).jobs = s.jobs := by rfl
@[simp] theorem State.updBlock_lanes (s : State) (n : Nat) (f : Block → Block) : (s.updBlock n f).lanes = s.lanes := by rfl
@[simp] theorem State.updBlock_sched (s : State) (n : Nat) (f : Block → Block) : (s.updBlock n f).sched = s.sched := by rfl
@[simp] theorem State.updBlock_keys (s : State) (n : Nat) (f : Block → Block) : (s.updBlock n f).keys = s.keys := by rfl
@[simp] theorem State.updBlock_vault (s : State) (n : Nat) (f : Block → Block) : (s.updBlock n f).vault = s.vault := by rfl
@[simp] theorem State.updBlock_ent (s : State) (n : Nat) (f : Block → Block) : (s.updBlock n f).ent = s.ent := by rfl
@[simp] theorem State.updBlock_wm (s : State) (n : Nat) (f : Block → Block) : (s.updBlock n f).wm = s.wm := by rfl
@[simp] theorem State.updBlock_chain (s : State) (n : Nat) (f : Block → Block) : (s.updBlock n f).chain = s.chain := by rfl
@[simp] theorem State.updBlock_dict (s : State) (n : Nat) (f : Block → Block) : (s.updBlock n f).dict = s.dict := by rfl
@[simp] theorem State.updBlock_tamper (s : State) (n : Nat) (f : Block → Block) : (s.updBlock n f).tamper = s.tamper := by rfl
@[simp] theorem State.updBlock_life (s : State) (n : Nat) (f : Block → Block) : (s.updBlock n f).life = s.life := by rfl
@[simp] theorem State.updBlock_chk (s : State) (n : Nat) (f : Block → Block) : (s.updBlock n f).chk = s.chk := by rfl
@[simp] theorem State.updBlock_sil (s : State) (n : Nat) (f : Block → Block) : (s.updBlock n f).sil = s.sil := by rfl
@[simp] theorem State.updBlock_rst (s : State) (n : Nat) (f : Block → Block) : (s.updBlock n f).rst = s.rst := by rfl
@[simp] theorem State.updBlock_sent (s : State) (n : Nat) (f : Block → Block) : (s.updBlock n f).sent = s.sent := by rfl
@[simp] theorem State.updBlock_free (s : State) (n : Nat) (f : Block → Block) : (s.updBlock n f).free = s.free := by rfl
@[simp] theorem State.updBlock_pending (s : State) (n : Nat) (f : Block → Block) : (s.updBlock n f).pending = s.pending := by rfl

@[simp] theorem State.setTmpSrc_tick (s : State) (n : Nat) (x : TamperSrc) : (s.setTmpSrc n x).tick = s.tick := by rfl
@[simp] theorem State.setTmpSrc_window (s : State) (n : Nat) (x : TamperSrc) : (s.setTmpSrc n x).window = s.window := by rfl
@[simp] theorem State.setTmpSrc_host (s : State) (n : Nat) (x : TamperSrc) : (s.setTmpSrc n x).host = s.host := by rfl
@[simp] theorem State.setTmpSrc_rings (s : State) (n : Nat) (x : TamperSrc) : (s.setTmpSrc n x).rings = s.rings := by rfl
@[simp] theorem State.setTmpSrc_slices (s : State) (n : Nat) (x : TamperSrc) : (s.setTmpSrc n x).slices = s.slices := by rfl
@[simp] theorem State.setTmpSrc_jobs (s : State) (n : Nat) (x : TamperSrc) : (s.setTmpSrc n x).jobs = s.jobs := by rfl
@[simp] theorem State.setTmpSrc_lanes (s : State) (n : Nat) (x : TamperSrc) : (s.setTmpSrc n x).lanes = s.lanes := by rfl
@[simp] theorem State.setTmpSrc_sched (s : State) (n : Nat) (x : TamperSrc) : (s.setTmpSrc n x).sched = s.sched := by rfl
@[simp] theorem State.setTmpSrc_keys (s : State) (n : Nat) (x : TamperSrc) : (s.setTmpSrc n x).keys = s.keys := by rfl
@[simp] theorem State.setTmpSrc_vault (s : State) (n : Nat) (x : TamperSrc) : (s.setTmpSrc n x).vault = s.vault := by rfl
@[simp] theorem State.setTmpSrc_ent (s : State) (n : Nat) (x : TamperSrc) : (s.setTmpSrc n x).ent = s.ent := by rfl
@[simp] theorem State.setTmpSrc_keeper (s : State) (n : Nat) (x : TamperSrc) : (s.setTmpSrc n x).keeper = s.keeper := by rfl
@[simp] theorem State.setTmpSrc_wm (s : State) (n : Nat) (x : TamperSrc) : (s.setTmpSrc n x).wm = s.wm := by rfl
@[simp] theorem State.setTmpSrc_chain (s : State) (n : Nat) (x : TamperSrc) : (s.setTmpSrc n x).chain = s.chain := by rfl
@[simp] theorem State.setTmpSrc_dict (s : State) (n : Nat) (x : TamperSrc) : (s.setTmpSrc n x).dict = s.dict := by rfl
@[simp] theorem State.setTmpSrc_life (s : State) (n : Nat) (x : TamperSrc) : (s.setTmpSrc n x).life = s.life := by rfl
@[simp] theorem State.setTmpSrc_chk (s : State) (n : Nat) (x : TamperSrc) : (s.setTmpSrc n x).chk = s.chk := by rfl
@[simp] theorem State.setTmpSrc_sil (s : State) (n : Nat) (x : TamperSrc) : (s.setTmpSrc n x).sil = s.sil := by rfl
@[simp] theorem State.setTmpSrc_rst (s : State) (n : Nat) (x : TamperSrc) : (s.setTmpSrc n x).rst = s.rst := by rfl
@[simp] theorem State.setTmpSrc_sent (s : State) (n : Nat) (x : TamperSrc) : (s.setTmpSrc n x).sent = s.sent := by rfl
@[simp] theorem State.setTmpSrc_free (s : State) (n : Nat) (x : TamperSrc) : (s.setTmpSrc n x).free = s.free := by rfl
@[simp] theorem State.setTmpSrc_pending (s : State) (n : Nat) (x : TamperSrc) : (s.setTmpSrc n x).pending = s.pending := by rfl

@[simp] theorem State.setMsix_tick (s : State) (n : Nat) (x : MsixVector) : (s.setMsix n x).tick = s.tick := by rfl
@[simp] theorem State.setMsix_window (s : State) (n : Nat) (x : MsixVector) : (s.setMsix n x).window = s.window := by rfl
@[simp] theorem State.setMsix_rings (s : State) (n : Nat) (x : MsixVector) : (s.setMsix n x).rings = s.rings := by rfl
@[simp] theorem State.setMsix_slices (s : State) (n : Nat) (x : MsixVector) : (s.setMsix n x).slices = s.slices := by rfl
@[simp] theorem State.setMsix_jobs (s : State) (n : Nat) (x : MsixVector) : (s.setMsix n x).jobs = s.jobs := by rfl
@[simp] theorem State.setMsix_lanes (s : State) (n : Nat) (x : MsixVector) : (s.setMsix n x).lanes = s.lanes := by rfl
@[simp] theorem State.setMsix_sched (s : State) (n : Nat) (x : MsixVector) : (s.setMsix n x).sched = s.sched := by rfl
@[simp] theorem State.setMsix_keys (s : State) (n : Nat) (x : MsixVector) : (s.setMsix n x).keys = s.keys := by rfl
@[simp] theorem State.setMsix_vault (s : State) (n : Nat) (x : MsixVector) : (s.setMsix n x).vault = s.vault := by rfl
@[simp] theorem State.setMsix_ent (s : State) (n : Nat) (x : MsixVector) : (s.setMsix n x).ent = s.ent := by rfl
@[simp] theorem State.setMsix_keeper (s : State) (n : Nat) (x : MsixVector) : (s.setMsix n x).keeper = s.keeper := by rfl
@[simp] theorem State.setMsix_wm (s : State) (n : Nat) (x : MsixVector) : (s.setMsix n x).wm = s.wm := by rfl
@[simp] theorem State.setMsix_chain (s : State) (n : Nat) (x : MsixVector) : (s.setMsix n x).chain = s.chain := by rfl
@[simp] theorem State.setMsix_dict (s : State) (n : Nat) (x : MsixVector) : (s.setMsix n x).dict = s.dict := by rfl
@[simp] theorem State.setMsix_tamper (s : State) (n : Nat) (x : MsixVector) : (s.setMsix n x).tamper = s.tamper := by rfl
@[simp] theorem State.setMsix_life (s : State) (n : Nat) (x : MsixVector) : (s.setMsix n x).life = s.life := by rfl
@[simp] theorem State.setMsix_chk (s : State) (n : Nat) (x : MsixVector) : (s.setMsix n x).chk = s.chk := by rfl
@[simp] theorem State.setMsix_sil (s : State) (n : Nat) (x : MsixVector) : (s.setMsix n x).sil = s.sil := by rfl
@[simp] theorem State.setMsix_rst (s : State) (n : Nat) (x : MsixVector) : (s.setMsix n x).rst = s.rst := by rfl
@[simp] theorem State.setMsix_sent (s : State) (n : Nat) (x : MsixVector) : (s.setMsix n x).sent = s.sent := by rfl
@[simp] theorem State.setMsix_free (s : State) (n : Nat) (x : MsixVector) : (s.setMsix n x).free = s.free := by rfl
@[simp] theorem State.setMsix_pending (s : State) (n : Nat) (x : MsixVector) : (s.setMsix n x).pending = s.pending := by rfl

@[simp] theorem State.setWord_tick (s : State) (i : Nat) (w : Word36) : (s.setWord i w).tick = s.tick := by rfl
@[simp] theorem State.setWord_window (s : State) (i : Nat) (w : Word36) : (s.setWord i w).window = s.window := by rfl
@[simp] theorem State.setWord_host (s : State) (i : Nat) (w : Word36) : (s.setWord i w).host = s.host := by rfl
@[simp] theorem State.setWord_rings (s : State) (i : Nat) (w : Word36) : (s.setWord i w).rings = s.rings := by rfl
@[simp] theorem State.setWord_slices (s : State) (i : Nat) (w : Word36) : (s.setWord i w).slices = s.slices := by rfl
@[simp] theorem State.setWord_jobs (s : State) (i : Nat) (w : Word36) : (s.setWord i w).jobs = s.jobs := by rfl
@[simp] theorem State.setWord_lanes (s : State) (i : Nat) (w : Word36) : (s.setWord i w).lanes = s.lanes := by rfl
@[simp] theorem State.setWord_sched (s : State) (i : Nat) (w : Word36) : (s.setWord i w).sched = s.sched := by rfl
@[simp] theorem State.setWord_keys (s : State) (i : Nat) (w : Word36) : (s.setWord i w).keys = s.keys := by rfl
@[simp] theorem State.setWord_vault (s : State) (i : Nat) (w : Word36) : (s.setWord i w).vault = s.vault := by rfl
@[simp] theorem State.setWord_ent (s : State) (i : Nat) (w : Word36) : (s.setWord i w).ent = s.ent := by rfl
@[simp] theorem State.setWord_keeper (s : State) (i : Nat) (w : Word36) : (s.setWord i w).keeper = s.keeper := by rfl
@[simp] theorem State.setWord_chain (s : State) (i : Nat) (w : Word36) : (s.setWord i w).chain = s.chain := by rfl
@[simp] theorem State.setWord_dict (s : State) (i : Nat) (w : Word36) : (s.setWord i w).dict = s.dict := by rfl
@[simp] theorem State.setWord_tamper (s : State) (i : Nat) (w : Word36) : (s.setWord i w).tamper = s.tamper := by rfl
@[simp] theorem State.setWord_life (s : State) (i : Nat) (w : Word36) : (s.setWord i w).life = s.life := by rfl
@[simp] theorem State.setWord_chk (s : State) (i : Nat) (w : Word36) : (s.setWord i w).chk = s.chk := by rfl
@[simp] theorem State.setWord_sil (s : State) (i : Nat) (w : Word36) : (s.setWord i w).sil = s.sil := by rfl
@[simp] theorem State.setWord_rst (s : State) (i : Nat) (w : Word36) : (s.setWord i w).rst = s.rst := by rfl
@[simp] theorem State.setWord_sent (s : State) (i : Nat) (w : Word36) : (s.setWord i w).sent = s.sent := by rfl
@[simp] theorem State.setWord_free (s : State) (i : Nat) (w : Word36) : (s.setWord i w).free = s.free := by rfl
@[simp] theorem State.setWord_pending (s : State) (i : Nat) (w : Word36) : (s.setWord i w).pending = s.pending := by rfl

@[simp] theorem State.setWords_tick (s : State) (a : Nat) (l : List Word36) : (s.setWords a l).tick = s.tick := by rfl
@[simp] theorem State.setWords_window (s : State) (a : Nat) (l : List Word36) : (s.setWords a l).window = s.window := by rfl
@[simp] theorem State.setWords_host (s : State) (a : Nat) (l : List Word36) : (s.setWords a l).host = s.host := by rfl
@[simp] theorem State.setWords_rings (s : State) (a : Nat) (l : List Word36) : (s.setWords a l).rings = s.rings := by rfl
@[simp] theorem State.setWords_slices (s : State) (a : Nat) (l : List Word36) : (s.setWords a l).slices = s.slices := by rfl
@[simp] theorem State.setWords_jobs (s : State) (a : Nat) (l : List Word36) : (s.setWords a l).jobs = s.jobs := by rfl
@[simp] theorem State.setWords_lanes (s : State) (a : Nat) (l : List Word36) : (s.setWords a l).lanes = s.lanes := by rfl
@[simp] theorem State.setWords_sched (s : State) (a : Nat) (l : List Word36) : (s.setWords a l).sched = s.sched := by rfl
@[simp] theorem State.setWords_keys (s : State) (a : Nat) (l : List Word36) : (s.setWords a l).keys = s.keys := by rfl
@[simp] theorem State.setWords_vault (s : State) (a : Nat) (l : List Word36) : (s.setWords a l).vault = s.vault := by rfl
@[simp] theorem State.setWords_ent (s : State) (a : Nat) (l : List Word36) : (s.setWords a l).ent = s.ent := by rfl
@[simp] theorem State.setWords_keeper (s : State) (a : Nat) (l : List Word36) : (s.setWords a l).keeper = s.keeper := by rfl
@[simp] theorem State.setWords_chain (s : State) (a : Nat) (l : List Word36) : (s.setWords a l).chain = s.chain := by rfl
@[simp] theorem State.setWords_dict (s : State) (a : Nat) (l : List Word36) : (s.setWords a l).dict = s.dict := by rfl
@[simp] theorem State.setWords_tamper (s : State) (a : Nat) (l : List Word36) : (s.setWords a l).tamper = s.tamper := by rfl
@[simp] theorem State.setWords_life (s : State) (a : Nat) (l : List Word36) : (s.setWords a l).life = s.life := by rfl
@[simp] theorem State.setWords_chk (s : State) (a : Nat) (l : List Word36) : (s.setWords a l).chk = s.chk := by rfl
@[simp] theorem State.setWords_sil (s : State) (a : Nat) (l : List Word36) : (s.setWords a l).sil = s.sil := by rfl
@[simp] theorem State.setWords_rst (s : State) (a : Nat) (l : List Word36) : (s.setWords a l).rst = s.rst := by rfl
@[simp] theorem State.setWords_sent (s : State) (a : Nat) (l : List Word36) : (s.setWords a l).sent = s.sent := by rfl
@[simp] theorem State.setWords_free (s : State) (a : Nat) (l : List Word36) : (s.setWords a l).free = s.free := by rfl
@[simp] theorem State.setWords_pending (s : State) (a : Nat) (l : List Word36) : (s.setWords a l).pending = s.pending := by rfl

@[simp] theorem State.scrubWords_tick (s : State) (p : Nat → Bool) : (s.scrubWords p).tick = s.tick := by rfl
@[simp] theorem State.scrubWords_window (s : State) (p : Nat → Bool) : (s.scrubWords p).window = s.window := by rfl
@[simp] theorem State.scrubWords_host (s : State) (p : Nat → Bool) : (s.scrubWords p).host = s.host := by rfl
@[simp] theorem State.scrubWords_rings (s : State) (p : Nat → Bool) : (s.scrubWords p).rings = s.rings := by rfl
@[simp] theorem State.scrubWords_slices (s : State) (p : Nat → Bool) : (s.scrubWords p).slices = s.slices := by rfl
@[simp] theorem State.scrubWords_jobs (s : State) (p : Nat → Bool) : (s.scrubWords p).jobs = s.jobs := by rfl
@[simp] theorem State.scrubWords_lanes (s : State) (p : Nat → Bool) : (s.scrubWords p).lanes = s.lanes := by rfl
@[simp] theorem State.scrubWords_sched (s : State) (p : Nat → Bool) : (s.scrubWords p).sched = s.sched := by rfl
@[simp] theorem State.scrubWords_keys (s : State) (p : Nat → Bool) : (s.scrubWords p).keys = s.keys := by rfl
@[simp] theorem State.scrubWords_vault (s : State) (p : Nat → Bool) : (s.scrubWords p).vault = s.vault := by rfl
@[simp] theorem State.scrubWords_ent (s : State) (p : Nat → Bool) : (s.scrubWords p).ent = s.ent := by rfl
@[simp] theorem State.scrubWords_keeper (s : State) (p : Nat → Bool) : (s.scrubWords p).keeper = s.keeper := by rfl
@[simp] theorem State.scrubWords_chain (s : State) (p : Nat → Bool) : (s.scrubWords p).chain = s.chain := by rfl
@[simp] theorem State.scrubWords_dict (s : State) (p : Nat → Bool) : (s.scrubWords p).dict = s.dict := by rfl
@[simp] theorem State.scrubWords_tamper (s : State) (p : Nat → Bool) : (s.scrubWords p).tamper = s.tamper := by rfl
@[simp] theorem State.scrubWords_life (s : State) (p : Nat → Bool) : (s.scrubWords p).life = s.life := by rfl
@[simp] theorem State.scrubWords_chk (s : State) (p : Nat → Bool) : (s.scrubWords p).chk = s.chk := by rfl
@[simp] theorem State.scrubWords_sil (s : State) (p : Nat → Bool) : (s.scrubWords p).sil = s.sil := by rfl
@[simp] theorem State.scrubWords_rst (s : State) (p : Nat → Bool) : (s.scrubWords p).rst = s.rst := by rfl
@[simp] theorem State.scrubWords_sent (s : State) (p : Nat → Bool) : (s.scrubWords p).sent = s.sent := by rfl
@[simp] theorem State.scrubWords_free (s : State) (p : Nat → Bool) : (s.scrubWords p).free = s.free := by rfl
@[simp] theorem State.scrubWords_pending (s : State) (p : Nat → Bool) : (s.scrubWords p).pending = s.pending := by rfl

@[simp] theorem State.setNum_tick (s : State) (k v : Nat) : (s.setNum k v).tick = s.tick := by rfl
@[simp] theorem State.setNum_window (s : State) (k v : Nat) : (s.setNum k v).window = s.window := by rfl
@[simp] theorem State.setNum_host (s : State) (k v : Nat) : (s.setNum k v).host = s.host := by rfl
@[simp] theorem State.setNum_rings (s : State) (k v : Nat) : (s.setNum k v).rings = s.rings := by rfl
@[simp] theorem State.setNum_slices (s : State) (k v : Nat) : (s.setNum k v).slices = s.slices := by rfl
@[simp] theorem State.setNum_jobs (s : State) (k v : Nat) : (s.setNum k v).jobs = s.jobs := by rfl
@[simp] theorem State.setNum_lanes (s : State) (k v : Nat) : (s.setNum k v).lanes = s.lanes := by rfl
@[simp] theorem State.setNum_sched (s : State) (k v : Nat) : (s.setNum k v).sched = s.sched := by rfl
@[simp] theorem State.setNum_keys (s : State) (k v : Nat) : (s.setNum k v).keys = s.keys := by rfl
@[simp] theorem State.setNum_vault (s : State) (k v : Nat) : (s.setNum k v).vault = s.vault := by rfl
@[simp] theorem State.setNum_ent (s : State) (k v : Nat) : (s.setNum k v).ent = s.ent := by rfl
@[simp] theorem State.setNum_keeper (s : State) (k v : Nat) : (s.setNum k v).keeper = s.keeper := by rfl
@[simp] theorem State.setNum_wm (s : State) (k v : Nat) : (s.setNum k v).wm = s.wm := by rfl
@[simp] theorem State.setNum_chain (s : State) (k v : Nat) : (s.setNum k v).chain = s.chain := by rfl
@[simp] theorem State.setNum_tamper (s : State) (k v : Nat) : (s.setNum k v).tamper = s.tamper := by rfl
@[simp] theorem State.setNum_life (s : State) (k v : Nat) : (s.setNum k v).life = s.life := by rfl
@[simp] theorem State.setNum_chk (s : State) (k v : Nat) : (s.setNum k v).chk = s.chk := by rfl
@[simp] theorem State.setNum_sil (s : State) (k v : Nat) : (s.setNum k v).sil = s.sil := by rfl
@[simp] theorem State.setNum_rst (s : State) (k v : Nat) : (s.setNum k v).rst = s.rst := by rfl
@[simp] theorem State.setNum_sent (s : State) (k v : Nat) : (s.setNum k v).sent = s.sent := by rfl
@[simp] theorem State.setNum_free (s : State) (k v : Nat) : (s.setNum k v).free = s.free := by rfl
@[simp] theorem State.setNum_pending (s : State) (k v : Nat) : (s.setNum k v).pending = s.pending := by rfl

@[simp] theorem State.setOct_tick (s : State) (k : Nat) (v : Bytes) : (s.setOct k v).tick = s.tick := by rfl
@[simp] theorem State.setOct_window (s : State) (k : Nat) (v : Bytes) : (s.setOct k v).window = s.window := by rfl
@[simp] theorem State.setOct_host (s : State) (k : Nat) (v : Bytes) : (s.setOct k v).host = s.host := by rfl
@[simp] theorem State.setOct_rings (s : State) (k : Nat) (v : Bytes) : (s.setOct k v).rings = s.rings := by rfl
@[simp] theorem State.setOct_slices (s : State) (k : Nat) (v : Bytes) : (s.setOct k v).slices = s.slices := by rfl
@[simp] theorem State.setOct_jobs (s : State) (k : Nat) (v : Bytes) : (s.setOct k v).jobs = s.jobs := by rfl
@[simp] theorem State.setOct_lanes (s : State) (k : Nat) (v : Bytes) : (s.setOct k v).lanes = s.lanes := by rfl
@[simp] theorem State.setOct_sched (s : State) (k : Nat) (v : Bytes) : (s.setOct k v).sched = s.sched := by rfl
@[simp] theorem State.setOct_keys (s : State) (k : Nat) (v : Bytes) : (s.setOct k v).keys = s.keys := by rfl
@[simp] theorem State.setOct_vault (s : State) (k : Nat) (v : Bytes) : (s.setOct k v).vault = s.vault := by rfl
@[simp] theorem State.setOct_ent (s : State) (k : Nat) (v : Bytes) : (s.setOct k v).ent = s.ent := by rfl
@[simp] theorem State.setOct_keeper (s : State) (k : Nat) (v : Bytes) : (s.setOct k v).keeper = s.keeper := by rfl
@[simp] theorem State.setOct_wm (s : State) (k : Nat) (v : Bytes) : (s.setOct k v).wm = s.wm := by rfl
@[simp] theorem State.setOct_chain (s : State) (k : Nat) (v : Bytes) : (s.setOct k v).chain = s.chain := by rfl
@[simp] theorem State.setOct_tamper (s : State) (k : Nat) (v : Bytes) : (s.setOct k v).tamper = s.tamper := by rfl
@[simp] theorem State.setOct_life (s : State) (k : Nat) (v : Bytes) : (s.setOct k v).life = s.life := by rfl
@[simp] theorem State.setOct_chk (s : State) (k : Nat) (v : Bytes) : (s.setOct k v).chk = s.chk := by rfl
@[simp] theorem State.setOct_sil (s : State) (k : Nat) (v : Bytes) : (s.setOct k v).sil = s.sil := by rfl
@[simp] theorem State.setOct_rst (s : State) (k : Nat) (v : Bytes) : (s.setOct k v).rst = s.rst := by rfl
@[simp] theorem State.setOct_sent (s : State) (k : Nat) (v : Bytes) : (s.setOct k v).sent = s.sent := by rfl
@[simp] theorem State.setOct_free (s : State) (k : Nat) (v : Bytes) : (s.setOct k v).free = s.free := by rfl
@[simp] theorem State.setOct_pending (s : State) (k : Nat) (v : Bytes) : (s.setOct k v).pending = s.pending := by rfl

@[simp] theorem State.count_tick (s : State) (k n : Nat) : (s.count k n).tick = s.tick := by rfl
@[simp] theorem State.count_window (s : State) (k n : Nat) : (s.count k n).window = s.window := by rfl
@[simp] theorem State.count_host (s : State) (k n : Nat) : (s.count k n).host = s.host := by rfl
@[simp] theorem State.count_rings (s : State) (k n : Nat) : (s.count k n).rings = s.rings := by rfl
@[simp] theorem State.count_slices (s : State) (k n : Nat) : (s.count k n).slices = s.slices := by rfl
@[simp] theorem State.count_jobs (s : State) (k n : Nat) : (s.count k n).jobs = s.jobs := by rfl
@[simp] theorem State.count_lanes (s : State) (k n : Nat) : (s.count k n).lanes = s.lanes := by rfl
@[simp] theorem State.count_sched (s : State) (k n : Nat) : (s.count k n).sched = s.sched := by rfl
@[simp] theorem State.count_keys (s : State) (k n : Nat) : (s.count k n).keys = s.keys := by rfl
@[simp] theorem State.count_vault (s : State) (k n : Nat) : (s.count k n).vault = s.vault := by rfl
@[simp] theorem State.count_ent (s : State) (k n : Nat) : (s.count k n).ent = s.ent := by rfl
@[simp] theorem State.count_keeper (s : State) (k n : Nat) : (s.count k n).keeper = s.keeper := by rfl
@[simp] theorem State.count_wm (s : State) (k n : Nat) : (s.count k n).wm = s.wm := by rfl
@[simp] theorem State.count_chain (s : State) (k n : Nat) : (s.count k n).chain = s.chain := by rfl
@[simp] theorem State.count_tamper (s : State) (k n : Nat) : (s.count k n).tamper = s.tamper := by rfl
@[simp] theorem State.count_life (s : State) (k n : Nat) : (s.count k n).life = s.life := by rfl
@[simp] theorem State.count_chk (s : State) (k n : Nat) : (s.count k n).chk = s.chk := by rfl
@[simp] theorem State.count_sil (s : State) (k n : Nat) : (s.count k n).sil = s.sil := by rfl
@[simp] theorem State.count_rst (s : State) (k n : Nat) : (s.count k n).rst = s.rst := by rfl
@[simp] theorem State.count_sent (s : State) (k n : Nat) : (s.count k n).sent = s.sent := by rfl
@[simp] theorem State.count_free (s : State) (k n : Nat) : (s.count k n).free = s.free := by rfl
@[simp] theorem State.count_pending (s : State) (k n : Nat) : (s.count k n).pending = s.pending := by rfl

@[simp] theorem State.event_tick (s : State) (c : Nat) : (s.event c).tick = s.tick := by rfl
@[simp] theorem State.event_window (s : State) (c : Nat) : (s.event c).window = s.window := by rfl
@[simp] theorem State.event_host (s : State) (c : Nat) : (s.event c).host = s.host := by rfl
@[simp] theorem State.event_rings (s : State) (c : Nat) : (s.event c).rings = s.rings := by rfl
@[simp] theorem State.event_slices (s : State) (c : Nat) : (s.event c).slices = s.slices := by rfl
@[simp] theorem State.event_jobs (s : State) (c : Nat) : (s.event c).jobs = s.jobs := by rfl
@[simp] theorem State.event_lanes (s : State) (c : Nat) : (s.event c).lanes = s.lanes := by rfl
@[simp] theorem State.event_sched (s : State) (c : Nat) : (s.event c).sched = s.sched := by rfl
@[simp] theorem State.event_keys (s : State) (c : Nat) : (s.event c).keys = s.keys := by rfl
@[simp] theorem State.event_vault (s : State) (c : Nat) : (s.event c).vault = s.vault := by rfl
@[simp] theorem State.event_ent (s : State) (c : Nat) : (s.event c).ent = s.ent := by rfl
@[simp] theorem State.event_keeper (s : State) (c : Nat) : (s.event c).keeper = s.keeper := by rfl
@[simp] theorem State.event_wm (s : State) (c : Nat) : (s.event c).wm = s.wm := by rfl
@[simp] theorem State.event_chain (s : State) (c : Nat) : (s.event c).chain = s.chain := by rfl
@[simp] theorem State.event_dict (s : State) (c : Nat) : (s.event c).dict = s.dict := by rfl
@[simp] theorem State.event_tamper (s : State) (c : Nat) : (s.event c).tamper = s.tamper := by rfl
@[simp] theorem State.event_life (s : State) (c : Nat) : (s.event c).life = s.life := by rfl
@[simp] theorem State.event_chk (s : State) (c : Nat) : (s.event c).chk = s.chk := by rfl
@[simp] theorem State.event_rst (s : State) (c : Nat) : (s.event c).rst = s.rst := by rfl
@[simp] theorem State.event_sent (s : State) (c : Nat) : (s.event c).sent = s.sent := by rfl
@[simp] theorem State.event_free (s : State) (c : Nat) : (s.event c).free = s.free := by rfl
@[simp] theorem State.event_pending (s : State) (c : Nat) : (s.event c).pending = s.pending := by rfl

@[simp] theorem State.eventSent_tick (s : State) (c : Nat) : (s.eventSent c).tick = s.tick := by rfl
@[simp] theorem State.eventSent_window (s : State) (c : Nat) : (s.eventSent c).window = s.window := by rfl
@[simp] theorem State.eventSent_host (s : State) (c : Nat) : (s.eventSent c).host = s.host := by rfl
@[simp] theorem State.eventSent_rings (s : State) (c : Nat) : (s.eventSent c).rings = s.rings := by rfl
@[simp] theorem State.eventSent_slices (s : State) (c : Nat) : (s.eventSent c).slices = s.slices := by rfl
@[simp] theorem State.eventSent_jobs (s : State) (c : Nat) : (s.eventSent c).jobs = s.jobs := by rfl
@[simp] theorem State.eventSent_lanes (s : State) (c : Nat) : (s.eventSent c).lanes = s.lanes := by rfl
@[simp] theorem State.eventSent_sched (s : State) (c : Nat) : (s.eventSent c).sched = s.sched := by rfl
@[simp] theorem State.eventSent_keys (s : State) (c : Nat) : (s.eventSent c).keys = s.keys := by rfl
@[simp] theorem State.eventSent_vault (s : State) (c : Nat) : (s.eventSent c).vault = s.vault := by rfl
@[simp] theorem State.eventSent_ent (s : State) (c : Nat) : (s.eventSent c).ent = s.ent := by rfl
@[simp] theorem State.eventSent_keeper (s : State) (c : Nat) : (s.eventSent c).keeper = s.keeper := by rfl
@[simp] theorem State.eventSent_wm (s : State) (c : Nat) : (s.eventSent c).wm = s.wm := by rfl
@[simp] theorem State.eventSent_chain (s : State) (c : Nat) : (s.eventSent c).chain = s.chain := by rfl
@[simp] theorem State.eventSent_dict (s : State) (c : Nat) : (s.eventSent c).dict = s.dict := by rfl
@[simp] theorem State.eventSent_tamper (s : State) (c : Nat) : (s.eventSent c).tamper = s.tamper := by rfl
@[simp] theorem State.eventSent_life (s : State) (c : Nat) : (s.eventSent c).life = s.life := by rfl
@[simp] theorem State.eventSent_chk (s : State) (c : Nat) : (s.eventSent c).chk = s.chk := by rfl
@[simp] theorem State.eventSent_rst (s : State) (c : Nat) : (s.eventSent c).rst = s.rst := by rfl
@[simp] theorem State.eventSent_sent (s : State) (c : Nat) : (s.eventSent c).sent = s.sent := by rfl
@[simp] theorem State.eventSent_free (s : State) (c : Nat) : (s.eventSent c).free = s.free := by rfl
@[simp] theorem State.eventSent_pending (s : State) (c : Nat) : (s.eventSent c).pending = s.pending := by rfl

@[simp] theorem State.eventNext_tick (s : State) (c : Nat) : (s.eventNext c).tick = s.tick := by rfl
@[simp] theorem State.eventNext_window (s : State) (c : Nat) : (s.eventNext c).window = s.window := by rfl
@[simp] theorem State.eventNext_host (s : State) (c : Nat) : (s.eventNext c).host = s.host := by rfl
@[simp] theorem State.eventNext_rings (s : State) (c : Nat) : (s.eventNext c).rings = s.rings := by rfl
@[simp] theorem State.eventNext_slices (s : State) (c : Nat) : (s.eventNext c).slices = s.slices := by rfl
@[simp] theorem State.eventNext_jobs (s : State) (c : Nat) : (s.eventNext c).jobs = s.jobs := by rfl
@[simp] theorem State.eventNext_lanes (s : State) (c : Nat) : (s.eventNext c).lanes = s.lanes := by rfl
@[simp] theorem State.eventNext_sched (s : State) (c : Nat) : (s.eventNext c).sched = s.sched := by rfl
@[simp] theorem State.eventNext_keys (s : State) (c : Nat) : (s.eventNext c).keys = s.keys := by rfl
@[simp] theorem State.eventNext_vault (s : State) (c : Nat) : (s.eventNext c).vault = s.vault := by rfl
@[simp] theorem State.eventNext_ent (s : State) (c : Nat) : (s.eventNext c).ent = s.ent := by rfl
@[simp] theorem State.eventNext_keeper (s : State) (c : Nat) : (s.eventNext c).keeper = s.keeper := by rfl
@[simp] theorem State.eventNext_wm (s : State) (c : Nat) : (s.eventNext c).wm = s.wm := by rfl
@[simp] theorem State.eventNext_chain (s : State) (c : Nat) : (s.eventNext c).chain = s.chain := by rfl
@[simp] theorem State.eventNext_dict (s : State) (c : Nat) : (s.eventNext c).dict = s.dict := by rfl
@[simp] theorem State.eventNext_tamper (s : State) (c : Nat) : (s.eventNext c).tamper = s.tamper := by rfl
@[simp] theorem State.eventNext_life (s : State) (c : Nat) : (s.eventNext c).life = s.life := by rfl
@[simp] theorem State.eventNext_chk (s : State) (c : Nat) : (s.eventNext c).chk = s.chk := by rfl
@[simp] theorem State.eventNext_rst (s : State) (c : Nat) : (s.eventNext c).rst = s.rst := by rfl
@[simp] theorem State.eventNext_sent (s : State) (c : Nat) : (s.eventNext c).sent = s.sent := by rfl
@[simp] theorem State.eventNext_free (s : State) (c : Nat) : (s.eventNext c).free = s.free := by rfl
@[simp] theorem State.eventNext_pending (s : State) (c : Nat) : (s.eventNext c).pending = s.pending := by rfl

@[simp] theorem State.eventOf_tick (s : State) (c : Nat) : (s.eventOf c).tick = s.tick := by rfl
@[simp] theorem State.eventOf_window (s : State) (c : Nat) : (s.eventOf c).window = s.window := by rfl
@[simp] theorem State.eventOf_host (s : State) (c : Nat) : (s.eventOf c).host = s.host := by rfl
@[simp] theorem State.eventOf_rings (s : State) (c : Nat) : (s.eventOf c).rings = s.rings := by rfl
@[simp] theorem State.eventOf_slices (s : State) (c : Nat) : (s.eventOf c).slices = s.slices := by rfl
@[simp] theorem State.eventOf_jobs (s : State) (c : Nat) : (s.eventOf c).jobs = s.jobs := by rfl
@[simp] theorem State.eventOf_lanes (s : State) (c : Nat) : (s.eventOf c).lanes = s.lanes := by rfl
@[simp] theorem State.eventOf_sched (s : State) (c : Nat) : (s.eventOf c).sched = s.sched := by rfl
@[simp] theorem State.eventOf_keys (s : State) (c : Nat) : (s.eventOf c).keys = s.keys := by rfl
@[simp] theorem State.eventOf_vault (s : State) (c : Nat) : (s.eventOf c).vault = s.vault := by rfl
@[simp] theorem State.eventOf_ent (s : State) (c : Nat) : (s.eventOf c).ent = s.ent := by rfl
@[simp] theorem State.eventOf_keeper (s : State) (c : Nat) : (s.eventOf c).keeper = s.keeper := by rfl
@[simp] theorem State.eventOf_wm (s : State) (c : Nat) : (s.eventOf c).wm = s.wm := by rfl
@[simp] theorem State.eventOf_chain (s : State) (c : Nat) : (s.eventOf c).chain = s.chain := by rfl
@[simp] theorem State.eventOf_dict (s : State) (c : Nat) : (s.eventOf c).dict = s.dict := by rfl
@[simp] theorem State.eventOf_tamper (s : State) (c : Nat) : (s.eventOf c).tamper = s.tamper := by rfl
@[simp] theorem State.eventOf_life (s : State) (c : Nat) : (s.eventOf c).life = s.life := by rfl
@[simp] theorem State.eventOf_chk (s : State) (c : Nat) : (s.eventOf c).chk = s.chk := by rfl
@[simp] theorem State.eventOf_rst (s : State) (c : Nat) : (s.eventOf c).rst = s.rst := by rfl
@[simp] theorem State.eventOf_sent (s : State) (c : Nat) : (s.eventOf c).sent = s.sent := by rfl
@[simp] theorem State.eventOf_free (s : State) (c : Nat) : (s.eventOf c).free = s.free := by rfl
@[simp] theorem State.eventOf_pending (s : State) (c : Nat) : (s.eventOf c).pending = s.pending := by rfl

@[simp] theorem State.raise_tick (s : State) (n : Nat) : (s.raise n).tick = s.tick := by rfl
@[simp] theorem State.raise_window (s : State) (n : Nat) : (s.raise n).window = s.window := by rfl
@[simp] theorem State.raise_rings (s : State) (n : Nat) : (s.raise n).rings = s.rings := by rfl
@[simp] theorem State.raise_slices (s : State) (n : Nat) : (s.raise n).slices = s.slices := by rfl
@[simp] theorem State.raise_jobs (s : State) (n : Nat) : (s.raise n).jobs = s.jobs := by rfl
@[simp] theorem State.raise_lanes (s : State) (n : Nat) : (s.raise n).lanes = s.lanes := by rfl
@[simp] theorem State.raise_sched (s : State) (n : Nat) : (s.raise n).sched = s.sched := by rfl
@[simp] theorem State.raise_keys (s : State) (n : Nat) : (s.raise n).keys = s.keys := by rfl
@[simp] theorem State.raise_vault (s : State) (n : Nat) : (s.raise n).vault = s.vault := by rfl
@[simp] theorem State.raise_ent (s : State) (n : Nat) : (s.raise n).ent = s.ent := by rfl
@[simp] theorem State.raise_keeper (s : State) (n : Nat) : (s.raise n).keeper = s.keeper := by rfl
@[simp] theorem State.raise_wm (s : State) (n : Nat) : (s.raise n).wm = s.wm := by rfl
@[simp] theorem State.raise_chain (s : State) (n : Nat) : (s.raise n).chain = s.chain := by rfl
@[simp] theorem State.raise_dict (s : State) (n : Nat) : (s.raise n).dict = s.dict := by rfl
@[simp] theorem State.raise_tamper (s : State) (n : Nat) : (s.raise n).tamper = s.tamper := by rfl
@[simp] theorem State.raise_life (s : State) (n : Nat) : (s.raise n).life = s.life := by rfl
@[simp] theorem State.raise_chk (s : State) (n : Nat) : (s.raise n).chk = s.chk := by rfl
@[simp] theorem State.raise_sil (s : State) (n : Nat) : (s.raise n).sil = s.sil := by rfl
@[simp] theorem State.raise_rst (s : State) (n : Nat) : (s.raise n).rst = s.rst := by rfl
@[simp] theorem State.raise_sent (s : State) (n : Nat) : (s.raise n).sent = s.sent := by rfl
@[simp] theorem State.raise_free (s : State) (n : Nat) : (s.raise n).free = s.free := by rfl
@[simp] theorem State.raise_pending (s : State) (n : Nat) : (s.raise n).pending = s.pending := by rfl

@[simp] theorem State.emit_tick (s : State) (o : Sent) : (s.emit o).tick = s.tick := by rfl
@[simp] theorem State.emit_window (s : State) (o : Sent) : (s.emit o).window = s.window := by rfl
@[simp] theorem State.emit_host (s : State) (o : Sent) : (s.emit o).host = s.host := by rfl
@[simp] theorem State.emit_rings (s : State) (o : Sent) : (s.emit o).rings = s.rings := by rfl
@[simp] theorem State.emit_slices (s : State) (o : Sent) : (s.emit o).slices = s.slices := by rfl
@[simp] theorem State.emit_jobs (s : State) (o : Sent) : (s.emit o).jobs = s.jobs := by rfl
@[simp] theorem State.emit_lanes (s : State) (o : Sent) : (s.emit o).lanes = s.lanes := by rfl
@[simp] theorem State.emit_sched (s : State) (o : Sent) : (s.emit o).sched = s.sched := by rfl
@[simp] theorem State.emit_keys (s : State) (o : Sent) : (s.emit o).keys = s.keys := by rfl
@[simp] theorem State.emit_vault (s : State) (o : Sent) : (s.emit o).vault = s.vault := by rfl
@[simp] theorem State.emit_ent (s : State) (o : Sent) : (s.emit o).ent = s.ent := by rfl
@[simp] theorem State.emit_keeper (s : State) (o : Sent) : (s.emit o).keeper = s.keeper := by rfl
@[simp] theorem State.emit_wm (s : State) (o : Sent) : (s.emit o).wm = s.wm := by rfl
@[simp] theorem State.emit_chain (s : State) (o : Sent) : (s.emit o).chain = s.chain := by rfl
@[simp] theorem State.emit_dict (s : State) (o : Sent) : (s.emit o).dict = s.dict := by rfl
@[simp] theorem State.emit_tamper (s : State) (o : Sent) : (s.emit o).tamper = s.tamper := by rfl
@[simp] theorem State.emit_life (s : State) (o : Sent) : (s.emit o).life = s.life := by rfl
@[simp] theorem State.emit_chk (s : State) (o : Sent) : (s.emit o).chk = s.chk := by rfl
@[simp] theorem State.emit_sil (s : State) (o : Sent) : (s.emit o).sil = s.sil := by rfl
@[simp] theorem State.emit_rst (s : State) (o : Sent) : (s.emit o).rst = s.rst := by rfl
@[simp] theorem State.emit_free (s : State) (o : Sent) : (s.emit o).free = s.free := by rfl
@[simp] theorem State.emit_pending (s : State) (o : Sent) : (s.emit o).pending = s.pending := by rfl

@[simp] theorem State.resetDue_tick (s : State) (r b : Nat) : (s.resetDue r b).tick = s.tick := by rfl
@[simp] theorem State.resetDue_window (s : State) (r b : Nat) : (s.resetDue r b).window = s.window := by rfl
@[simp] theorem State.resetDue_host (s : State) (r b : Nat) : (s.resetDue r b).host = s.host := by rfl
@[simp] theorem State.resetDue_rings (s : State) (r b : Nat) : (s.resetDue r b).rings = s.rings := by rfl
@[simp] theorem State.resetDue_slices (s : State) (r b : Nat) : (s.resetDue r b).slices = s.slices := by rfl
@[simp] theorem State.resetDue_jobs (s : State) (r b : Nat) : (s.resetDue r b).jobs = s.jobs := by rfl
@[simp] theorem State.resetDue_lanes (s : State) (r b : Nat) : (s.resetDue r b).lanes = s.lanes := by rfl
@[simp] theorem State.resetDue_sched (s : State) (r b : Nat) : (s.resetDue r b).sched = s.sched := by rfl
@[simp] theorem State.resetDue_keys (s : State) (r b : Nat) : (s.resetDue r b).keys = s.keys := by rfl
@[simp] theorem State.resetDue_vault (s : State) (r b : Nat) : (s.resetDue r b).vault = s.vault := by rfl
@[simp] theorem State.resetDue_ent (s : State) (r b : Nat) : (s.resetDue r b).ent = s.ent := by rfl
@[simp] theorem State.resetDue_keeper (s : State) (r b : Nat) : (s.resetDue r b).keeper = s.keeper := by rfl
@[simp] theorem State.resetDue_wm (s : State) (r b : Nat) : (s.resetDue r b).wm = s.wm := by rfl
@[simp] theorem State.resetDue_chain (s : State) (r b : Nat) : (s.resetDue r b).chain = s.chain := by rfl
@[simp] theorem State.resetDue_dict (s : State) (r b : Nat) : (s.resetDue r b).dict = s.dict := by rfl
@[simp] theorem State.resetDue_tamper (s : State) (r b : Nat) : (s.resetDue r b).tamper = s.tamper := by rfl
@[simp] theorem State.resetDue_life (s : State) (r b : Nat) : (s.resetDue r b).life = s.life := by rfl
@[simp] theorem State.resetDue_chk (s : State) (r b : Nat) : (s.resetDue r b).chk = s.chk := by rfl
@[simp] theorem State.resetDue_sil (s : State) (r b : Nat) : (s.resetDue r b).sil = s.sil := by rfl
@[simp] theorem State.resetDue_sent (s : State) (r b : Nat) : (s.resetDue r b).sent = s.sent := by rfl
@[simp] theorem State.resetDue_free (s : State) (r b : Nat) : (s.resetDue r b).free = s.free := by rfl
@[simp] theorem State.resetDue_pending (s : State) (r b : Nat) : (s.resetDue r b).pending = s.pending := by rfl

@[simp] theorem State.setJob_tick (s : State) (j : Job) : (s.setJob j).tick = s.tick := by rfl
@[simp] theorem State.setJob_window (s : State) (j : Job) : (s.setJob j).window = s.window := by rfl
@[simp] theorem State.setJob_host (s : State) (j : Job) : (s.setJob j).host = s.host := by rfl
@[simp] theorem State.setJob_rings (s : State) (j : Job) : (s.setJob j).rings = s.rings := by rfl
@[simp] theorem State.setJob_slices (s : State) (j : Job) : (s.setJob j).slices = s.slices := by rfl
@[simp] theorem State.setJob_lanes (s : State) (j : Job) : (s.setJob j).lanes = s.lanes := by rfl
@[simp] theorem State.setJob_sched (s : State) (j : Job) : (s.setJob j).sched = s.sched := by rfl
@[simp] theorem State.setJob_keys (s : State) (j : Job) : (s.setJob j).keys = s.keys := by rfl
@[simp] theorem State.setJob_vault (s : State) (j : Job) : (s.setJob j).vault = s.vault := by rfl
@[simp] theorem State.setJob_ent (s : State) (j : Job) : (s.setJob j).ent = s.ent := by rfl
@[simp] theorem State.setJob_keeper (s : State) (j : Job) : (s.setJob j).keeper = s.keeper := by rfl
@[simp] theorem State.setJob_wm (s : State) (j : Job) : (s.setJob j).wm = s.wm := by rfl
@[simp] theorem State.setJob_chain (s : State) (j : Job) : (s.setJob j).chain = s.chain := by rfl
@[simp] theorem State.setJob_dict (s : State) (j : Job) : (s.setJob j).dict = s.dict := by rfl
@[simp] theorem State.setJob_tamper (s : State) (j : Job) : (s.setJob j).tamper = s.tamper := by rfl
@[simp] theorem State.setJob_life (s : State) (j : Job) : (s.setJob j).life = s.life := by rfl
@[simp] theorem State.setJob_chk (s : State) (j : Job) : (s.setJob j).chk = s.chk := by rfl
@[simp] theorem State.setJob_sil (s : State) (j : Job) : (s.setJob j).sil = s.sil := by rfl
@[simp] theorem State.setJob_rst (s : State) (j : Job) : (s.setJob j).rst = s.rst := by rfl
@[simp] theorem State.setJob_sent (s : State) (j : Job) : (s.setJob j).sent = s.sent := by rfl
@[simp] theorem State.setJob_free (s : State) (j : Job) : (s.setJob j).free = s.free := by rfl
@[simp] theorem State.setJob_pending (s : State) (j : Job) : (s.setJob j).pending = s.pending := by rfl

@[simp] theorem State.updJob_tick (s : State) (id : Nat) (f : Job → Job) : (s.updJob id f).tick = s.tick := by rfl
@[simp] theorem State.updJob_window (s : State) (id : Nat) (f : Job → Job) : (s.updJob id f).window = s.window := by rfl
@[simp] theorem State.updJob_host (s : State) (id : Nat) (f : Job → Job) : (s.updJob id f).host = s.host := by rfl
@[simp] theorem State.updJob_rings (s : State) (id : Nat) (f : Job → Job) : (s.updJob id f).rings = s.rings := by rfl
@[simp] theorem State.updJob_slices (s : State) (id : Nat) (f : Job → Job) : (s.updJob id f).slices = s.slices := by rfl
@[simp] theorem State.updJob_lanes (s : State) (id : Nat) (f : Job → Job) : (s.updJob id f).lanes = s.lanes := by rfl
@[simp] theorem State.updJob_sched (s : State) (id : Nat) (f : Job → Job) : (s.updJob id f).sched = s.sched := by rfl
@[simp] theorem State.updJob_keys (s : State) (id : Nat) (f : Job → Job) : (s.updJob id f).keys = s.keys := by rfl
@[simp] theorem State.updJob_vault (s : State) (id : Nat) (f : Job → Job) : (s.updJob id f).vault = s.vault := by rfl
@[simp] theorem State.updJob_ent (s : State) (id : Nat) (f : Job → Job) : (s.updJob id f).ent = s.ent := by rfl
@[simp] theorem State.updJob_keeper (s : State) (id : Nat) (f : Job → Job) : (s.updJob id f).keeper = s.keeper := by rfl
@[simp] theorem State.updJob_wm (s : State) (id : Nat) (f : Job → Job) : (s.updJob id f).wm = s.wm := by rfl
@[simp] theorem State.updJob_chain (s : State) (id : Nat) (f : Job → Job) : (s.updJob id f).chain = s.chain := by rfl
@[simp] theorem State.updJob_dict (s : State) (id : Nat) (f : Job → Job) : (s.updJob id f).dict = s.dict := by rfl
@[simp] theorem State.updJob_tamper (s : State) (id : Nat) (f : Job → Job) : (s.updJob id f).tamper = s.tamper := by rfl
@[simp] theorem State.updJob_life (s : State) (id : Nat) (f : Job → Job) : (s.updJob id f).life = s.life := by rfl
@[simp] theorem State.updJob_chk (s : State) (id : Nat) (f : Job → Job) : (s.updJob id f).chk = s.chk := by rfl
@[simp] theorem State.updJob_sil (s : State) (id : Nat) (f : Job → Job) : (s.updJob id f).sil = s.sil := by rfl
@[simp] theorem State.updJob_rst (s : State) (id : Nat) (f : Job → Job) : (s.updJob id f).rst = s.rst := by rfl
@[simp] theorem State.updJob_sent (s : State) (id : Nat) (f : Job → Job) : (s.updJob id f).sent = s.sent := by rfl
@[simp] theorem State.updJob_free (s : State) (id : Nat) (f : Job → Job) : (s.updJob id f).free = s.free := by rfl
@[simp] theorem State.updJob_pending (s : State) (id : Nat) (f : Job → Job) : (s.updJob id f).pending = s.pending := by rfl

@[simp] theorem State.dropJob_tick (s : State) (id : Nat) : (s.dropJob id).tick = s.tick := by rfl
@[simp] theorem State.dropJob_window (s : State) (id : Nat) : (s.dropJob id).window = s.window := by rfl
@[simp] theorem State.dropJob_host (s : State) (id : Nat) : (s.dropJob id).host = s.host := by rfl
@[simp] theorem State.dropJob_rings (s : State) (id : Nat) : (s.dropJob id).rings = s.rings := by rfl
@[simp] theorem State.dropJob_slices (s : State) (id : Nat) : (s.dropJob id).slices = s.slices := by rfl
@[simp] theorem State.dropJob_lanes (s : State) (id : Nat) : (s.dropJob id).lanes = s.lanes := by rfl
@[simp] theorem State.dropJob_sched (s : State) (id : Nat) : (s.dropJob id).sched = s.sched := by rfl
@[simp] theorem State.dropJob_keys (s : State) (id : Nat) : (s.dropJob id).keys = s.keys := by rfl
@[simp] theorem State.dropJob_vault (s : State) (id : Nat) : (s.dropJob id).vault = s.vault := by rfl
@[simp] theorem State.dropJob_ent (s : State) (id : Nat) : (s.dropJob id).ent = s.ent := by rfl
@[simp] theorem State.dropJob_keeper (s : State) (id : Nat) : (s.dropJob id).keeper = s.keeper := by rfl
@[simp] theorem State.dropJob_wm (s : State) (id : Nat) : (s.dropJob id).wm = s.wm := by rfl
@[simp] theorem State.dropJob_chain (s : State) (id : Nat) : (s.dropJob id).chain = s.chain := by rfl
@[simp] theorem State.dropJob_dict (s : State) (id : Nat) : (s.dropJob id).dict = s.dict := by rfl
@[simp] theorem State.dropJob_tamper (s : State) (id : Nat) : (s.dropJob id).tamper = s.tamper := by rfl
@[simp] theorem State.dropJob_life (s : State) (id : Nat) : (s.dropJob id).life = s.life := by rfl
@[simp] theorem State.dropJob_chk (s : State) (id : Nat) : (s.dropJob id).chk = s.chk := by rfl
@[simp] theorem State.dropJob_sil (s : State) (id : Nat) : (s.dropJob id).sil = s.sil := by rfl
@[simp] theorem State.dropJob_rst (s : State) (id : Nat) : (s.dropJob id).rst = s.rst := by rfl
@[simp] theorem State.dropJob_sent (s : State) (id : Nat) : (s.dropJob id).sent = s.sent := by rfl
@[simp] theorem State.dropJob_free (s : State) (id : Nat) : (s.dropJob id).free = s.free := by rfl
@[simp] theorem State.dropJob_pending (s : State) (id : Nat) : (s.dropJob id).pending = s.pending := by rfl

@[simp] theorem State.force_tick (s : State) (id st r : Nat) : (s.force id st r).tick = s.tick := by rfl
@[simp] theorem State.force_window (s : State) (id st r : Nat) : (s.force id st r).window = s.window := by rfl
@[simp] theorem State.force_host (s : State) (id st r : Nat) : (s.force id st r).host = s.host := by rfl
@[simp] theorem State.force_rings (s : State) (id st r : Nat) : (s.force id st r).rings = s.rings := by rfl
@[simp] theorem State.force_slices (s : State) (id st r : Nat) : (s.force id st r).slices = s.slices := by rfl
@[simp] theorem State.force_lanes (s : State) (id st r : Nat) : (s.force id st r).lanes = s.lanes := by rfl
@[simp] theorem State.force_sched (s : State) (id st r : Nat) : (s.force id st r).sched = s.sched := by rfl
@[simp] theorem State.force_keys (s : State) (id st r : Nat) : (s.force id st r).keys = s.keys := by rfl
@[simp] theorem State.force_vault (s : State) (id st r : Nat) : (s.force id st r).vault = s.vault := by rfl
@[simp] theorem State.force_ent (s : State) (id st r : Nat) : (s.force id st r).ent = s.ent := by rfl
@[simp] theorem State.force_keeper (s : State) (id st r : Nat) : (s.force id st r).keeper = s.keeper := by rfl
@[simp] theorem State.force_wm (s : State) (id st r : Nat) : (s.force id st r).wm = s.wm := by rfl
@[simp] theorem State.force_chain (s : State) (id st r : Nat) : (s.force id st r).chain = s.chain := by rfl
@[simp] theorem State.force_dict (s : State) (id st r : Nat) : (s.force id st r).dict = s.dict := by rfl
@[simp] theorem State.force_tamper (s : State) (id st r : Nat) : (s.force id st r).tamper = s.tamper := by rfl
@[simp] theorem State.force_life (s : State) (id st r : Nat) : (s.force id st r).life = s.life := by rfl
@[simp] theorem State.force_chk (s : State) (id st r : Nat) : (s.force id st r).chk = s.chk := by rfl
@[simp] theorem State.force_sil (s : State) (id st r : Nat) : (s.force id st r).sil = s.sil := by rfl
@[simp] theorem State.force_rst (s : State) (id st r : Nat) : (s.force id st r).rst = s.rst := by rfl
@[simp] theorem State.force_sent (s : State) (id st r : Nat) : (s.force id st r).sent = s.sent := by rfl
@[simp] theorem State.force_free (s : State) (id st r : Nat) : (s.force id st r).free = s.free := by rfl
@[simp] theorem State.force_pending (s : State) (id st r : Nat) : (s.force id st r).pending = s.pending := by rfl

@[simp] theorem State.offLane_tick (s : State) (id : Nat) : (s.offLane id).tick = s.tick := by rfl
@[simp] theorem State.offLane_window (s : State) (id : Nat) : (s.offLane id).window = s.window := by rfl
@[simp] theorem State.offLane_host (s : State) (id : Nat) : (s.offLane id).host = s.host := by rfl
@[simp] theorem State.offLane_rings (s : State) (id : Nat) : (s.offLane id).rings = s.rings := by rfl
@[simp] theorem State.offLane_slices (s : State) (id : Nat) : (s.offLane id).slices = s.slices := by rfl
@[simp] theorem State.offLane_jobs (s : State) (id : Nat) : (s.offLane id).jobs = s.jobs := by rfl
@[simp] theorem State.offLane_sched (s : State) (id : Nat) : (s.offLane id).sched = s.sched := by rfl
@[simp] theorem State.offLane_keys (s : State) (id : Nat) : (s.offLane id).keys = s.keys := by rfl
@[simp] theorem State.offLane_vault (s : State) (id : Nat) : (s.offLane id).vault = s.vault := by rfl
@[simp] theorem State.offLane_ent (s : State) (id : Nat) : (s.offLane id).ent = s.ent := by rfl
@[simp] theorem State.offLane_keeper (s : State) (id : Nat) : (s.offLane id).keeper = s.keeper := by rfl
@[simp] theorem State.offLane_wm (s : State) (id : Nat) : (s.offLane id).wm = s.wm := by rfl
@[simp] theorem State.offLane_chain (s : State) (id : Nat) : (s.offLane id).chain = s.chain := by rfl
@[simp] theorem State.offLane_dict (s : State) (id : Nat) : (s.offLane id).dict = s.dict := by rfl
@[simp] theorem State.offLane_tamper (s : State) (id : Nat) : (s.offLane id).tamper = s.tamper := by rfl
@[simp] theorem State.offLane_life (s : State) (id : Nat) : (s.offLane id).life = s.life := by rfl
@[simp] theorem State.offLane_chk (s : State) (id : Nat) : (s.offLane id).chk = s.chk := by rfl
@[simp] theorem State.offLane_sil (s : State) (id : Nat) : (s.offLane id).sil = s.sil := by rfl
@[simp] theorem State.offLane_rst (s : State) (id : Nat) : (s.offLane id).rst = s.rst := by rfl
@[simp] theorem State.offLane_sent (s : State) (id : Nat) : (s.offLane id).sent = s.sent := by rfl
@[simp] theorem State.offLane_free (s : State) (id : Nat) : (s.offLane id).free = s.free := by rfl
@[simp] theorem State.offLane_pending (s : State) (id : Nat) : (s.offLane id).pending = s.pending := by rfl

@[simp] theorem State.endLeave_tick (s : State) (id : Nat) : (s.endLeave id).tick = s.tick := by rfl
@[simp] theorem State.endLeave_window (s : State) (id : Nat) : (s.endLeave id).window = s.window := by rfl
@[simp] theorem State.endLeave_host (s : State) (id : Nat) : (s.endLeave id).host = s.host := by rfl
@[simp] theorem State.endLeave_rings (s : State) (id : Nat) : (s.endLeave id).rings = s.rings := by rfl
@[simp] theorem State.endLeave_slices (s : State) (id : Nat) : (s.endLeave id).slices = s.slices := by rfl
@[simp] theorem State.endLeave_jobs (s : State) (id : Nat) : (s.endLeave id).jobs = s.jobs := by rfl
@[simp] theorem State.endLeave_lanes (s : State) (id : Nat) : (s.endLeave id).lanes = s.lanes := by rfl
@[simp] theorem State.endLeave_keys (s : State) (id : Nat) : (s.endLeave id).keys = s.keys := by rfl
@[simp] theorem State.endLeave_vault (s : State) (id : Nat) : (s.endLeave id).vault = s.vault := by rfl
@[simp] theorem State.endLeave_ent (s : State) (id : Nat) : (s.endLeave id).ent = s.ent := by rfl
@[simp] theorem State.endLeave_keeper (s : State) (id : Nat) : (s.endLeave id).keeper = s.keeper := by rfl
@[simp] theorem State.endLeave_wm (s : State) (id : Nat) : (s.endLeave id).wm = s.wm := by rfl
@[simp] theorem State.endLeave_chain (s : State) (id : Nat) : (s.endLeave id).chain = s.chain := by rfl
@[simp] theorem State.endLeave_dict (s : State) (id : Nat) : (s.endLeave id).dict = s.dict := by rfl
@[simp] theorem State.endLeave_tamper (s : State) (id : Nat) : (s.endLeave id).tamper = s.tamper := by rfl
@[simp] theorem State.endLeave_life (s : State) (id : Nat) : (s.endLeave id).life = s.life := by rfl
@[simp] theorem State.endLeave_chk (s : State) (id : Nat) : (s.endLeave id).chk = s.chk := by rfl
@[simp] theorem State.endLeave_sil (s : State) (id : Nat) : (s.endLeave id).sil = s.sil := by rfl
@[simp] theorem State.endLeave_rst (s : State) (id : Nat) : (s.endLeave id).rst = s.rst := by rfl
@[simp] theorem State.endLeave_sent (s : State) (id : Nat) : (s.endLeave id).sent = s.sent := by rfl
@[simp] theorem State.endLeave_free (s : State) (id : Nat) : (s.endLeave id).free = s.free := by rfl
@[simp] theorem State.endLeave_pending (s : State) (id : Nat) : (s.endLeave id).pending = s.pending := by rfl

@[simp] theorem State.freeWindows_tick (s : State) (id : Nat) : (s.freeWindows id).tick = s.tick := by rfl
@[simp] theorem State.freeWindows_window (s : State) (id : Nat) : (s.freeWindows id).window = s.window := by rfl
@[simp] theorem State.freeWindows_host (s : State) (id : Nat) : (s.freeWindows id).host = s.host := by rfl
@[simp] theorem State.freeWindows_rings (s : State) (id : Nat) : (s.freeWindows id).rings = s.rings := by rfl
@[simp] theorem State.freeWindows_jobs (s : State) (id : Nat) : (s.freeWindows id).jobs = s.jobs := by rfl
@[simp] theorem State.freeWindows_lanes (s : State) (id : Nat) : (s.freeWindows id).lanes = s.lanes := by rfl
@[simp] theorem State.freeWindows_sched (s : State) (id : Nat) : (s.freeWindows id).sched = s.sched := by rfl
@[simp] theorem State.freeWindows_keys (s : State) (id : Nat) : (s.freeWindows id).keys = s.keys := by rfl
@[simp] theorem State.freeWindows_vault (s : State) (id : Nat) : (s.freeWindows id).vault = s.vault := by rfl
@[simp] theorem State.freeWindows_ent (s : State) (id : Nat) : (s.freeWindows id).ent = s.ent := by rfl
@[simp] theorem State.freeWindows_keeper (s : State) (id : Nat) : (s.freeWindows id).keeper = s.keeper := by rfl
@[simp] theorem State.freeWindows_wm (s : State) (id : Nat) : (s.freeWindows id).wm = s.wm := by rfl
@[simp] theorem State.freeWindows_chain (s : State) (id : Nat) : (s.freeWindows id).chain = s.chain := by rfl
@[simp] theorem State.freeWindows_dict (s : State) (id : Nat) : (s.freeWindows id).dict = s.dict := by rfl
@[simp] theorem State.freeWindows_tamper (s : State) (id : Nat) : (s.freeWindows id).tamper = s.tamper := by rfl
@[simp] theorem State.freeWindows_life (s : State) (id : Nat) : (s.freeWindows id).life = s.life := by rfl
@[simp] theorem State.freeWindows_chk (s : State) (id : Nat) : (s.freeWindows id).chk = s.chk := by rfl
@[simp] theorem State.freeWindows_sil (s : State) (id : Nat) : (s.freeWindows id).sil = s.sil := by rfl
@[simp] theorem State.freeWindows_rst (s : State) (id : Nat) : (s.freeWindows id).rst = s.rst := by rfl
@[simp] theorem State.freeWindows_sent (s : State) (id : Nat) : (s.freeWindows id).sent = s.sent := by rfl
@[simp] theorem State.freeWindows_free (s : State) (id : Nat) : (s.freeWindows id).free = s.free := by rfl
@[simp] theorem State.freeWindows_pending (s : State) (id : Nat) : (s.freeWindows id).pending = s.pending := by rfl

@[simp] theorem State.stopJob_tick (s : State) (id : Nat) : (s.stopJob id).tick = s.tick := by rfl
@[simp] theorem State.stopJob_window (s : State) (id : Nat) : (s.stopJob id).window = s.window := by rfl
@[simp] theorem State.stopJob_host (s : State) (id : Nat) : (s.stopJob id).host = s.host := by rfl
@[simp] theorem State.stopJob_rings (s : State) (id : Nat) : (s.stopJob id).rings = s.rings := by rfl
@[simp] theorem State.stopJob_jobs (s : State) (id : Nat) : (s.stopJob id).jobs = s.jobs := by rfl
@[simp] theorem State.stopJob_keys (s : State) (id : Nat) : (s.stopJob id).keys = s.keys := by rfl
@[simp] theorem State.stopJob_vault (s : State) (id : Nat) : (s.stopJob id).vault = s.vault := by rfl
@[simp] theorem State.stopJob_ent (s : State) (id : Nat) : (s.stopJob id).ent = s.ent := by rfl
@[simp] theorem State.stopJob_keeper (s : State) (id : Nat) : (s.stopJob id).keeper = s.keeper := by rfl
@[simp] theorem State.stopJob_wm (s : State) (id : Nat) : (s.stopJob id).wm = s.wm := by rfl
@[simp] theorem State.stopJob_chain (s : State) (id : Nat) : (s.stopJob id).chain = s.chain := by rfl
@[simp] theorem State.stopJob_dict (s : State) (id : Nat) : (s.stopJob id).dict = s.dict := by rfl
@[simp] theorem State.stopJob_tamper (s : State) (id : Nat) : (s.stopJob id).tamper = s.tamper := by rfl
@[simp] theorem State.stopJob_life (s : State) (id : Nat) : (s.stopJob id).life = s.life := by rfl
@[simp] theorem State.stopJob_chk (s : State) (id : Nat) : (s.stopJob id).chk = s.chk := by rfl
@[simp] theorem State.stopJob_sil (s : State) (id : Nat) : (s.stopJob id).sil = s.sil := by rfl
@[simp] theorem State.stopJob_rst (s : State) (id : Nat) : (s.stopJob id).rst = s.rst := by rfl
@[simp] theorem State.stopJob_sent (s : State) (id : Nat) : (s.stopJob id).sent = s.sent := by rfl
@[simp] theorem State.stopJob_free (s : State) (id : Nat) : (s.stopJob id).free = s.free := by rfl
@[simp] theorem State.stopJob_pending (s : State) (id : Nat) : (s.stopJob id).pending = s.pending := by rfl

@[simp] theorem State.finish_tick (s : State) (id st r d : Nat) : (s.finish id st r d).tick = s.tick := by rfl
@[simp] theorem State.finish_window (s : State) (id st r d : Nat) : (s.finish id st r d).window = s.window := by rfl
@[simp] theorem State.finish_host (s : State) (id st r d : Nat) : (s.finish id st r d).host = s.host := by rfl
@[simp] theorem State.finish_rings (s : State) (id st r d : Nat) : (s.finish id st r d).rings = s.rings := by rfl
@[simp] theorem State.finish_keys (s : State) (id st r d : Nat) : (s.finish id st r d).keys = s.keys := by rfl
@[simp] theorem State.finish_vault (s : State) (id st r d : Nat) : (s.finish id st r d).vault = s.vault := by rfl
@[simp] theorem State.finish_ent (s : State) (id st r d : Nat) : (s.finish id st r d).ent = s.ent := by rfl
@[simp] theorem State.finish_keeper (s : State) (id st r d : Nat) : (s.finish id st r d).keeper = s.keeper := by rfl
@[simp] theorem State.finish_wm (s : State) (id st r d : Nat) : (s.finish id st r d).wm = s.wm := by rfl
@[simp] theorem State.finish_chain (s : State) (id st r d : Nat) : (s.finish id st r d).chain = s.chain := by rfl
@[simp] theorem State.finish_dict (s : State) (id st r d : Nat) : (s.finish id st r d).dict = s.dict := by rfl
@[simp] theorem State.finish_tamper (s : State) (id st r d : Nat) : (s.finish id st r d).tamper = s.tamper := by rfl
@[simp] theorem State.finish_life (s : State) (id st r d : Nat) : (s.finish id st r d).life = s.life := by rfl
@[simp] theorem State.finish_chk (s : State) (id st r d : Nat) : (s.finish id st r d).chk = s.chk := by rfl
@[simp] theorem State.finish_sil (s : State) (id st r d : Nat) : (s.finish id st r d).sil = s.sil := by rfl
@[simp] theorem State.finish_rst (s : State) (id st r d : Nat) : (s.finish id st r d).rst = s.rst := by rfl
@[simp] theorem State.finish_sent (s : State) (id st r d : Nat) : (s.finish id st r d).sent = s.sent := by rfl
@[simp] theorem State.finish_free (s : State) (id st r d : Nat) : (s.finish id st r d).free = s.free := by rfl
@[simp] theorem State.finish_pending (s : State) (id st r d : Nat) : (s.finish id st r d).pending = s.pending := by rfl

@[simp] theorem State.setDrive_tick (s : State) (p : Nat) (x : Drive) : (s.setDrive p x).tick = s.tick := by unfold State.setDrive; split <;> rfl
@[simp] theorem State.setDrive_window (s : State) (p : Nat) (x : Drive) : (s.setDrive p x).window = s.window := by unfold State.setDrive; split <;> rfl
@[simp] theorem State.setDrive_host (s : State) (p : Nat) (x : Drive) : (s.setDrive p x).host = s.host := by unfold State.setDrive; split <;> rfl
@[simp] theorem State.setDrive_rings (s : State) (p : Nat) (x : Drive) : (s.setDrive p x).rings = s.rings := by unfold State.setDrive; split <;> rfl
@[simp] theorem State.setDrive_slices (s : State) (p : Nat) (x : Drive) : (s.setDrive p x).slices = s.slices := by unfold State.setDrive; split <;> rfl
@[simp] theorem State.setDrive_jobs (s : State) (p : Nat) (x : Drive) : (s.setDrive p x).jobs = s.jobs := by unfold State.setDrive; split <;> rfl
@[simp] theorem State.setDrive_lanes (s : State) (p : Nat) (x : Drive) : (s.setDrive p x).lanes = s.lanes := by unfold State.setDrive; split <;> rfl
@[simp] theorem State.setDrive_sched (s : State) (p : Nat) (x : Drive) : (s.setDrive p x).sched = s.sched := by unfold State.setDrive; split <;> rfl
@[simp] theorem State.setDrive_keys (s : State) (p : Nat) (x : Drive) : (s.setDrive p x).keys = s.keys := by unfold State.setDrive; split <;> rfl
@[simp] theorem State.setDrive_ent (s : State) (p : Nat) (x : Drive) : (s.setDrive p x).ent = s.ent := by unfold State.setDrive; split <;> rfl
@[simp] theorem State.setDrive_keeper (s : State) (p : Nat) (x : Drive) : (s.setDrive p x).keeper = s.keeper := by unfold State.setDrive; split <;> rfl
@[simp] theorem State.setDrive_wm (s : State) (p : Nat) (x : Drive) : (s.setDrive p x).wm = s.wm := by unfold State.setDrive; split <;> rfl
@[simp] theorem State.setDrive_chain (s : State) (p : Nat) (x : Drive) : (s.setDrive p x).chain = s.chain := by unfold State.setDrive; split <;> rfl
@[simp] theorem State.setDrive_dict (s : State) (p : Nat) (x : Drive) : (s.setDrive p x).dict = s.dict := by unfold State.setDrive; split <;> rfl
@[simp] theorem State.setDrive_tamper (s : State) (p : Nat) (x : Drive) : (s.setDrive p x).tamper = s.tamper := by unfold State.setDrive; split <;> rfl
@[simp] theorem State.setDrive_life (s : State) (p : Nat) (x : Drive) : (s.setDrive p x).life = s.life := by unfold State.setDrive; split <;> rfl
@[simp] theorem State.setDrive_chk (s : State) (p : Nat) (x : Drive) : (s.setDrive p x).chk = s.chk := by unfold State.setDrive; split <;> rfl
@[simp] theorem State.setDrive_sil (s : State) (p : Nat) (x : Drive) : (s.setDrive p x).sil = s.sil := by unfold State.setDrive; split <;> rfl
@[simp] theorem State.setDrive_rst (s : State) (p : Nat) (x : Drive) : (s.setDrive p x).rst = s.rst := by unfold State.setDrive; split <;> rfl
@[simp] theorem State.setDrive_sent (s : State) (p : Nat) (x : Drive) : (s.setDrive p x).sent = s.sent := by unfold State.setDrive; split <;> rfl
@[simp] theorem State.setDrive_free (s : State) (p : Nat) (x : Drive) : (s.setDrive p x).free = s.free := by unfold State.setDrive; split <;> rfl
@[simp] theorem State.setDrive_pending (s : State) (p : Nat) (x : Drive) : (s.setDrive p x).pending = s.pending := by unfold State.setDrive; split <;> rfl

@[simp] theorem State.updDrive_tick (s : State) (p : Nat) (f : Drive → Drive) : (s.updDrive p f).tick = s.tick := State.setDrive_tick s p _
@[simp] theorem State.updDrive_window (s : State) (p : Nat) (f : Drive → Drive) : (s.updDrive p f).window = s.window := State.setDrive_window s p _
@[simp] theorem State.updDrive_host (s : State) (p : Nat) (f : Drive → Drive) : (s.updDrive p f).host = s.host := State.setDrive_host s p _
@[simp] theorem State.updDrive_rings (s : State) (p : Nat) (f : Drive → Drive) : (s.updDrive p f).rings = s.rings := State.setDrive_rings s p _
@[simp] theorem State.updDrive_slices (s : State) (p : Nat) (f : Drive → Drive) : (s.updDrive p f).slices = s.slices := State.setDrive_slices s p _
@[simp] theorem State.updDrive_jobs (s : State) (p : Nat) (f : Drive → Drive) : (s.updDrive p f).jobs = s.jobs := State.setDrive_jobs s p _
@[simp] theorem State.updDrive_lanes (s : State) (p : Nat) (f : Drive → Drive) : (s.updDrive p f).lanes = s.lanes := State.setDrive_lanes s p _
@[simp] theorem State.updDrive_sched (s : State) (p : Nat) (f : Drive → Drive) : (s.updDrive p f).sched = s.sched := State.setDrive_sched s p _
@[simp] theorem State.updDrive_keys (s : State) (p : Nat) (f : Drive → Drive) : (s.updDrive p f).keys = s.keys := State.setDrive_keys s p _
@[simp] theorem State.updDrive_ent (s : State) (p : Nat) (f : Drive → Drive) : (s.updDrive p f).ent = s.ent := State.setDrive_ent s p _
@[simp] theorem State.updDrive_keeper (s : State) (p : Nat) (f : Drive → Drive) : (s.updDrive p f).keeper = s.keeper := State.setDrive_keeper s p _
@[simp] theorem State.updDrive_wm (s : State) (p : Nat) (f : Drive → Drive) : (s.updDrive p f).wm = s.wm := State.setDrive_wm s p _
@[simp] theorem State.updDrive_chain (s : State) (p : Nat) (f : Drive → Drive) : (s.updDrive p f).chain = s.chain := State.setDrive_chain s p _
@[simp] theorem State.updDrive_dict (s : State) (p : Nat) (f : Drive → Drive) : (s.updDrive p f).dict = s.dict := State.setDrive_dict s p _
@[simp] theorem State.updDrive_tamper (s : State) (p : Nat) (f : Drive → Drive) : (s.updDrive p f).tamper = s.tamper := State.setDrive_tamper s p _
@[simp] theorem State.updDrive_life (s : State) (p : Nat) (f : Drive → Drive) : (s.updDrive p f).life = s.life := State.setDrive_life s p _
@[simp] theorem State.updDrive_chk (s : State) (p : Nat) (f : Drive → Drive) : (s.updDrive p f).chk = s.chk := State.setDrive_chk s p _
@[simp] theorem State.updDrive_sil (s : State) (p : Nat) (f : Drive → Drive) : (s.updDrive p f).sil = s.sil := State.setDrive_sil s p _
@[simp] theorem State.updDrive_rst (s : State) (p : Nat) (f : Drive → Drive) : (s.updDrive p f).rst = s.rst := State.setDrive_rst s p _
@[simp] theorem State.updDrive_sent (s : State) (p : Nat) (f : Drive → Drive) : (s.updDrive p f).sent = s.sent := State.setDrive_sent s p _
@[simp] theorem State.updDrive_free (s : State) (p : Nat) (f : Drive → Drive) : (s.updDrive p f).free = s.free := State.setDrive_free s p _
@[simp] theorem State.updDrive_pending (s : State) (p : Nat) (f : Drive → Drive) : (s.updDrive p f).pending = s.pending := State.setDrive_pending s p _

@[simp] theorem State.setWsp_tick (s : State) (n : Nat) (x : Wellspring) : (s.setWsp n x).tick = s.tick := by unfold State.setWsp; split <;> rfl
@[simp] theorem State.setWsp_window (s : State) (n : Nat) (x : Wellspring) : (s.setWsp n x).window = s.window := by unfold State.setWsp; split <;> rfl
@[simp] theorem State.setWsp_host (s : State) (n : Nat) (x : Wellspring) : (s.setWsp n x).host = s.host := by unfold State.setWsp; split <;> rfl
@[simp] theorem State.setWsp_rings (s : State) (n : Nat) (x : Wellspring) : (s.setWsp n x).rings = s.rings := by unfold State.setWsp; split <;> rfl
@[simp] theorem State.setWsp_slices (s : State) (n : Nat) (x : Wellspring) : (s.setWsp n x).slices = s.slices := by unfold State.setWsp; split <;> rfl
@[simp] theorem State.setWsp_jobs (s : State) (n : Nat) (x : Wellspring) : (s.setWsp n x).jobs = s.jobs := by unfold State.setWsp; split <;> rfl
@[simp] theorem State.setWsp_lanes (s : State) (n : Nat) (x : Wellspring) : (s.setWsp n x).lanes = s.lanes := by unfold State.setWsp; split <;> rfl
@[simp] theorem State.setWsp_sched (s : State) (n : Nat) (x : Wellspring) : (s.setWsp n x).sched = s.sched := by unfold State.setWsp; split <;> rfl
@[simp] theorem State.setWsp_keys (s : State) (n : Nat) (x : Wellspring) : (s.setWsp n x).keys = s.keys := by unfold State.setWsp; split <;> rfl
@[simp] theorem State.setWsp_vault (s : State) (n : Nat) (x : Wellspring) : (s.setWsp n x).vault = s.vault := by unfold State.setWsp; split <;> rfl
@[simp] theorem State.setWsp_keeper (s : State) (n : Nat) (x : Wellspring) : (s.setWsp n x).keeper = s.keeper := by unfold State.setWsp; split <;> rfl
@[simp] theorem State.setWsp_wm (s : State) (n : Nat) (x : Wellspring) : (s.setWsp n x).wm = s.wm := by unfold State.setWsp; split <;> rfl
@[simp] theorem State.setWsp_chain (s : State) (n : Nat) (x : Wellspring) : (s.setWsp n x).chain = s.chain := by unfold State.setWsp; split <;> rfl
@[simp] theorem State.setWsp_dict (s : State) (n : Nat) (x : Wellspring) : (s.setWsp n x).dict = s.dict := by unfold State.setWsp; split <;> rfl
@[simp] theorem State.setWsp_tamper (s : State) (n : Nat) (x : Wellspring) : (s.setWsp n x).tamper = s.tamper := by unfold State.setWsp; split <;> rfl
@[simp] theorem State.setWsp_life (s : State) (n : Nat) (x : Wellspring) : (s.setWsp n x).life = s.life := by unfold State.setWsp; split <;> rfl
@[simp] theorem State.setWsp_chk (s : State) (n : Nat) (x : Wellspring) : (s.setWsp n x).chk = s.chk := by unfold State.setWsp; split <;> rfl
@[simp] theorem State.setWsp_sil (s : State) (n : Nat) (x : Wellspring) : (s.setWsp n x).sil = s.sil := by unfold State.setWsp; split <;> rfl
@[simp] theorem State.setWsp_rst (s : State) (n : Nat) (x : Wellspring) : (s.setWsp n x).rst = s.rst := by unfold State.setWsp; split <;> rfl
@[simp] theorem State.setWsp_sent (s : State) (n : Nat) (x : Wellspring) : (s.setWsp n x).sent = s.sent := by unfold State.setWsp; split <;> rfl
@[simp] theorem State.setWsp_free (s : State) (n : Nat) (x : Wellspring) : (s.setWsp n x).free = s.free := by unfold State.setWsp; split <;> rfl
@[simp] theorem State.setWsp_pending (s : State) (n : Nat) (x : Wellspring) : (s.setWsp n x).pending = s.pending := by unfold State.setWsp; split <;> rfl

/-! What each writes. -/

@[simp] theorem State.setRing_rings (s : State) (n : Nat) (x : RingPair) : (s.setRing n x).rings = SMap.set RingPair.reset n x s.rings := by rfl
@[simp] theorem State.setSlice_slices (s : State) (n : Nat) (x : SliceCtx) : (s.setSlice n x).slices = SMap.set SliceCtx.reset n x s.slices := by rfl
@[simp] theorem State.setPk_pk (s : State) (n : Nat) (x : PkLane) : (s.setPk n x).lanes.pk = SMap.set PkLane.reset n x s.lanes.pk := by rfl
@[simp] theorem State.setSym_sym (s : State) (n : Nat) (x : SymLane) : (s.setSym n x).lanes.sym = SMap.set SymLane.reset n x s.lanes.sym := by rfl
@[simp] theorem State.setCluster_clusters (s : State) (n : Nat) (x : Cluster) : (s.setCluster n x).lanes.clusters = SMap.set Cluster.reset n x s.lanes.clusters := by rfl
@[simp] theorem State.setHeart_hearts (s : State) (n : Nat) (x : Heart) : (s.setHeart n x).keys.hearts = SMap.set Heart.reset n x s.keys.hearts := by rfl
@[simp] theorem State.setChk_chk (s : State) (n : Nat) (x : CheckUnit) : (s.setChk n x).chk = SMap.set CheckUnit.reset n x s.chk := by rfl
@[simp] theorem State.setBlock_blocks (s : State) (n : Nat) (x : Block) : (s.setBlock n x).keeper.blocks = SMap.set Block.reset n x s.keeper.blocks := by rfl
@[simp] theorem State.setNum_nums (s : State) (k v : Nat) : (s.setNum k v).dict.nums = SMap.set (defaultOf k) k v s.dict.nums := by rfl
@[simp] theorem State.setOct_octs (s : State) (k : Nat) (v : Bytes) : (s.setOct k v).dict.octs = SMap.set (octDefault k) k v s.dict.octs := by rfl
@[simp] theorem State.event_queue (s : State) (c : Nat) : (s.event c).sil.queue = s.sil.queue ++ [⟨c, s.tick, false, none, none⟩] := by rfl
@[simp] theorem State.emit_sent (s : State) (o : Sent) : (s.emit o).sent = s.sent ++ [o] := by rfl
@[simp] theorem State.resetDue_reach (s : State) (r b : Nat) : (s.resetDue r b).rst.dueReach = max s.rst.dueReach r := by rfl
@[simp] theorem State.resetDue_causes (s : State) (r b : Nat) : (s.resetDue r b).rst.dueCauses = s.rst.dueCauses ||| 2 ^ b := by rfl
@[simp] theorem State.updJob_jobs (s : State) (id : Nat) (f : Job → Job) : (s.updJob id f).jobs = s.jobs.map (fun i => if i.id = id then f i else i) := by rfl
@[simp] theorem State.dropJob_jobs (s : State) (id : Nat) : (s.dropJob id).jobs = s.jobs.filter (fun i => decide (i.id ≠ id)) := by rfl
@[simp] theorem State.finish_jobs (s : State) (id st r d : Nat) : (s.finish id st r d).jobs =
    s.jobs.map (fun j => if j.id = id then { j with phase := .staged, outcome := some ⟨st, [], r, none, none⟩, due := d, outDone := true, leaveAsked := none, leaveUntil := none } else j) := by rfl

end Sys2Proof.Machine
end

