-- ==== Sys2Proof/Laws/Window.lean ====
section
/-! SUPPORT. What leaves the window flag as it was: one lemma for each operation. -/

namespace Sys2Proof.Machine

set_option linter.unusedTactic false
set_option linter.unreachableTactic false
set_option linter.unnecessarySeqFocus false

@[simp] theorem State.wmStore_window (s : State) (c a : Nat) (bs : Bytes) : (State.wmStore s c a bs).window = s.window := by
  simp [State.wmStore]

@[simp] theorem State.ceClear_window (s : State) (key tick : Nat) : (State.ceClear s key tick).window = s.window := by
  simp [State.ceClear]

@[simp] theorem State.takeNat_window (s : State) : ((State.takeNat s).2).window = s.window := by
  simp [State.takeNat]

@[simp] theorem State.takeBytes_window (s : State) (n : Nat) : ((State.takeBytes s n).2).window = s.window := by
  simp [State.takeBytes]

@[simp] theorem State.takeBool_window (s : State) : ((State.takeBool s).2).window = s.window := by
  simp [State.takeBool]

@[simp] theorem State.guardFault_window (s : State) (cause : Nat) (region second master : Option Nat) : (State.guardFault s cause region second master).window = s.window := by
  simp [State.guardFault]

@[simp] theorem State.guarded_window (s : State) (c : Instr) (f : State → State)
    (h : ∀ st, (f st).window = st.window) :
    (s.guarded c f).window = s.window := by
  simp only [State.guarded]
  split <;> simp [h]

theorem State.debit_window (s : State) (c : Nat) : ∀ t, State.debit s c = some t → t.window = s.window := by
  simp [State.debit]

@[simp] theorem State.seen_window (s : State) : (s.seen).window = s.window := by
  simp only [State.seen]
  split <;> rfl

@[simp] theorem State.show_window (s : State) : (State.show s).window = s.window := by
  simp [State.show]

@[simp] theorem State.showSlice_window (s : State) (n : Nat) : (State.showSlice s n).window = s.window := by
  simp [State.showSlice]

@[simp] theorem State.orphanOwn_window (s : State) (id : Nat) : (State.orphanOwn s id).window = s.window := by
  simp [State.orphanOwn]

@[simp] theorem State.abandon_window (s : State) (id : Nat) : (State.abandon s id).window = s.window := by
  simp [State.abandon]

@[simp] theorem State.scrubJob_window (s : State) (j : Job) : (State.scrubJob s j).window = s.window := by
  simp [State.scrubJob]

@[simp] theorem State.wipeSessions_window (s : State) (slice : Nat) : (State.wipeSessions s slice).window = s.window := by
  simp [State.wipeSessions]

@[simp] theorem State.wipePage_window (s : State) (slice : Nat) : (State.wipePage s slice).window = s.window := by
  simp [State.wipePage]

@[simp] theorem State.dropSliceJobs_window (s : State) (slice : Nat) : (State.dropSliceJobs s slice).window = s.window := by
  simp [State.dropSliceJobs]

@[simp] theorem State.closeTap_window (s : State) : (State.closeTap s).window = s.window := by
  simp [State.closeTap]

@[simp] theorem State.sliceReset_window (s : State) (n : Nat) : (State.sliceReset s n).window = s.window := by
  simp [State.sliceReset]

@[simp] theorem State.slcWrite_window (s : State) (n : Nat) : (State.slcWrite s n).window = s.window := by
  simp [State.slcWrite]

@[simp] theorem State.slcSample_window (s : State) : (State.slcSample s).window = s.window := by
  simp [State.slcSample]

@[simp] theorem State.stopRings_window (s : State) (slice : Nat) : (State.stopRings s slice).window = s.window := by
  simp [State.stopRings]

@[simp] theorem State.resetRecord_window (s : State) (ring count : Nat) : (State.resetRecord s ring count).window = s.window := by
  simp [State.resetRecord]

@[simp] theorem State.writeShadow_window (s : State) (ring : Nat) : (State.writeShadow s ring).window = s.window := by
  simp [State.writeShadow]

@[simp] theorem State.msixOne_window (s : State) (v : Nat) : (State.msixOne s v).window = s.window := by
  simp [State.msixOne]

@[simp] theorem State.msixNow_window (s : State) (p : Nat → Bool) : (State.msixNow s p).window = s.window := by
  simp [State.msixNow]

@[simp] theorem State.sliceResetEnd_window (s : State) (n : Nat) : (State.sliceResetEnd s n).window = s.window := by
  simp only [State.sliceResetEnd]
  repeat' first
    | (simp; done)
    | split

@[simp] theorem State.setEntry_window (s : State) (level index : Nat) (e : TreeEntry) : (State.setEntry s level index e).window = s.window := by
  simp [State.setEntry]

@[simp] theorem State.climb_window (f level index seq : Nat) (s : State) : (s.climb seq f level index).window = s.window := by
  induction f generalizing s level index with
  | zero => exact rfl
  | succ f ih =>
    simp only [State.climb]
    split
    · exact rfl
    · simp [ih]

@[simp] theorem State.setPageEntry_window (s : State) (p seq : Nat) (e : TreeEntry) : (s.setPageEntry p seq e).window = s.window := by
  simp [State.setPageEntry]

@[simp] theorem State.submit_window (s : State) (port : Nat) (told : Bool) (op : NvmeOp) : (State.submit s port told op).window = s.window := by
  unfold State.submit
  repeat' first
    | (simp; done)
    | split

@[simp] theorem State.endWrites_window (s : State) : (State.endWrites s).window = s.window := by
  simp [State.endWrites]

@[simp] theorem State.endRead_window (s : State) (port block : Nat) : (State.endRead s port block).window = s.window := by
  simp [State.endRead]

@[simp] theorem State.submitAll_window (s : State) (port : Nat) (ops : List NvmeOp) : (State.submitAll s port ops).window = s.window := by
  simp [State.submitAll]

@[simp] theorem State.touchNode_window (s : State) (level index : Nat) : (State.touchNode s level index).window = s.window := by
  simp [State.touchNode]

@[simp] theorem State.touchPath_window (s : State) (page : Nat) : (State.touchPath s page).window = s.window := by
  simp [State.touchPath]

@[simp] theorem State.issueRead_window (s : State) (r : VRead) : (s.issueRead r).window = s.window := by
  simp only [State.issueRead]
  split
  · simp
  · split
    · simp
    · next st he =>
      split at he
      · cases he; simp
      · have a := State.debit_window _ _ _ he; simp [a]

@[simp] theorem State.issueReads_window (s : State) : (State.issueReads s).window = s.window := by
  simp [State.issueReads]

@[simp] theorem State.addRead_window (s : State) (r : VRead) : (State.addRead s r).window = s.window := by
  simp [State.addRead]

@[simp] theorem State.beginRead_window (s : State) (page port : Nat) (prior : Bool) (jobs : List Nat) : (State.beginRead s page port prior jobs).window = s.window := by
  simp [State.beginRead]

@[simp] theorem State.queueVersion_window (s : State) (v : Version) : (State.queueVersion s v).window = s.window := by
  simp [State.queueVersion]

@[simp] theorem State.makeRoom_window (f n : Nat) (s : State) : (s.makeRoom n f).window = s.window := by
  induction f generalizing s with
  | zero => exact rfl
  | succ f ih =>
    simp only [State.makeRoom]
    split
    · exact rfl
    · split <;> simp [ih]

@[simp] theorem State.cacheFill_window (s : State) (k : KeyMat) : (s.cacheFill k).window = s.window := by
  simp [State.cacheFill]

@[simp] theorem State.cacheSession_window (s : State) (slice : Nat) (k : KeyMat) : (State.cacheSession s slice k).window = s.window := by
  unfold State.cacheSession
  repeat' first
    | (simp; done)
    | split

@[simp] theorem State.cacheDrop_window (s : State) (h : Nat) : (State.cacheDrop s h).window = s.window := by
  simp [State.cacheDrop]

@[simp] theorem State.sessionDrop_window (s : State) (h : Nat) : (State.sessionDrop s h).window = s.window := by
  simp [State.sessionDrop]

@[simp] theorem State.pin_window (s : State) (h : Nat) : (State.pin s h).window = s.window := by
  simp [State.pin]

@[simp] theorem State.unpin_window (s : State) (h : Nat) : (State.unpin s h).window = s.window := by
  simp [State.unpin]

@[simp] theorem State.putHeart_window (s : State) (n : Nat) (h : Heart) : (State.putHeart s n h).window = s.window := by
  simp only [State.putHeart]
  repeat' first
    | (simp; done)
    | split

@[simp] theorem State.dropGeneration_window (s : State) (n gen : Nat) : (State.dropGeneration s n gen).window = s.window := by
  simp [State.dropGeneration]

@[simp] theorem State.draw_window (s : State) (n : Nat) : ((State.draw s n).2).window = s.window := by
  simp [State.draw]

@[simp] theorem State.setOutcome_window (s : State) (id : Nat) (o : Outcome) : (State.setOutcome s id o).window = s.window := by
  simp [State.setOutcome]

@[simp] theorem State.perform_window (s : State) (op id : Nat) (f : Job → Nat → Outcome) : (State.perform s op id f).window = s.window := by
  unfold State.perform
  repeat' first
    | (simp; done)
    | split

@[simp] theorem State.setAddrList_window (s : State) (key : Nat → Nat) (l : List Nat) : (State.setAddrList s key l).window = s.window := by
  simp [State.setAddrList]

@[simp] theorem State.setMembers_window (s : State) (l : List Nat) : (State.setMembers s l).window = s.window := by
  simp [State.setMembers]

@[simp] theorem State.hear_window (s : State) (src : Nat) : (State.hear s src).window = s.window := by
  simp [State.hear]

@[simp] theorem State.sendMsg_window (s : State) (type dst : Nat) (body : Bytes) (record : Option ReplRecord) : (State.sendMsg s type dst body record).window = s.window := by
  simp [State.sendMsg]

@[simp] theorem State.sendNotice_window (s : State) (type dst writer seq : Nat) : (State.sendNotice s type dst writer seq).window = s.window := by
  simp [State.sendNotice]

@[simp] theorem State.addCounter_window (s : State) (slice c n : Nat) : (State.addCounter s slice c n).window = s.window := by
  simp [State.addCounter]

@[simp] theorem State.setHeartEntry_window (s : State) (n : Nat) (entry : Bytes) : (State.setHeartEntry s n entry).window = s.window := by
  simp [State.setHeartEntry]

@[simp] theorem State.pinIn_window (s : State) (h : Nat) : (State.pinIn s h).window = s.window := by
  simp [State.pinIn]

@[simp] theorem State.applyEffect_window (s : State) (c : Change) : (State.applyEffect s c).window = s.window := by
  unfold State.applyEffect
  repeat' first
    | (simp; done)
    | split

@[simp] theorem State.queueChange_window (s : State) (c : Change) : (State.queueChange s c).window = s.window := by
  unfold State.queueChange
  repeat' first
    | (simp; done)
    | split

@[simp] theorem State.applyRemote_window (s : State) (c : Change) : (State.applyRemote s c).window = s.window := by
  simp [State.applyRemote]

@[simp] theorem State.startOwn_window (s : State) (change : Change) (k : Nat) (job : Option Nat) (write : Option (Nat × Option DictReq)) (majority : Bool) : (State.startOwn s change k job write majority).window = s.window := by
  simp [State.startOwn]

@[simp] theorem State.resolvePage_window (s : State) (c : Change) (kind : ItemKind) : (State.resolvePage s c kind).window = s.window := by
  unfold State.resolvePage
  repeat' first
    | (simp; done)
    | split

@[simp] theorem State.dropOwn_window (s : State) (seq : Nat) : (State.dropOwn s seq).window = s.window := by
  simp [State.dropOwn]

@[simp] theorem State.applyOwnAt_window (s : State) (o : OwnChange) (t : Nat) : (State.applyOwnAt s o t).window = s.window := by
  simp [State.applyOwnAt]

@[simp] theorem State.endOwn_window (s : State) (id : Nat) : (State.endOwn s id).window = s.window := by
  simp [State.endOwn]

@[simp] theorem State.commitOwn_window (s : State) (o : OwnChange) : (State.commitOwn s o).window = s.window := by
  unfold State.commitOwn
  repeat' first
    | (simp; done)
    | split

@[simp] theorem State.undoOwn_window (s : State) (o : OwnChange) : (State.undoOwn s o).window = s.window := by
  simp [State.undoOwn]

@[simp] theorem State.settleHeart_window (s : State) (c : Change) : (State.settleHeart s c).window = s.window := by
  unfold State.settleHeart
  repeat' first
    | (simp; done)
    | split

@[simp] theorem State.performAt_window (s : State) (op id : Nat) (f : State → Job → Nat → Outcome) : (State.performAt s op id f).window = s.window := by
  simp [State.performAt]

@[simp] theorem State.toOutput_window (s : State) (id : Nat) : (State.toOutput s id).window = s.window := by
  simp [State.toOutput]

@[simp] theorem State.workFails_window (s : State) (id status result : Nat) : (State.workFails s id status result).window = s.window := by
  simp [State.workFails]

@[simp] theorem State.toCommit_window (s : State) (id : Nat) (change : Change) (o : Outcome) (kind : ItemKind) (page : Nat) (writes : List (Nat × Option Bytes)) (conflict : Option Bool) : (State.toCommit s id change o kind page writes conflict).window = s.window := by
  simp [State.toCommit]

@[simp] theorem State.replicateJob_window (s : State) (id : Nat) : (State.replicateJob s id).window = s.window := by
  unfold State.replicateJob
  repeat' first
    | (simp; done)
    | split

@[simp] theorem State.workDone_window (s : State) (id : Nat) : (State.workDone s id).window = s.window := by
  simp only [State.workDone]
  repeat' first
    | (simp; done)
    | split

@[simp] theorem State.startRead_window (s : State) (page : Nat) (port : Option Nat) (prior : Bool) (id : Nat) : (State.startRead s page port prior id).window = s.window := by
  simp [State.startRead]

@[simp] theorem State.fetchKeys_window (s : State) (id : Nat) : (State.fetchKeys s id).window = s.window := by
  unfold State.fetchKeys
  repeat' first
    | (simp; done)
    | split

@[simp] theorem State.askPiece_window (s : State) (id k : Nat) : (State.askPiece s id k).window = s.window := by
  unfold State.askPiece
  repeat' first
    | (simp; done)
    | split

@[simp] theorem State.askLabel_window (s : State) (id : Nat) : (State.askLabel s id).window = s.window := by
  unfold State.askLabel
  repeat' first
    | (simp; done)
    | split

@[simp] theorem State.controlStart_window (s : State) (id : Nat) : (State.controlStart s id).window = s.window := by
  simp only [State.controlStart]
  repeat' first
    | (simp; done)
    | split

theorem State.placeBuf_window (s : State) (id n : Nat) : ∀ t, State.placeBuf s id n = some t → t.window = s.window := by
  simp only [State.placeBuf]
  repeat' first
    | (simp; done)
    | split

@[simp] theorem State.noRoom_window (s : State) (id : Nat) : (State.noRoom s id).window = s.window := by
  simp [State.noRoom]

@[simp] theorem State.placeAll_window (l : List Nat) (id : Nat) (s : State) : ∀ t, s.placeAll id l = some t →
    t.window = s.window := by
  induction l generalizing s with
  | nil => intro t h; simp only [State.placeAll, Option.some.injEq] at h; subst h; exact rfl
  | cons n r ih =>
    intro t h
    simp only [State.placeAll] at h
    split at h
    · next st he =>
      have a := ih st t h
      have b := State.placeBuf_window s id n st he
      exact a.trans b
    · cases h

@[simp] theorem State.placeTo_window (s : State) (id stage : Nat) (sizes : List Nat) (f : State → State)
    (h : ∀ st, (f st).window = st.window) :
    (s.placeTo id stage sizes f).window = s.window := by
  simp only [State.placeTo]
  split
  · next st he => have a := State.placeAll_window sizes id s st he; simp [h, a]
  · simp

@[simp] theorem State.dmaCheck_window (s : State) (j : Job) (k n : Nat) (write : Bool) : ((State.dmaCheck s j k n write).2).window = s.window := by
  unfold State.dmaCheck
  repeat' first
    | (simp; done)
    | split

@[simp] theorem State.fillBuf_window (s : State) (j : Job) (k : Nat) (b : Bytes) : (State.fillBuf s j k b).window = s.window := by
  simp [State.fillBuf]

@[simp] theorem State.dmaFill_window (s : State) (j : Job) (k : Nat) (b : Bytes) : (State.dmaFill s j k b).window = s.window := by
  simp [State.dmaFill]

@[simp] theorem State.parseJob_window (s : State) (id : Nat) : (s.parseJob id).window = s.window := by
  unfold State.parseJob
  repeat' first
    | (simp; done)
    | (exact State.placeTo_window _ _ _ _ _ fun st => by simp)
    | split

@[simp] theorem State.parseIfReady_window (s : State) (id : Nat) : (State.parseIfReady s id).window = s.window := by
  unfold State.parseIfReady
  repeat' first
    | (simp; done)
    | split

@[simp] theorem State.placeInput_window (s : State) (id : Nat) : (s.placeInput id).window = s.window := by
  unfold State.placeInput
  repeat' first
    | (simp; done)
    | (exact State.placeTo_window _ _ _ _ _ fun st => by simp)
    | split

@[simp] theorem State.descArrived_window (s : State) (j : Job) (b : Bytes) : (State.descArrived s j b).window = s.window := by
  simp only [State.descArrived]
  repeat' first
    | (simp; done)
    | split

@[simp] theorem State.readFault_window (s : State) (ring : Nat) : (State.readFault s ring).window = s.window := by
  simp [State.readFault]

@[simp] theorem State.descFailed_window (s : State) (j : Job) : (State.descFailed s j).window = s.window := by
  simp [State.descFailed]

@[simp] theorem State.bufferFault_window (s : State) (j : Job) : (State.bufferFault s j).window = s.window := by
  simp [State.bufferFault]

@[simp] theorem State.readEnds_window (s : State) (id : Nat) (what : ReadKind) (data : Option Bytes) : (State.readEnds s id what data).window = s.window := by
  unfold State.readEnds
  repeat' first
    | (simp; done)
    | split

@[simp] theorem State.dropVersions_window (s : State) (id : Nat) : (State.dropVersions s id).window = s.window := by
  simp [State.dropVersions]

@[simp] theorem State.withdrawOwn_window (s : State) (o : OwnChange) : (State.withdrawOwn s o).window = s.window := by
  simp [State.withdrawOwn]

@[simp] theorem State.takeBack_window (s : State) (c : Change) : (State.takeBack s c).window = s.window := by
  simp only [State.takeBack]
  repeat' first
    | (simp; done)
    | split

@[simp] theorem State.abortJob_window (s : State) (j : Job) : (State.abortJob s j).window = s.window := by
  unfold State.abortJob
  repeat' first
    | (simp; done)
    | split

@[simp] theorem State.abortIndex_window (s : State) (ring index : Nat) : (State.abortIndex s ring index).window = s.window := by
  unfold State.abortIndex
  repeat' first
    | (simp; done)
    | split

@[simp] theorem State.ownTimesOut_window (s : State) (o : OwnChange) : (State.ownTimesOut s o).window = s.window := by
  unfold State.ownTimesOut
  repeat' first
    | (simp; done)
    | split

@[simp] theorem State.setCopy_window (s : State) (id : Nat) (c : CopyLeave) : (State.setCopy s id c).window = s.window := by
  simp [State.setCopy]

@[simp] theorem State.chkBegin_window (s : State) (u reg position : Nat) : (State.chkBegin s u reg position).window = s.window := by
  simp [State.chkBegin]

@[simp] theorem State.chkStop_window (s : State) (u state fault : Nat) : (State.chkStop s u state fault).window = s.window := by
  simp [State.chkStop]

@[simp] theorem State.chkCommand_window (s : State) (u cmd : Nat) : (State.chkCommand s u cmd).window = s.window := by
  unfold State.chkCommand
  repeat' first
    | (simp; done)
    | split

@[simp] theorem State.chkMismatch_window (s : State) : (State.chkMismatch s).window = s.window := by
  simp [State.chkMismatch]

@[simp] theorem State.chkTick_window (s : State) : (State.chkTick s).window = s.window := by
  unfold State.chkTick
  repeat' first
    | (simp (disch := (intros; repeat' first | rfl | (simp; done) | split)); done)
    | split

@[simp] theorem State.chkHalt_window (s : State) (u : Nat) : (State.chkHalt s u).window = s.window := by
  simp [State.chkHalt]

@[simp] theorem State.chkZeroise_window (s : State) : (State.chkZeroise s).window = s.window := by
  simp [State.chkZeroise]

@[simp] theorem State.chkFunctionReset_window (s : State) : (State.chkFunctionReset s).window = s.window := by
  simp [State.chkFunctionReset]

@[simp] theorem State.chkHandOver_window (s : State) (u : Nat) : (State.chkHandOver s u).window = s.window := by
  simp [State.chkHandOver]

@[simp] theorem State.chkUncorrectable_window (s : State) (word : Nat) : (State.chkUncorrectable s word).window = s.window := by
  simp [State.chkUncorrectable]

@[simp] theorem State.trapJob_window (s : State) (id detail : Nat) : (State.trapJob s id detail).window = s.window := by
  unfold State.trapJob
  repeat' first
    | (simp; done)
    | split

@[simp] theorem State.leaveCore_window (s : State) (core : Nat) : (State.leaveCore s core).window = s.window := by
  simp [State.leaveCore]

@[simp] theorem State.failGroup_window (s : State) (due : Nat) : (State.failGroup s due).window = s.window := by
  simp [State.failGroup]

@[simp] theorem State.failReads_window (s : State) (due : Nat) : (State.failReads s due).window = s.window := by
  simp [State.failReads]

@[simp] theorem State.heartFails_window (s : State) (n : Nat) (i : HeartImage) : (State.heartFails s n i).window = s.window := by
  simp [State.heartFails]

@[simp] theorem State.reloadHeart_window (s : State) (n : Nat) : (State.reloadHeart s n).window = s.window := by
  unfold State.reloadHeart
  repeat' first
    | (simp; done)
    | split

@[simp] theorem State.delayHeart_window (s : State) (n : Nat) : (State.delayHeart s n).window = s.window := by
  simp [State.delayHeart]

@[simp] theorem State.reloadHearts_window (s : State) : (State.reloadHearts s).window = s.window := by
  simp [State.reloadHearts]

@[simp] theorem State.setReturn_window (s : State) (core v : Nat) : (State.setReturn s core v).window = s.window := by
  simp [State.setReturn]

@[simp] theorem State.gateFault_window (s : State) (core cause : Nat) : (State.gateFault s core cause).window = s.window := by
  simp only [State.gateFault]
  repeat' first
    | (simp; done)
    | split

@[simp] theorem State.writeResult_window (s : State) (colour addr : Nat) (result : Bytes) : (State.writeResult s colour addr result).window = s.window := by
  simp [State.writeResult]

@[simp] theorem State.guardOff_window (s : State) : (State.guardOff s).window = s.window := by
  simp [State.guardOff]

@[simp] theorem State.guardOnAgain_window (s : State) : (State.guardOnAgain s).window = s.window := by
  unfold State.guardOnAgain
  repeat' first
    | (simp; done)
    | split

@[simp] theorem State.debugDenied_window (s : State) (word : Nat) : (State.debugDenied s word).window = s.window := by
  simp [State.debugDenied]

@[simp] theorem State.debugAccess_window (s : State) (write : Bool) (word data : Nat) (allBits : Bool) : (State.debugAccess s write word data allBits).window = s.window := by
  unfold State.debugAccess
  repeat' first
    | (simp; done)
    | split

@[simp] theorem State.moveLaneJobs_window (s : State) (lane : Nat) : (s.moveLaneJobs lane).window = s.window := by
  simp only [State.moveLaneJobs]
  refine foldl_window ?_ _ _ <;> (intro st id; simp; split <;> simp)

@[simp] theorem State.wipeBlock_window (s : State) (b : Nat) : (State.wipeBlock s b).window = s.window := by
  unfold State.wipeBlock
  repeat' first
    | (simp; done)
    | split

@[simp] theorem State.setOwner_window (s : State) (b : Nat) (keeper : Bool) : (State.setOwner s b keeper).window = s.window := by
  simp only [State.setOwner]
  repeat' first
    | (simp; done)
    | split

@[simp] theorem State.gateNow_window (s : State) (b : Nat) : (State.gateNow s b).window = s.window := by
  simp only [State.gateNow]
  repeat' first
    | (simp; done)
    | split

@[simp] theorem State.ungateNow_window (s : State) (b : Nat) : (State.ungateNow s b).window = s.window := by
  simp only [State.ungateNow]
  repeat' first
    | (simp; done)
    | split

@[simp] theorem State.gateRequest_window (s : State) (b : Nat) : (State.gateRequest s b).window = s.window := by
  unfold State.gateRequest
  repeat' first
    | (simp; done)
    | split

@[simp] theorem State.handTick_window (s : State) : (State.handTick s).window = s.window := by
  unfold State.handTick
  repeat' first
    | (simp (disch := (intros; repeat' first | rfl | (simp; done) | split)); done)
    | split

@[simp] theorem State.handWindow_window (s : State) : (State.handWindow s).window = s.window := by
  unfold State.handWindow
  repeat' first
    | (simp (disch := (intros; repeat' first | rfl | (simp; done) | split)); done)
    | split

@[simp] theorem State.endByFault_window (s : State) (src due id : Nat) : (State.endByFault s src due id).window = s.window := by
  simp [State.endByFault]

@[simp] theorem State.faultJob_window (s : State) (j : Job) (src : Nat) (void : Bool) : (State.faultJob s j src void).window = s.window := by
  simp [State.faultJob]

@[simp] theorem State.recordPkFault_window (s : State) (lane cause : Nat) : (State.recordPkFault s lane cause).window = s.window := by
  simp [State.recordPkFault]

@[simp] theorem State.pkFault_window (s : State) (n cause : Nat) : (State.pkFault s n cause).window = s.window := by
  simp only [State.pkFault]
  repeat' first
    | (simp; done)
    | split

@[simp] theorem State.takeSpare_window (s : State) : (State.takeSpare s).window = s.window := by
  simp only [State.takeSpare]
  repeat' first
    | (simp; done)
    | split

@[simp] theorem State.pkDue_window (s : State) (n : Nat) : (State.pkDue s n).window = s.window := by
  simp only [State.pkDue]
  repeat' first
    | (simp; done)
    | split

@[simp] theorem State.settleSpare_window (s : State) (lane : Nat) : (State.settleSpare s lane).window = s.window := by
  simp [State.settleSpare]

@[simp] theorem State.pkRoles_window (s : State) : (State.pkRoles s).window = s.window := by
  simp [State.pkRoles]

@[simp] theorem State.testSegment_window (s : State) (n : Nat) : (s.testSegment n).window = s.window := by
  unfold State.testSegment
  split
  · dsimp only
    split
    · exact rfl
    · split
      · next t he => have a := State.debit_window _ _ _ he; simp [a]
      · exact rfl
  · exact rfl

@[simp] theorem State.startSpareTest_window (s : State) (n : Nat) : (State.startSpareTest s n).window = s.window := by
  simp [State.startSpareTest]

@[simp] theorem State.spareTests_window (s : State) : (State.spareTests s).window = s.window := by
  simp [State.spareTests]

@[simp] theorem State.unfencePk_window (s : State) (v : Nat) : (State.unfencePk s v).window = s.window := by
  simp [State.unfencePk]

@[simp] theorem State.lowerSpare_window (s : State) : (State.lowerSpare s).window = s.window := by
  unfold State.lowerSpare
  repeat' first
    | (simp; done)
    | split

@[simp] theorem State.raiseSpare_window (s : State) : (State.raiseSpare s).window = s.window := by
  unfold State.raiseSpare
  repeat' first
    | (simp; done)
    | split

@[simp] theorem State.setSpareCount_window (s : State) (v : Nat) : (State.setSpareCount s v).window = s.window := by
  simp [State.setSpareCount]

@[simp] theorem State.unfenceLat_window (s : State) (v : Nat) : (State.unfenceLat s v).window = s.window := by
  simp [State.unfenceLat]

@[simp] theorem State.clusterDue_window (s : State) : (State.clusterDue s).window = s.window := by
  unfold State.clusterDue
  repeat' first
    | (simp (disch := (intros; repeat' first | rfl | (simp; done) | split)); done)
    | split

@[simp] theorem State.symFault_window (s : State) (n cause : Nat) : (State.symFault s n cause).window = s.window := by
  simp [State.symFault]

@[simp] theorem State.unfenceSym_window (s : State) (v : Nat) : (State.unfenceSym s v).window = s.window := by
  simp [State.unfenceSym]

@[simp] theorem State.symDue_window (s : State) : (State.symDue s).window = s.window := by
  unfold State.symDue
  repeat' first
    | (simp (disch := (intros; repeat' first | rfl | (simp; done) | split)); done)
    | split

@[simp] theorem State.openGroup_window (s : State) : (State.openGroup s).window = s.window := by
  simp [State.openGroup]

@[simp] theorem State.unlockPage_window (s : State) (p : Nat) : (State.unlockPage s p).window = s.window := by
  simp [State.unlockPage]

@[simp] theorem State.entryBack_window (s : State) (seq p : Nat) : (State.entryBack s seq p).window = s.window := by
  unfold State.entryBack
  repeat' first
    | (simp; done)
    | split

@[simp] theorem State.writeBlock_window (s : State) (w : Nat × Bytes) : (State.writeBlock s w).window = s.window := by
  simp [State.writeBlock]

@[simp] theorem State.vaultFault_window (s : State) (region : Nat) : (State.vaultFault s region).window = s.window := by
  simp [State.vaultFault]

@[simp] theorem State.issueWrites_window (s : State) : (State.issueWrites s).window = s.window := by
  unfold State.issueWrites
  repeat' first
    | (simp; done)
    | split

@[simp] theorem State.phase2_window (s : State) : (State.phase2 s).window = s.window := by
  unfold State.phase2
  repeat' first
    | (simp (disch := (intros; repeat' first | rfl | (simp; done) | split)); done)
    | split

@[simp] theorem State.groupWindow_window (s : State) : (State.groupWindow s).window = s.window := by
  simp [State.groupWindow]

@[simp] theorem State.deallocatePage_window (s : State) (p : Nat) : (State.deallocatePage s p).window = s.window := by
  simp [State.deallocatePage]

@[simp] theorem State.comeIntoForce_window (s : State) : (State.comeIntoForce s).window = s.window := by
  unfold State.comeIntoForce
  repeat' first
    | (simp; done)
    | split

theorem State.ladderTake_window (s : State) : ∀ t, State.ladderTake s = some t → t.window = s.window := by
  intro t h
  simp only [State.ladderTake] at h
  split at h
  · obtain ⟨st, he, rfl⟩ := Option.map_eq_some_iff.mp h
    exact State.debit_window s 1 st he
  · cases h

@[simp] theorem State.giveKey_window (s : State) (id h : Nat) (k : KeyMat) : (State.giveKey s id h k).window = s.window := by
  simp [State.giveKey]

@[simp] theorem State.openFor_window (s : State) (u : Unwrap) (id h : Nat) : (State.openFor s u id h).window = s.window := by
  simp only [State.openFor]
  repeat' first
    | (simp; done)
    | split

@[simp] theorem State.checkKeyed_window (s : State) (id : Nat) : (State.checkKeyed s id).window = s.window := by
  simp only [State.checkKeyed]
  repeat' first
    | (simp; done)
    | split

@[simp] theorem State.unwrapJob_window (s : State) (u : Unwrap) (id : Nat) : ((s.unwrapJob u id).1).window = s.window := by
  have key (l : List Nat) (a : State × Bool) : ((l.foldl (fun (a : State × Bool) h => if !a.2 then a else match a.1.ladderTake with | some st => (st.openFor u id h, true) | none => (a.1, false)) a).1).window = a.1.window := by
    refine foldl_window1 ?_ _ _ <;>
      (intro a h; split
       · rfl
       · split
         · next t e => have a := State.ladderTake_window _ _ e; simp [a]
         · rfl)
  unfold State.unwrapJob
  split
  · simp
  · split
    · simp
    · dsimp only
      split
      · exact (State.checkKeyed_window _ _).trans (key _ _)
      · exact key _ _

@[simp] theorem State.reloadPin_window (s : State) (u : Unwrap) (h : Nat) : ((State.reloadPin s u h).1).window = s.window := by
  unfold State.reloadPin
  repeat' first
    | rfl
    | (simp; done)
    | (have a := State.ladderTake_window _ _ ‹_›; simp [a]; done)
    | (intro h; have a := State.ladderTake_window _ _ h; simp [a]; done)
    | (intro h; cases h; have a := State.ladderTake_window _ _ ‹_›; simp [a]; done)
    | (refine foldl_window ?_ _ _)
    | (intro h; cases h; simp; done)
    | (intro h; cases h; done)
    | (intro st x; try dsimp only)
    | split
    | dsimp only

@[simp] theorem State.unwrapOne_window (s : State) (u : Unwrap) : ((State.unwrapOne s u).1).window = s.window := by
  unfold State.unwrapOne
  repeat' first
    | (simp; done)
    | split

@[simp] theorem State.unwrapAll_window (s : State) : (State.unwrapAll s).window = s.window := by
  simp [State.unwrapAll]

@[simp] theorem State.pinReads_window (s : State) : (State.pinReads s).window = s.window := by
  unfold State.pinReads
  repeat' first
    | (simp; done)
    | split

@[simp] theorem State.dropRead_window (s : State) (r : VRead) : (State.dropRead s r).window = s.window := by
  simp [State.dropRead]

@[simp] theorem State.readLost_window (s : State) (jobs : List Nat) (due : Nat) : (State.readLost s jobs due).window = s.window := by
  simp [State.readLost]

@[simp] theorem State.readOther_window (s : State) (r : VRead) (data : Bool) : (State.readOther s r data).window = s.window := by
  simp [State.readOther]

@[simp] theorem State.repairCopy_window (s : State) (r : VRead) : (State.repairCopy s r).window = s.window := by
  simp [State.repairCopy]

@[simp] theorem State.takeNode_window (s : State) (level index : Nat) (b : Bytes) : (State.takeNode s level index b).window = s.window := by
  simp [State.takeNode]

@[simp] theorem State.readEmpty_window (s : State) (jobs : List Nat) : (State.readEmpty s jobs).window = s.window := by
  simp [State.readEmpty]

@[simp] theorem State.nodeDone_window (s : State) (r : VRead) (data : Option Bytes) : (State.nodeDone s r data).window = s.window := by
  unfold State.nodeDone
  repeat' first
    | (simp; done)
    | split

@[simp] theorem State.refuseAbsent_window (u : Unwrap) (s : State) (id : Nat) : (State.refuseAbsent u s id).window = s.window := by
  unfold State.refuseAbsent
  repeat' first
    | (simp; done)
    | split

@[simp] theorem State.deliver_window (s : State) (u : Unwrap) : (State.deliver s u).window = s.window := by
  simp [State.deliver]

@[simp] theorem State.takeCopies_window (s : State) (jobs : List Nat) (data : Option Bytes) : (State.takeCopies s jobs data).window = s.window := by
  unfold State.takeCopies
  repeat' first
    | rfl
    | (simp; done)
    | (refine foldl_window ?_ _ _)
    | (intro h; cases h; simp; done)
    | (intro h; cases h; done)
    | (intro st x; try dsimp only)
    | split
    | dsimp only

@[simp] theorem State.bothFail_window (s : State) (r : VRead) (e : TreeEntry) : (State.bothFail s r e).window = s.window := by
  simp [State.bothFail]

@[simp] theorem State.pageDone_window (s : State) (r : VRead) (data : Option Bytes) : (State.pageDone s r data).window = s.window := by
  unfold State.pageDone
  repeat' first
    | (simp; done)
    | split

@[simp] theorem State.readDone_window (s : State) (r : VRead) (data : Option Bytes) : (State.readDone s r data).window = s.window := by
  simp only [State.readDone]
  repeat' first
    | (simp; done)
    | split

@[simp] theorem State.readComplete_window (s : State) (page port : Nat) (data : Option Bytes) : (State.readComplete s page port data).window = s.window := by
  unfold State.readComplete
  repeat' first
    | (simp; done)
    | split

@[simp] theorem State.rereads_window (s : State) (port : Nat) : (State.rereads s port).window = s.window := by
  simp [State.rereads]

@[simp] theorem State.driveLost_window (s : State) (port : Nat) (next : PortState) : (State.driveLost s port next).window = s.window := by
  simp [State.driveLost]

@[simp] theorem State.copyBlock_window (s : State) (port block : Nat) : (State.copyBlock s port block).window = s.window := by
  simp [State.copyBlock]

@[simp] theorem State.startCopy_window (s : State) (port : Nat) : (State.startCopy s port).window = s.window := by
  simp [State.startCopy]

@[simp] theorem State.driveFound_window (s : State) (port : Nat) (i : DriveIdent) : (State.driveFound s port i).window = s.window := by
  simp [State.driveFound]

@[simp] theorem State.portLeaves_window (s : State) (port : Nat) (next : PortState) : (State.portLeaves s port next).window = s.window := by
  simp [State.portLeaves]

@[simp] theorem State.portTick_window (s : State) (port : Nat) : (State.portTick s port).window = s.window := by
  simp only [State.portTick]
  repeat' first
    | (simp; done)
    | split

@[simp] theorem State.driveTick_window (s : State) : (State.driveTick s).window = s.window := by
  unfold State.driveTick
  repeat' first
    | (simp (disch := (intros; repeat' first | rfl | (simp; done) | split)); done)
    | split

@[simp] theorem State.sweepPage_window (s : State) (p : Nat) : (State.sweepPage s p).window = s.window := by
  simp [State.sweepPage]

@[simp] theorem State.sweepFrame_window (s : State) : (State.sweepFrame s).window = s.window := by
  unfold State.sweepFrame
  repeat' first
    | rfl
    | (simp; done)
    | (have a := State.debit_window _ _ _ ‹_›; simp [a]; done)
    | (intro h; have a := State.debit_window _ _ _ h; simp [a]; done)
    | (intro h; cases h; have a := State.debit_window _ _ _ ‹_›; simp [a]; done)
    | (refine foldl_window ?_ _ _)
    | (intro h; cases h; simp; done)
    | (intro h; cases h; done)
    | (intro st x; try dsimp only)
    | split
    | dsimp only

@[simp] theorem State.certify_window (s : State) (n : Nat) : (State.certify s n).window = s.window := by
  simp [State.certify]

@[simp] theorem State.scrubPage_window (s : State) (p : Nat) : (State.scrubPage s p).window = s.window := by
  simp [State.scrubPage]

@[simp] theorem State.copyPay_window (s : State) (id : Nat) : ((State.copyPay s id).2).window = s.window := by
  simp only [State.copyPay]
  repeat' first
    | (simp; done)
    | split

@[simp] theorem State.scrubNode_window (s : State) (k : Nat) : (State.scrubNode s k).window = s.window := by
  simp [State.scrubNode]

@[simp] theorem State.scrubFrame_window (s : State) : (State.scrubFrame s).window = s.window := by
  unfold State.scrubFrame
  repeat' first
    | rfl
    | (simp; done)
    | (refine foldl_window ?_ _ _)
    | (intro h; cases h; simp; done)
    | (intro h; cases h; done)
    | (intro st x; try dsimp only)
    | split
    | dsimp only

@[simp] theorem State.resilverFrame_window (s : State) : (State.resilverFrame s).window = s.window := by
  unfold State.resilverFrame
  repeat' first
    | rfl
    | (simp; done)
    | (refine foldl_window ?_ _ _)
    | (intro h; cases h; simp; done)
    | (intro h; cases h; done)
    | (intro st x; try dsimp only)
    | split
    | dsimp only

@[simp] theorem State.startFormat_window (s : State) (n : Nat) : (State.startFormat s n).window = s.window := by
  simp [State.startFormat]

@[simp] theorem State.formatDrive_window (s : State) (p n : Nat) : (State.formatDrive s p n).window = s.window := by
  simp [State.formatDrive]

@[simp] theorem State.takeRoot_window (s : State) (r : Root) : (State.takeRoot s r).window = s.window := by
  simp [State.takeRoot]

@[simp] theorem State.rootSelect_window (s : State) (port : Nat) : (State.rootSelect s port).window = s.window := by
  unfold State.rootSelect
  repeat' first
    | (simp; done)
    | split

@[simp] theorem State.portOffline_window (s : State) (port v : Nat) : (State.portOffline s port v).window = s.window := by
  simp [State.portOffline]

@[simp] theorem State.wspFail_window (s : State) (n : Nat) : (State.wspFail s n).window = s.window := by
  simp [State.wspFail]

@[simp] theorem State.entropyTick_window (s : State) : (State.entropyTick s).window = s.window := by
  simp [State.entropyTick]

@[simp] theorem State.reseed_window (s : State) (testPasses : Bool) : (State.reseed s testPasses).window = s.window := by
  simp only [State.reseed]
  repeat' first
    | (simp; done)
    | split

@[simp] theorem State.reseedWindow_window (s : State) : (State.reseedWindow s).window = s.window := by
  unfold State.reseedWindow
  repeat' first
    | (simp; done)
    | split

@[simp] theorem State.endGrantNext_window (s : State) : (State.endGrantNext s).window = s.window := by
  simp [State.endGrantNext]

@[simp] theorem State.dropGrant_window (s : State) : (State.dropGrant s).window = s.window := by
  simp [State.dropGrant]

@[simp] theorem State.serveOne_window (s : State) (c : Instr) : (s.serveOne c).window = s.window := by
  cases c <;> simp [State.serveOne, execDmaReadComplete, execVaultReadComplete, execDebugMasterAccess]

@[simp] theorem State.serveHeld_window (s : State) : (State.serveHeld s).window = s.window := by
  simp [State.serveHeld]

@[simp] theorem State.guardLimit_window (s : State) : (State.guardLimit s).window = s.window := by
  simp [State.guardLimit]

@[simp] theorem State.seeReq_window (s : State) (r : DictReq) : (State.seeReq s r).window = s.window := by
  simp [State.seeReq]

@[simp] theorem State.reply_window (s : State) (r : DictReq) (slot : Option Nat) (op reason : Nat) (value : Bytes) : (State.reply s r slot op reason value).window = s.window := by
  simp [State.reply]

@[simp] theorem State.refused_window (s : State) (key reason : Nat) : (State.refused s key reason).window = s.window := by
  simp [State.refused]

@[simp] theorem State.refuse_window (s : State) (key reason : Nat) (req : Option (DictReq × Option Nat)) : (State.refuse s key reason req).window = s.window := by
  unfold State.refuse
  repeat' first
    | (simp; done)
    | split

@[simp] theorem State.ackWrite_window (s : State) (key : Nat) (v : DVal) (req : Option (DictReq × Option Nat)) : (State.ackWrite s key v req).window = s.window := by
  unfold State.ackWrite
  repeat' first
    | (simp; done)
    | split

@[simp] theorem State.refuseOwn_window (s : State) (o : OwnChange) (reason : Nat) : (State.refuseOwn s o reason).window = s.window := by
  unfold State.refuseOwn
  repeat' first
    | (simp; done)
    | split

@[simp] theorem State.finishOwnWrite_window (s : State) (o : OwnChange) : (State.finishOwnWrite s o).window = s.window := by
  unfold State.finishOwnWrite
  repeat' first
    | (simp; done)
    | split

@[simp] theorem State.park_window (s : State) (j : Job) : (State.park s j).window = s.window := by
  simp [State.park]

@[simp] theorem State.parkWhere_window (s : State) (n : Nat) (p : Job → Bool) : (State.parkWhere s n p).window = s.window := by
  simp [State.parkWhere]

@[simp] theorem State.migTo_window (s : State) (n : Nat) (m : MigState) : (State.migTo s n m).window = s.window := by
  simp [State.migTo]

@[simp] theorem State.migRefuse_window (s : State) (n code : Nat) : (State.migRefuse s n code).window = s.window := by
  simp [State.migRefuse]

@[simp] theorem State.freeze_window (s : State) (n : Nat) : (State.freeze s n).window = s.window := by
  simp [State.freeze]

@[simp] theorem State.freezeNow_window (s : State) (n : Nat) : (State.freezeNow s n).window = s.window := by
  simp [State.freezeNow]

@[simp] theorem State.dropTag_window (s : State) (t : Bytes) : (State.dropTag s t).window = s.window := by
  simp [State.dropTag]

@[simp] theorem State.markMoved_window (s : State) (n : Nat) : (State.markMoved s n).window = s.window := by
  simp [State.markMoved]

@[simp] theorem State.movesNext_window (s : State) (n : Nat) : (State.movesNext s n).window = s.window := by
  simp [State.movesNext]

@[simp] theorem State.thaw_window (s : State) (n : Nat) : (State.thaw s n).window = s.window := by
  unfold State.thaw
  repeat' first
    | (simp; done)
    | split

@[simp] theorem State.imageWrite_window (s : State) (n : Nat) (v : Bytes) : (State.imageWrite s n v).window = s.window := by
  simp [State.imageWrite]

@[simp] theorem State.setImageBytes_window (s : State) (n : Nat) (b : Bytes) : (State.setImageBytes s n b).window = s.window := by
  simp [State.setImageBytes]

@[simp] theorem State.saveStart_window (s : State) (n : Nat) : (State.saveStart s n).window = s.window := by
  simp [State.saveStart]

@[simp] theorem State.saveBuild_window (s : State) (n : Nat) : (State.saveBuild s n).window = s.window := by
  simp [State.saveBuild]

@[simp] theorem State.restoreStart_window (s : State) (n : Nat) : (State.restoreStart s n).window = s.window := by
  simp [State.restoreStart]

@[simp] theorem State.releaseReset_window (s : State) (n : Nat) : (State.releaseReset s n).window = s.window := by
  simp [State.releaseReset]

@[simp] theorem State.restoreFails_window (s : State) (n code : Nat) : (State.restoreFails s n code).window = s.window := by
  simp [State.restoreFails]

@[simp] theorem State.restoreFailsNext_window (s : State) (n code : Nat) : (State.restoreFailsNext s n code).window = s.window := by
  simp [State.restoreFailsNext]

@[simp] theorem State.consumeTag_window (s : State) (tag : Bytes) (src target : Nat) : (State.consumeTag s tag src target).window = s.window := by
  unfold State.consumeTag
  repeat' first
    | (simp; done)
    | split

@[simp] theorem State.restoreAnswered_window (s : State) (n : Nat) (accepted : Bool) : (State.restoreAnswered s n accepted).window = s.window := by
  simp [State.restoreAnswered]

@[simp] theorem State.restoreCheck_window (s : State) (n : Nat) : (State.restoreCheck s n).window = s.window := by
  unfold State.restoreCheck
  repeat' first
    | (simp; done)
    | split

@[simp] theorem State.restoreOwn_window (s : State) (n : Nat) : (State.restoreOwn s n).window = s.window := by
  simp only [State.restoreOwn]
  repeat' first
    | (simp; done)
    | split

@[simp] theorem State.takeRing_window (s : State) (r : Nat) (b : Bytes) : (State.takeRing s r b).window = s.window := by
  simp [State.takeRing]

@[simp] theorem State.restoreDone_window (s : State) (n : Nat) : (State.restoreDone s n).window = s.window := by
  unfold State.restoreDone
  repeat' first
    | (simp; done)
    | split

@[simp] theorem State.migCommand_window (s : State) (n v : Nat) : (State.migCommand s n v).window = s.window := by
  unfold State.migCommand
  repeat' first
    | (simp; done)
    | split

@[simp] theorem State.migWindow_window (s : State) : (s.migWindow).window = s.window := by
  simp (disch := (intros; repeat' first | rfl | (simp; done) | split)) [State.migWindow]

@[simp] theorem State.migTickDue_window (s : State) : (State.migTickDue s).window = s.window := by
  unfold State.migTickDue
  repeat' first
    | rfl
    | (simp; done)
    | (refine foldl_window ?_ _ _)
    | (intro h; cases h; simp; done)
    | (intro h; cases h; done)
    | (intro st x; try dsimp only)
    | split
    | dsimp only

@[simp] theorem State.badMessage_window (s : State) : (State.badMessage s).window = s.window := by
  simp [State.badMessage]

@[simp] theorem State.addFragment_window (s : State) (h : MsgHdr) : ((State.addFragment s h).1).window = s.window := by
  unfold State.addFragment
  repeat' first
    | (simp; done)
    | split

@[simp] theorem State.receive_window (s : State) (type : Nat) (m : MsgHdr) (f : State → State)
    (h : ∀ st, (f st).window = st.window) :
    (s.receive type m f).window = s.window := by
  simp only [State.receive]
  repeat' first
    | (simp [h]; done)
    | split

@[simp] theorem State.atStep4_window (s : State) (c : Instr) (f : State → State)
    (h : ∀ st, (f st).window = st.window) :
    (s.atStep4 c f).window = s.window := by
  simp only [State.atStep4]
  split <;> simp [h]

@[simp] theorem State.ownMarker_window (s : State) (m : Marker) : (State.ownMarker s m).window = s.window := by
  simp [State.ownMarker]

@[simp] theorem State.takeHeader_window (s : State) (m : Marker) : (State.takeHeader s m).window = s.window := by
  simp [State.takeHeader]

@[simp] theorem State.measure_window (s : State) : (State.measure s).window = s.window := by
  unfold State.measure
  repeat' first
    | (simp; done)
    | split

@[simp] theorem State.portLocks_window (s : State) (ring : Nat) : (State.portLocks s ring).window = s.window := by
  simp [State.portLocks]

@[simp] theorem State.follow_window (s : State) (m : Marker) : (State.follow s m).window = s.window := by
  unfold State.follow
  repeat' first
    | (simp; done)
    | split

@[simp] theorem State.forward_window (s : State) (type : Nat) (h : MsgHdr) (body : Bytes) : (State.forward s type h body).window = s.window := by
  simp [State.forward]

@[simp] theorem State.dropAddress_window (s : State) (entries : List Nat) : (State.dropAddress s entries).window = s.window := by
  simp [State.dropAddress]

@[simp] theorem State.setRingOrder_window (s : State) (l : List Nat) : (State.setRingOrder s l).window = s.window := by
  simp [State.setRingOrder]

@[simp] theorem State.rollCall_window (s : State) (h : MsgHdr) (count : Nat) (entries : List Nat) : (State.rollCall s h count entries).window = s.window := by
  simp [State.rollCall]

@[simp] theorem State.fillCall_window (s : State) (h : MsgHdr) (order entries : List Nat) : (State.fillCall s h order entries).window = s.window := by
  simp [State.fillCall]

@[simp] theorem State.abandonOwn_window (s : State) (o : OwnChange) : (State.abandonOwn s o).window = s.window := by
  unfold State.abandonOwn
  repeat' first
    | (simp; done)
    | split

@[simp] theorem State.logRecord_window (s : State) (src : Nat) (r : ReplRecord) : (State.logRecord s src r).window = s.window := by
  simp [State.logRecord]

@[simp] theorem State.abandonForming_window (s : State) (j : Job) : (State.abandonForming s j).window = s.window := by
  simp [State.abandonForming]

@[simp] theorem State.replicate_window (s : State) (src : Nat) (r : ReplRecord) : (State.replicate s src r).window = s.window := by
  simp [State.replicate]

@[simp] theorem State.updOwn_window (s : State) (seq : Nat) (f : OwnChange → OwnChange) : (State.updOwn s seq f).window = s.window := by
  simp [State.updOwn]

@[simp] theorem State.takeAck_window (s : State) (src : Nat) (o : OwnChange) : (State.takeAck s src o).window = s.window := by
  simp [State.takeAck]

@[simp] theorem State.updLog_window (s : State) (writer seq : Nat) (f : LogRecord → LogRecord) : (State.updLog s writer seq f).window = s.window := by
  simp [State.updLog]

@[simp] theorem State.dropLog_window (s : State) (writer seq : Nat) : (State.dropLog s writer seq).window = s.window := by
  simp [State.dropLog]

@[simp] theorem State.settleOrphan_window (s : State) (o : OwnChange) (commit : Bool) : (State.settleOrphan s o commit).window = s.window := by
  simp [State.settleOrphan]

@[simp] theorem State.takeCommit_window (s : State) (writer seq : Nat) : (State.takeCommit s writer seq).window = s.window := by
  unfold State.takeCommit
  repeat' first
    | (simp; done)
    | split

@[simp] theorem State.answerQuery_window (s : State) (writer seq : Nat) : (State.answerQuery s writer seq).window = s.window := by
  unfold State.answerQuery
  repeat' first
    | (simp; done)
    | split

@[simp] theorem State.countHolder_window (s : State) (src writer seq : Nat) : (State.countHolder s src writer seq).window = s.window := by
  unfold State.countHolder
  repeat' first
    | (simp; done)
    | split

@[simp] theorem State.applyLogged_window (s : State) : (State.applyLogged s).window = s.window := by
  simp [State.applyLogged]

@[simp] theorem State.consume_window (s : State) (src : Nat) (tag : Bytes) (target : Nat) : (State.consume s src tag target).window = s.window := by
  unfold State.consume
  repeat' first
    | (simp; done)
    | split

@[simp] theorem State.migAnswered_window (s : State) (tag : Bytes) (accepted : Bool) : (State.migAnswered s tag accepted).window = s.window := by
  unfold State.migAnswered
  repeat' first
    | (simp; done)
    | split

@[simp] theorem State.joinWipe_window (s : State) (j : JoinState) : (State.joinWipe s j).window = s.window := by
  simp [State.joinWipe]

@[simp] theorem State.joinFails_window (s : State) : (State.joinFails s).window = s.window := by
  simp [State.joinFails]

@[simp] theorem State.joinAgree_window (s : State) (ec kem transcript : Bytes) : (State.joinAgree s ec kem transcript).window = s.window := by
  simp [State.joinAgree]

@[simp] theorem State.foundDomain_window (s : State) : (State.foundDomain s).window = s.window := by
  simp [State.foundDomain]

@[simp] theorem State.joinStart_window (s : State) (peer : Nat) : (State.joinStart s peer).window = s.window := by
  simp [State.joinStart]

@[simp] theorem State.takeAnswer_window (s : State) (a : Answer) : (State.takeAnswer s a).window = s.window := by
  unfold State.takeAnswer
  repeat' first
    | (simp; done)
    | split

@[simp] theorem State.takeDomain_window (s : State) (g : DomainGrant) : (State.takeDomain s g).window = s.window := by
  simp [State.takeDomain]

@[simp] theorem State.transferStart_window (s : State) (o : Offer) : (State.transferStart s o).window = s.window := by
  simp [State.transferStart]

@[simp] theorem State.grantDomain_window (s : State) : (State.grantDomain s).window = s.window := by
  unfold State.grantDomain
  repeat' first
    | (simp; done)
    | split

@[simp] theorem State.joinConfirm_window (s : State) : (State.joinConfirm s).window = s.window := by
  simp only [State.joinConfirm]
  repeat' first
    | (simp; done)
    | split

@[simp] theorem State.takeOffer_window (s : State) (src : Nat) (o : Offer) : (State.takeOffer s src o).window = s.window := by
  unfold State.takeOffer
  repeat' first
    | (simp; done)
    | split

@[simp] theorem State.transferOne_window (s : State) (peer : Nat) : (State.transferOne s peer).window = s.window := by
  unfold State.transferOne
  repeat' first
    | (simp; done)
    | split

@[simp] theorem State.transferFrame_window (s : State) : (State.transferFrame s).window = s.window := by
  unfold State.transferFrame
  repeat' first
    | rfl
    | (simp; done)
    | (refine foldl_window ?_ _ _)
    | (intro h; cases h; simp; done)
    | (intro h; cases h; done)
    | (intro st x; try dsimp only)
    | split
    | dsimp only

@[simp] theorem State.freeOutside_window (s : State) (page map : Nat) : (State.freeOutside s page map).window = s.window := by
  simp [State.freeOutside]

@[simp] theorem State.takeObject_window (s : State) (slot : Nat) (b : Bytes) (pinned : Bool) (map : Nat) : (State.takeObject s slot b pinned map).window = s.window := by
  simp [State.takeObject]

@[simp] theorem State.spendRecovering_window (s : State) : (State.spendRecovering s).window = s.window := by
  simp [State.spendRecovering]

@[simp] theorem State.freeUnnamed_window (s : State) : (State.freeUnnamed s).window = s.window := by
  simp [State.freeUnnamed]

@[simp] theorem State.transferDone_window (s : State) (full : Bool) : (State.transferDone s full).window = s.window := by
  simp [State.transferDone]

@[simp] theorem State.sampleSource_window (s : State) (r : Reading) (n : Nat) : (State.sampleSource s r n).window = s.window := by
  simp [State.sampleSource]

@[simp] theorem State.zeroiseWorking_window (s : State) : (State.zeroiseWorking s).window = s.window := by
  simp [State.zeroiseWorking]

@[simp] theorem State.zeroiseBattery_window (s : State) : (State.zeroiseBattery s).window = s.window := by
  simp [State.zeroiseBattery]

@[simp] theorem State.zeroiseAll_window (s : State) : (State.zeroiseAll s).window = s.window := by
  simp [State.zeroiseAll]

@[simp] theorem State.latch_window (s : State) (n r : Nat) : (State.latch s n r).window = s.window := by
  simp [State.latch]

@[simp] theorem State.batRecord_window (s : State) (sources applied held state : Nat) : (State.batRecord s sources applied held state).window = s.window := by
  simp [State.batRecord]

@[simp] theorem State.batAlarmRecord_window (s : State) (n applied held state : Nat) : (State.batAlarmRecord s n applied held state).window = s.window := by
  unfold State.batAlarmRecord
  repeat' first
    | (simp; done)
    | split

@[simp] theorem State.batteryPart_window (s : State) (n r held state : Nat) : (State.batteryPart s n r held state).window = s.window := by
  simp [State.batteryPart]

@[simp] theorem State.batteryAlarm_window (s : State) (n r state : Nat) : (State.batteryAlarm s n r state).window = s.window := by
  simp [State.batteryAlarm]

@[simp] theorem State.keeperAlarm_window (s : State) (n r : Nat) : (State.keeperAlarm s n r).window = s.window := by
  simp [State.keeperAlarm]

@[simp] theorem State.tamperJob_window (s : State) (zero : Bool) (j : Job) : (State.tamperJob s zero j).window = s.window := by
  simp [State.tamperJob]

@[simp] theorem State.respond_window (s : State) : (State.respond s).window = s.window := by
  simp [State.respond]

@[simp] theorem State.reloadPins_window (s : State) : (State.reloadPins s).window = s.window := by
  simp [State.reloadPins]

@[simp] theorem State.enterLock_window (s : State) (cause : Nat) : (State.enterLock s cause).window = s.window := by
  simp [State.enterLock]

@[simp] theorem State.respondEnd_window (s : State) (r : Nat × Nat × List (Nat × Nat)) : (State.respondEnd s r).window = s.window := by
  simp [State.respondEnd]

@[simp] theorem State.respondWindow_window (s : State) : (State.respondWindow s).window = s.window := by
  simp [State.respondWindow]

@[simp] theorem State.respondStart_window (s : State) : (State.respondStart s).window = s.window := by
  simp [State.respondStart]

@[simp] theorem State.copyBatLog_window (s : State) : (State.copyBatLog s).window = s.window := by
  simp [State.copyBatLog]

@[simp] theorem State.applyPending_window (s : State) : (State.applyPending s).window = s.window := by
  simp [State.applyPending]

@[simp] theorem State.batteryLost_window (s : State) : (State.batteryLost s).window = s.window := by
  simp [State.batteryLost]

@[simp] theorem State.clearLatches_window (s : State) (v : Nat) : (State.clearLatches s v).window = s.window := by
  simp [State.clearLatches]

@[simp] theorem State.clearLock_window (s : State) : (State.clearLock s).window = s.window := by
  simp [State.clearLock]

@[simp] theorem State.setMarks_window (s : State) (n : Nat) (m : Marks) : (State.setMarks s n m).window = s.window := by
  unfold State.setMarks
  repeat' first
    | (simp; done)
    | split

@[simp] theorem State.endAllJobs_window (s : State) : (State.endAllJobs s).window = s.window := by
  simp [State.endAllJobs]

@[simp] theorem State.transitionStart_window (s : State) (target : Nat) : (State.transitionStart s target).window = s.window := by
  unfold State.transitionStart
  repeat' first
    | (simp; done)
    | split

@[simp] theorem State.dropEntries_window (s : State) (p : Reach → Bool) (keep : Nat → Bool) : (State.dropEntries s p keep).window = s.window := by
  simp [State.dropEntries]

@[simp] theorem State.wipeKeys_window (s : State) : (State.wipeKeys s).window = s.window := by
  simp [State.wipeKeys]

@[simp] theorem State.deallocateDrive_window (s : State) (p : Nat) : (State.deallocateDrive s p).window = s.window := by
  simp [State.deallocateDrive]

@[simp] theorem State.endLock_window (s : State) : (State.endLock s).window = s.window := by
  simp [State.endLock]

@[simp] theorem State.wipeCustomer_window (s : State) : (State.wipeCustomer s).window = s.window := by
  simp [State.wipeCustomer]

@[simp] theorem State.unformat_window (s : State) : (State.unformat s).window = s.window := by
  simp [State.unformat]

@[simp] theorem State.transitionWipe_window (s : State) (n : Nat) : (State.transitionWipe s n).window = s.window := by
  unfold State.transitionWipe
  repeat' first
    | (simp; done)
    | split

@[simp] theorem State.transitionProvision_window (s : State) (n : Nat) : (State.transitionProvision s n).window = s.window := by
  unfold State.transitionProvision
  repeat' first
    | (simp; done)
    | split

@[simp] theorem State.transitionNext_window (s : State) (n : Nat) : (State.transitionNext s n).window = s.window := by
  unfold State.transitionNext
  repeat' first
    | rfl
    | (simp; done)
    | (refine foldl_window ?_ _ _)
    | (intro h; cases h; simp; done)
    | (intro h; cases h; done)
    | (intro st x; try dsimp only)
    | split
    | dsimp only

@[simp] theorem State.transitionResume_window (s : State) : (State.transitionResume s).window = s.window := by
  unfold State.transitionResume
  repeat' first
    | rfl
    | (simp; done)
    | (refine foldl_window ?_ _ _)
    | (intro h; cases h; simp; done)
    | (intro h; cases h; done)
    | (intro st x; try dsimp only)
    | split
    | dsimp only

@[simp] theorem State.lifeChallenge_window (s : State) : (State.lifeChallenge s).window = s.window := by
  simp [State.lifeChallenge]

@[simp] theorem State.certWrite_window (s : State) (v : Bytes) : (State.certWrite s v).window = s.window := by
  simp [State.certWrite]

@[simp] theorem State.certApply_window (s : State) : (State.certApply s).window = s.window := by
  simp [State.certApply]

@[simp] theorem State.lifeTick_window (s : State) : (State.lifeTick s).window = s.window := by
  simp only [State.lifeTick]
  repeat' first
    | (simp; done)
    | split

@[simp] theorem State.lifeReset_window (s : State) : (State.lifeReset s).window = s.window := by
  simp [State.lifeReset]

@[simp] theorem State.trimSelect_window (s : State) (v : Nat) : (State.trimSelect s v).window = s.window := by
  unfold State.trimSelect
  repeat' first
    | (simp; done)
    | split

@[simp] theorem State.silWrite_window (s : State) (e : SilEvent) : (State.silWrite s e).window = s.window := by
  simp [State.silWrite]

@[simp] theorem State.silOne_window (s : State × Nat) (e : SilEvent) : ((State.silOne s e).1).window = s.1.window := by
  unfold State.silOne
  repeat' first
    | (simp; done)
    | split
    | dsimp only

@[simp] theorem State.silTake_window (s : State) (snap : Nat → Nat × Bytes) : (State.silTake s snap).window = s.window := by
  simp [State.silTake]

@[simp] theorem State.silWindow_window (s : State) (snap : Nat → Nat × Bytes) : (State.silWindow s snap).window = s.window := by
  unfold State.silWindow
  repeat' first
    | rfl
    | (simp; done)
    | (refine foldl_window ?_ _ _)
    | (intro h; cases h; simp; done)
    | (intro h; cases h; done)
    | (intro st x; try dsimp only)
    | split
    | dsimp only

@[simp] theorem State.silClear_window (s : State) (snap : Nat → Nat × Bytes) : (State.silClear s snap).window = s.window := by
  simp [State.silClear]

@[simp] theorem State.silReset_window (s : State) : (State.silReset s).window = s.window := by
  simp [State.silReset]

@[simp] theorem State.slicesReset_window (s : State) : (State.slicesReset s).window = s.window := by
  simp [State.slicesReset]

@[simp] theorem State.functionReset_window (s : State) : (State.functionReset s).window = s.window := by
  simp [State.functionReset]

@[simp] theorem State.lanesReset_window (s : State) : (State.lanesReset s).window = s.window := by
  simp [State.lanesReset]

@[simp] theorem State.assignSpares_window (s : State) : (State.assignSpares s).window = s.window := by
  simp [State.assignSpares]

@[simp] theorem State.vaultReset_window (s : State) : (State.vaultReset s).window = s.window := by
  simp [State.vaultReset]

@[simp] theorem State.chainWarm_window (s : State) : (State.chainWarm s).window = s.window := by
  simp [State.chainWarm]

@[simp] theorem State.dictReset_window (s : State) (p : Reach → Bool) : (State.dictReset s p).window = s.window := by
  simp [State.dictReset]

@[simp] theorem State.warmReset_window (s : State) : (State.warmReset s).window = s.window := by
  simp [State.warmReset]

@[simp] theorem State.coldReset_window (s : State) : (State.coldReset s).window = s.window := by
  simp [State.coldReset]

@[simp] theorem State.enterReset_window (s : State) (reach bits_ : Nat) : (State.enterReset s reach bits_).window = s.window := by
  simp [State.enterReset]

@[simp] theorem State.pinReset_window (s : State) (reach bit : Nat) : (State.pinReset s reach bit).window = s.window := by
  simp [State.pinReset]

@[simp] theorem State.hostReset_window (s : State) (bit : Nat) : (State.hostReset s bit).window = s.window := by
  simp [State.hostReset]

@[simp] theorem State.railFalls_window (s : State) (rail : Rail) : (State.railFalls s rail).window = s.window := by
  simp [State.railFalls]

@[simp] theorem State.dropLockCause_window (s : State) (bit : Nat) : (State.dropLockCause s bit).window = s.window := by
  simp [State.dropLockCause]

@[simp] theorem State.fuseLoad_window (s : State) : (State.fuseLoad s).window = s.window := by
  simp [State.fuseLoad]

@[simp] theorem State.strapRead_window (s : State) (conv : List Nat) : (State.strapRead s conv).window = s.window := by
  unfold State.strapRead
  repeat' first
    | (simp; done)
    | split

theorem State.imageSelect_window (s : State) (boot : Boot) : ∀ t, State.imageSelect s boot = some t → t.window = s.window := by
  simp only [State.imageSelect]
  repeat' first
    | (simp; done)
    | split

@[simp] theorem State.baseSecretForm_window (s : State) : (State.baseSecretForm s).window = s.window := by
  unfold State.baseSecretForm
  repeat' first
    | (simp; done)
    | split

@[simp] theorem State.baseKeyForm_window (s : State) : (State.baseKeyForm s).window = s.window := by
  simp [State.baseKeyForm]

@[simp] theorem State.loadHearts_window (s : State) : (State.loadHearts s).window = s.window := by
  unfold State.loadHearts
  repeat' first
    | rfl
    | (simp; done)
    | (refine foldl_window ?_ _ _)
    | (intro h; cases h; simp; done)
    | (intro h; cases h; done)
    | (intro st x; try dsimp only)
    | split
    | dsimp only

@[simp] theorem State.portsStart_window (s : State) (mirror : Nat → Bool) : (State.portsStart s mirror).window = s.window := by
  simp [State.portsStart]

@[simp] theorem State.vaultAt_window (s : State) (v : VaultState) : (State.vaultAt s v).window = s.window := by
  simp [State.vaultAt]

@[simp] theorem State.vaultStart_window (s : State) : (State.vaultStart s).window = s.window := by
  unfold State.vaultStart
  repeat' first
    | (simp; done)
    | split

@[simp] theorem State.endStart_window (s : State) (reach : Nat) : (State.endStart s reach).window = s.window := by
  simp [State.endStart]

@[simp] theorem State.readyReload_window (s : State) : (State.readyReload s).window = s.window := by
  simp [State.readyReload]

@[simp] theorem State.setReady_window (s : State) : (State.setReady s).window = s.window := by
  simp [State.setReady]

@[simp] theorem State.blankStart_window (s : State) : (State.blankStart s).window = s.window := by
  simp [State.blankStart]

@[simp] theorem State.pendingZeroise_window (s : State) : (State.pendingZeroise s).window = s.window := by
  simp [State.pendingZeroise]

@[simp] theorem State.startFinish_window (s : State) : (State.startFinish s).window = s.window := by
  simp [State.startFinish]

@[simp] theorem State.bootStops_window (s : State) : (State.bootStops s).window = s.window := by
  simp [State.bootStops]

@[simp] theorem State.startFrom_window (s : State) (reach : Nat) (boot : Boot) : (State.startFrom s reach boot).window = s.window := by
  unfold State.startFrom
  repeat' first
    | rfl
    | (simp; done)
    | (have a := State.imageSelect_window _ _ _ ‹_›; simp [a]; done)
    | (intro h; have a := State.imageSelect_window _ _ _ h; simp [a]; done)
    | (intro h; cases h; have a := State.imageSelect_window _ _ _ ‹_›; simp [a]; done)
    | (refine foldl_window ?_ _ _)
    | (intro h; cases h; simp; done)
    | (intro h; cases h; done)
    | (intro st x; try dsimp only)
    | split
    | dsimp only

@[simp] theorem State.scrubNormal_window (s : State) : (State.scrubNormal s).window = s.window := by
  simp [State.scrubNormal]

@[simp] theorem State.pendingReset_window (s : State) (p : Nat) : (State.pendingReset s p).window = s.window := by
  simp [State.pendingReset]

@[simp] theorem State.standbyOn_window (s : State) : (State.standbyOn s).window = s.window := by
  simp [State.standbyOn]

@[simp] theorem State.standbyOff_window (s : State) : (State.standbyOff s).window = s.window := by
  simp [State.standbyOff]

@[simp] theorem State.moveRing_window (s : State) (n v : Nat) : (State.moveRing s n v).window = s.window := by
  simp [State.moveRing]

@[simp] theorem State.setSource_window (s : State) (key n v : Nat) : (State.setSource s key n v).window = s.window := by
  simp [State.setSource]

@[simp] theorem State.setWeirs_window (s : State) (v : Nat) : (State.setWeirs s v).window = s.window := by
  simp [State.setWeirs]

@[simp] theorem State.setRegion_window (s : State) (n sub v : Nat) : (State.setRegion s n sub v).window = s.window := by
  simp [State.setRegion]

@[simp] theorem State.setStandby_window (s : State) (v : Nat) : (State.setStandby s v).window = s.window := by
  simp [State.setStandby]

@[simp] theorem State.setGate_window (s : State) (b v : Nat) : (State.setGate s b v).window = s.window := by
  simp [State.setGate]

@[simp] theorem State.dropOfficer_window (s : State) (n : Nat) : (State.dropOfficer s n).window = s.window := by
  simp [State.dropOfficer]

@[simp] theorem State.applyLow_window (s : State) (index sub key v : Nat) : (State.applyLow s index sub key v).window = s.window := by
  unfold State.applyLow
  repeat' first
    | (simp; done)
    | split

@[simp] theorem State.applyHigh_window (s : State) (index sub key v : Nat) : (State.applyHigh s index sub key v).window = s.window := by
  unfold State.applyHigh
  repeat' first
    | rfl
    | (simp; done)
    | (refine foldl_window ?_ _ _)
    | (intro h; cases h; simp; done)
    | (intro h; cases h; done)
    | (intro st x; try dsimp only)
    | split
    | dsimp only

@[simp] theorem State.applyOctets_window (s : State) (index sub key : Nat) (b : Bytes) : (State.applyOctets s index sub key b).window = s.window := by
  unfold State.applyOctets
  repeat' first
    | (simp; done)
    | split

@[simp] theorem State.applyWrite_window (s : State) (w : Nat × DVal) : (State.applyWrite s w).window = s.window := by
  unfold State.applyWrite
  repeat' first
    | rfl
    | (simp; done)
    | (refine foldl_window ?_ _ _)
    | (intro h; cases h; simp; done)
    | (intro h; cases h; done)
    | (intro st x; try dsimp only)
    | split
    | dsimp only

@[simp] theorem State.applyAcked_window (s : State) : (State.applyAcked s).window = s.window := by
  simp [State.applyAcked]

@[simp] theorem State.applyMaps_window (s : State) : (s.applyMaps).window = s.window := by
  simp [State.applyMaps]

@[simp] theorem State.view_window (s : State) : (State.view s).window = s.window := by
  simp [State.view]

@[simp] theorem State.crossFifo_window (s : State) (n : Nat) (e : BitVec 72) : (State.crossFifo s n e).window = s.window := by
  simp [State.crossFifo]

@[simp] theorem State.ringEnable_window (s : State) (ring : Nat) : (State.ringEnable s ring).window = s.window := by
  unfold State.ringEnable
  repeat' first
    | (simp; done)
    | split

@[simp] theorem State.ringDisable_window (s : State) (ring : Nat) : (State.ringDisable s ring).window = s.window := by
  unfold State.ringDisable
  repeat' first
    | (simp; done)
    | split

@[simp] theorem State.enableSample_window (s : State) (n : Nat) : (State.enableSample s n).window = s.window := by
  simp only [State.enableSample]
  repeat' first
    | (simp; done)
    | split

@[simp] theorem State.moveFrame_window (s : State) : (State.moveFrame s).window = s.window := by
  simp [State.moveFrame]

@[simp] theorem State.enableFrame_window (s : State) : (State.enableFrame s).window = s.window := by
  simp [State.enableFrame]

@[simp] theorem State.enableShows_window (s : State) (n : Nat) : (State.enableShows s n).window = s.window := by
  simp only [State.enableShows]
  repeat' first
    | (simp; done)
    | split

@[simp] theorem State.enablesShow_window (s : State) : (State.enablesShow s).window = s.window := by
  simp [State.enablesShow]

@[simp] theorem State.outGo_window (s : State) : (State.outGo s).window = s.window := by
  unfold State.outGo
  repeat' first
    | (simp; done)
    | split

@[simp] theorem State.inFullClear_window (s : State) : (State.inFullClear s).window = s.window := by
  unfold State.inFullClear
  repeat' first
    | (simp; done)
    | split

@[simp] theorem State.msixUnmask_window (s : State) (vector : Nat) : (State.msixUnmask s vector).window = s.window := by
  unfold State.msixUnmask
  repeat' first
    | (simp; done)
    | split

@[simp] theorem State.tunnelControl_window (s : State) (v : Nat) : (State.tunnelControl s v).window = s.window := by
  unfold State.tunnelControl
  repeat' first
    | (simp; done)
    | split

@[simp] theorem State.bar0Write_window (s : State) (o v : Nat) : (State.bar0Write s o v).window = s.window := by
  unfold State.bar0Write
  repeat' first
    | (simp; done)
    | split

@[simp] theorem State.bar2Write_window (s : State) (o v : Nat) : (State.bar2Write s o v).window = s.window := by
  unfold State.bar2Write
  repeat' first
    | (simp; done)
    | split

@[simp] theorem State.ringConfig_window (s : State) (n v : Nat) : (State.ringConfig s n v).window = s.window := by
  unfold State.ringConfig
  repeat' first
    | (simp; done)
    | split

@[simp] theorem State.bar4Write_window (s : State) (o v : Nat) : (State.bar4Write s o v).window = s.window := by
  unfold State.bar4Write
  repeat' first
    | (simp; done)
    | split

@[simp] theorem State.barWrite32_window (s : State) (bar o v : Nat) : (State.barWrite32 s bar o v).window = s.window := by
  unfold State.barWrite32
  repeat' first
    | (simp; done)
    | split

@[simp] theorem State.badAccess_window (s : State) (bar offset : Nat) : (State.badAccess s bar offset).window = s.window := by
  simp [State.badAccess]

@[simp] theorem State.nextFrame_window (s : State) : (State.nextFrame s).window = s.window := by
  simp [State.nextFrame]

@[simp] theorem State.linkTick_window (s : State) : (State.linkTick s).window = s.window := by
  simp [State.linkTick]

@[simp] theorem State.errorShows_window (s : State) (n : Nat) : (State.errorShows s n).window = s.window := by
  simp only [State.errorShows]
  repeat' first
    | (simp; done)
    | split

@[simp] theorem State.errorsShow_window (s : State) : (State.errorsShow s).window = s.window := by
  simp [State.errorsShow]

@[simp] theorem State.foldReservoir_window (s : State) : (State.foldReservoir s).window = s.window := by
  simp [State.foldReservoir]

@[simp] theorem State.frameEnds_window (s : State) : (State.frameEnds s).window = false := by
  simp only [State.frameEnds]
  split <;> simp

@[simp] theorem State.ownWritesDue_window (s : State) : (State.ownWritesDue s).window = s.window := by
  simp [State.ownWritesDue]

@[simp] theorem State.closeEnrolment_window (s : State) : (State.closeEnrolment s).window = s.window := by
  simp [State.closeEnrolment]

@[simp] theorem State.tickValues_window (s : State) : (State.tickValues s).window = s.window := by
  simp [State.tickValues]

@[simp] theorem State.asOfNext_window (s : State) : (s.asOfNext).window = false := by
  simp [State.asOfNext]

theorem State.replicated_window (s : State) (key v : Nat) (c : Change × State) (h : s.replicated key v = some c) :
    c.2.window = s.window := by
  simp only [State.replicated] at h
  repeat' split at h
  all_goals (cases h; try simp)

@[simp] theorem nextOf_guardDisable_window (s : State) : (nextOf (execGuardDisable s) s).window = s.window := by
  simp only [execGuardDisable]
  repeat' split
  all_goals simp [nextOf]

@[simp] theorem nextOf_guardEnable_window (s : State) : (nextOf (execGuardEnable s) s).window = s.window := by
  simp only [execGuardEnable]
  repeat' split
  all_goals simp [nextOf]

@[simp] theorem nextOf_swdtRefresh_window (s : State) (v : Nat) : (nextOf (execSwdtRefresh v s) s).window = s.window := by
  simp only [execSwdtRefresh]
  repeat' split
  all_goals simp [nextOf]

theorem State.atOnce_window (s : State) (key v : Nat) : ∀ t, State.atOnce s key v = some t → t.window = s.window := by
  intro t h
  simp only [State.atOnce] at h
  repeat' split at h
  all_goals (cases h; try simp)

@[simp] theorem State.acceptWrite_window (s : State) (officer : Bool) (key : Nat) (v : DVal) (req : Option (DictReq × Option Nat)) :
    (s.acceptWrite officer key v req).window = s.window := by
  unfold State.acceptWrite
  split
  · simp
  · split
    · simp
    · split
      · next t h => have a := State.atOnce_window _ _ _ _ h; dsimp only; split <;> simp [a]
      · split
        · next c h => have a := State.replicated_window _ _ _ _ h; simp [a]
        · simp

@[simp] theorem State.writeEntry_window (s : State) (exists_ : Bool) (role : Role) (key : Nat) (v : DVal) : (State.writeEntry s exists_ role key v).window = s.window := by
  unfold State.writeEntry
  repeat' first
    | (simp; done)
    | split

@[simp] theorem State.rowWrite_window (s : State) (exists_ : Bool) (role : Role) (key : Nat) (v : DVal) : (State.rowWrite s exists_ role key v).window = s.window := by
  simp [State.rowWrite]

@[simp] theorem State.serveRead_window (s : State) (r : DictReq) : (State.serveRead s r).window = s.window := by
  unfold State.serveRead
  repeat' first
    | (simp; done)
    | split

@[simp] theorem State.issueChallenge_window (s : State) (dst : Nat) : (State.issueChallenge s dst).window = s.window := by
  simp [State.issueChallenge]

@[simp] theorem State.spend_window (s : State) (c : Bytes) : (State.spend s c).window = s.window := by
  simp [State.spend]

@[simp] theorem State.completeWrite_window (s : State) (w : PendingWrite) : (State.completeWrite s w).window = s.window := by
  unfold State.completeWrite
  repeat' first
    | (simp; done)
    | split

@[simp] theorem State.tryComplete_window (s : State) (c : Bytes) : (State.tryComplete s c).window = s.window := by
  unfold State.tryComplete
  repeat' first
    | (simp; done)
    | split

@[simp] theorem State.rejectApproval_window (s : State) : (State.rejectApproval s).window = s.window := by
  simp [State.rejectApproval]

@[simp] theorem State.countApproval_window (s : State) (c : Bytes) (officer : Nat) (self : Bool) : (State.countApproval s c officer self).window = s.window := by
  simp [State.countApproval]

@[simp] theorem State.holdWrite_window (s : State) (r : DictReq) (c : Challenge) : (State.holdWrite s r c).window = s.window := by
  simp [State.holdWrite]

@[simp] theorem State.quorumRequest_window (s : State) (r : DictReq) (key : Nat) : (State.quorumRequest s r key).window = s.window := by
  unfold State.quorumRequest
  repeat' first
    | (simp; done)
    | split

@[simp] theorem State.serveWrite_window (s : State) (r : DictReq) : (State.serveWrite s r).window = s.window := by
  unfold State.serveWrite
  repeat' first
    | (simp; done)
    | split

@[simp] theorem State.takeApproval_window (s : State) (b : Bytes) : (State.takeApproval s b).window = s.window := by
  unfold State.takeApproval
  repeat' first
    | (simp; done)
    | split

@[simp] theorem State.dictWindow_window (s : State) : (State.dictWindow s).window = s.window := by
  simp [State.dictWindow]

@[simp] theorem State.tunnelIn_window (s : State) (d : Bytes) : (State.tunnelIn s d).window = s.window := by
  simp [State.tunnelIn]

@[simp] theorem State.takeOwn_window (s : State) (d : Bytes) : (State.takeOwn s d).window = s.window := by
  unfold State.takeOwn
  repeat' first
    | (simp; done)
    | split

@[simp] theorem State.takeOwnDue_window (s : State) : (State.takeOwnDue s).window = s.window := by
  simp [State.takeOwnDue]

@[simp] theorem State.tunnelOut_window (s : State) : (State.tunnelOut s).window = s.window := by
  simp [State.tunnelOut]

@[simp] theorem State.tunnelDeliver_window (s : State) : (State.tunnelDeliver s).window = s.window := by
  simp only [State.tunnelDeliver]
  repeat' first
    | (simp; done)
    | split

@[simp] theorem State.retryPlace_window (s : State) (id : Nat) : (s.retryPlace id).window = s.window := by
  unfold State.retryPlace
  repeat' first
    | (simp; done)
    | (exact State.placeTo_window _ _ _ _ _ fun st => by simp)
    | split

@[simp] theorem State.newContext_window (s : State) (ring index : Nat) (refetch void : Bool) : (State.newContext s ring index refetch void).window = s.window := by
  simp [State.newContext]

@[simp] theorem State.fetchOne_window (s : State) (n : Nat) : (State.fetchOne s n).window = s.window := by
  simp [State.fetchOne]

@[simp] theorem State.fetchTurn_window (a : State × Nat) (n : Nat) : ((State.fetchTurn a n).1).window = a.1.window := by
  simp only [State.fetchTurn]
  split <;> simp

@[simp] theorem State.fetchRounds_window (f : Nat) (ns : List Nat) (a : State × Nat) : (State.fetchRounds ns f a).window = a.1.window := by
  induction f generalizing a with
  | zero => exact rfl
  | succ f ih =>
    simp only [State.fetchRounds]
    split <;> simp [ih]

@[simp] theorem State.fetchParked_window (s : State) : ((State.fetchParked s).1).window = s.window := by
  unfold State.fetchParked
  repeat' first
    | (simp; done)
    | split

@[simp] theorem State.retryContexts_window (s : State) : (State.retryContexts s).window = s.window := by
  simp [State.retryContexts]

@[simp] theorem State.fetchFrame_window (s : State) : (State.fetchFrame s).window = s.window := by
  unfold State.fetchFrame
  repeat' first
    | (simp; done)
    | split

@[simp] theorem State.deriveOne_window (s : State) (j : Job) (h : Nat) : (State.deriveOne s j h).window = s.window := by
  simp [State.deriveOne]

@[simp] theorem State.deriveClass0_window (s : State) (j : Job) : (State.deriveClass0 s j).window = s.window := by
  simp [State.deriveClass0]

@[simp] theorem State.deriveOther_window (s : State) (id : Nat) : (State.deriveOther s id).window = s.window := by
  unfold State.deriveOther
  repeat' first
    | rfl
    | (simp; done)
    | (have a := State.ladderTake_window _ _ ‹_›; simp [a]; done)
    | (intro h; have a := State.ladderTake_window _ _ h; simp [a]; done)
    | (intro h; cases h; have a := State.ladderTake_window _ _ ‹_›; simp [a]; done)
    | (refine foldl_window ?_ _ _)
    | (intro h; cases h; simp; done)
    | (intro h; cases h; done)
    | (intro st x; try dsimp only)
    | split
    | dsimp only

@[simp] theorem State.ladderFrame_window (s : State) : (State.ladderFrame s).window = s.window := by
  simp [State.ladderFrame]

@[simp] theorem State.setLane_window (s : State) (eng n : Nat) (run : Option Nat) (c : Nat) : (State.setLane s eng n run c).window = s.window := by
  simp [State.setLane]

@[simp] theorem State.parkOn_window (s : State) (eng n : Nat) : (State.parkOn s eng n).window = s.window := by
  unfold State.parkOn
  repeat' first
    | (simp; done)
    | split

theorem State.claim_window (s : State) (j : Job) (lane : Nat) : ∀ t, State.claim s j lane = some t → t.window = s.window := by
  simp only [State.claim]
  repeat' first
    | (simp; done)
    | split

@[simp] theorem State.takeStream_window (s : State) (lane n : Nat) : ((State.takeStream s lane n).2).window = s.window := by
  simp [State.takeStream]

@[simp] theorem State.blindJob_window (s : State) (id lane : Nat) : (State.blindJob s id lane).window = s.window := by
  unfold State.blindJob
  repeat' first
    | (simp; done)
    | split

@[simp] theorem State.fillBanks_window (s : State) (id lane : Nat) : (State.fillBanks s id lane).window = s.window := by
  unfold State.fillBanks
  repeat' first
    | (simp; done)
    | split

theorem State.pay_window (s : State) (j : Job) (p : Pay) (c : Nat) : ∀ t, State.pay s j p c = some t → t.window = s.window := by
  intro t h
  simp only [State.pay] at h
  revert h
  repeat' first
    | rfl
    | (simp; done)
    | (have a := State.debit_window _ _ _ ‹_›; simp [a]; done)
    | (intro h; have a := State.debit_window _ _ _ h; simp [a]; done)
    | (intro h; cases h; have a := State.debit_window _ _ _ ‹_›; simp [a]; done)
    | (refine foldl_window ?_ _ _)
    | (intro h; cases h; simp; done)
    | (intro h; cases h; done)
    | (intro st x; try dsimp only)
    | split
    | dsimp only

theorem State.runSeg_window (s : State) (id lane : Nat) (p : Pay) : ∀ t, State.runSeg s id lane p = some t → (t).window = s.window := by
  intro t h
  simp only [State.runSeg] at h
  cases hj : s.job? id with
  | none => simp [hj] at h
  | some j =>
    simp only [hj, Option.ite_none_left_eq_some] at h
    obtain ⟨-, -, -, -, h⟩ := h
    obtain ⟨a, ha, h⟩ := Option.bind_eq_some_iff.mp h
    obtain ⟨b, hb, h⟩ := Option.map_eq_some_iff.mp h
    have ka := State.claim_window _ _ _ _ ha
    have kb := State.pay_window _ _ _ _ _ hb
    subst h
    repeat' split
    all_goals simp [ka, kb]

@[simp] theorem State.admitJob_window (s : State) (k : Job) : (State.admitJob s k).window = s.window := by
  simp only [State.admitJob]
  repeat' first
    | (simp; done)
    | split

theorem State.tryStart_window (s : State) (k : Job) (lane : Nat) (p : Pay) : ∀ t, State.tryStart s k lane p = some t → (t).window = s.window := by
  intro t h
  simp only [State.tryStart] at h
  repeat' split at h
  all_goals first | (cases h; done) | (cases h; simp; done) | (have a := State.runSeg_window _ _ _ _ _ h; simpa using a)

@[simp] theorem State.addUse_window (s : State) (j : Job) (u : Nat) : (State.addUse s j u).window = s.window := by
  simp [State.addUse]

@[simp] theorem State.runClass0_window (s : State) (id lane : Nat) : (State.runClass0 s id lane).window = s.window := by
  unfold State.runClass0
  repeat' first
    | rfl
    | (simp; done)
    | (have a := State.runSeg_window _ _ _ _ _ ‹_›; simp [a]; done)
    | (intro h; have a := State.runSeg_window _ _ _ _ _ h; simp [a]; done)
    | (intro h; cases h; have a := State.runSeg_window _ _ _ _ _ ‹_›; simp [a]; done)
    | (refine foldl_window ?_ _ _)
    | (intro h; cases h; simp; done)
    | (intro h; cases h; done)
    | (intro st x; try dsimp only)
    | split
    | dsimp only

@[simp] theorem State.continueClass0_window (s : State) (eng n : Nat) : (State.continueClass0 s eng n).window = s.window := by
  unfold State.continueClass0
  repeat' first
    | (simp; done)
    | split

@[simp] theorem State.clearLane_window (s : State) (k : Job) (n : Nat) : (State.clearLane s k n).window = s.window := by
  simp [State.clearLane]

@[simp] theorem State.toClass1_window (s : State) (id : Nat) : (State.toClass1 s id).window = s.window := by
  simp [State.toClass1]

@[simp] theorem State.voidBound_window (s : State) (id : Nat) (v : Bool) : (State.voidBound s id v).window = s.window := by
  simp [State.voidBound]

@[simp] theorem State.class0New_window (s : State) (id : Nat) : (State.class0New s id).window = s.window := by
  unfold State.class0New
  repeat' first
    | rfl
    | (simp; done)
    | (have a := State.claim_window _ _ _ _ ‹_›; simp [a]; done)
    | (intro h; have a := State.claim_window _ _ _ _ h; simp [a]; done)
    | (intro h; cases h; have a := State.claim_window _ _ _ _ ‹_›; simp [a]; done)
    | (have a := State.tryStart_window _ _ _ _ _ ‹_›; simp [a]; done)
    | (intro h; have a := State.tryStart_window _ _ _ _ _ h; simp [a]; done)
    | (intro h; cases h; have a := State.tryStart_window _ _ _ _ _ ‹_›; simp [a]; done)
    | (refine foldl_window ?_ _ _)
    | (intro h; cases h; simp; done)
    | (intro h; cases h; done)
    | (intro st x; try dsimp only)
    | split
    | dsimp only

@[simp] theorem State.rerunOne_window (spares : List Nat) (s : State) (j : Job) : (State.rerunOne spares s j).window = s.window := by
  unfold State.rerunOne
  repeat' first
    | (simp; done)
    | split

@[simp] theorem State.class0Cont_window (spares : List Nat) (s : State) : (State.class0Cont spares s).window = s.window := by
  simp [State.class0Cont]

@[simp] theorem State.class0News_window (s : State) : (State.class0News s).window = s.window := by
  simp [State.class0News]

@[simp] theorem State.commitFrame_window (s : State) : (State.commitFrame s).window = s.window := by
  simp [State.commitFrame]

@[simp] theorem State.releaseReserve_window (s : State) : (State.releaseReserve s).window = s.window := by
  simp [State.releaseReserve]

theorem State.startLow_window (s : State) (k : Job) (n : Nat) (p : Pay) : ∀ t, State.startLow s k n p = some t → t.window = s.window := by
  intro t h
  have a := State.tryStart_window _ _ _ _ _ h
  simpa using a

theorem State.contOne_window (s : State) (eng n id : Nat) (p : Pay) : ∀ t, State.contOne s eng n id p = some t → t.window = s.window := by
  intro t h
  simp only [State.contOne] at h
  split at h
  · split at h
    · exact State.runSeg_window _ _ _ _ _ h
    · cases h
  · have a := State.runSeg_window _ _ _ _ _ h; simpa using a

theorem State.contAt_window (s : State) (o : Option Nat) (eng id : Nat) (p : Pay) : ∀ t, (o.bind fun n => s.contOne eng n id p) = some t → t.window = s.window := by
  intro t h
  obtain ⟨n, -, h⟩ := Option.bind_eq_some_iff.mp h
  exact State.contOne_window _ _ _ _ _ _ h

@[simp] theorem State.putLeave_window (s : State) (id n first m : Nat) : (State.putLeave s id n first m).window = s.window := by
  simp [State.putLeave]

@[simp] theorem State.leavePassed_window (s : State) : (State.leavePassed s).window = s.window := by
  simp [State.leavePassed]

@[simp] theorem State.renewOne_window (s : State) (id : Nat) : (State.renewOne s id).window = s.window := by
  unfold State.renewOne
  repeat' first
    | (simp; done)
    | split

@[simp] theorem State.renewals_window (s : State) : (State.renewals s).window = s.window := by
  simp [State.renewals]

@[simp] theorem State.freeLeave_window (s : State) (n : Nat) : (State.freeLeave s n).window = s.window := by
  simp [State.freeLeave]

@[simp] theorem State.leaveSeg_window (s : State) (l : Leave) : (s.leaveSeg l).window = s.window := by
  simp only [State.leaveSeg]
  split
  · split
    · simp
    · split
      · next t he =>
        obtain ⟨n, -, hc⟩ := Option.bind_eq_some_iff.mp he
        have a := State.contOne_window _ _ _ _ _ _ hc; simp [a]
      · simp
  · simp

@[simp] theorem State.leaveSegs_window (s : State) : (s.leaveSegs).window = s.window := by
  simp [State.leaveSegs]

@[simp] theorem State.grantJob_window (s : State) (a : Ask) : (s.grantJob a).window = s.window := by
  have key (x : State) (k : Job) (n : Nat) (hx : x.window = s.window) :
      ((x.startLow k n .leave).getD s).window = s.window := by
    cases h : x.startLow k n .leave with
    | none => simp
    | some t => have a := State.startLow_window _ _ _ _ _ h; simp [a, hx]
  unfold State.grantJob
  repeat' first
    | (simp; done)
    | (apply key; simp; done)
    | split
    | dsimp only

@[simp] theorem State.grantChk_window (s : State) (a : Ask) : (State.grantChk s a).window = s.window := by
  simp [State.grantChk]

@[simp] theorem State.grantCopy_window (s : State) (a : Ask) : (State.grantCopy s a).window = s.window := by
  simp [State.grantCopy]

@[simp] theorem State.askCopy_window (s : State) (id : Nat) : (State.askCopy s id).window = s.window := by
  simp [State.askCopy]

@[simp] theorem State.askLeave_window (s : State) : (State.askLeave s).window = s.window := by
  simp [State.askLeave]

@[simp] theorem State.grant_window (s : State) (a : Ask) : (State.grant s a).window = s.window := by
  simp [State.grant]

@[simp] theorem State.leaveFrame_window (s : State) : (State.leaveFrame s).window = s.window := by
  simp [State.leaveFrame]

@[simp] theorem State.clusterTest_window (s : State) (c : Nat) : (State.clusterTest s c).window = s.window := by
  unfold State.clusterTest
  repeat' first
    | rfl
    | (simp; done)
    | (have a := State.debit_window _ _ _ ‹_›; simp [a]; done)
    | (intro h; have a := State.debit_window _ _ _ h; simp [a]; done)
    | (intro h; cases h; have a := State.debit_window _ _ _ ‹_›; simp [a]; done)
    | (refine foldl_window ?_ _ _)
    | (intro h; cases h; simp; done)
    | (intro h; cases h; done)
    | (intro st x; try dsimp only)
    | split
    | dsimp only

@[simp] theorem State.testFrame_window (s : State) : (State.testFrame s).window = s.window := by
  simp [State.testFrame]

theorem State.tryLow_window (s : State) (j : Job) : ∀ t, State.tryLow s j = some t → t.window = s.window := by
  intro t h
  simp only [State.tryLow] at h
  split at h
  · cases h; simp
  · obtain ⟨n, -, h⟩ := Option.bind_eq_some_iff.mp h
    exact State.startLow_window _ _ _ _ _ h

@[simp] theorem State.contLow_window (s : State) (cls : Nat) : (s.contLow cls).window = s.window := by
  simp only [State.contLow]
  refine foldl_window ?_ _ _ <;>
    (intro st j
     cases h : ((st.laneOf j).bind fun n => st.contOne (opEngine j.op) n j.id .remainder) with
     | none => simp
     | some t => have a := State.contAt_window _ _ _ _ _ _ h; simp [a])

@[simp] theorem State.turnOne_window (q : Quantum) (s : State) (j : Job) : (State.turnOne q s j).window = s.window := by
  simp only [State.turnOne]
  split
  · simp
  · cases h : s.tryLow j with
    | none => simp
    | some t => have a := State.tryLow_window _ _ _ h; simp [a]

@[simp] theorem State.sliceTurn_window (s : State) (q : Quantum) : (s.sliceTurn q).window = s.window := by
  simp only [State.sliceTurn]
  refine foldl_window ?_ _ _ <;> simp

@[simp] theorem State.classRest_window (s : State) (eng cls : Nat) : (s.classRest eng cls).window = s.window := by
  simp only [State.classRest]
  refine foldl_window ?_ _ _ <;>
    (intro st j
     cases h : st.tryLow j with
     | none => simp
     | some t => have a := State.tryLow_window _ _ _ h; simp [a])

@[simp] theorem State.settleDeficits_window (s : State) (eng : Nat) (qs : List Quantum) : (State.settleDeficits s eng qs).window = s.window := by
  simp [State.settleDeficits]

@[simp] theorem State.fillPool_window (s : State) (eng : Nat) : (State.fillPool s eng).window = s.window := by
  simp [State.fillPool]

@[simp] theorem State.holdDraws_window (s : State) : (State.holdDraws s).window = s.window := by
  simp [State.holdDraws]

@[simp] theorem State.fillFrame_window (s : State) : (State.fillFrame s).window = s.window := by
  simp [State.fillFrame]

@[simp] theorem State.fillClass3_window (s : State) : (State.fillClass3 s).window = s.window := by
  simp [State.fillClass3]

@[simp] theorem State.reseedLane_window (s : State) (n : Nat) : (State.reseedLane s n).window = s.window := by
  simp [State.reseedLane]

@[simp] theorem State.blindReseed_window (s : State) : (State.blindReseed s).window = s.window := by
  simp [State.blindReseed]

@[simp] theorem State.wipeBank_window (n : Nat) (s : State) (b : BankUse) : (State.wipeBank n s b).window = s.window := by
  unfold State.wipeBank
  repeat' first
    | (simp; done)
    | split

@[simp] theorem State.wipeFrame_window (s : State) : (State.wipeFrame s).window = s.window := by
  simp [State.wipeFrame]

@[simp] theorem State.chkFoldMemory_window (s : State) (u n : Nat) : (State.chkFoldMemory s u n).window = s.window := by
  simp [State.chkFoldMemory]

@[simp] theorem State.chkFoldPage_window (s : State) (u : Nat) : (State.chkFoldPage s u).window = s.window := by
  simp [State.chkFoldPage]

theorem State.chkPay_window (s : State) (leave cost : Nat) : ∀ t, State.chkPay s leave cost = some t → t.window = s.window := by
  intro t h
  simp only [State.chkPay] at h
  revert h
  repeat' first
    | rfl
    | (simp; done)
    | (have a := State.debit_window _ _ _ ‹_›; simp [a]; done)
    | (intro h; have a := State.debit_window _ _ _ h; simp [a]; done)
    | (intro h; cases h; have a := State.debit_window _ _ _ ‹_›; simp [a]; done)
    | (refine foldl_window ?_ _ _)
    | (intro h; cases h; simp; done)
    | (intro h; cases h; done)
    | (intro st x; try dsimp only)
    | split
    | dsimp only

@[simp] theorem State.chkUnitFrame_window (s : State) (u : Nat) : (State.chkUnitFrame s u).window = s.window := by
  unfold State.chkUnitFrame
  repeat' first
    | rfl
    | (simp; done)
    | (have a := State.chkPay_window _ _ _ _ ‹_›; simp [a]; done)
    | (intro h; have a := State.chkPay_window _ _ _ _ h; simp [a]; done)
    | (intro h; cases h; have a := State.chkPay_window _ _ _ _ ‹_›; simp [a]; done)
    | (refine foldl_window ?_ _ _)
    | (intro h; cases h; simp; done)
    | (intro h; cases h; done)
    | (intro st x; try dsimp only)
    | split
    | dsimp only

@[simp] theorem State.chkFrame_window (s : State) : (State.chkFrame s).window = s.window := by
  simp [State.chkFrame]

@[simp] theorem State.takeEffect_window (s : State) (j : Job) (o : Outcome) : ((State.takeEffect s j o).1).window = s.window := by
  simp only [State.takeEffect]
  repeat' first
    | (simp; done)
    | split

@[simp] theorem State.releaseOne_window (grant : Nat) (s : State) (j : Job) : (State.releaseOne grant s j).window = s.window := by
  simp [State.releaseOne]

@[simp] theorem State.releaseRing_window (s : State) (n : Nat) : (State.releaseRing s n).window = s.window := by
  simp only [State.releaseRing]
  repeat' first
    | (simp; done)
    | split

@[simp] theorem State.releaseFrame_window (s : State) : (State.releaseFrame s).window = s.window := by
  simp [State.releaseFrame]

@[simp] theorem State.errorImage_window (s : State) : (State.errorImage s).window = s.window := by
  simp [State.errorImage]

@[simp] theorem State.pendingImage_window (s : State) : (State.pendingImage s).window = s.window := by
  simp [State.pendingImage]

@[simp] theorem State.shadowOne_window (s : State) (n : Nat) : (State.shadowOne s n).window = s.window := by
  simp [State.shadowOne]

@[simp] theorem State.shadowFrame_window (s : State) : (State.shadowFrame s).window = s.window := by
  simp [State.shadowFrame]

@[simp] theorem State.msixFrame_window (s : State) : (State.msixFrame s).window = s.window := by
  simp [State.msixFrame]

@[simp] theorem State.refuseIndex_window (s : State) (n code : Nat) : (State.refuseIndex s n code).window = s.window := by
  simp [State.refuseIndex]

@[simp] theorem State.sampleTail_window (s : State) (n : Nat) : (State.sampleTail s n).window = s.window := by
  simp only [State.sampleTail]
  repeat' first
    | (simp; done)
    | split

@[simp] theorem State.sampleHead_window (s : State) (n : Nat) : (State.sampleHead s n).window = s.window := by
  simp only [State.sampleHead]
  repeat' first
    | (simp; done)
    | split

@[simp] theorem State.sampleAbort_window (s : State) (n : Nat) : (State.sampleAbort s n).window = s.window := by
  simp only [State.sampleAbort]
  repeat' first
    | (simp; done)
    | split

@[simp] theorem State.sampleFrame_window (s : State) : (State.sampleFrame s).window = s.window := by
  simp [State.sampleFrame]

@[simp] theorem State.advanceOne_window (s : State × Option Nat) (e : Nat) : ((State.advanceOne s e).1).window = s.1.window := by
  unfold State.advanceOne
  repeat' first
    | (simp; done)
    | split
    | dsimp only

@[simp] theorem State.advanceSlice_window (s : State) (sl : Nat) : (State.advanceSlice s sl).window = s.window := by
  unfold State.advanceSlice
  repeat' first
    | rfl
    | (simp; done)
    | (refine foldl_window ?_ _ _)
    | (intro h; cases h; simp; done)
    | (intro h; cases h; done)
    | (intro st x; try dsimp only)
    | split
    | dsimp only

@[simp] theorem State.creditFrame_window (s : State) : (State.creditFrame s).window = s.window := by
  simp [State.creditFrame]

@[simp] theorem State.originate_window (s : State) : (State.originate s).window = s.window := by
  simp [State.originate]

@[simp] theorem State.countMarkers_window (s : State) : (State.countMarkers s).window = s.window := by
  simp [State.countMarkers]

@[simp] theorem State.chainCalls_window (s : State) : (State.chainCalls s).window = s.window := by
  simp [State.chainCalls]

@[simp] theorem State.keepOwn_window (s : State) : (State.keepOwn s).window = s.window := by
  simp [State.keepOwn]

@[simp] theorem State.repliesOnly_window (s : State) : (State.repliesOnly s).window = s.window := by
  simp [State.repliesOnly]

@[simp] theorem State.placeFrags_window (f : Nat) (m : ChainMsg) (a : State × Nat) (i : Nat) : ((State.placeFrags m f a i).1).window = a.1.window := by
  induction f generalizing a i with
  | zero => exact rfl
  | succ f ih =>
    simp only [State.placeFrags]
    split <;> simp [ih]

@[simp] theorem State.placeMsgs_window (l : List ChainMsg) (a : State × Nat) : ((State.placeMsgs l a).1).window = a.1.window := by
  induction l generalizing a with
  | nil => exact rfl
  | cons m r ih =>
    simp only [State.placeMsgs]
    split <;> simp [ih]

@[simp] theorem State.chainTick_window (s : State) : (State.chainTick s).window = s.window := by
  unfold State.chainTick
  repeat' first
    | (simp; done)
    | split

@[simp] theorem State.retryJobs_window (s : State) : (State.retryJobs s).window = s.window := by
  simp [State.retryJobs]

@[simp] theorem State.voidLate_window (s : State) : (State.voidLate s).window = s.window := by
  simp [State.voidLate]

@[simp] theorem State.overBudget_window (s : State) : (State.overBudget s).window = s.window := by
  simp [State.overBudget]

@[simp] theorem State.schedule_window (spares : List Nat) (s : State) : (State.schedule spares s).window = s.window := by
  simp [State.schedule]

@[simp] theorem State.endFrame_window (s : State) : (State.endFrame s).window = false := by
  simp [State.endFrame]

@[simp] theorem State.boundRaises_window (b : Nat) (s : State) : (State.boundRaises b s).window = s.window := by
  simp [State.boundRaises]

@[simp] theorem State.tickEffects_window (s : State) : (State.tickEffects s).window = s.window := by
  simp [State.tickEffects]

@[simp] theorem State.tickHost_window (s : State) : (State.tickHost s).window = s.window := by
  simp [State.tickHost]

@[simp] theorem State.serveTick_window (bound : Nat) (s : State) : (State.serveTick bound s).window = s.window := by
  simp [State.serveTick]

@[simp] theorem State.startTick_window (s : State) : (State.startTick s).window = s.window := by
  simp [State.startTick]

/-- A tick that is not held back leaves lane time running. -/
theorem State.tickOnce_window (s : State) (h : s.noTick = false) : (State.tickOnce s).window = false := by
  simp only [State.tickOnce, h, Bool.false_eq_true, if_false]
  repeat' first
    | (simp; done)
    | split

@[simp] theorem State.holdResult_window (s : State) (id : Nat) : (State.holdResult s id).window = s.window := by
  unfold State.holdResult
  repeat' first
    | (simp; done)
    | split

@[simp] theorem State.stageOutput_window (s : State) (id : Nat) : (State.stageOutput s id).window = s.window := by
  unfold State.stageOutput
  repeat' first
    | (simp; done)
    | split

@[simp] theorem State.dummyRun_window (s : State) (id : Nat) : (State.dummyRun s id).window = s.window := by
  unfold State.dummyRun
  repeat' first
    | (simp; done)
    | split

@[simp] theorem State.stageJob_window (s : State) (j : Job) : (State.stageJob s j).window = s.window := by
  simp [State.stageJob]

@[simp] theorem State.countSigns_window (s : State) (j : Job) : (State.countSigns s j).window = s.window := by
  simp [State.countSigns]

@[simp] theorem State.outputJob_window (s : State) (j : Job) : (State.outputJob s j).window = s.window := by
  simp [State.outputJob]

@[simp] theorem State.scrubEnded_window (s : State) (j : Job) : (State.scrubEnded s j).window = s.window := by
  simp [State.scrubEnded]

@[simp] theorem State.alertEnds_window (s : State) : (State.alertEnds s).window = s.window := by
  simp [State.alertEnds]

@[simp] theorem State.handOne_window (s : State) (c : Instr) : (s.handOne c).window = s.window := by
  cases c <;> simp only [State.handOne, execHello, execDictRead, execDictWrite, execDictReply, execChallengeRequest, execApproval, execReplicate, execReplAck, execReplCommit, execReplRollback,
    execReplQuery, execReplState, execMigConsume, execMigReply, execAttestOffer, execAttestAnswer, execDomainKey, execHeartTransfer, execObjectTransfer, execTransferEnd]
  all_goals first
    | (simp; done)
    | (cases s.live <;> simp (disch := (intros; repeat' first | rfl | (simp; done) | split)); done)
    | (exact State.atStep4_window _ _ _ fun _ => State.receive_window _ _ _ _ fun _ => by repeat' first | (simp; done) | split)

@[simp] theorem State.handOver_window (s : State) : (State.handOver s).window = s.window := by
  simp [State.handOver]

@[simp] theorem State.windowWork_window (s : State) : (State.windowWork s).window = s.window := by
  simp [State.windowWork]

@[simp] theorem State.periodSwitch_window (s : State) : (State.periodSwitch s).window = s.window := by
  simp [State.periodSwitch]

end Sys2Proof.Machine
end

