-- ==== Sys2Proof/Machine/HostRead.lean ====
section
/-! DEFINITION. What a read of a BAR answers: the unit page, the slice pages and the ring pages (R54 to R59, R188). A read changes nothing, and no row of the table commands one. -/

namespace Sys2Proof.Machine

/-- 32-bit word `i` of a bit array given by the numbers of its set bits. -/
def bitWord (l : List Nat) (i : Nat) : Nat := maskOf ((l.filter fun n => n / 32 == i).map fun n => n % 32)

/-- Low or high half of a 64-bit value. -/
def half (high : Bool) (v : Nat) : Nat := if high then v / 2 ^ 32 % 2 ^ 32 else v % 2 ^ 32

/-- Unit information (Table 3.4). -/
def State.unitInfo (s : State) (o : Nat) : Nat :=
  match o with
  | 0x000 => 0x10000
  | 0x004 => 16 * s.lifeCycle + 8 * b2n s.tamper.locked + 4 * s.rst.bootSlot + 2 * b2n s.tunnelOn + b2n s.host.ready
  | 0x008 => half false s.tick
  | 0x00C => half true s.tick
  | 0x010 => s.period
  | 0x014 => 1024 * 65536 + 4096
  | _ => 0

/-- The chain tunnel window (Table 3.5). -/
def State.tunnelRead (s : State) (o : Nat) : Nat :=
  let t := s.host.tunnel
  if ¬ s.tunnelOn then 0
  else if o = 0 then 65536 * t.outLength + 4 * b2n t.outDiscarded + 2 * b2n t.inFull + b2n t.outGo
  else if o = 4 then t.inLength
  else if 0x400 ≤ o ∧ o < 0x800 then leNat (cut (o - 0x400) 4 (fit 1024 t.outBuffer))
  else if 0x800 ≤ o ∧ o < 0xC00 then leNat (cut (o - 0x800) 4 (fit 1024 t.inBuffer))
  else 0

/-- A word of an MSI-X table entry (R51). -/
def MsixVector.word (v : MsixVector) (i : Nat) : Nat :=
  match i with
  | 0 => half false v.addr
  | 1 => half true v.addr
  | 2 => v.data
  | _ => b2n v.masked

/-- A 4-byte read inside BAR0 (Table 3.3). -/
def State.bar0Read (s : State) (o : Nat) : Nat :=
  if o < 0x1000 then s.seen.unitInfo o
  else if o < 0x1200 then bitWord s.host.ringPending ((o - 0x1000) / 4)
  else if o < 0x1400 then bitWord s.host.ringError ((o - 0x1200) / 4)
  else if 0x2000 ≤ o ∧ o < 0x4000 then s.tunnelRead (o - 0x2000)
  else if 0x7000 ≤ o ∧ o < 0x7100 then bitWord s.host.msixPending ((o - 0x7000) / 4)
  else if 0x8000 ≤ o then (s.msixVector ((o - 0x8000) / 16)).word ((o - 0x8000) % 16 / 4)
  else 0

/-- FROZEN of a slice page: frozen, and not thawed since (R123 to R128, assumption log 48). -/
def MigState.frozenBit (m : MigState) : Bool := decide (m = .frozen) || decide (m = .saving) || decide (m = .saved)

/-- The symmetric register page (Table 8.1): the key windows have no address. -/
def SliceCtx.pageRead (c : SliceCtx) (o : Nat) : Nat :=
  match o with
  | 0x000 => c.windowBusy
  | 0x008 => half false c.segments
  | 0x00C => half true c.segments
  | 0x010 => half false c.derivations
  | 0x014 => half true c.derivations
  | 0x018 => half false c.verifyFails
  | 0x01C => half true c.verifyFails
  | 0x020 => c.wipes
  | _ => 0

/-- A 4-byte read inside a slice page (Table 3.6); zero while no PASID is mapped (R58). SLC_RESET and RESET_DONE show what the host has written since the tick. -/
def State.slicePageRead (s : State) (n o : Nat) : Nat :=
  let v := s.seen
  let c := v.slice n
  let own := s.slice n
  if ¬ v.mapped n then 0
  else if 0x200 ≤ o ∧ o < 0x400 then c.pageRead (o - 0x200)
  else if 0x400 ≤ o ∧ o < 0x600 then half (decide (o % 8 = 4)) (SMap.get 0 c.counters ((o - 0x400) / 8))
  else if 0x600 ≤ o ∧ o < 0x800 then bitWord (v.sliceRings n) ((o - 0x600) / 4)
  else match o with
    | 0x000 => b2n (own.resetWritten || c.resetting.isSome || c.resetHeld)
    | 0x004 => 4 * b2n c.mig.frozenBit + 2 + b2n own.resetDone
    | 0x008 => v.num (Key.SLC_PASID n) % 2 ^ 20
    | 0x010 => v.pinsUsed n
    | 0x014 => v.num (Key.SLC_QUOTA_PINS n)
    | 0x018 => v.heartsUsed n
    | 0x01C => v.num (Key.SLC_QUOTA_HEARTS n)
    | 0x020 => (v.sliceRings n).length
    | 0x024 => v.num (Key.SLC_QUOTA_RINGS n)
    | _ => 0

/-- A 4-byte read inside a ring page (Table 3.7): the indices last accepted, ABORT_INDEX as zero (R8). -/
def State.ringPageRead (s : State) (n o : Nat) : Nat :=
  let r := s.ring n
  match o with
  | 0x000 => r.tl
  | 0x008 => r.ch
  | 0x040 => r.config
  | 0x048 => half false r.sqBase
  | 0x04C => half true r.sqBase
  | 0x050 => half false r.cqBase
  | 0x054 => half true r.cqBase
  | 0x058 => half false r.shadowBase
  | 0x05C => half true r.shadowBase
  | 0x060 => s.seen.ringStatus n
  | _ => 0

/-- A 4-byte read of a BAR. -/
def State.barRead32 (s : State) (bar o : Nat) : Nat :=
  if bar = 0 then s.bar0Read o
  else if bar = 2 then s.slicePageRead (o / 4096) (o % 4096)
  else s.ringPageRead (o / 4096) (o % 4096)

/-- A read of a BAR (R54): 4 or 8 bytes, naturally aligned; none where it is completed with Unsupported Request. -/
def State.barRead (s : State) (bar offset size : Nat) : Option Nat :=
  if (size = 4 ∨ size = 8) ∧ offset % size = 0 ∧ offset < barSize bar then
    some (s.barRead32 bar offset + (if size = 8 then 2 ^ 32 * s.barRead32 bar (offset + 4) else 0))
  else none

/-- What a read of a BAR leaves (R54): nothing, but for one that is completed with Unsupported Request, which AER reports. -/
def State.afterRead (s : State) (bar offset size : Nat) : State := if (s.barRead bar offset size).isSome then s else s.badAccess bar offset

end Sys2Proof.Machine
end

