-- ==== Sys2Proof/Tests/Slice0.lean ====
section
/-! SUPPORT. Tests of the model: an ill-formed command for each check of WellFormed, small tests of single steps against the spec's own figures, and for each statement states and operands that meet the hypotheses of its clauses. -/

namespace Sys2Proof.Tests

set_option Elab.async false

open Sys2Proof Sys2Proof.Machine

/-! ## WellFormed: each check refuses a command, at the first number past its range -/

def hdr0 : MsgHdr := ⟨2, 1, 7, 0, 0, 0, .good⟩
def req0 : DictReq := ⟨hdr0, 1, 0, 0x1000, 3, List.replicate 32 0, [], false⟩

theorem test_wf_hdr_src : Instr.wf (.hello { hdr0 with src := 4096 }) = false := by decide
theorem test_wf_hdr_dst : Instr.wf (.hello { hdr0 with dst := 4096 }) = false := by decide
theorem test_wf_hdr_id : Instr.wf (.hello { hdr0 with id := 4294967296 }) = false := by decide
theorem test_wf_hdr_frag : Instr.wf (.hello { hdr0 with frag := 16 }) = false := by decide
theorem test_wf_hdr_last : Instr.wf (.hello { hdr0 with last := 16 }) = false := by decide
theorem test_wf_hdr_tick : Instr.wf (.hello { hdr0 with insTick := 4294967296 }) = false := by decide
theorem test_wf_req_id : Instr.wf (.dictRead { req0 with reqId := 4294967296 }) = false := by decide
theorem test_wf_req_role : Instr.wf (.dictRead { req0 with role := 256 }) = false := by decide
theorem test_wf_req_index : Instr.wf (.dictRead { req0 with index := 65536 }) = false := by decide
theorem test_wf_req_sub : Instr.wf (.dictWrite { req0 with sub := 256 }) = false := by decide
theorem test_wf_req_proof : Instr.wf (.dictWrite { req0 with proof := [] }) = false := by decide
theorem test_wf_req_value : Instr.wf (.dictWrite { req0 with value := List.replicate 957 0 }) = false := by decide +kernel
theorem test_wf_ring : (Instr.wf (.sqTailWrite 4096 0) || Instr.wf (.cqHeadWrite 4096 0) || Instr.wf (.abortIndexWrite 4096 0) || Instr.wf (.ringEnable 4096) ||
    Instr.wf (.ringDisable 4096) || Instr.wf (.rngSlice .maintenance 4096 0)) = false := by decide
theorem test_wf_bar : Instr.wf (.barRegisterWrite 6 0 4 0) = false := by decide
theorem test_wf_slice : (Instr.wf (.slcReset 1024) || Instr.wf (.sliceResetDone 1024) || Instr.wf (.registerPageWipe 1024) || Instr.wf (.migrationTimeout 1024) ||
    Instr.wf (.slcPasid .maintenance 1024 0) || Instr.wf (.slcShareWrite .maintenance 1024 .weight 0) || Instr.wf (.freeze .maintenance 1024) ||
    Instr.wf (.freezeNow .maintenance 1024) || Instr.wf (.freezeDrained 1024) || Instr.wf (.thaw .maintenance 1024) ||
    Instr.wf (.save .maintenance 1024) || Instr.wf (.restore .maintenance 1024)) = false := by decide
theorem test_wf_vector : (Instr.wf (.msixUnmask 2048) || Instr.wf (.hstMsixMap .maintenance 4224 0)) = false := by decide
theorem test_wf_lane : (Instr.wf (.laneFault 24 1) || Instr.wf (.comingSpareSettle 24) || Instr.wf (.spareTestEnd 24 true) || Instr.wf (.unfenceTestEnd 24 true) ||
    Instr.wf (.sharedUnitFault 6) || Instr.wf (.latUnfenceTestEnd 6 true) || Instr.wf (.symLaneFault 8 3) || Instr.wf (.symUnfenceTestEnd 8 true)) = false := by decide
theorem test_wf_word : (Instr.wf (.wmUncorrectable 2097152) || Instr.wf (.debugMasterAccess false 2097152 0 true)) = false := by decide
theorem test_wf_heart : (Instr.wf (.heartTableUncorrectable 16384) || Instr.wf (.hrtOwner .maintenance 16384 0) || Instr.wf (.hrtInvalidate .officer 16384 1) ||
    Instr.wf (.hrtRetire .officer 16384 1) || Instr.wf (.heartTransfer hdr0 16384 [])) = false := by decide
theorem test_wf_core : (Instr.wf (.colourFault 8 1 false) || Instr.wf (.gatewayCall 8 0 0 0 false) || Instr.wf (.gatewayCall 0 256 0 0 false) ||
    Instr.wf (.nwdtCheckin 8) || Instr.wf (.weirInvalidate 64)) = false := by decide
theorem test_wf_result : Instr.wf (.keeperCallServe (List.replicate 513 0)) = false := by decide +kernel
theorem test_wf_block : (Instr.wf (.keeperHandoverRequest 7) || Instr.wf (.keeperHandoverRelease 7) || Instr.wf (.normalHandoverRequest 7) ||
    Instr.wf (.gateRequest .maintenance 7) || Instr.wf (.ungateRequest .maintenance 7) || Instr.wf (.laneGateDrained 7)) = false := by decide
theorem test_wf_port : (Instr.wf (.vaultReadComplete 0 2 none) || Instr.wf (.driveLinkUp 2 ⟨3, 4, true, 1, [], [], [], []⟩) || Instr.wf (.driveLinkDown 2) || Instr.wf (.vaultCmdError 2 none) ||
    Instr.wf (.vaultCmdTimeout 2) || Instr.wf (.smartPoll 2 0) || Instr.wf (.resilverDone 2) || Instr.wf (.vltRootSelect .officer 256) ||
    Instr.wf (.vltPortOfflineSet .maintenance 2) || Instr.wf (.vltPortOfflineClear .maintenance 2)) = false := by decide
theorem test_wf_wellspring : (Instr.wf (.wspBlock 2 (List.replicate 1024 true)) || Instr.wf (.wspBlock 0 [true]) || Instr.wf (.wspDeclaredFailed 2) ||
    Instr.wf (.wspSettled 2) || Instr.wf (.rawSampleTapOpen 2)) = false := by decide +kernel
theorem test_wf_challenge : (Instr.wf (.quorumWriteExpiry []) || Instr.wf (.challengeExpiry [])) = false := by decide
theorem test_wf_member : (Instr.wf (.memberUnreachable 4095) || Instr.wf (.fragmentTimeout 4095 0)) = false := by decide
theorem test_wf_tag : (Instr.wf (.migConsume hdr0 [] 0) || Instr.wf (.migReply hdr0 [] true) || Instr.wf (.chnDomainConfirm .officer [])) = false := by decide
theorem test_wf_officer : (Instr.wf (.ofcAlgorithm .officer 16 1 true) || Instr.wf (.tamperAlarm 24)) = false := by decide
theorem test_wf_unit : (Instr.wf (.chkStart .maintenance 4) || Instr.wf (.chkContinue .maintenance 4) || Instr.wf (.chkSuspend .maintenance 4) || Instr.wf (.chkScanEnd 4)) = false := by decide
theorem test_wf_good : (Instr.wf (.sqTailWrite 4095 0) && Instr.wf (.slcReset 1023) && Instr.wf (.laneFault 23 1) && Instr.wf (.wmUncorrectable 2097151) && Instr.wf (.dictRead req0)) = true := by decide

/-! ## No row of the table gives bits -/

theorem test_no_word_is_a_command : decodeTableWord 32 0 = none := by decide

/-! ## States for the witnesses, each the state after reset with a few fields set -/

/-- A unit that serves. -/
def up : State :=
  { State.reset with
    host := { HostLink.reset with ready := true, linkUp := true }
    rst := { ResetCtl.reset with power := .run, reach := 0, causes := 0 }
    keeper := { Keeper.reset with running := true, coresRunning := true, guardOn := true, guardSaved := Region.shipped, regionsNew := Region.shipped } }

/-- A context of job 1, of the given opcode and phase, on ring pair 0. -/
def job1 (op : Nat) (p : Phase) : Job := { newJob 1 0 0 0 0 1 false false with phase := p, desc := { Desc.zero with opcode := op } }

/-- A job 1 that can be performed. -/
def jobReady (op : Nat) : Job := { job1 op .running with admitted := some 0, inputDone := true, labelDone := true, drawsDone := true }

def withJob (j : Job) (s : State) : State := { s with jobs := [j] }
def withRing (r : RingPair) (s : State) : State := { s with rings := [(0, r)] }
def withSlice (c : SliceCtx) (s : State) : State := { s with slices := [(0, c)] }

/-! ## Witnesses: the hypotheses of the statements, clause by clause -/

theorem witness_EveryCommandCompletes : namesWord (.wmUncorrectable 2097151) = true ∧ (∀ w, Instr.tick ≠ .wmUncorrectable w) ∧ 2097152 ≤ 2097152 :=
  ⟨by decide, by simp, by decide⟩

theorem witness_QueueIsFirstInFirstOut : exec .outGo up = .next up ∧ step State.reset = .next State.reset ∧ State.reset.pending = [] := ⟨rfl, rfl, rfl⟩

theorem witness_TickNumberMovesOnlyAtTicks :
    (movesTick .outGo = false ∧ exec .outGo up = .next up) ∧ up.noTick = false ∧ State.reset.noTick = true := ⟨⟨rfl, rfl⟩, rfl, rfl⟩

theorem witness_FusesOnlyBlow : blowsFuses .outGo = false ∧ exec .outGo up = .next up := ⟨rfl, rfl⟩

theorem witness_StepKeepsMarksOrdered : up.life.fuses.ordered = true ∧ step up = .next up := ⟨by decide, rfl⟩

theorem witness_EngineCommandFixesOutcome :
    (engineRow (.ecdsaSign 1) = some (0x0101, 1) ∧ (withJob (jobReady 0x0101) up).job? 1 = some (jobReady 0x0101) ∧
      (jobReady 0x0101).op = 0x0101 ∧ (jobReady 0x0101).performable = true) ∧
    (engineRow (.randomBytes 1) = some (0x0801, 1) ∧ (withJob (jobReady 0x0101) up).mayPerform 0x0801 1 = false) := by decide

theorem witness_DictionaryRowAcknowledged :
    dictRow (.slcShareWrite .maintenance 1023 .weight 2) = some (true, .maintenance, Key.SLC_WEIGHT 1023, .num 2) ∧ actsElsewhere (Key.SLC_WEIGHT 1023) = false ∧
      up.writePasses .maintenance (Key.SLC_WEIGHT 1023) (.num 2) = true := by decide +kernel

theorem witness_DictionaryRowRefused :
    up.live = true ∧
    dictRow (.slcShareWrite .maintenance 1024 .weight 2) = some (false, .maintenance, Key.SLC_WEIGHT 1024, .num 2) ∧
    dictRow (.slcShareWrite .observer 0 .weight 2) = some (true, .observer, Key.SLC_WEIGHT 0, .num 2) ∧
    ((attrOfKey (Key.SLC_WEIGHT 0)).any fun a => !a.mayWrite .observer) = true ∧
    dictRow (.lcsTransition .maintenance 4) = some (true, .maintenance, Key.LCS_TRANSITION, .num 4) ∧
    ((attrOfKey Key.LCS_TRANSITION).any fun a => a.mayWrite .maintenance && decide (up.firstRefusal a .maintenance Key.LCS_TRANSITION (.num 4) = 5)) = true ∧
    dictRow (.lcsTransition .maintenance 15) = some (true, .maintenance, Key.LCS_TRANSITION, .num 15) ∧
    ((attrOfKey Key.LCS_TRANSITION).any fun a => a.mayWrite .maintenance && decide (up.firstRefusal a .maintenance Key.LCS_TRANSITION (.num 15) = 0) &&
      !up.view.mayStand false Key.LCS_TRANSITION (.num 15)) = true := by
  refine ⟨?_, ?_, ?_, ?_, ?_, ?_, ?_, ?_⟩ <;> decide +kernel

/-- The numbers of the dictionary are listed with rising keys. -/
theorem up_rising : up.dict.nums.Pairwise (fun a b => a.1 < b.1) := List.Pairwise.nil

def ringOn : RingPair := { RingPair.reset with enabled := true, enableBit := true, k := 4 }

/-- Ring pair 0 of slice 0. -/
def owned (s : State) : State := s.setNum (Key.RNG_SLICE 0) 0

theorem owned_wf : SMap.wf RingPair.reset (withRing { ringOn with errorDue := some (1, 4) } up).rings = true := by decide

theorem witness_RingEnableAndDisable :
    (((withRing ringOn up).ring 0).enabled = true ∧ (up.ring 0).enabled = false) ∧
    (up.seen.busy 0 = false ∧ (up.ring 0).startDue = none ∧ (withJob (job1 0x0101 .ready) up).seen.busy 0 = true ∧
      ((withRing { ringOn with startDue := some (5, 15) } up).ring 0).startDue.isSome = true) ∧
    (let r : RingPair := { RingPair.reset with k := 4, enableWritten := some true }
     ((owned (withRing r up)).ring 0).enableWritten = some true ∧ ((owned (withRing r up)).ring 0).enabled = false ∧ (owned (withRing r up)).enableRefusal 0 = 0) ∧
    (let r : RingPair := { RingPair.reset with enableWritten := some true }
     ((withRing r up).ring 0).enableWritten = some true ∧ (withRing r up).enableRefusal 0 ≠ 0) ∧
    ((withRing { ringOn with enableWritten := some false } up).ring 0).enableWritten = some false ∧ (up.ring 0).enableWritten = none ∧
    (up.tick < 1 ∧ 1 ≤ { up with tick := 1 }.tick) ∧
    ((withRing { ringOn with errorDue := some (1, 4) } up).ring 0).errorDue = some (1, 4) ∧
    (withRing { RingPair.reset with k := 3 } up).enableRefusal 0 = 4 ∧ (withRing { RingPair.reset with k := 17 } up).enableRefusal 0 = 4 ∧
    (withRing { RingPair.reset with k := 16 } up).enableRefusal 0 = 5 ∧
    (owned (withRing { RingPair.reset with k := 16, shadowBase := 32 } up)).enableRefusal 0 = 6 ∧
    ((withRing { RingPair.reset with k := 16 } up).setNum (Key.RNG_SLICE 0) 1).enableRefusal 0 = 7 := by decide +kernel

theorem witness_HostRegisterWrites :
    up.tunnelOn = false ∧ { up with rst := { up.rst with strap := 2 } }.tunnelOn = true ∧
    up.host.msixPending.contains 0 = false ∧ { up with host := { up.host with msixPending := [2047] } }.host.msixPending.contains 2047 = true ∧
    ¬ ((2 = 4 ∨ 2 = 8) ∧ 0 % 2 = 0 ∧ 0 < barSize 4) ∧ (4095 : Nat) < 4096 ∧ (2 ^ 32 - 1 : Nat) < 2 ^ 32 ∧
    (up.ring 4095).enableBit = false ∧ up.seen.busy 4095 = false ∧ ((withRing ringOn up).ring 0).enableBit = true := by decide +kernel

/-- Job 1 with its descriptor in and placed, its label and its input outstanding. -/
def jobReading : Job :=
  { job1 0x0101 .fetching with descDone := true, placed := 2, desc := { Desc.zero with opcode := 0x0101, inputLength := 32, labelLength := 4 }, asked := 32, bufs := [(0x200000, 64), (0x200040, 32), (0x200080, 4)] }
/-- Its buffers in words of its colour. -/
def readingOwn : State := (withJob jobReading up).setWords 0x80000 (List.replicate 48 ⟨1, 0⟩)

theorem witness_FailedReadEndsJob :
    (withJob jobReading up).keeper.guardOn = true ∧ (withJob jobReading up).job? 1 = some jobReading ∧ jobReading.outstanding .label = true ∧ jobReading.outstanding .input = true ∧
    (withJob (job1 0 .fetching) up).job? 1 = some (job1 0 .fetching) ∧ (job1 0 .fetching).outstanding .descriptor = true ∧
    jobReading.outstanding .descriptor = false ∧ State.reset.keeper.guardOn = false := by decide +kernel

theorem witness_ReadDataEntersJobInTime :
    readingOwn.keeper.guardOn = true ∧ readingOwn.job? 1 = some jobReading ∧
    (jobReading.outstanding .label = true ∧ (readingOwn.dmaMeets jobReading 2 4 true).1 = 0 ∧ ({ jobReading with label := [1, 0, 0, 0], labelDone := true } : Job).canParse = false) ∧
    (jobReading.outstanding .input = true ∧ opStream jobReading.op = false ∧ ({ jobReading with input := [1], inputDone := false } : Job).canParse = false ∧
      (readingOwn.dmaMeets jobReading 1 32 true).1 = 0 ∧ ((withJob jobReading up).dmaMeets jobReading 1 32 true).1 = 1 ∧ jobReading.forced = none) ∧
    (jobReading.readSince + up.ticksOf (up.num Key.HST_READ_TIMEOUT) ≤ { up with tick := up.ticksOf (up.num Key.HST_READ_TIMEOUT) }.tick) ∧
    up.tick < jobReading.labelSince + up.ticksOf (up.num Key.HST_READ_TIMEOUT) := by decide +kernel

theorem witness_FifoErrorAndRetrain :
    (5 ≤ 5 ∧ (8 : Nat) ≤ strapWidth 2) ∧ ¬ (8 : Nat) ≤ strapWidth 1 ∧
    (let f := Fifo.reset
     f.wr = f.rd ∧ f.wrGray0 = gray f.wr ∧ f.wrGray1 = gray f.wr ∧ f.rdGray0 = gray f.rd ∧ f.rdGray1 = gray f.rd ∧ SMap.wf 0 f.cells = true) ∧
    (71 : Nat) < 72 ∧ (0 : Nat) ≠ 71 := by decide +kernel

/-- Slice 0 has a PASID. -/
def mapped0 (s : State) : State := s.setNum (Key.SLC_PASID 0) 0

theorem witness_SliceResetBeginsAndEnds :
    ((mapped0 up).seen.mapped 0 = true ∧ ((mapped0 up).slice 0).resetting = none ∧ ((mapped0 up).slice 0).mig ≠ .restoring ∧
      SMap.wf SliceCtx.reset (mapped0 up).slices = true) ∧
    (((mapped0 (withSlice { SliceCtx.reset with mig := .restoring } up)).slice 0).resetting = none ∧
      ((mapped0 (withSlice { SliceCtx.reset with mig := .restoring } up)).slice 0).mig = .restoring) ∧
    up.seen.mapped 1023 = false ∧ ((withSlice { SliceCtx.reset with resetting := some 0 } up).slice 0).resetting.isSome = true ∧
    (let s := withSlice { SliceCtx.reset with resetting := some 0, mig := .moved } { up with tick := 1 }
     s.resetEnds 0 = true ∧ (s.slice 0).mig = .moved) ∧
    (withSlice { SliceCtx.reset with resetting := some 0, resetVault := [1] } { up with tick := 2 }).resetEnds 0 = true ∧
    (withSlice { SliceCtx.reset with resetting := some 0, resetVault := [1] } { up with tick := 1 }).resetEnds 0 = false ∧
    up.resetEnds 0 = false := by decide +kernel

theorem witness_RegisterPageWipeFaultsHolders :
    (up.slice 0).windows = [] ∧ ((withSlice { SliceCtx.reset with windows := [(5, 1)] } up).slice 0).windows = [(5, 1)] := by decide +kernel

/-! Lanes -/

def withPk (n : Nat) (l : PkLane) (s : State) : State := s.setPk n l
def withSym (n : Nat) (l : SymLane) (s : State) : State := s.setSym n l

/-- Job 1 of class `c` has run on public-key lane 5 in this frame. -/
def jobOn5 (c : Nat) : Job := { jobReady 0x0101 with engine := engPk, lane := 5, cls := c, class0 := c == 0 }
def lane5 (c : Nat) : State := withJob (jobOn5 c) (withPk 5 { PkLane.reset with running := some 1 } up)

theorem witness_LaneFaultStopsLane :
    ((5 : Nat) < 24 ∧ SMap.wf PkLane.reset (lane5 0).lanes.pk = true ∧ ((lane5 0).pkLane 5).role ≠ .fenced ∧ ((lane5 0).pkLane 5).due ≠ .fence) ∧
    ((lane5 0).ranOn engPk 5 = [jobOn5 0] ∧ ((lane5 0).pkLane 5).parked = none ∧ (jobOn5 0).cls = 0 ∧ (jobOn5 0).rerun = false) ∧
    ((lane5 3).ranOn engPk 5 = [jobOn5 3] ∧ (jobOn5 3).cls ≠ 0) ∧
    ((withPk 5 { PkLane.reset with role := .fenced } up).pkLane 5).role = .fenced := by decide +kernel

theorem witness_LimbsAndWipesOfOperandMemory :
    ((∀ x ∈ [2 ^ 32 - 1, 0], x < 2 ^ (32 * 1)) ∧ [2 ^ 32 - 1, 0].length ≤ 2 ^ 32) ∧ (0 < 1 ∧ 0 < 7 ∧ 7 ≤ 2 ^ (32 * 1) ∧ 3 < 2 ^ (32 * 1) ∧ 5 < 2 ^ (32 * 1)) ∧
    (let s := withPk 5 { PkLane.reset with banks := [⟨1, 0, 2, [7]⟩] } up
     SMap.wf PkLane.reset s.lanes.pk = true ∧ (∃ b, b ∈ (s.pkLane 5).banks ∧ s.bankKept 5 b = false)) := by
  refine ⟨?_, ?_, ?_, ⟨1, 0, 2, [7]⟩, ?_⟩ <;> decide +kernel

theorem witness_SymmetricLaneAndSharedUnitFaults :
    ((7 : Nat) < 8 ∧ SMap.wf SymLane.reset up.lanes.sym = true ∧ (up.symLane 7).fenced = false ∧ (up.symLane 7).due ≠ .fence) ∧
    ((withSym 7 { SymLane.reset with fenced := true } up).symLane 7).fenced = true ∧
    ((up.cluster 5).fenced = false ∧ (up.cluster 5).due ≠ .fence ∧ SMap.wf Cluster.reset up.lanes.clusters = true) ∧
    ((up.setCluster 5 { Cluster.reset with fenced := true }).cluster 5).fenced = true := by decide +kernel

def tested : Option LaneTest := some ⟨0, 0⟩
def ranTest (t : Option LaneTest) : Bool := t.any fun x => x.cyclesLeft == 0

theorem witness_LaneTestsEnd :
    ((withPk 23 { PkLane.reset with role := .spare, test := tested } up).pkLane 23).role = .spare ∧ ranTest tested = true ∧
    ({ PkLane.reset with role := .spare, test := tested } : PkLane).due ≠ .fence ∧ ranTest none = false ∧ ranTest (some ⟨1, 0⟩) = false ∧
    ((withPk 5 { PkLane.reset with role := .fenced, test := tested } up).pkLane 5).role = .fenced ∧
    ((up.setCluster 5 { Cluster.reset with fenced := true, test := tested }).cluster 5).fenced = true ∧ (up.cluster 5).fenced = false ∧
    (∃ s : State, (s.symLane 7).fenced = true ∧ (s.symLane 7).test = some ⟨0, 0⟩ ∧ 0 + 1 ≤ s.tick) ∧ (up.symLane 7).fenced = false ∧
    (up.num Key.PKE_SPARE_TEST_INTERVAL ≠ 0 ∧ up.tick % up.num Key.PKE_SPARE_TEST_INTERVAL = 0 ∧ up.pkWith .spare = [23] ∧ (up.pkLane 23).test = none ∧
      (up.pkLane 23).running = none ∧ SMap.wf PkLane.reset up.lanes.pk = true ∧ ceilDiv (min up.laneTime 206000 * rPk) 100000 ≤ up.remainder) ∧
    (up.setNum Key.PKE_SPARE_TEST_INTERVAL 0).num Key.PKE_SPARE_TEST_INTERVAL = 0 ∧
    (((withPk 5 { PkLane.reset with role := .comingSpare } up).pkLane 5).role = .comingSpare ∧
      (withPk 5 { PkLane.reset with role := .comingSpare } up).ranOn engPk 5 = []) ∧ (up.pkLane 5).role ≠ .comingSpare := by
  refine ⟨by decide +kernel, by decide +kernel, by decide +kernel, by decide +kernel, by decide +kernel, by decide +kernel, by decide +kernel, by decide +kernel,
    ⟨{ withSym 7 { SymLane.reset with fenced := true, test := some ⟨0, 0⟩ } up with tick := 1 }, by decide +kernel⟩, by decide +kernel, by decide +kernel,
    by decide +kernel, by decide +kernel, by decide +kernel⟩

/-! Memories and the Keeper -/

/-- Job 1 owns the granule of word 32, which is word 512 to 527; region 0 has the firmware. -/
def owning : State := { withJob { job1 0x0101 .ready with granules := [32], colour := 3 } up with keeper := { up.keeper with loaded := true } }
def coloured (c : Nat) : State := up.setWord 512 ⟨c, 7⟩

theorem witness_UncorrectableWordByOwner :
    (2097152 ≤ 2097152 ∧ 2097151 < 2097152) ∧
    ((((owning.count Key.KPR_WM_UE).eventOf 292).chkUncorrectable 527).ownerOf 527).isSome = true ∧
    ((((owning.count Key.KPR_WM_UE).eventOf 292).chkUncorrectable 528).ownerOf 528) = none ∧
    ((coloured 0).word 512).colour = 0 ∧ (owning.word 0).colour = 13 ∧
    (owning.word 2097151).colour = 14 ∧ (owning.word 0x100000).colour = 14 ∧ ((coloured 12).word 512).colour = 12 ∧ Memory.wf (coloured 12).rest (coloured 12).wm = true := by
  refine ⟨by decide, ?_, ?_, ?_, ?_, ?_, ?_, ?_, ?_⟩ <;> decide +kernel

/-- What is sealed opens. -/
theorem gcm_opens (k n a p : Bytes) : (gcmOpen k n a (gcmSeal k n a p).1 (gcmSeal k n a p).2).isSome = true := by
  simp [gcmOpen, gcmSeal]

/-- Heart 5 has an image, and a pinned object is cached. -/
def withHeart : State :=
  let b := ({ Heart.reset with key := List.replicate 32 7, generation := 3, state := .live } : Heart).bytes
  let c := gcmSeal [] (cut 16 8 (b.drop 32) ++ leBytes 4 5) (b.drop 32 ++ leBytes 4 5) (b.take 32)
  { up with keys := { up.keys with heartImageKey := some [], pins := [0x50003], images := [(5, some ⟨c.1, b.drop 32, c.2⟩)]
                                   cache := [⟨0x50003, ⟨0x20, 0, 0, [], 0x50003, 0, 0⟩, 1, false, 0, 0, 0⟩] } }

theorem witness_CacheHeartAndKeeperErrors :
    ((withHeart.keys.cache.any fun o => o.handle == 0x50003) = true ∧ withHeart.keys.pins.contains 0x50003 = true) ∧
    (up.keys.cache.any fun o => o.handle == 0x50003) = false ∧ up.image 16383 = none ∧ SMap.wf Heart.reset up.keys.hearts = true ∧
    SMap.wf Heart.reset withHeart.keys.hearts = true ∧
    (∃ i k x, withHeart.image 5 = some i ∧ withHeart.keys.heartImageKey = some k ∧ openImage k 5 i = some x) := by
  refine ⟨by decide, by decide, by decide, by decide, by decide, ?_⟩
  obtain ⟨x, hx⟩ := Option.isSome_iff_exists.mp (gcm_opens [] (cut 16 8 (_ : Bytes) ++ leBytes 4 5) (_ ++ leBytes 4 5) _)
  exact ⟨_, _, _, rfl, rfl, by rw [openImage, hx]⟩

/-- Core 0 runs job 1 of colour 3; weir 63 is valid; the argument buffer, the first of the job arena, has its colour. -/
def calling : State :=
  { (withJob { job1 0x0A01 .control with colour := 3 } up).setWords 0x80000 (List.replicate 128 ⟨3, 1⟩) with
    dict := { up.dict with nums := [(Key.KPR_WEIR_VALID, 2 ^ 63)] }, keeper := { up.keeper with cores := [(0, 1)] } }
def queued (n : Nat) : State := { calling with keeper := { calling.keeper with weirCalls := List.replicate n ⟨63, 0, 1, [], 0x200000, false⟩ } }

theorem witness_GatewayCallQueuedBusyOrFaulted :
    (calling.keeper.coresRunning = true ∧ calling.gateCause 0 63 0x200000 512 false = 0 ∧ ((queued 15).keeper.weirCalls.filter fun c => c.weir == 63).length < 16) ∧
    ((queued 16).gateCause 0 63 0x200000 512 false = 0 ∧ 16 ≤ ((queued 16).keeper.weirCalls.filter fun c => c.weir == 63).length) ∧
    (calling.gateCause 0 64 0x200000 0 false = 1 ∧ calling.gateCause 0 63 0x200000 0 true = 2 ∧ calling.gateCause 0 63 0x3FFE00 512 false = 3 ∧
      calling.gateCause 0 63 0x1FFFFC 0 false = 4 ∧ calling.gateCause 0 63 0x200000 513 false = 5) ∧
    calling.coreJob 0 ≠ none ∧ State.reset.keeper.coresRunning = false := by
  refine ⟨?_, ?_, ?_, ?_, ?_⟩ <;> decide +kernel

theorem calling_rising : calling.dict.nums.Pairwise (fun a b => a.1 < b.1) := List.pairwise_singleton _ _

theorem witness_GatewayFaultLimitAndInvalidate :
    (let s := { up with tick := 70000, keeper := { up.keeper with gateFaultTicks := List.replicate 16 4465 } }
     16 ≤ (s.keeper.gateFaultTicks.filter fun t => decide (s.tick < t + 65536)).length) ∧
    (let s := { up with tick := 70000, keeper := { up.keeper with gateFaultTicks := 4464 :: List.replicate 15 4465 } }
     (s.keeper.gateFaultTicks.filter fun t => decide (s.tick < t + 65536)).length < 16) := by decide +kernel

theorem witness_OldestCallServedAndColourFaults :
    ((queued 2).keeper.running = true ∧ ∃ c rest, (queued 2).keeper.weirCalls.filter (queued 2).callLives = c :: rest) ∧
    up.keeper.weirCalls.filter up.callLives = [] ∧ State.reset.keeper.running = false :=
  ⟨⟨by decide +kernel, ⟨63, 0, 1, [], 0x200000, false⟩, [⟨63, 0, 1, [], 0x200000, false⟩], by decide +kernel⟩, by decide, by decide⟩

/-- The guard is off, with these new fields. -/
def guardOffWith (rs : List (Nat × Region)) : State := { up with keeper := { up.keeper with guardOn := false, regionsNew := rs } }
/-- Region 6 lies inside region 5. -/
def overlapping : List (Nat × Region) := Region.shipped ++ [(6, ⟨0x400000, 22, 0, 0, false, true⟩)]

theorem witness_RegionGuardChanges :
    (up.keeper.guardOn = true ∧ up.window = false) ∧ { up with window := true }.window = true ∧
    ((guardOffWith []).keeper.guardOn = false ∧ (guardOffWith []).keeper.coresRunning = true) ∧ State.reset.keeper.coresRunning = false := by decide

theorem witness_GuardRulesNeverOverlap :
    (∀ n < 16, 3 ≤ (SMap.get Region.none Region.shipped n).size) ∧ overlapOf up.keeper.regions = none ∧ (up.keeper.guardOn = false → overlapOf up.keeper.guardSaved = none) ∧
    overlapOf (guardOffWith Region.shipped).keeper.regionsNew = none ∧ overlapOf (guardOffWith overlapping).keeper.regionsNew = some (5, 6) := by decide +kernel

/-- Every debug right, the guard's rules as shipped but for region 0, which debug masters may read and write, and region 1, locked. -/
def debugging (rights : Nat) : State :=
  { up with keeper := { up.keeper with debugState := rights, regions := [(0, ⟨0, 19, 0, 768, false, true⟩), (1, ⟨0x80000, 18, 0, 768, true, true⟩)] } }

theorem witness_DebugMasterAccess :
    (((coloured 0).word 512).colour = 0 ∧ (coloured 0).debugRight 2 = false) ∧
    (regionAt (debugging 15).keeper.regions (4 * 0x20000) = some 1 ∧ ((debugging 15).region 1).lock = true) ∧
    (regionAt (debugging 3).keeper.regions (4 * 0x1FFFF) = some 0 ∧ ((debugging 3).region 0).lock = false ∧ bitOf ((debugging 3).region 0).perm 8 = true ∧
      bitOf ((debugging 3).region 0).perm 9 = true ∧ (debugging 3).debugRight 0 = true ∧ (debugging 3).debugRight 1 = true) ∧
    ((debugging 2).debugRight 0 = true ∧ (debugging 1).debugRight 1 = false ∧ regionAt (debugging 15).keeper.regions (4 * 0x30000) = none) ∧
    Memory.wf up.rest up.wm = true := by decide +kernel

/-- A raw-sample grant is in force in MAKER, and wellspring 1 is healthy. -/
def tapping : State :=
  { up with life := { up.life with fuses := { up.life.fuses with m1 := Marks.reset }, grantRights := 32 }, keeper := { up.keeper with debugState := 1 },
            ent := { up.ent with w1 := { Wellspring.reset with state := .healthy } } }

theorem witness_DebugHaltsAndTap :
    ((debugging 8).debugRight 3 = true ∧ (debugging 2).debugRight 1 = true ∧ up.debugRight 3 = false ∧ up.debugRight 1 = false) ∧
    (tapping.lifeCycle = 0 ∧ bitOf tapping.life.grantRights 5 = true ∧ tapping.debugRight 0 = true ∧ (tapping.wsp 1).state = .healthy ∧ tapping.ent.w0.state ≠ .tapped ∧
      tapping.ent.w1.state ≠ .tapped) ∧
    (up.lifeCycle ≠ 0 ∧ up.lifeCycle ≠ 3) := by decide +kernel

/-- Block `b` in this state. -/
def withBlock (b : Nat) (x : Block) (s : State) : State := s.setBlock b x

theorem witness_HandOverOfBlocks :
    ((up.block 4).keeperOwns = false ∧ (up.block 4).handDue = none) ∧
    (6 - 5 < (up.setNum Key.KPR_SYM_RESERVE 2).num Key.KPR_SYM_RESERVE ∧ (up.setNum Key.KPR_SYM_RESERVE 2).blockLane 6 = some 6 ∧ up.blockLane 5 = some 7) ∧
    ((withBlock 0 { Block.reset with keeperOwns := true } up).block 0).keeperOwns = true ∧
    ((withBlock 0 { Block.reset with handDue := some (2, true) } up).block 0).handDue.isSome = true ∧
    (let s := withBlock 6 { Block.reset with gateDraining := true, lane := some 6 } up
     (s.block 6).lane = some 6 ∧ (s.block 6).gateDraining = true ∧ (s.symLane 6).running = none ∧ (s.symLane 6).parked = [] ∧
      SMap.wf SymLane.reset s.lanes.sym = true ∧ SMap.wf Block.reset s.keeper.blocks = true) ∧
    (up.block 6).lane = none := by decide +kernel

theorem witness_WatchdogsRefreshAndExpire :
    (let s := { up with keeper := { up.keeper with swdtLast := 0x5A } }
     s.keeper.swdtLast = 0x5A) ∧
    (let s := { up with keeper := { up.keeper with swdtArmed := true, swdtUs := 100000 } }
     s.keeper.swdtArmed = true ∧ s.keeper.haltSecure = false ∧ 1000 * s.keeper.swdtPeriodNow ≤ s.keeper.swdtUs) ∧
    up.keeper.swdtArmed = false ∧
    (let s := { up with keeper := { up.keeper with checkins := [0, 1, 2, 3, 4, 5, 6] } }
     s.keeper.coresRunning = true ∧ s.keeper.haltNormal = false ∧ (∀ n < 8, n = 7 ∨ n ∈ s.keeper.checkins)) ∧
    (up.keeper.coresRunning = true ∧ up.keeper.haltNormal = false ∧ 7 < 8 ∧ 7 ≠ 0 ∧ 7 ∉ up.keeper.checkins) ∧
    (let s := { up with keeper := { up.keeper with nwdtUs := 1000 * up.num Key.KPR_NWDT_PERIOD, nwdtExpiries := [0, 0] } }
     1000 * s.num Key.KPR_NWDT_PERIOD ≤ s.keeper.nwdtUs ∧ 2 ≤ (s.keeper.nwdtExpiries.filter fun t => decide (s.rst.seconds < t + 600)).length) ∧
    up.keeper.nwdtUs < 1000 * up.num Key.KPR_NWDT_PERIOD := by
  refine ⟨?_, ?_, ?_, ?_, ?_, ?_, ?_⟩ <;> decide +kernel

/-! The vault -/

/-- The vault is online with two drives in the mirror, of `n` pages. -/
def vaulted (n : Nat) : State :=
  { up with
    vault := { up.vault with state := .online, d0 := { Drive.reset with state := .inMirror, link := true, linkNow := true }, d1 := { Drive.reset with state := .inMirror, link := true, linkNow := true } }
    dict := { up.dict with nums := [(Key.VLT_PAGES, n)] } }
def withVault (f : Vault → Vault) (s : State) : State := { s with vault := f s.vault }
def fill (p : Nat) : Version := ⟨p, .change, [(0, none)], none, none, 1⟩

theorem vaulted_rising (n : Nat) : (vaulted n).dict.nums.Pairwise (fun a b => a.1 < b.1) := List.pairwise_singleton _ _

theorem witness_CommitGroupOpens :
    (let s := withVault (fun v => { v with waiting := fill 0 :: (List.range 25).map fill }) (vaulted 128)
     s.vault.group = [] ∧ s.vault.coming = none ∧ s.vaultUp = true ∧ s.nextGroup ≠ [] ∧ s.journalFull s.nextGroup = false ∧ s.vaultDenied 4 = none ∧
       (∃ v ∈ s.vault.waiting, v.since ≠ s.tick ∧ v.page ∉ s.vault.locked)) ∧
    up.vaultUp = false ∧ (withVault (fun v => { v with group := [fill 0] }) (vaulted 128)).vault.group ≠ [] ∧ up.nextGroup = [] ∧
    (withVault (fun v => { v with journal := List.replicate 512 ⟨Root.none, [⟨0, .pendingChange, TreeEntry.unwritten⟩], 0, 0⟩, locked := [0] }) (vaulted 128)).journalFull [] = true := by
  refine ⟨⟨?_, ?_, ?_, ?_, ?_, ?_, fill 0, ?_⟩, ?_, ?_, ?_, ?_⟩ <;> decide +kernel

theorem witness_CommitPhaseTwoAdvancesRoot :
    (let s : State := { withVault (fun v => { v with group := [fill 0, fill 0, fill 127], groupFlushed := true }) (vaulted 128) with window := true }
     s.vault.group ≠ [] ∧ s.vault.groupFlushed = true ∧ s.window = true) ∧ (vaulted 128).window = false ∧
    up.vault.group = [] ∧ (withVault (fun v => { v with group := [fill 0] }) (vaulted 128)).vault.groupFlushed = false := by decide

/-- A read of page 3 on port 0 for job 1. -/
def read3 : VRead := ⟨3, 0, false, [1], 0, false, false, 0, true⟩
/-- The same read at a node of level 1. -/
def node3 : VRead := { read3 with level := 1 }
def reading3 (second : Bool) (h : Bytes) : State :=
  withVault (fun v => { v with reads := [{ read3 with second := second }], tree := [(treeKey 0 3, ⟨h, false, false, 1, 4⟩)] }) (withJob (job1 0x0101 .ready) (vaulted 128))

/-- Region 5, the vault's, refuses its controller. -/
def noVault (s : State) : State := { s with keeper := { s.keeper with regions := [(5, ⟨0x400000, 22, 0, 0, false, true⟩)] } }

theorem witness_VaultReadIsChecked (b : Bytes) :
    up.readOf 3 0 = none ∧
    (∀ second h, (reading3 second h).readOf 3 0 = some { read3 with second := second }) ∧
    (∀ second h, (reading3 second h).vaultDenied 5 = none) ∧ (noVault (reading3 false [])).vaultDenied 5 = some 5 ∧
    ((withVault (fun v => { v with reads := [node3] }) (vaulted 128)).readOf 3 0 = some node3 ∧ node3.level ≠ 0) ∧
    (read3.prior = false ∧ read3.jobs ≠ [] ∧ ∀ h, ∀ id ∈ read3.jobs, ∀ j, (reading3 false h).job? id = some j → j.op ≠ 0x070C) ∧
    (∃ h, matchesEntry 3 ((reading3 false h).pageEntry 3) (slotsOfPage b) = true) ∧
    (∃ h, matchesEntry 3 ((reading3 false h).pageEntry 3) (slotsOfPage b) = false) ∧
    (∀ h, ((reading3 false h).drive 1).inMirror = true) ∧ ((withVault (fun v => { v with d1 := Drive.reset }) (reading3 false [])).drive 1).inMirror = false := by
  refine ⟨rfl, fun _ _ => rfl, fun _ _ => (by decide +kernel : (vaulted 128).vaultDenied 5 = none), by decide +kernel, ⟨rfl, by decide⟩, ⟨rfl, by decide, ?_⟩, ⟨(vaultHash 0 3 (slotsOfPage b).flatten).take 22, ?_⟩, ⟨List.replicate 23 0, ?_⟩, fun _ => rfl, rfl⟩
  · intro h id hid j hj
    simp only [read3, List.mem_singleton] at hid
    subst hid
    cases hj
    decide
  · have e : ∀ h, (reading3 false h).pageEntry 3 = ⟨h, false, false, 1, 4⟩ := fun _ => rfl
    simp [matchesEntry, e]
  · have e : ∀ h, (reading3 false h).pageEntry 3 = ⟨h, false, false, 1, 4⟩ := fun _ => rfl
    simp only [matchesEntry, e]
    apply beq_false_of_ne
    intro h
    have l := congrArg List.length h
    simp only [List.length_take, List.length_replicate] at l
    omega

/-- No drive is linked; one, or two, ports are strapped for. -/
def strapped (n : Nat) : State := { up with rst := { up.rst with strap := n } }

/-- Drive 1 has come up, or has gone. -/
def arriving (x : DriveIdent) : State := withVault (fun v => { v with d0 := Drive.reset, d1 := { Drive.reset with linkNow := true, ident := some x } }) (vaulted 128)
def leaving (x : Drive) : State := withVault (fun v => { v with d0 := x, d1 := { v.d1 with linkNow := false }, group := [fill 0] }) (vaulted 128)

theorem witness_DrivesComeAndGo :
    (((strapped 4).drive 0).linkNow = false ∧ 0 < strapDrives (strapped 4).rst.strap) ∧
    (((strapped 8).drive 1).linkNow = false ∧ 1 < strapDrives (strapped 8).rst.strap) ∧ strapDrives (strapped 7).rst.strap ≤ 1 ∧
    (let x : DriveIdent := ⟨3, 4, true, 16, [], [], [], []⟩
     ((arriving x).drive 1).link = false ∧ ((arriving x).drive 1).linkNow = true ∧ ((arriving x).drive 1).ident = some x ∧ ((arriving x).drive 0).inMirror = false ∧
      (arriving x).num (Key.VLT_PORT_OFFLINE 1) = 0 ∧ (arriving x).vault.formatting = none ∧ (arriving x).vault.state ≠ .unformatted ∧ x.blocks < blocksFor (arriving x).pages) ∧
    ((leaving Drive.reset).drive 1).link = true ∧ ((leaving Drive.reset).drive 1).linkNow = false ∧ ((leaving Drive.reset).drive 1).inMirror = true ∧
    ((leaving Drive.reset).drive 0).inMirror = false ∧ ((leaving (vaulted 128).vault.d0).drive 0).inMirror = true ∧
    (((vaulted 128).drive 1).link = true ∧ ((vaulted 128).drive 1).linkNow = true ∧ ((vaulted 128).drive 1).next = none ∧ ((vaulted 128).drive 1).writable = true) ∧
    ((vaulted 128).cmdLate 1 = false ∧ (reading3 false []).readOf 3 0 = some read3 ∧ ((reading3 false []).drive 0).link = true ∧ (vaulted 128).readOf 3 1 = none) ∧
    (∃ t, (withVault (fun v => { v with d1 := { v.d1 with cmds := [⟨0, .flush, 0, false⟩] } }) { vaulted 128 with tick := t }).cmdLate 1 = true) ∧
    (vaulted 128).tick % 65536 = 0 ∧ { vaulted 128 with tick := 65535 }.tick % 65536 ≠ 0 ∧ bitOf 4 2 = true ∧ bitOf 8 3 = true ∧ bitOf 0 2 = false := by
  refine ⟨?_, ?_, ?_, ?_, ?_, ?_, ?_, ?_, ?_, ?_, ?_, ⟨1000000000, ?_⟩, ?_, ?_, ?_, ?_, ?_⟩ <;> decide +kernel

/-- Drive 1 is being resilvered. -/
def resilvering1 (keys : List Nat) : State :=
  withVault (fun v => { v with d1 := { v.d1 with state := .resilvering }, copyPort := some 1, copyKeys := keys }) (vaulted 128)

theorem witness_ResilverScrubAndFormatEnd :
    ((resilvering1 []).resilvering = some 1 ∧ (resilvering1 []).vault.copyPort = some 1 ∧ (resilvering1 []).vault.copyKeys.length ≤ (resilvering1 []).num Key.VLT_RESILVER_CURSOR ∧
      SMap.wf zeroBlock ((resilvering1 []).drive 1).cells = true) ∧
    ((resilvering1 [5]).num Key.VLT_RESILVER_CURSOR < (resilvering1 [5]).vault.copyKeys.length ∧ up.resilvering ≠ some 1) ∧
    ((vaulted 128).scrubOn = true ∧ (vaulted 128).scrubList = []) ∧ up.scrubOn = false ∧
    (let s := withVault (fun v => { v with formatting := some 128 }) (vaulted 128)
     s.vault.formatting = some 128 ∧ s.mirror ≠ [] ∧ (s.drive 1).inMirror = true) ∧
    up.vault.formatting = none := by decide +kernel

/-- SPENT hearts: 1 seen in the pass, 2 certified at the last one, 3 spent since before the pass; 4 is LIVE. -/
def spentHearts : State :=
  { vaulted 128 with keys := { up.keys with
      hearts := [(1, { Heart.reset with state := .spent, generation := 2 }), (2, { Heart.reset with state := .spent, generation := 2, certified := true }),
                 (3, { Heart.reset with state := .spent, generation := 2 }), (4, { Heart.reset with state := .live })]
      sweepSeen := [1], certifiedLast := [2], sweepFresh := [1, 2, 3] } }

theorem witness_SweepPassCertifiesSpentHearts :
    (SMap.wf Heart.reset spentHearts.keys.hearts = true ∧ spentHearts.num Key.KEY_SWEEP_ENABLE ≠ 0 ∧ spentHearts.vaultUp = true ∧
      spentHearts.allocatedFrom (spentHearts.num Key.KEY_SWEEP_CURSOR) = []) ∧
    ((spentHearts.heart 1).state = .spent ∧ 1 ∈ spentHearts.keys.sweepSeen) ∧
    ((spentHearts.heart 2).state = .spent ∧ 2 ∉ spentHearts.keys.sweepSeen ∧ 2 ∈ spentHearts.keys.certifiedLast) ∧
    ((spentHearts.heart 3).state = .spent ∧ 3 ∉ spentHearts.keys.sweepSeen ∧ 3 ∉ spentHearts.keys.certifiedLast ∧ 3 ∈ spentHearts.keys.sweepFresh) ∧
    (spentHearts.heart 4).state ≠ .spent ∧ up.vaultUp = false := by decide +kernel

/-! Check values and entropy -/

def withChk (c : CheckUnit) (s : State) : State := s.setChk 3 c
/-- A running scan of unit 3 that has reached `p`; its flags and the value it expects. -/
def scanning (p hit flags : Nat) (expected : Nat) : State :=
  withChk { CheckUnit.reset with state := 1, position := p, hit := hit }
    { up with dict := { up.dict with nums := [(Key.CHK_LENGTH 3, 5), (Key.CHK_EXPECTED 3, expected), (Key.CHK_FLAGS 3, flags)] } }

theorem witness_ScanEndsWithItsResult :
    ((scanning 5 0 0 0).chkUnit 3).state = 1 ∧ (up.chkUnit 3).state ≠ 1 ∧ ((scanning 5 0 0 0).chkUnit 3).next = none ∧
    ((scanning 2 6 0 0).chkUnit 3).hit ≠ 0 ∧ ((scanning 4 0 0 0).chkUnit 3).position < (scanning 4 0 0 0).num (Key.CHK_LENGTH 3) ∧
    (scanning 5 0 0 0).num (Key.CHK_LENGTH 3) ≤ ((scanning 5 0 0 0).chkUnit 3).position ∧
    (scanning 5 0 0 0).chkFlag 3 3 = false ∧ (scanning 5 0 8 0).chkFlag 3 3 = true ∧
    crcResult ((scanning 5 0 8 0).chkWidth 3) 0 ((scanning 5 0 8 0).chkFlag 3 1) ((scanning 5 0 8 0).chkFlag 3 2) = (scanning 5 0 8 0).chkLow 3 ((scanning 5 0 8 0).num (Key.CHK_EXPECTED 3)) ∧
    crcResult ((scanning 5 0 8 1).chkWidth 3) 0 ((scanning 5 0 8 1).chkFlag 3 1) ((scanning 5 0 8 1).chkFlag 3 2) ≠ (scanning 5 0 8 1).chkLow 3 ((scanning 5 0 8 1).num (Key.CHK_EXPECTED 3)) := by
  refine ⟨?_, ?_, ?_, ?_, ?_, ?_, ?_, ?_, ?_, ?_⟩ <;> decide +kernel

def withW1 (w : Wellspring) (s : State) : State := s.setWsp 1 w
def settled (st : SrcState) : Wellspring := { Wellspring.reset with settled := true, state := st, passCount := 3, pool := List.replicate 4 [] }
/-- 1,024 samples that alternate. -/
def alternating : List Bool := (List.range 1024).map fun i => i % 2 == 0

theorem witness_SampleBlocksAreTested :
    State.reset.live = false ∧ (up.live = true ∧ (up.wsp 1).settled = false) ∧
    ((withW1 (settled .starting) up).live = true ∧ ((withW1 (settled .starting) up).wsp 1).settled = true ∧
      (∃ pre v post, alternating.take 500 ++ List.replicate 81 true ++ alternating.drop 581 = pre ++ List.replicate 81 v ++ post) ∧
      (∃ v rest, List.replicate 832 true ++ List.replicate 192 false = v :: rest ∧ 832 ≤ ((List.replicate 832 true ++ List.replicate 192 false).filter fun x => x == v).length)) ∧
    (rctBlock alternating ((withW1 (settled .starting) up).wsp 1).runValue ((withW1 (settled .starting) up).wsp 1).runLength false).2.2 = false ∧ aptFails alternating = false ∧
    ((withW1 (settled .starting) up).wsp 1).state = .starting ∧ 3 ≤ ((withW1 (settled .starting) up).wsp 1).passCount ∧ ((withW1 (settled .starting) up).wsp 1).pool.length ≤ 4 := by
  refine ⟨by decide, by decide, ⟨by decide, by decide, ⟨_, _, _, rfl⟩, ⟨true, List.replicate 831 true ++ List.replicate 192 false, by decide +kernel, by decide +kernel⟩⟩,
    by decide +kernel, by decide +kernel, by decide, by decide, by decide⟩

/-- Both wellsprings healthy, the DRBG alive, a reseed due. -/
def reseeding : State :=
  { up with ent := { up.ent with w0 := { Wellspring.reset with state := .healthy, pool := [[1], [2]] }, w1 := { Wellspring.reset with state := .healthy, pool := [[3]] }
                                 drbg := ⟨[], [], true⟩, supply := 1, reseedDue := true } }
def heldJob (a tick : Nat) : State := { withJob { job1 0x0801 .ready with firstHeld := some a } up with tick := tick }

theorem witness_WellspringsReseedAndWaits :
    ((let w : Wellspring := { Wellspring.reset with window := List.replicate 9 true, state := .healthy }
      9 ≤ (w.window.filter fun x => x).length ∧ w.state ≠ .failed ∧ w.failDue = false) ∧ ((List.replicate 8 true).filter fun x => x).length < 9) ∧
    (up.live = true ∧ (up.wsp 0).settled = false ∧ (up.wsp 0).state = .starting) ∧ State.reset.live = false ∧
    (let s := { up with ent := { up.ent with supply := 3, sinceReseed := 2 ^ 20 } }
     s.ent.supply = 3 ∧ 2 ^ 20 ≤ s.ent.sinceReseed) ∧
    (let s := { up with ent := { up.ent with supply := 3, sinceReseed := 2 ^ 20 - 1 } }
     s.ent.sinceReseed < 2 ^ 20) ∧
    (reseeding.live = true ∧ reseeding.wantsInit = false ∧ reseeding.reseedDueNow = true ∧ reseeding.ent.w0.state = .healthy ∧ reseeding.ent.w1.state = .healthy ∧
      (∃ a b p q, reseeding.ent.w0.pool = a :: p ∧ reseeding.ent.w1.pool = b :: q)) ∧
    ((withW1 { reseeding.ent.w1 with pool := [] } reseeding).ent.w1.pool = [] ∧ (withW1 { reseeding.ent.w1 with pool := [] } reseeding).reseedDueNow = true) ∧
    (∃ s : State, s.live = true ∧ s.wantsInit = false ∧ s.reseedDueNow = false) ∧
    (∃ j, (heldJob 7 70).job? 1 = some j ∧ j.firstHeld = some 7 ∧ j.phase = .ready ∧ 7 + 63 ≤ (heldJob 7 70).tick ∧ ¬ 7 + 63 ≤ (heldJob 7 69).tick) := by
  refine ⟨by decide, by decide, by decide, by decide, by decide, ⟨by decide +kernel, by decide +kernel, by decide +kernel, by decide, by decide, _, _, _, _, rfl, rfl⟩,
    by decide +kernel, ⟨{ reseeding with ent := { reseeding.ent with reseedDue := false } }, by decide +kernel⟩, ⟨_, rfl, rfl, rfl, by decide, by decide⟩⟩

/-! The chain -/

/-- A message of unit 1 to every unit. -/
def hdrB : MsgHdr := ⟨1, bcast, 7, 0, 0, 0, .good⟩
/-- Unit 3 of a domain of units 1, 3 and 4; unit 1 was heard in this frame. -/
def chained : State :=
  { up with
    window := true
    chain := { up.chain with address := 3, domainKey := some [], up := true, heard := [(1, 0)] }
    dict := { up.dict with octs := [(Key.CHN_DOMAIN_MEMBERS 0, [1, 0, 3, 0, 4, 0])] } }
def withChain (f : Chain → Chain) (s : State) : State := { s with chain := f s.chain }
def held (reach : Nat) : State := { State.reset with rst := { ResetCtl.reset with reach := reach } }

theorem witness_MessagesAreCheckedAndTakenOnce :
    (msgRow (.hello hdrB) = some (3, hdrB) ∧ chained.live = true ∧ chained.opensMsg 3 hdrB = true ∧ chained.forMe hdrB = true) ∧
    chained.opensMsg 3 { hdrB with check := .badCrc } = false ∧ up.opensMsg 0x30 hdrB = false ∧
    chained.forMe { hdrB with src := 3 } = false ∧ chained.forMe { hdrB with dst := 4 } = false ∧ (chained.heardFrom hdrB).forMe hdrB = false ∧
    (chained.window = true ∧ chained.deaf = false ∧ up.window = false ∧ relayed (.hello hdrB) = false ∧ (held 2).deaf = true) ∧
    ({ hdrB with last := 1 } : MsgHdr).last ≠ 0 ∧ (∀ p ∈ chained.chain.partials, p.src ≠ hdrB.src ∨ p.id ≠ hdrB.id) := by
  refine ⟨⟨rfl, ?_, ?_, ?_⟩, ?_, ?_, ?_, ?_, ?_, ?_, ?_, ?_⟩ <;> decide +kernel

def marker1 : Marker := ⟨0, 1, false, true, true, 2 ^ 64 - 1, 1, false, 1, 0, 0, 5⟩

theorem witness_TickMarkersAreFollowed :
    (let s := withChain (fun c => { c with origin := true, address := 1 }) up
     s.chain.origin = true ∧ marker1.source = s.chain.address ∧ { marker1 with source := 2 }.source ≠ s.chain.address) ∧
    (let s := withChain (fun c => { c with acting := true, address := 3 }) up
     s.chain.acting = true ∧ { marker1 with strapped := false, source := 4 }.strapped = false ∧ s.chain.address < 4 ∧ 2 < s.chain.address ∧ marker1.source ≠ s.chain.address) ∧
    (chained.chain.origin = false ∧ chained.chain.acting = false) ∧ marker1.headerOk = true ∧ { marker1 with headerOk := false }.headerOk = false := by decide

theorem chained_rising : chained.dict.nums.Pairwise (fun a b => a.1 < b.1) := List.Pairwise.nil

theorem witness_ChainStateRows :
    (let s := withChain (fun c => { c with origin := true, markerSeen := true }) up
     s.chain.origin = true ∧ s.chain.up = false ∧ s.chain.markerSeen = true) ∧
    (withChain (fun c => { c with loopB := true }) up).chain.loopB = true ∧ (withChain (fun c => { c with loopA := true }) up).chain.loopA = true ∧
    up.chain.loopB = false ∧ up.chain.loopA = false ∧
    (let s := withChain (fun c => { c with tickSource := true, missed := 2 }) up
     s.chain.tickSource = true ∧ 2 ≤ s.chain.missed) ∧
    (withChain (fun c => { c with tickSource := true, missed := 1 }) up).chain.missed < 2 := by decide

theorem witness_RollCallsGiveAddresses :
    (let s := withChain (fun c => { c with origin := true, address := 1 }) up
     hdrB.check = .good ∧ s.chain.origin = true ∧ hdrB.src = s.chain.address ∧ hdrB.frag = hdrB.last) ∧
    (chained.passes 1 hdrB = true ∧ chained.passes 2 hdrB = true ∧ chained.takes 3 hdrB = true ∧ chained.chain.origin = false ∧ chained.chain.address ∉ [1, 2] ∧
      chained.chain.address ∈ [1, 3]) ∧
    (up.passes 1 hdrB = true ∧ up.passes 2 hdrB = true ∧ up.chain.address = 0 ∧ (4094 : Nat) ≤ 4094 ∧ 4094 < 4095 ∧ [1, 5][[1].length]? = some 5 ∧ 5 ∉ [1]) ∧
    ([1, 3].getD [1, 3].length 0 ∈ [1, 3] ∨ [1, 3].getD [1, 3].length 0 = 0) ∧ (withChain (fun c => { c with origin := true, address := 2 }) chained).takes 3 hdrB = true ∧
    (4 ∈ chained.members ∧ chained.reaches 4 = false ∧ 4 ∉ chained.chain.unreachable) ∧ chained.reaches 1 = true := by
  refine ⟨?_, ?_, ?_, ?_, ?_, ?_, ?_⟩ <;> decide +kernel

/-- A counter's change of this unit, with K = `k` and these acknowledgements. -/
def own9 (k : Nat) (acks : List Nat) : OwnChange := ⟨⟨9, k, 0, .counter 1 0 1⟩, 0, acks, some 1, none, none, none, [], false⟩
def writing (o : OwnChange) (s : State) : State := withChain (fun c => { c with own := [o] }) s

theorem witness_ReplicationAtItsWriter :
    ((writing (own9 2 [4]) chained).chain.own.find? fun x => decide (x.record.seq = 9)) = some (own9 2 [4]) ∧
    ((writing (own9 2 [4]) chained).takes 0x31 hdrB = true ∧ (own9 2 [4]).applyAt = none ∧ hdrB.src ∉ (own9 2 [4]).acks ∧ hdrB.src ≠ chained.chain.address ∧
      hdrB.src ∈ chained.members ∧ chained.tick < (own9 2 [4]).e + 65 ∧ (own9 2 [4]).record.k ≤ (own9 2 [4]).acks.length + 1 ∧
      ((writing (own9 2 [4]) chained).heardFrom hdrB).majority = true ∧ (own9 2 [4]).job = some 1) ∧
    ((own9 2 []).acks.length + 1 < (own9 2 []).record.k ∧ hdrB.src ∈ (own9 2 [1]).acks ∧ 5 ∉ chained.members ∧ chained.joiner ≠ some hdrB.src) ∧
    (let run : OwnChange := ⟨⟨9, 1, 0, .objectFree 8 1⟩, 0, [], none, some (Key.CHN_K, none), none, none, [], false⟩
     changeRun run.record.change = some (8, 1) ∧ 8 / 8 ∈ (withVault (fun v => { v with locked := [1] }) chained).vault.locked ∧ run.write.isSome = true) ∧
    ((own9 2 [4]).restarted = false ∧ (own9 2 [4]).isTag = false ∧ (own9 2 [4]).e + 65 ≤ { chained with tick := 65 }.tick ∧ { chained with tick := 64 }.tick < (own9 2 [4]).e + 65) ∧
    (let o : OwnChange := { own9 2 [] with job := none, restarted := true, queried := some 0, holders := [1] }
     o.restarted = true ∧ o.queried = some 0 ∧ 0 + 64 ≤ { chained with tick := 65 }.tick ∧ o.job = none ∧ o.write = none ∧ o.holders ≠ [] ∧ 0 + 65 ≤ { chained with tick := 65 }.tick) ∧
    (own9 2 []).queried = none := by
  refine ⟨?_, ?_, ?_, ?_, ?_, ?_, ?_⟩ <;> decide +kernel

/-- A peer's record, and the same one logged. -/
def peer9 : ReplRecord := ⟨9, 2, 0, .counter 1 0 1⟩
def logged (committed : Bool) (queried : Option Nat) : State := withChain (fun c => { c with log := [⟨1, peer9, 0, committed, false, queried, [4]⟩] }) chained

theorem witness_ReplicationAtAPeer :
    (chained.takes 0x30 hdrB = true ∧ chained.chain.join ≠ .transferring ∧ chained.logUsed + (recordBytes peer9).length ≤ replicaLogSize ∧
      chained.runTaken peer9.change = false ∧ chained.heartNotReady peer9.change = false ∧
      (chained.chain.own.filter fun o => conflicts o.record.change peer9.change) = []) ∧
    (chained.forming peer9.change = [] ∧ ((own9 2 []).applyAt.isSome = false ∧ ({ own9 2 [] with applyAt := some 2 } : OwnChange).applyAt.isSome = true)) ∧
    ((withJob { job1 0x0706 .committing with outcome := some ⟨stOk, [], 0, some (.objectFree 8 1), none⟩ } (chained.setNum Key.CHN_K 1)).forming (.objectFree 8 1) ≠ []) ∧
    (((writing (own9 2 []) chained).chain.own.filter fun o => conflicts o.record.change peer9.change) ≠ [] ∧ hdrB.src < chained.chain.address ∧
      chained.chain.address ≤ { hdrB with src := 4 }.src) ∧
    (chained.setHeart 5 { Heart.reset with state := .live, generation := 3 }).heartNotReady (.heart 5 (List.replicate 32 0 ++ [1, 0, 0, 0, 1])) = true ∧
    (1 ≠ chained.chain.address ∧ chained.takes 0x32 hdrB = true ∧ chained.takes 0x33 hdrB = true ∧ chained.takes 0x34 hdrB = true ∧ chained.takes 0x35 hdrB = true) ∧
    ((logged false none).chain.log.any fun x => x.writer == 1 && x.record.seq == 9) = true ∧
    ((chained.chain.log.any fun x => x.writer == 1 && x.record.seq == 9) || (chained.chain.joinLogged.any fun x => x.writer == 1 && x.record.seq == 9)) = false ∧
    ((logged false none).chain.log.find? fun x => x.writer == 1 && x.record.seq == 9) = some ⟨1, peer9, 0, false, false, none, [4]⟩ ∧
    ((logged true none).chain.log.find? fun x => x.writer == 1 && x.record.seq == 9) = some ⟨1, peer9, 0, true, false, none, [4]⟩ ∧
    ((logged false (some 128)).chain.log.find? fun x => x.writer == 1 && x.record.seq == 9) = some ⟨1, peer9, 0, false, false, some 128, [4]⟩ ∧
    (0 + 128 ≤ { logged false none with tick := 128 }.tick ∧ { logged false none with tick := 127 }.tick < 0 + 128 ∧ 128 + 65 ≤ { logged false none with tick := 193 }.tick) := by
  refine ⟨?_, ?_, ?_, ?_, ?_, ?_, ?_, ?_, ?_, ?_, ?_, ?_⟩ <;> decide +kernel

def tag0 : Bytes := List.replicate 16 5
def migrating (m : MigState) : State :=
  { withSlice { SliceCtx.reset with mig := m, imageTag := some tag0 } chained with tick := 66, chain := { chained.chain with tags := [(tag0, 0)] } }

theorem witness_MigrationOnTheChain :
    (SMap.wf SliceCtx.reset (migrating .saved).slices = true ∧ (migrating .saved).takes 0x38 hdrB = true ∧
      ((migrating .saved).chain.tags.find? fun t => t.1 == tag0) = some (tag0, 0) ∧ (chained.chain.tags.find? fun t => t.1 == tag0) = none) ∧
    ((migrating .restoring).slices.find? fun e => e.2.mig == .restoring && e.2.imageTag == some tag0 && e.2.migDue.isNone) = some (0, (migrating .restoring).slice 0) ∧
    ((migrating .restoring).slice 0).resetHeld = false ∧
    ((migrating .saving).slices.find? fun e => e.2.mig == .restoring && e.2.imageTag == some tag0 && e.2.migDue.isNone) = none ∧
    (((migrating .saving).slice 0).migDue = none ∧ ((migrating .saving).slice 0).migTick + 66 ≤ (migrating .saving).tick ∧ ((migrating .saving).slice 0).mig = .saving ∧
      ((migrating .saving).slice 0).imageTag = some tag0) ∧
    ({ migrating .saving with tick := 65 }.tick < ((migrating .saving).slice 0).migTick + 66) ∧
    (((migrating .freezing).slice 0).mig = .freezing ∧ ((migrating .freezing).slice 0).migTick < (migrating .freezing).tick ∧ (∀ j ∈ (migrating .freezing).jobs, j.slice = 0 → j.admitted = none)) ∧
    (∃ j ∈ (withJob (jobReady 0x0101) (migrating .freezing)).jobs, j.slice = 0 ∧ j.admitted.isSome = true) := by
  refine ⟨?_, ?_, ?_, ?_, ?_, ?_, ?_, ?_⟩ <;> decide +kernel

/-! Domains -/

def offer0 : Offer := ⟨[], [], [], [], [], [], [], []⟩
def joining (j : JoinState) (isMember confirmed : Bool) : State :=
  withChain (fun c => { c with join := j, joinIsMember := isMember, joinPeer := 1, joinConfirmed := confirmed, joinOffer := some offer0 }) chained

theorem witness_JoinsAreAttestedAndConfirmed :
    (chained.takes 0x40 hdrB = true ∧ ¬ (chained.chain.join = .attesting ∨ chained.chain.join = .confirming ∨ chained.chain.join = .transferring) ∧ chained.chain.domainKey.isSome = true) ∧
    up.chain.domainKey = none ∧
    ((joining .attesting false false).takes 0x41 hdrB = true ∧ (joining .attesting false false).chain.join = .attesting ∧ (joining .attesting false false).chain.joinIsMember = false ∧
      hdrB.src = (joining .attesting false false).chain.joinPeer ∧ (joining .attesting false false).chain.joinOffer = some offer0) ∧
    ((joining .confirming false true).takes 0x42 hdrB = true ∧ (joining .confirming false true).chain.join = .confirming ∧ (joining .confirming false true).chain.joinIsMember = false ∧
      (joining .confirming false true).chain.joinConfirmed = true ∧ (joining .confirming false false).chain.joinConfirmed = false) ∧
    ((joining .attesting false false).chain.joinSince + 4096 ≤ { joining .attesting false false with tick := 4096 }.tick ∧
      { joining .attesting false false with tick := 4095 }.tick < (joining .attesting false false).chain.joinSince + 4096) := by
  refine ⟨?_, ?_, ?_, ?_, ?_⟩ <;> decide +kernel

theorem witness_TransferFillsTheJoiningUnit :
    (chained.fromMember hdrB = false ∧ chained.takes 0x43 hdrB = true ∧ chained.takes 0x44 hdrB = true ∧ chained.takes 0x45 hdrB = true) ∧
    ((joining .transferring false true).fromMember hdrB = true ∧ SMap.wf Heart.reset (joining .transferring false true).keys.hearts = true ∧
      (joining .transferring false true).takes 0x43 hdrB = true ∧ List.replicate 512 (1 : Byte) ≠ []) := by
  refine ⟨?_, ?_⟩ <;> decide +kernel

/-! The dictionary service -/

/-- A request of unit 1 to unit 3. -/
def reqOf (role index sub : Nat) (proof value : Bytes) : DictReq := ⟨{ hdrB with dst := 3 }, 1, role, index, sub, proof, value, false⟩
def zeros32 : Bytes := List.replicate 32 0
/-- Enrolment is closed: role 2 needs a proof. -/
def enrolled : State := { chained with dict := { chained.dict with nums := [(Key.OFC_ENROLMENT_OPEN, 0)] } }

theorem witness_DictionaryRequestsAreServed :
    State.reset.live = false ∧ (up.live = true ∧ up.window = false) ∧
    (chained.live = true ∧ chained.takes 0x10 hdrB = true ∧ hdrB.dst = bcast) ∧
    (chained.takes 0x10 (reqOf 0 0x1000 3 zeros32 []).hdr = true ∧ (reqOf 0 0x1000 3 zeros32 []).hdr.dst ≠ bcast) ∧
    attrOf 0xFFFF 0 = none ∧ (attrOf 0x2000 6).any (fun a => !a.readable) = true ∧ (attrOf 0x1000 3).any (fun a => a.readable) = true ∧
    (4 < reqRole (reqOf 5 0x1000 3 zeros32 []) ∧ reqRole (reqOf 4 0x1000 3 zeros32 []) = 4 ∧ reqRole (reqOf 0 0x1000 3 zeros32 []) ≤ 3) ∧
    (chained.proofOk (reqOf 0 0x1000 3 zeros32 []) 1 = true ∧ chained.proofOk (reqOf 0 0x1000 3 (1 :: zeros32.drop 1) []) 1 = false) ∧
    (roleOf (reqRole (reqOf 0 0x1000 3 zeros32 [])) = some .observer ∧ (attrOf 0x1000 3).any (fun a => !a.mayWrite .observer) = true) ∧
    (let r := reqOf 2 (Key.SLC_WEIGHT 0 / 256) (Key.SLC_WEIGHT 0 % 256) zeros32 [2]
     let v := (chained.heardFrom r.hdr).seeReq r
     roleOf (reqRole r) = some .maintenance ∧ chained.takes 0x10 r.hdr = true ∧ enrolled.proofOk r 2 = false ∧ chained.proofOk r 2 = true ∧
      v.lockBars .maintenance = false ∧ actsElsewhere (entryKey r.index r.sub) = false ∧
      (attrOf r.index r.sub).any (fun a => a.mayWrite .maintenance && a.lengthOk r.value && decide (v.firstRefusal a .maintenance (entryKey r.index r.sub) (a.valueOf r.value) = 0) &&
        v.view.mayStand false (entryKey r.index r.sub) (a.valueOf r.value)) = true) ∧
    (chained.takes 0x11 hdrB = true ∧ chained.tunnelOn = false ∧ { chained with rst := { chained.rst with strap := 2 } }.tunnelOn = true) := by
  refine ⟨?_, ?_, ?_, ?_, ?_, ?_, ?_, ?_, ?_, ?_, ?_, ?_⟩ <;> decide +kernel

/-- Officer 2's key under ECDSA P-256, and its approval of a write: challenge of sixteen 1s, target 0, entry 0x1200.2, the digest of thirty-two 9s. The pair is chosen so that the two multipliers of the verification are 1 and 3. -/
def key2 : Bytes := 4 :: (beBytes 32 0xF8067019F0B6BFADBFAA78CD335380240F34A5965BB230D65D89221CFAF6E561 ++ beBytes 32 0x1A92736A1199FBC499B4057E61AE9BBE04365EA27FA2ACD3B2019355098A818F)
def approval2 : Bytes :=
  List.replicate 16 1 ++ [0, 0, 0x00, 0x12, 2, 2, 1, 0] ++ List.replicate 32 9 ++
    beBytes 32 0x1BA519DF798BBF1A5013B338B0FD7A132BD9A312BD5229640D28459687B60C05 ++
    beBytes 32 0xB3E1B349D32E950970069112E5A9D35B8C8D32CF592B2224A6DE9E5ED57EC78D
theorem test_approval_verifies : approvalSigned 1 key2 approval2 = true := by decide +kernel

/-- A challenge of sixteen 1s, held or not, with these approvals; officer 2 is enrolled under P-256, and M is 1. -/
def challenge1 (held : Bool) (approvals : List (Nat × Nat × Nat × Bytes)) : Challenge := ⟨List.replicate 16 1, 0, held, approvals⟩
def quorum (held : Bool) (approvals : List (Nat × Nat × Nat × Bytes)) (ws : List PendingWrite) : State :=
  { chained with dict := { chained.dict with nums := [(Key.OFC_QUORUM_M, 1), (Key.OFC_ENROLMENT_OPEN, 0), (Key.OFC_ALGORITHM 2, 1)]
                                             octs := [(Key.CHN_DOMAIN_MEMBERS 0, [1, 0, 3, 0, 4, 0]), (Key.OFC_KEY_PART0 2, key2)]
                                             challenges := [challenge1 held approvals], pendingWrites := ws } }
/-- A quorum write of CHN_K. -/
def officerReq : DictReq := reqOf 3 (Key.CHN_K / 256) (Key.CHN_K % 256) (List.replicate 16 1 ++ List.replicate 16 0) [2]
def waiting1 : PendingWrite := ⟨officerReq, List.replicate 16 1, [], false, false⟩
/-- A pending write of SEI_PERIOD_NEXT. -/
def approving : PendingWrite := ⟨reqOf 3 (Key.SEI_PERIOD_NEXT / 256) (Key.SEI_PERIOD_NEXT % 256) [] [2], List.replicate 16 1, [], false, false⟩

theorem witness_QuorumAndReplicatedWrites :
    (chained.live = true ∧ chained.takes 0x20 hdrB = true ∧ chained.withheld = true) ∧
    (let s := { chained with ent := { chained.ent with drbg := ⟨[], [], true⟩, supply := 1 } }
     s.takes 0x20 hdrB = true ∧ s.withheld = false) ∧
    (let s := quorum false [] []
     s.live = true ∧ officerReq.weir = false ∧ s.takes 0x10 officerReq.hdr = true ∧ officerReq.hdr.dst ≠ bcast ∧ officerReq.role = 3 ∧
      (attrOf officerReq.index officerReq.sub).any (fun a => a.mayWrite .officer && a.lengthOk officerReq.value &&
        decide ((s.heardFrom officerReq.hdr).firstRefusal a .officer (entryKey officerReq.index officerReq.sub) (a.valueOf officerReq.value) = 0)) = true ∧
      allZero (officerReq.proof.drop 16) = true ∧ s.outstanding (officerReq.proof.take 16) = some (challenge1 false []) ∧ s.dict.pendingWrites.length < 16 ∧ 0 < s.needed) ∧
    (let s := quorum false [] []
     s.takes 0x22 hdrB = true ∧ (at8 23 approval2 == 0 && decide (at8 21 approval2 < 16) && s.approver (at8 21 approval2) (at8 22 approval2)
        (entryKey (le 18 2 approval2) (at8 20 approval2)) (cut 24 32 approval2) && approvalSigned (at8 22 approval2) (s.officerKey (at8 21 approval2)) approval2) = true ∧
      s.outstanding (approval2.take 16) = some (challenge1 false []) ∧ (s.dict.pendingWrites.find? fun w => w.challenge == (challenge1 false []).bytes) = none ∧
      ((challenge1 false []).approvals.any fun a => a.1 == at8 21 approval2) = false ∧ ((challenge1 false [(2, 0, 0, [])]).approvals.any fun a => a.1 == at8 21 approval2) = true) ∧
    chained.outstanding (approval2.take 16) = none ∧
    (let s := quorum true [] [waiting1]
     (s.dict.pendingWrites.find? fun w => w.challenge == (challenge1 true []).bytes) = some waiting1 ∧
      s.agrees waiting1.req (le 16 2 approval2) (entryKey (le 18 2 approval2) (at8 20 approval2)) (cut 24 32 approval2) = false ∧
      (s.dict.challenges.find? fun c => c.bytes == List.replicate 16 1) = some (challenge1 true []) ∧ (challenge1 true []).issued + 4096 ≤ { s with tick := 4096 }.tick ∧
      { s with tick := 4095 }.tick < (challenge1 true []).issued + 4096) ∧
    (15 < 16 ∧ (1 : Nat) ≠ 0) ∧
    (dictRow (.chnK .officer 2) = some (true, .officer, Key.CHN_K, .num 2) ∧ (quorum false [] []).writePasses .officer Key.CHN_K (.num 2) = true) ∧
    (dictRow (.chnMemberRemove .officer 4) = some (true, .officer, Key.CHN_MEMBER_REMOVE, .num 4) ∧ (quorum false [] []).writePasses .officer Key.CHN_MEMBER_REMOVE (.num 4) = true) ∧
    (dictRow (.hrtOwner .maintenance 16383 0) = some (true, .maintenance, 0xBFFF * 256 + 3, .num 0)) := by
  refine ⟨?_, ?_, ?_, ?_, ?_, ?_, ?_, ?_, ?_, ?_⟩ <;> decide +kernel

/-- The pending write waits; two approvals are needed. -/
def quorum2 : State :=
  { quorum true [] [approving] with dict := { (quorum true [] [approving]).dict with nums := [(Key.OFC_QUORUM_M, 2), (Key.OFC_ENROLMENT_OPEN, 0), (Key.OFC_ALGORITHM 2, 1)] } }

theorem witness_FirstApprovalOfTwo :
    (quorum2.dict.pendingWrites.find? fun w => w.challenge == (challenge1 true []).bytes) = some approving ∧
    (∀ v, approving.req.value = v → quorum2.agrees approving.req 3 Key.SEI_PERIOD_NEXT (sha3_256 v) = true) ∧
    (∀ h, selfApproval 2 Key.SEI_PERIOD_NEXT h = false) ∧ 2 ∉ approving.officers ∧
    ((insertAsc 2 approving.officers).filter fun n => quorum2.enrolled.contains n).length < quorum2.needed := by
  refine ⟨by decide +kernel, ?_, ?_, by decide +kernel, by decide +kernel⟩
  · rintro v rfl
    have a : quorum2.chain.address = 3 := rfl
    have k : entryKey approving.req.index approving.req.sub = Key.SEI_PERIOD_NEXT := rfl
    simp [State.agrees, a, k]
  · intro h
    have k : (Key.SEI_PERIOD_NEXT == Key.OFC_ALGORITHM 2) = false := by decide
    simp [selfApproval, k]

/-! Tamper and life cycle -/

def quiet : Reading := ⟨0, 0, 3000, false, 25, 0, 0, 0, 0, 0, 0, 0, 0⟩
/-- Sources 4 and 11 are armed with K = 1; each has these events. Source 4 answers with ZEROISE_ALL, source 11 with LOG and EVENT. -/
def tampering (events : List Nat) : State :=
  let s := ((((up.setNum Key.TMP_ARM (2 ^ 4 + 2 ^ 11)).setNum (Key.TMP_SRC_K 4) 1).setNum (Key.TMP_SRC_K 11) 1).setNum (Key.TMP_SRC_RESPONSE 4) 0x47).setNum (Key.TMP_SRC_RESPONSE 11) 3
  { s with tamper := { s.tamper with sources := [(4, ⟨events, true⟩), (11, ⟨events, false⟩)] } }
def standby : State := { up with rst := { up.rst with power := .standby } }
def onBattery (s : State) : State := { s with rst := { s.rst with power := .battery } }

theorem witness_TamperSampledAlarmedAndAnswered :
    (onBattery up).rst.power = .battery ∧ SMap.wf TamperSrc.reset (tampering [5]).tamper.sources = true ∧
    ((tampering [5]).tamperCondition { quiet with meshDiffers := 8 } 3 = true ∧ (tampering [5]).tamperCondition quiet 3 = false ∧ (tampering [5]).tamperArmed 4 = true ∧
      (tampering [5]).tamperArmed 3 = false) ∧
    ((tampering []).tamperK 4 ≤ 1 ∧ ((tampering []).tmpSrc 4).events = [] ∧ ((tampering []).tmpSrc 4).events.length < (tampering []).tamperK 4) ∧
    ((tampering [5]).tamperK 4 ≤ ((tampering [5]).tmpSrc 4).events.length ∧ ((tampering [5]).tmpSrc 4).events ≠ [] ∧ (tampering [5]).rst.power = .run ∧
      bitOf ((tampering [5]).tamperSet 4) 6 = true ∧ (tampering [5]).tamperK 11 ≤ ((tampering [5]).tmpSrc 11).events.length) ∧
    ((onBattery (tampering [5])).tamperArmed 4 = true ∧ (onBattery (tampering [5])).tamperK 4 ≤ ((onBattery (tampering [5])).tmpSrc 4).events.length) ∧
    up.tamper.alarms = [] ∧
    (let s := { tampering [] with tamper := { (tampering []).tamper with alarms := [(4, 0x47)] } }
     s.tamper.alarms ≠ [] ∧ s.rst.power ≠ .battery ∧ s.rst.power ≠ .held ∧ bitOf (s.tamper.alarms.foldl (fun a x => a ||| x.2) 0) 6 = true) ∧
    (let s := { tampering [] with tamper := { (tampering []).tamper with alarms := [(11, 3)] } }
     s.tamper.alarms ≠ [] ∧ bitOf (s.tamper.alarms.foldl (fun a x => a ||| x.2) 0) 5 = false ∧ bitOf (s.tamper.alarms.foldl (fun a x => a ||| x.2) 0) 6 = false) ∧
    (up.tamper.batSample ≠ some up.tamper.sampleBattery ∧ standby.rst.power = .standby) ∧
    (up.rst.power ≠ .battery ∧ up.rst.railsDown = []) ∧
    ({ up with rst := { up.rst with railsDown := [.core] } } : State).rst.railsDown ≠ [] := by
  refine ⟨?_, ?_, ?_, ?_, ?_, ?_, ?_, ?_, ?_, ?_, ?_, ?_⟩ <;> decide +kernel

def withLife (f : LifeCycle → LifeCycle) (s : State) : State := { s with life := f s.life }

theorem witness_AuthorisedTransitionLapses :
    (let s := withLife (fun l => { l with authorised := some (2, 2), certState := 3, grantEnds := 10 }) { up with rst := { up.rst with seconds := 10 } }
     s.life.authorised.isSome = true ∧ s.life.transition = none ∧ s.life.grantEnds ≤ s.rst.seconds ∧ { s with rst := { s.rst with seconds := 9 } }.rst.seconds < s.life.grantEnds) ∧
    up.life.authorised = none ∧
    ((2 : Nat) ≤ 2 ∧ up.rst.starting ≤ 2 ∧ up.rst.power ≠ .held) ∧ (up.live = true ∧ up.lifeCycle ≠ 2) := by decide +kernel

/-- Transition `n` to `target` runs, with these marks. -/
def moving (n target : Nat) (m : Marks) : State := (withLife (fun l => { l with transition := some (n, target) }) up).setMarks n m

theorem witness_TransitionsGrantsAndCertificates :
    up.life.transition = none ∧ (onBattery (moving 2 2 Marks.reset)).rst.power ≠ .run ∧
    (let s := (moving 2 2 Marks.reset).setNum Key.OFC_ENROLMENT_OPEN 0
     s.life.transition = some (2, 2) ∧ s.rst.power = .run ∧ (s.marks 2).hasBegun = false ∧ transitionOf s.lifeCycle 2 = some 2 ∧ s.transitionAllowed 2 = true) ∧
    (moving 2 2 Marks.reset).transitionAllowed 2 = false ∧
    (((moving 4 15 ⟨15, 0, 0, 0⟩).marks 4).hasBegun = true ∧ ((moving 4 15 ⟨15, 0, 0, 0⟩).marks 4).isWiped = false ∧ ((moving 4 15 ⟨15, 0, 0, 0⟩).marks 4).isProvisioned = false) ∧
    (((moving 1 1 ⟨15, 15, 0, 0⟩).marks 1).isWiped = true ∧ ((moving 1 1 ⟨15, 15, 0, 0⟩).marks 1).isProvisioned = false) ∧
    (((moving 3 3 ⟨15, 15, 15, 0⟩).marks 3).isProvisioned = true) ∧
    (let s := withLife (fun l => { l with challenge := some ([], 5) }) { up with rst := { up.rst with seconds := 86405 } }
     s.life.challenge = some ([], 5) ∧ 5 + 86400 ≤ s.rst.seconds ∧ { s with rst := { s.rst with seconds := 86404 } }.rst.seconds < 5 + 86400) ∧
    (let s := withLife (fun l => { l with granted := true, grantRights := 8, grantEnds := 0 }) up
     s.life.granted = true ∧ s.life.grantEnds ≤ s.rst.seconds ∧ bitOf s.life.grantRights 3 = true) ∧
    up.life.granted = false ∧
    (let s := withLife (fun l => { l with certState := 1 }) up
     s.life.certState = 1 ∧ s.life.verdict = none) ∧
    up.life.certState ≠ 1 := by
  refine ⟨?_, ?_, ?_, ?_, ?_, ?_, ?_, ?_, ?_, ?_, ?_, ?_⟩ <;> decide +kernel

/-! Resets, starts, the window -/

theorem witness_ResetSourcesHoldTheUnit :
    (up.rst.power = .run ∧ up.rst.starting ≤ 1 ∧ up.host.linkUp = true) ∧ standby.rst.power = .standby ∧ ((held 1).rst.power = .held ∧ 1 ≤ (held 1).rst.reach) ∧
    (onBattery up).rst.power = .battery ∧ State.reset.host.linkUp = false ∧ up.rst.resetNLow = false ∧
    (let s := { held 2 with rst := { (held 2).rst with resetNLow := true } }
     s.rst.resetNLow = true ∧ s.rst.power ≠ .battery ∧ s.rst.reach ≤ 3 ∧ s.rst.starting ≤ 3) ∧
    (let s := { held 3 with rst := { (held 3).rst with railsDown := [.lane] } }
     s.rst.power ≠ .battery ∧ s.rst.railsDown ≠ []) ∧
    (up.rst.railsDown = [] ∧ up.rst.reach ≤ 3 ∧ up.rst.starting ≤ 3 ∧ (∀ x ∈ up.tamper.alarms, x.1 ≤ 10 → bitOf x.2 6 = false)) ∧
    ((∀ o ∈ up.chain.own, o.applyAt = none) ∧ up.vault.coming = none ∧ (withVault (fun v => { v with coming := some ⟨[], Root.none, [], []⟩ }) up).vault.coming.isSome = true) ∧ ((held 3).rst.power = .held ∧ (held 3).rst.reach = 3 ∧ ∀ r : Rail, r ∈ [Rail.v3v3, .io, .serdes1v2, .sram, .core, .serdes0v9, .lane]) := by
  refine ⟨by decide, by decide, by decide, by decide, by decide, by decide, by decide, by decide, by decide, by decide, by decide, by decide, fun r => by cases r <;> decide⟩

/-- A boot flash with a good image in both slots; its key hash is the one that the unit trusts. -/
def goodImage : ImageInfo := ⟨fit 32 Config.vendorHash, true, [], []⟩
def badImage : ImageInfo := ⟨[], false, [], []⟩
def scrappedFuses (s : State) : State := withLife (fun l => { l with fuses := { l.fuses with m4 := ⟨15, 15, 15, 15⟩ } }) s

theorem witness_StartsLeadToService :
    (State.reset.rst.power = .held ∧ State.reset.rst.reach = 3 ∧ State.reset.rst.railsDown = [] ∧ State.reset.rst.testMode = false ∧ State.reset.rst.scrapped = false ∧ State.reset.lifeCycle ≠ 4 ∧
      State.reset.begunTransition = none) ∧
    imageOk goodImage = true ∧ imageOk badImage = false ∧ (scrappedFuses State.reset).lifeCycle = 4 ∧
    ((held 2).rst.reach = 2 ∧ (held 2).rst.scrapped = false ∧ (held 2).begunTransition = none) ∧
    ((held 1).rst.reach = 1 ∧ (held 1).rst.fromStandby = false ∧ Memory.wf (held 1).rest (held 1).wm = true) ∧ up.rst.power ≠ .held ∧
    (let s := { up with sched := { up.sched with idleFrames := up.num Key.RST_IDLE_FRAMES } }
     s.rst.power = .run ∧ s.num Key.RST_IDLE_FRAMES ≤ s.sched.idleFrames) ∧
    up.sched.idleFrames < up.num Key.RST_IDLE_FRAMES := by
  refine ⟨by decide +kernel, by simp [imageOk, goodImage], by simp [imageOk, badImage], by decide +kernel, by decide +kernel, by decide +kernel, by decide, by decide +kernel,
    by decide +kernel⟩

theorem witness_WindowAppliesAndPeriodSwitches :
    State.reset.noTick = true ∧ up.noTick = false ∧ (held 2).noTick = false ∧ ((held 2).rst.power = .held ∧ (held 2).rst.reach = 2) ∧
    (let s := { up with keeper := { up.keeper with blocks := [] }, dict := { up.dict with acked := [(0x120001, .num 3)] } }
     s.rst.power = .run ∧ s.rst.scrapped = false ∧ s.rst.starting = 0 ∧ s.jobs = [] ∧ s.slices = [] ∧ s.keeper.blocks = [] ∧ s.tamper.respond = [] ∧ s.dict.pendingWrites = [] ∧ s.inbox = [] ∧
      s.keeper.guardOn = true ∧ s.vault.group = [] ∧ s.keys.heartsLost = [] ∧ s.ent.reseedTest = none ∧ s.host.tunnel.ownDue = [] ∧
      s.dict.acked = [(0x120001, .num 3)] ∧ 0x120001 / 256 = 0x1200) ∧
    up.switchArmed = false ∧
    (let s := (up.setNum Key.SEI_PERIOD_NEXT 2)
     s.switchArmed = true ∧ s.num Key.SEI_SWITCH_TICK ≤ s.tick ∧ s.jobs = [] ∧ s.chk = []) ∧
    (let s := (up.setNum Key.SEI_PERIOD_NEXT 2).setNum Key.SEI_SWITCH_TICK 1
     s.tick < s.num Key.SEI_SWITCH_TICK) := by
  refine ⟨?_, ?_, ?_, ?_, ?_, ?_, ?_, ?_⟩ <;> decide +kernel

theorem witness_WorkingMemoryReadsBack :
    Memory.wf up.rest up.wm = true ∧ (1 : Nat) ≠ 0 ∧ (0 : Nat) < [(7 : Byte)].length ∧ (4 : Nat) < 5 ∧ 5 + [(7 : Byte)].length ≤ 6 ∧ 4 * 0 + 4 ≤ 5 ∧ 5 + [(7 : Byte)].length ≤ 4 * 2 := by decide

/-! ## Single steps and computations against the spec's own figures -/

/-- Table 17.1: CRC-32C over 123456789. -/
theorem test_crc32c : crcResult 32 (crcBytes 32 0x1EDC6F41 true 0xFFFFFFFF (ascii "123456789")) true true = 0xE3069283 := by decide +kernel
/-- Table 17.1: CRC-64 over 123456789. -/
theorem test_crc64 : crcResult 64 (crcBytes 64 0x42F0E1EBA9EA3693 true 0xFFFFFFFFFFFFFFFF (ascii "123456789")) true true = 0x995DC9BBDF1939FA := by decide +kernel

/-- The example under R114: C = 384, and 256 with SLC_SHARE_PK lowered to 16. -/
theorem test_credit_ceiling :
    let s := ((up.setNum (Key.SLC_SHARE_PK 5) 48).setNum (Key.SLC_SHARE_SYM 5) 16).setNum (Key.SLC_WEIGHT 5) 4
    s.creditCeiling 5 = 384 ∧ (s.setNum (Key.SLC_SHARE_PK 5) 16).creditCeiling 5 = 256 := by decide +kernel

/-- Table 3.11: indices of a 16-entry ring. -/
theorem test_ring_indices : ringDist 4 30 11 = 13 ∧ ringDist 4 28 11 = 15 := by decide

/-- Table 13.5, unit 2: markers after 5 ns and 195 ns and a round trip of 380 ns give the delays 5 ns and 195 ns. -/
theorem test_hop_delay :
    let s := withChain (fun c => { c with arrival0 := some 5000, arrival1 := some 195000, roundTrip := 380000 }) up
    s.measure.num Key.CHN_DELAY_0 = 5 ∧ s.measure.num Key.CHN_DELAY_1 = 195 := by decide +kernel
/-- Table 13.5, unit 3: after 190 ns and 10 ns. -/
theorem test_hop_delay_far :
    (withChain (fun c => { c with arrival0 := some 190000, arrival1 := some 10000, roundTrip := 380000 }) up).measure.num Key.CHN_DELAY_0 = 190 := by decide +kernel

/-- R1: the bytes of a word of working memory are little-endian; a store over a word's border gives both words its colour. -/
theorem test_store_order :
    let s := up.wmStore 3 0x200003 [0xAA, 0xBB]
    s.word 0x80000 = ⟨3, 0xAA000000⟩ ∧ s.word 0x80001 = ⟨3, 0xBB⟩ := by decide +kernel

/-- R309: 0x5A, then 0xA5, refreshes; 0x5A alone does not. -/
theorem test_swdt_refresh :
    let s := { up with keeper := { up.keeper with swdtUs := 77 } }
    (∃ t, exec (.swdtRefresh 0x5A) s = .next t ∧ t.keeper.swdtUs = 77 ∧ t.keeper.swdtLast = 0x5A) ∧
    ∃ t, exec (.swdtRefresh 0xA5) { s with keeper := { s.keeper with swdtLast := 0x5A } } = .next t ∧ t.keeper.swdtUs = 0 := ⟨⟨_, rfl, rfl, rfl⟩, ⟨_, rfl, rfl⟩⟩

/-- Table 3.9: the code of a refused RING_ENABLE shows at the tick after the one that observes it. -/
theorem test_ring_enable_refused :
    (let t := (withRing { RingPair.reset with enableWritten := some true } up).enableSample 0
     (t.ring 0).errorDue = some (1, 4) ∧ (t.ring 0).enabled = false) := by decide +kernel

/-- R25: a tick of a unit that serves advances the tick number by 1, and wraps at 64 bits. -/
theorem test_tick_advances : ∃ t, exec .tick { up with tick := 2 ^ 64 - 1, window := true } = .next t ∧ t.tick = 0 ∧ t.window = false :=
  ⟨_, rfl, by decide +kernel, by decide +kernel⟩

/-- R264, R247: the only drive of the mirror goes, and the group in phase 1 with it. -/
theorem test_last_drive_goes : ((leaving Drive.reset).portTick 1).vault.group = [] ∧ (((leaving Drive.reset).portTick 1).drive 1).state = .absent := by decide +kernel

/-- R426: PERST_N while a WARM reset is held leaves its bit alone. -/
theorem test_perst_in_warm : ∃ t, exec .perstNAssert (held 2) = .next t ∧ t.rst.causes = 0x10001 ∧ t.rst.reach = 2 := ⟨_, rfl, by decide +kernel, by decide +kernel⟩

/-- R375: a condition of an armed source is one event of its count. -/
theorem test_tamper_event :
    ∃ t, exec (.tamperSample true { quiet with enclosure := 0 }) (tampering [5]) = .next t ∧ (t.tmpSrc 4).condition = (tampering [5]).tamperCondition quiet 4 := ⟨_, rfl, by decide +kernel⟩

/-- R301: a debug read of a locked region answers the poison word. -/
theorem test_debug_poison : ∃ t, exec (.debugMasterAccess false 0x20000 0 true) (debugging 15) = .next t ∧ t.sent = [.debug 0xDEADC0DE] := ⟨_, rfl, by decide +kernel⟩
/-- R299: the shipped regions do not overlap, and region 6 inside region 5 does. -/
theorem test_overlap : overlapOf Region.shipped = none ∧ overlapOf overlapping = some (5, 6) := by decide +kernel

end Sys2Proof.Tests
end

section
/-! # What moves the tick number (R4, R25, R331)

A row of the table either performs an operation of Table 4.8, writes one entry of the dictionary, brings a message to its block,
or is an event of its own. The first three are each one shared operation, for which `Laws/Kept` says once that the tick number stays. -/

namespace Sys2Proof.Machine

/-! ## What a row runs -/

/-- A row of Table 4.8 performs some operation on the job it names. -/
theorem exec_of_engineRow {c : Instr} {op id : Nat} (h : engineRow c = some (op, id)) (s : State) :
    ∃ f, exec c s = .next (s.perform op id f) := by
  cases c
  all_goals cases h
  all_goals exact ⟨_, rfl⟩

/-- An enrolment that is one plain write of its entry: the new key's approval is no matter, or comes with it (R365). -/
theorem execOfcAlgorithm_of_dictRow {role : Role} {officer value : Nat} {selfApproved : Bool} {named : Bool} {r : Role} {key : Nat} {v : DVal}
    (h : dictRow (.ofcAlgorithm role officer value selfApproved) = some (named, r, key, v)) (s : State) :
    execOfcAlgorithm role officer value selfApproved s = .next (s.rowWrite named r key v) := by
  simp only [dictRow, Option.ite_none_right_eq_some, Option.some.injEq, Prod.mk.injEq] at h
  obtain ⟨plain, rfl, rfl, rfl, rfl⟩ := h
  rw [execOfcAlgorithm, if_neg]
  intro enrols
  simp only [Bool.and_eq_true, decide_eq_true_eq, bne_iff_ne, Bool.not_eq_true'] at enrols
  obtain ⟨⟨⟨⟨-, hrole⟩, hofficer⟩, hvalue⟩, hself⟩ := enrols
  rcases plain with h | h | h | h
  · omega
  · exact h hrole
  · exact hvalue h
  · simp [hself] at h

/-- A row that names one write of a dictionary entry makes that write. -/
theorem exec_of_dictRow {c : Instr} {named : Bool} {role : Role} {key : Nat} {v : DVal} (h : dictRow c = some (named, role, key, v)) (s : State) :
    exec c s = .next (s.rowWrite named role key v) := by
  cases c
  case ofcAlgorithm => exact execOfcAlgorithm_of_dictRow h s
  all_goals cases h
  all_goals rfl

/-! ## Outcomes that keep the tick number -/

/-- Where a command completes, the tick number is as it was. -/
def KeepsTick (s : State) (r : Res) : Prop := ∀ t, r = .next t → t.tick = s.tick

@[simp] theorem keepsTick_next {s t : State} : KeepsTick s (.next t) ↔ t.tick = s.tick := by simp [KeepsTick]

@[simp] theorem keepsTick_fault {s : State} {f : Fault} : KeepsTick s (.fault f) := by simp [KeepsTick]

@[simp] theorem keepsTick_ite {s : State} {p : Prop} [Decidable p] {a b : Res} :
    KeepsTick s (if p then a else b) ↔ if p then KeepsTick s a else KeepsTick s b := by split <;> rfl

theorem keepsTick_of_engineRow {c : Instr} {r : Nat × Nat} (h : engineRow c = some r) (s : State) : KeepsTick s (exec c s) := by
  obtain ⟨f, hf⟩ := exec_of_engineRow h s
  simp [hf]

theorem keepsTick_of_dictRow {c : Instr} {r : Bool × Role × Nat × DVal} (h : dictRow c = some r) (s : State) : KeepsTick s (exec c s) := by
  simp [exec_of_dictRow h s]

/-- A message that step 4 of the window hands to its block (R25, R357) acts there as its own row does. -/
theorem keepsTick_of_handOne {c : Instr} {s : State} (h : ∀ t, exec c s = .next t → s.handOne c = t) : KeepsTick s (exec c s) := by
  intro t ht
  rw [← h t ht]
  exact (State.handOne_kept s c).2.1

/-! ## Commands that look something up first -/

theorem execReadTimeout_keepsTick (job : Nat) (what : ReadKind) (s : State) : KeepsTick s (execReadTimeout job what s) := by
  unfold execReadTimeout
  split <;> simp

theorem execEntropyWaitExpiry_keepsTick (job : Nat) (s : State) : KeepsTick s (execEntropyWaitExpiry job s) := by
  unfold execEntropyWaitExpiry
  split
  · split <;> simp
  · simp

theorem execReplicationTimeout_keepsTick (seq : Nat) (s : State) : KeepsTick s (execReplicationTimeout seq s) := by
  unfold execReplicationTimeout
  split <;> simp

theorem execReplQueryDue_keepsTick (writer seq : Nat) (s : State) : KeepsTick s (execReplQueryDue writer seq s) := by
  unfold execReplQueryDue
  split
  · simp
  · split <;> simp

theorem execReplDecision_keepsTick (writer seq : Nat) (s : State) : KeepsTick s (execReplDecision writer seq s) := by
  unfold execReplDecision
  split
  · split <;> simp
  · split
    · split <;> simp
    · simp

theorem execQuorumWriteExpiry_keepsTick (challenge : Bytes) (s : State) : KeepsTick s (execQuorumWriteExpiry challenge s) := by
  unfold execQuorumWriteExpiry
  split <;> simp

/-- By the word's owner, then by its colour (R292). -/
theorem execWmUncorrectable_keepsTick (word : Nat) (s : State) : KeepsTick s (execWmUncorrectable word s) := by
  unfold execWmUncorrectable
  split
  · simp
  · dsimp only
    split
    · simp
    · split <;> simp

theorem execFifoUncorrectable_keepsTick (fifo : Nat) (content : FifoContent) (s : State) : KeepsTick s (execFifoUncorrectable fifo content s) := by
  cases content <;> simp [execFifoUncorrectable]

theorem execKeeperCallServe_keepsTick (result : Bytes) (s : State) : KeepsTick s (execKeeperCallServe result s) := by
  unfold execKeeperCallServe
  split
  · simp
  · dsimp only
    split <;> simp

theorem execLaneGateDrained_keepsTick (block : Nat) (s : State) : KeepsTick s (execLaneGateDrained block s) := by
  unfold execLaneGateDrained
  dsimp only
  split <;> simp

theorem execVaultCmdError_keepsTick (port : Nat) (readPage : Option Nat) (s : State) : KeepsTick s (execVaultCmdError port readPage s) := by
  unfold execVaultCmdError
  split
  · simp
  · split
    · split <;> simp
    · simp

theorem execFormatDone_keepsTick (s : State) : KeepsTick s (execFormatDone s) := by
  unfold execFormatDone
  split <;> simp

/-- By the direction of the transfer; a SAVE also takes back its replicated tag (R127, R129). -/
theorem execMigrationTimeout_keepsTick (slice : Nat) (s : State) : KeepsTick s (execMigrationTimeout slice s) := by
  unfold execMigrationTimeout
  dsimp only
  split
  · simp
  · split
    · simp only [keepsTick_next, State.updSlice_kept]
      split <;> split <;> simp
    · simp
    · simp

/-- By the supply: the battery alone, STANDBY, or any other (R375, R376, R383). -/
theorem execTamperAlarm_keepsTick (source : Nat) (s : State) : KeepsTick s (execTamperAlarm source s) := by
  unfold execTamperAlarm
  dsimp only
  split
  · simp
  · split <;> simp

theorem execTransitionStep_keepsTick (s : State) : KeepsTick s (execTransitionStep s) := by
  unfold execTransitionStep
  split <;> simp

theorem execLcsChallengeExpiry_keepsTick (s : State) : KeepsTick s (execLcsChallengeExpiry s) := by
  unfold execLcsChallengeExpiry
  split <;> simp

/-! ## Every command -/

/-- By the kind of row, the events in the order of the spec's chapters. -/
theorem exec_keepsTick {c : Instr} (h : movesTick c = false) (s : State) : KeepsTick s (exec c s) := by
  cases c
  case tick | chainTickMarker | coldStart => cases h
  -- the rows of Table 4.8
  case ecdsaSign | ecdsaVerify | eddsaSign | eddsaVerify | ecKeygen | ecdhDerive | rsaSignPss | rsaSignPkcs1 | rsaVerify |
      rsaDecryptOaep | rsaEncryptOaep | rsaKeygen | mlkemKeygen | mlkemEncaps | mlkemDecaps | mldsaKeygen | mldsaSign |
      mldsaVerify | pairedSign | pairedVerify | aeadSeal | aeadOpen | cipherEncrypt | cipherDecrypt | macGenerate | macVerify |
      hash | kdfDerive | fpeEncrypt | fpeDecrypt | pinTranslate | pinVerify | dukptDerive | keyblockImport | keyblockExport |
      lockerCodeIssue | lockerCodeCheck | lockerTokenSign | keyGenerate | keyImportWrapped | keyExportWrapped | keyPin |
      keyUnpin | keyDestroy | keyQuery | attestKey | recordSeal | recordOpen | counterIncrement | objectRepair | randomBytes =>
    exact keepsTick_of_engineRow rfl s
  -- the writes of a dictionary entry; an enrolment may also wait for its approval
  case pkeUnfence | pkeSpareCount | pkeLatUnfence | symUnfence | vltFormat | vltRootSelect | vltPortOfflineSet |
      vltPortOfflineClear | seiPeriodNext | seiSwitchTick | slcPasid | slcShareWrite | freeze | freezeNow | thaw | save |
      restore | rngSlice | hstMsixMap | hrtOwner | hrtInvalidate | hrtRetire | chnK | chnDomainFound | chnDomainJoin |
      chnDomainConfirm | chnMemberRemove | tmpClear | tmpLockClear | lcsTransition | lcsChallengeDraw | lcsCertApply |
      lcsGrantEnd | lcsTrimSelect | chkStart | chkContinue | chkSuspend | silClearCircular | rstResetRequest | standbyEnter |
      standbyExit | gateRequest | ungateRequest =>
    exact keepsTick_of_dictRow rfl s
  case ofcAlgorithm => simp [exec, execOfcAlgorithm]
  -- the messages of step 4
  case hello | dictRead | dictWrite | dictReply | challengeRequest | approval | replicate | replAck | replCommit | replRollback |
      replQuery | replState | migConsume | migReply | attestOffer | attestAnswer | domainKey | heartTransfer | objectTransfer |
      transferEnd =>
    refine keepsTick_of_handOne fun t ht => ?_
    simp only [exec] at ht
    simp only [State.handOne, ht]
  -- the frame
  case housekeepingWindow | periodSwitch => simp [exec, execHousekeepingWindow, execPeriodSwitch]
  -- the host link and its rings
  case sqTailWrite | cqHeadWrite | ringEnable | ringDisable | barRegisterWrite | outGo | inFullClear | msixUnmask | pasidEnable |
      hostLinkRetrain =>
    simp [exec, execSqTailWrite, execCqHeadWrite, execRingEnable, execRingDisable, execBarRegisterWrite, execOutGo,
      execInFullClear, execMsixUnmask, execPasidEnable, execHostLinkRetrain]
  case fifoUncorrectable => exact execFifoUncorrectable_keepsTick _ _ s
  -- jobs and slices
  case abortIndexWrite | dmaReadComplete | slcReset | sliceResetDone | migrationTimeout | freezeDrained =>
    simp [exec, execAbortIndexWrite, execDmaReadComplete, execSlcReset, execSliceResetDone, execMigrationTimeout_keepsTick,
      execFreezeDrained]
  case readTimeout => exact execReadTimeout_keepsTick _ _ s
  case entropyWaitExpiry => exact execEntropyWaitExpiry_keepsTick _ s
  -- faults of lanes, lattice clusters and register pages
  case laneFault | comingSpareSettle | spareTestDue | spareTestEnd | unfenceTestEnd | sharedUnitFault | latUnfenceTestEnd |
      symLaneFault | symUnfenceTestEnd | registerPageWipe =>
    simp [exec, execLaneFault, execComingSpareSettle, execSpareTestDue, execSpareTestEnd, execUnfenceTestEnd,
      execSharedUnitFault, execLatUnfenceTestEnd, execSymLaneFault, execSymUnfenceTestEnd, execRegisterPageWipe]
  -- the vault
  case vaultReadComplete | commitGroupOpen | commitPhase2 | driveLinkUp | driveLinkDown | vaultCmdTimeout | smartPoll |
      resilverDone | sweepPassEnd | scrubPassEnd =>
    simp [exec, execVaultReadComplete, execCommitGroupOpen, execCommitPhase2, execDriveLinkUp, execDriveLinkDown,
      execVaultCmdTimeout, execSmartPoll, execResilverDone, execSweepPassEnd, execScrubPassEnd]
  case vaultCmdError => exact execVaultCmdError_keepsTick _ _ s
  case formatDone => exact execFormatDone_keepsTick s
  -- entropy
  case wspBlock | wspDeclaredFailed | wspSettled | reseedDue | drbgRequestLimit | rawSampleTapOpen =>
    simp [exec, execWspBlock, execWspDeclaredFailed, execWspSettled, execReseedDue, execDrbgRequestLimit, execRawSampleTapOpen]
  -- the Keeper: memory faults, the gateway, the guard, debug, hand-over, watchdogs
  case wmUncorrectable => exact execWmUncorrectable_keepsTick _ s
  case keyCacheUncorrectable | heartTableUncorrectable | keeperSramUncorrectable | colourFault | gatewayCall |
      gatewayFaultLimit | weirInvalidate | guardDisable | guardEnable | guardHoldLimit =>
    simp [exec, execKeyCacheUncorrectable, execHeartTableUncorrectable, execKeeperSramUncorrectable, execColourFault,
      execGatewayCall, execGatewayFaultLimit, execWeirInvalidate, execGuardDisable, execGuardEnable, execGuardHoldLimit]
  case keeperCallServe => exact execKeeperCallServe_keepsTick _ s
  case debugMasterAccess | debugHalt | debugResume | keeperHandoverRequest | keeperHandoverRelease | normalHandoverRequest |
      swdtRefresh | swdtExpiry | nwdtCheckin | nwdtExpiry =>
    simp [exec, execDebugMasterAccess, execDebugHalt, execDebugResume, execKeeperHandoverRequest, execKeeperHandoverRelease,
      execNormalHandoverRequest, execSwdtRefresh, execSwdtExpiry, execNwdtCheckin, execNwdtExpiry]
  case laneGateDrained => exact execLaneGateDrained_keepsTick _ s
  -- the chain, replication and joining
  case chainUp | portBroken | loopbackRestore | holdoverEntry | rollCall | fillCall | memberUnreachable | fragmentTimeout |
      joinTimeout | challengeExpiry =>
    simp [exec, execChainUp, execPortBroken, execLoopbackRestore, execHoldoverEntry, execRollCall, execFillCall,
      execMemberUnreachable, execFragmentTimeout, execJoinTimeout, execChallengeExpiry]
  case replicationTimeout => exact execReplicationTimeout_keepsTick _ s
  case replQueryDue => exact execReplQueryDue_keepsTick _ _ s
  case replDecision => exact execReplDecision_keepsTick _ _ s
  case quorumWriteExpiry => exact execQuorumWriteExpiry_keepsTick _ s
  -- tamper and life cycle
  case tamperResponse | batteryRemoval | tamperSample | transitionLapse | certCheckEnd | grantExpiry =>
    simp [exec, execTamperResponse, execBatteryRemoval, execTamperSample, execTransitionLapse, execCertCheckEnd, execGrantExpiry]
  case tamperAlarm => exact execTamperAlarm_keepsTick _ s
  case transitionStep => exact execTransitionStep_keepsTick s
  case lcsChallengeExpiry => exact execLcsChallengeExpiry_keepsTick s
  -- check values, resets and power
  case chkScanEnd | idleEntry | powerOn | brownOut | resetNLow | resetNLong | perstNAssert | pcieHotReset | pcieLinkDown |
      functionLevelReset | warmStart | functionStart =>
    simp [exec, execChkScanEnd, execIdleEntry, execPowerOn, execBrownOut, execResetNLow, execResetNLong, execPerstNAssert,
      execPcieHotReset, execPcieLinkDown, execFunctionLevelReset, execWarmStart, execFunctionStart]

/-! ## The tick -/

/-- A tick that is not held back ends the frame (R25). -/
theorem exec_tick_of_not_noTick {s : State} (h : s.noTick = false) :
    ∃ t, exec .tick s = .next t ∧ t.tick = (s.tick + 1) % 2 ^ 64 ∧ t.window = false ∧ t.life.fuses = s.life.fuses ∧ t.pending = s.pending :=
  have ⟨pending, fuses⟩ := s.tickOnce_kept
  ⟨s.tickOnce, rfl, s.tickOnce_tick h, s.tickOnce_window h, fuses, pending⟩

/-- A tick that a reset, the battery or SCRAP holds back changes nothing. -/
theorem exec_tick_of_noTick {s : State} (h : s.noTick = true) : exec .tick s = .next s := by
  simp [exec, execTick, State.tickOnce, h]

/-- Settles O4: every row but the three of `movesTick` keeps the tick number, by the kind of row; the tick itself by what `State.tickOnce` does. -/
theorem tickNumberMovesOnlyAtTicks : Obligations.TickNumberMovesOnlyAtTicks := by
  unfold Obligations.TickNumberMovesOnlyAtTicks
  exact ⟨fun _ s t h => exec_keepsTick h s t, fun _ => ⟨exec_tick_of_not_noTick, exec_tick_of_noTick⟩⟩

end Sys2Proof.Machine
end

section
/-! # Uncorrectable errors of the key cache, the heart table and the Keeper's memory (R12, R220, R221, R308)

A heart whose entry failed is only marked by the command; the window reloads it (`State.reloadHearts`). The rules of the heart table come first, then what one reload does, then the three commands. -/

namespace Sys2Proof.Machine

/-! ## The heart table -/

theorem State.heart_setHeart (s : State) (n : Nat) (x : Heart) (h : SMap.wf Heart.reset s.keys.hearts = true) : (s.setHeart n x).heart n = x :=
  SMap.get_set _ _ _ _ h

theorem State.heart_setHeart_ne (s : State) {n g : Nat} (x : Heart) (h : g ≠ n) : (s.setHeart n x).heart g = s.heart g :=
  SMap.get_set_ne _ _ _ _ _ _ h

@[simp] theorem State.setHeart_heartsLost (s : State) (n : Nat) (x : Heart) : (s.setHeart n x).keys.heartsLost = s.keys.heartsLost := rfl
@[simp] theorem State.setHeart_images (s : State) (n : Nat) (x : Heart) : (s.setHeart n x).keys.images = s.keys.images := rfl
@[simp] theorem State.heart_setImage (s : State) (n g : Nat) (i : Option HeartImage) : (s.setImage n i).heart g = s.heart g := rfl
@[simp] theorem State.setImage_heartsLost (s : State) (n : Nat) (i : Option HeartImage) : (s.setImage n i).keys.heartsLost = s.keys.heartsLost := rfl
@[simp] theorem State.heart_eventOf (s : State) (rule g : Nat) : (s.eventOf rule).heart g = s.heart g := rfl

theorem State.heart_putHeart_ne (s : State) {n g : Nat} (x : Heart) (h : g ≠ n) : (s.putHeart n x).heart g = s.heart g := by
  unfold State.putHeart
  dsimp only
  split <;> simp [State.heart_setHeart_ne, h]

@[simp] theorem State.putHeart_heartsLost (s : State) (n : Nat) (x : Heart) : (s.putHeart n x).keys.heartsLost = s.keys.heartsLost := by
  unfold State.putHeart
  dsimp only
  split <;> simp

theorem State.heart_heartFails_ne (s : State) {n g : Nat} (i : HeartImage) (h : g ≠ n) : (s.heartFails n i).heart g = s.heart g := by
  simp [State.heartFails, State.heart_putHeart_ne, State.heart_setHeart_ne, h]

@[simp] theorem State.heartFails_heartsLost (s : State) (n : Nat) (i : HeartImage) : (s.heartFails n i).keys.heartsLost = s.keys.heartsLost := by
  simp [State.heartFails]

/-! ## The reload of a heart -/

theorem State.reloadHeart_of_noImage {s : State} {n : Nat} (h : s.image n = none) : s.reloadHeart n = s.setHeart n Heart.reset := by
  simp [State.reloadHeart, h]

theorem State.reloadHeart_of_opens {s : State} {n : Nat} {i : HeartImage} {k : Bytes} {x : Heart} (hi : s.image n = some i)
    (hk : s.keys.heartImageKey = some k) (hx : openImage k n i = some x) : s.reloadHeart n = s.setHeart n x := by
  simp [State.reloadHeart, hi, hk, hx]

/-- By the image: there is none, it opens, or it does not (R221). -/
theorem State.heart_reloadHeart_ne (s : State) {n g : Nat} (h : g ≠ n) : (s.reloadHeart n).heart g = s.heart g := by
  unfold State.reloadHeart
  split
  · exact s.heart_setHeart_ne _ h
  · split
    · exact s.heart_setHeart_ne _ h
    · rw [State.heart_eventOf, State.heart_heartFails_ne s _ h]

@[simp] theorem State.reloadHeart_heartsLost (s : State) (n : Nat) : (s.reloadHeart n).keys.heartsLost = s.keys.heartsLost := by
  unfold State.reloadHeart
  split
  · simp
  · split <;> simp

/-- The window forgets which hearts were lost, and reloads them. -/
def State.forgetLost (s : State) : State := { s with keys := { s.keys with heartsLost := [] } }

theorem State.reloadHearts_one {s : State} {n : Nat} (hl : s.keys.heartsLost = [n]) (hd : bitOf s.keeper.debugState 3 = false) :
    s.reloadHearts = s.forgetLost.reloadHeart n := by
  simp [State.reloadHearts, State.forgetLost, hl, hd]

/-! ## Jobs on a lost heart -/

/-- R12: a job on the heart that is not admitted waits one frame. -/
theorem State.waits_mem_delayHeart {s : State} {n : Nat} {j : Job} (hj : j ∈ s.jobs) (ha : j.admitted = none) (hp : j.phase ≠ .staged)
    (hd : j.descDone = true) (hx : ∃ x ∈ j.checkedHandles, hKind x ≤ 1 ∧ hHeart x = n) :
    { j with boundVoid := true, notBefore := s.tick + (if s.window then 3 else 2) } ∈ (s.delayHeart n).jobs :=
  List.mem_map.mpr ⟨j, hj, if_pos ⟨by simp [ha], hp, hd, by simpa using hx⟩⟩

theorem State.kept_mem_delayHeart {s : State} {n : Nat} {j : Job} (hj : j ∈ s.jobs)
    (h : j.admitted.isSome ∨ j.phase = .staged ∨ j.descDone = false ∨ ∀ x ∈ j.checkedHandles, hHeart x ≠ n) : j ∈ (s.delayHeart n).jobs := by
  refine List.mem_map.mpr ⟨j, hj, if_neg ?_⟩
  rintro ⟨ha, hp, hd, hx⟩
  obtain ⟨x, hx, hn⟩ := List.any_eq_true.mp hx
  rcases h with h | h | h | h
  · simp [Option.isNone_iff_eq_none.mp ha] at h
  · exact hp h
  · simp [h] at hd
  · exact h x hx (beq_iff_eq.mp (Bool.and_eq_true_iff.mp hn).2)

/-! ## The commands -/

theorem exec_keyCacheUncorrectable_of_cached {h : Nat} {s : State} (hc : (s.keys.cache.any fun o => o.handle == h) = true) :
    exec (.keyCacheUncorrectable h) s = .next { s with
      keys := { s.keys with
        cache := s.keys.cache.filter (fun o => decide (o.handle ≠ h))
        reload := if s.keys.pins.contains h && !s.keys.reload.contains h then s.keys.reload ++ [h] else s.keys.reload }
      dict := (s.count Key.KEY_CACHE_UE).dict } := by
  simp only [exec, execKeyCacheUncorrectable, if_pos hc]
  rfl

theorem exec_keyCacheUncorrectable_of_not_cached {h : Nat} {s : State} (hc : (s.keys.cache.any fun o => o.handle == h) = false) :
    exec (.keyCacheUncorrectable h) s = .next s := by
  simp [exec, execKeyCacheUncorrectable, hc]

/-- The list of lost hearts with one more, each named once. -/
def loseHeart (n : Nat) (lost : List Nat) : List Nat := if lost.contains n then lost else lost ++ [n]

theorem mem_loseHeart {n g : Nat} {lost : List Nat} : g ∈ loseHeart n lost ↔ g = n ∨ g ∈ lost := by
  unfold loseHeart
  split
  · next h => exact ⟨.inr, fun hg => hg.elim (fun e => e ▸ List.contains_iff_mem.mp h) id⟩
  · simp [or_comm]

theorem exec_heartTableUncorrectable (n : Nat) (s : State) : exec (.heartTableUncorrectable n) s = .next { s with
    keys := { s.keys with heartsLost := loseHeart n s.keys.heartsLost }
    jobs := (s.delayHeart n).jobs } := by
  by_cases h : s.keys.heartsLost.contains n = true
  · rw [loseHeart, if_pos h]
    exact congrArg Host.Outcome.next (if_pos h)
  · rw [loseHeart, if_neg h]
    exact congrArg Host.Outcome.next (if_neg h)

/-! ## The window after the error -/

section Window
variable {s : State} {n : Nat} (hl : s.keys.heartsLost = [n]) (hd : bitOf s.keeper.debugState 3 = false)
include hl hd

theorem State.heart_reloadHearts_of_noImage (hw : SMap.wf Heart.reset s.keys.hearts = true) (hi : s.image n = none) :
    s.reloadHearts.heart n = Heart.reset := by
  rw [State.reloadHearts_one hl hd, State.reloadHeart_of_noImage (s := s.forgetLost) hi]
  exact s.forgetLost.heart_setHeart n _ hw

theorem State.reloadHearts_of_opens (hw : SMap.wf Heart.reset s.keys.hearts = true) {i : HeartImage} {k : Bytes} {x : Heart}
    (hi : s.image n = some i) (hk : s.keys.heartImageKey = some k) (hx : openImage k n i = some x) :
    s.reloadHearts.heart n = x ∧ s.reloadHearts.keys.images = s.keys.images := by
  rw [State.reloadHearts_one hl hd, State.reloadHeart_of_opens (s := s.forgetLost) hi hk hx]
  exact ⟨s.forgetLost.heart_setHeart n x hw, rfl⟩

theorem State.heart_reloadHearts_ne {g : Nat} (h : g ≠ n) : s.reloadHearts.heart g = s.heart g := by
  rw [State.reloadHearts_one hl hd, State.heart_reloadHeart_ne _ h]
  rfl

theorem State.reloadHearts_heartsLost : s.reloadHearts.keys.heartsLost = [] := by
  rw [State.reloadHearts_one hl hd, State.reloadHeart_heartsLost]
  rfl

end Window

/-- A handle that is pinned and was cached is on the list of the pins to be reloaded. -/
theorem mem_reload_of_pinned {h : Nat} {pins reload : List Nat} (hp : pins.contains h = true) :
    h ∈ if pins.contains h && !reload.contains h then reload ++ [h] else reload := by
  simp only [hp, Bool.true_and]
  split
  · simp
  · next hr => simpa using hr

/-- Settles O23: the commands by their equations; the reload of the one lost heart by its image. -/
theorem cacheHeartAndKeeperErrors : Obligations.CacheHeartAndKeeperErrors := by
  unfold Obligations.CacheHeartAndKeeperErrors
  intro h s
  refine ⟨fun hc => ?cached, exec_keyCacheUncorrectable_of_not_cached, ?heart, fun hl hd hw => ?window, rfl⟩
  case cached => exact ⟨_, exec_keyCacheUncorrectable_of_cached hc, rfl, rfl, mem_reload_of_pinned, rfl⟩
  case heart =>
    exact ⟨_, exec_heartTableUncorrectable h s, fun _ => mem_loseHeart, fun _ => State.waits_mem_delayHeart, fun _ => State.kept_mem_delayHeart, rfl⟩
  case window =>
    exact ⟨State.heart_reloadHearts_of_noImage hl hd hw, fun _ _ _ => State.reloadHearts_of_opens hl hd hw,
      fun _ => State.heart_reloadHearts_ne hl hd, State.reloadHearts_heartsLost hl hd⟩

end Sys2Proof.Machine
end

section
/-! # The housekeeping window and the period switch (R25, R50, R352, R357, R420)

A window hands over the messages of its frame, ends what is due, and writes the sillage log. First the messages that wait: in the
window a message acts at once, so no operation that it runs adds to them. Then what the sillage log may touch, and what a window leaves
alone where nothing waits. The switch sets the period and draws up the frame's schedule anew, which in a unit without jobs is all it changes. -/

namespace Sys2Proof.Machine

/-! ## What leaves the waiting messages as they were -/

@[simp] theorem ite_inbox (c : Prop) [Decidable c] (a b : State) :
    (if c then a else b).inbox = if c then a.inbox else b.inbox := apply_ite _ _ _ _

@[simp] theorem foldl_inbox {α : Type} {f : State → α → State} (h : ∀ st x, (f st x).inbox = st.inbox) (l : List α) (s : State) :
    (l.foldl f s).inbox = s.inbox := by
  induction l generalizing s with
  | nil => rfl
  | cons x l ih => rw [List.foldl_cons, ih, h]

/-! ### Shared operations -/

@[simp] theorem State.updRing_inbox (s : State) (n : Nat) (f : RingPair → RingPair) : (s.updRing n f).inbox = s.inbox := by rfl
@[simp] theorem State.updSlice_inbox (s : State) (n : Nat) (f : SliceCtx → SliceCtx) : (s.updSlice n f).inbox = s.inbox := by rfl
@[simp] theorem State.setHeart_inbox (s : State) (n : Nat) (x : Heart) : (s.setHeart n x).inbox = s.inbox := by rfl
@[simp] theorem State.setImage_inbox (s : State) (n : Nat) (x : Option HeartImage) : (s.setImage n x).inbox = s.inbox := by rfl
@[simp] theorem State.setWord_inbox (s : State) (i : Nat) (w : Word36) : (s.setWord i w).inbox = s.inbox := by rfl
@[simp] theorem State.setWords_inbox (s : State) (a : Nat) (l : List Word36) : (s.setWords a l).inbox = s.inbox := by rfl
@[simp] theorem State.setNum_inbox (s : State) (k v : Nat) : (s.setNum k v).inbox = s.inbox := by rfl
@[simp] theorem State.setOct_inbox (s : State) (k : Nat) (v : Bytes) : (s.setOct k v).inbox = s.inbox := by rfl
@[simp] theorem State.count_inbox (s : State) (k n : Nat) : (s.count k n).inbox = s.inbox := by rfl
@[simp] theorem State.event_inbox (s : State) (c : Nat) : (s.event c).inbox = s.inbox := by rfl
@[simp] theorem State.eventSent_inbox (s : State) (c : Nat) : (s.eventSent c).inbox = s.inbox := by rfl
@[simp] theorem State.raise_inbox (s : State) (n : Nat) : (s.raise n).inbox = s.inbox := by rfl
@[simp] theorem State.emit_inbox (s : State) (o : Sent) : (s.emit o).inbox = s.inbox := by rfl
@[simp] theorem State.resetDue_inbox (s : State) (r b : Nat) : (s.resetDue r b).inbox = s.inbox := by rfl
@[simp] theorem State.updJob_inbox (s : State) (id : Nat) (f : Job → Job) : (s.updJob id f).inbox = s.inbox := by rfl
@[simp] theorem State.force_inbox (s : State) (id st r : Nat) : (s.force id st r).inbox = s.inbox := by rfl
@[simp] theorem State.finish_inbox (s : State) (id st r d : Nat) : (s.finish id st r d).inbox = s.inbox := by rfl
@[simp] theorem State.setDrive_inbox (s : State) (p : Nat) (x : Drive) : (s.setDrive p x).inbox = s.inbox := by simp [State.setDrive]
@[simp] theorem State.updDrive_inbox (s : State) (p : Nat) (f : Drive → Drive) : (s.updDrive p f).inbox = s.inbox := by simp [State.updDrive]
@[simp] theorem State.takeNat_inbox (s : State) : s.takeNat.2.inbox = s.inbox := by rfl
@[simp] theorem State.takeBytes_inbox (s : State) (n : Nat) : (s.takeBytes n).2.inbox = s.inbox := by rfl

@[simp] theorem State.guardFault_inbox (s : State) (cause : Nat) (region second master : Option Nat) :
    (s.guardFault cause region second master).inbox = s.inbox := by rfl

@[simp] theorem State.guarded_inbox (s : State) (c : Instr) (f : State → State) (h : ∀ st, (f st).inbox = st.inbox) :
    (s.guarded c f).inbox = s.inbox := by
  unfold State.guarded
  split <;> simp [h]

theorem State.debit_inbox (s : State) (c : Nat) : ∀ t, s.debit c = some t → t.inbox = s.inbox := by simp [State.debit]

/-! ### Slices -/

@[simp] theorem State.abandon_inbox (s : State) (id : Nat) : (s.abandon id).inbox = s.inbox := by rfl
@[simp] theorem State.scrubJob_inbox (s : State) (j : Job) : (s.scrubJob j).inbox = s.inbox := by rfl

/-! ### Pages -/

@[simp] theorem State.setEntry_inbox (s : State) (level index : Nat) (e : TreeEntry) : (s.setEntry level index e).inbox = s.inbox := by rfl

@[simp] theorem State.submit_inbox (s : State) (port : Nat) (told : Bool) (op : NvmeOp) : (s.submit port told op).inbox = s.inbox := by
  unfold State.submit
  split <;> simp

@[simp] theorem State.endWrites_inbox (s : State) : s.endWrites.inbox = s.inbox := by rfl
@[simp] theorem State.endRead_inbox (s : State) (port block : Nat) : (s.endRead port block).inbox = s.inbox := by simp [State.endRead]

/-! ### Reads and writes of the vault -/

@[simp] theorem State.touchNode_inbox (s : State) (level index : Nat) : (s.touchNode level index).inbox = s.inbox := by simp [State.touchNode]
@[simp] theorem State.touchPath_inbox (s : State) (page : Nat) : (s.touchPath page).inbox = s.inbox := by simp [State.touchPath]

/-- By the queue's room, then by the frame's credits. -/
@[simp] theorem State.issueRead_inbox (s : State) (r : VRead) : (s.issueRead r).inbox = s.inbox := by
  unfold State.issueRead
  split
  · rfl
  · split
    · rfl
    · next st paid =>
      split at paid
      · cases paid
        simp
      · simp [State.debit_inbox _ _ _ paid]

@[simp] theorem State.issueReads_inbox (s : State) : s.issueReads.inbox = s.inbox := by simp [State.issueReads]
@[simp] theorem State.addRead_inbox (s : State) (r : VRead) : (s.addRead r).inbox = s.inbox := by simp [State.addRead]

@[simp] theorem State.beginRead_inbox (s : State) (page port : Nat) (prior : Bool) (jobs : List Nat) :
    (s.beginRead page port prior jobs).inbox = s.inbox := by simp [State.beginRead]

@[simp] theorem State.queueVersion_inbox (s : State) (v : Version) : (s.queueVersion v).inbox = s.inbox := by rfl
@[simp] theorem State.cacheDrop_inbox (s : State) (h : Nat) : (s.cacheDrop h).inbox = s.inbox := by rfl
@[simp] theorem State.pin_inbox (s : State) (h : Nat) : (s.pin h).inbox = s.inbox := by rfl
@[simp] theorem State.unpin_inbox (s : State) (h : Nat) : (s.unpin h).inbox = s.inbox := by rfl

@[simp] theorem State.putHeart_inbox (s : State) (n : Nat) (h : Heart) : (s.putHeart n h).inbox = s.inbox := by
  unfold State.putHeart
  dsimp only
  repeat' split
  all_goals simp

@[simp] theorem State.dropGeneration_inbox (s : State) (n gen : Nat) : (s.dropGeneration n gen).inbox = s.inbox := by rfl
@[simp] theorem State.draw_inbox (s : State) (n : Nat) : (s.draw n).2.inbox = s.inbox := by rfl

/-! ### Changes and messages -/

@[simp] theorem State.setAddrList_inbox (s : State) (key : Nat → Nat) (l : List Nat) :
    (s.setAddrList key l).inbox = s.inbox := by simp [State.setAddrList]

@[simp] theorem State.setMembers_inbox (s : State) (l : List Nat) : (s.setMembers l).inbox = s.inbox := by simp [State.setMembers]
@[simp] theorem State.hear_inbox (s : State) (src : Nat) : (s.hear src).inbox = s.inbox := by rfl

@[simp] theorem State.sendMsg_inbox (s : State) (type dst : Nat) (body : Bytes) (record : Option ReplRecord) :
    (s.sendMsg type dst body record).inbox = s.inbox := by rfl

@[simp] theorem State.sendNotice_inbox (s : State) (type dst writer seq : Nat) : (s.sendNotice type dst writer seq).inbox = s.inbox := by rfl
@[simp] theorem State.addCounter_inbox (s : State) (slice c n : Nat) : (s.addCounter slice c n).inbox = s.inbox := by rfl

@[simp] theorem State.setHeartEntry_inbox (s : State) (n : Nat) (entry : Bytes) :
    (s.setHeartEntry n entry).inbox = s.inbox := by simp [State.setHeartEntry]

@[simp] theorem State.pinIn_inbox (s : State) (h : Nat) : (s.pinIn h).inbox = s.inbox := by simp [State.pinIn]

@[simp] theorem State.applyEffect_inbox (s : State) (c : Change) : (s.applyEffect c).inbox = s.inbox := by
  unfold State.applyEffect
  split <;> simp

@[simp] theorem State.queueChange_inbox (s : State) (c : Change) : (s.queueChange c).inbox = s.inbox := by
  unfold State.queueChange
  split <;> simp

@[simp] theorem State.applyRemote_inbox (s : State) (c : Change) : (s.applyRemote c).inbox = s.inbox := by simp [State.applyRemote]

@[simp] theorem State.startOwn_inbox (s : State) (change : Change) (k : Nat) (job : Option Nat) (write : Option (Nat × Option DictReq)) (majority : Bool) :
    (s.startOwn change k job write majority).inbox = s.inbox := by simp [State.startOwn]

@[simp] theorem State.resolvePage_inbox (s : State) (c : Change) (kind : ItemKind) : (s.resolvePage c kind).inbox = s.inbox := by
  unfold State.resolvePage
  split <;> simp

@[simp] theorem State.dropOwn_inbox (s : State) (seq : Nat) : (s.dropOwn seq).inbox = s.inbox := by rfl
@[simp] theorem State.applyOwnAt_inbox (s : State) (o : OwnChange) (t : Nat) : (s.applyOwnAt o t).inbox = s.inbox := by rfl

@[simp] theorem State.commitOwn_inbox (s : State) (o : OwnChange) : (s.commitOwn o).inbox = s.inbox := by
  unfold State.commitOwn
  repeat' split
  all_goals simp

@[simp] theorem State.undoOwn_inbox (s : State) (o : OwnChange) : (s.undoOwn o).inbox = s.inbox := by simp [State.undoOwn]

@[simp] theorem State.settleHeart_inbox (s : State) (c : Change) : (s.settleHeart c).inbox = s.inbox := by
  unfold State.settleHeart
  split <;> simp

/-! ### Reads and buffers of jobs -/

@[simp] theorem State.startRead_inbox (s : State) (page : Nat) (port : Option Nat) (prior : Bool) (id : Nat) :
    (s.startRead page port prior id).inbox = s.inbox := by simp [State.startRead]

@[simp] theorem State.fetchKeys_inbox (s : State) (id : Nat) : (s.fetchKeys id).inbox = s.inbox := by
  unfold State.fetchKeys
  split <;> simp

@[simp] theorem State.askPiece_inbox (s : State) (id k : Nat) : (s.askPiece id k).inbox = s.inbox := by
  unfold State.askPiece
  split <;> simp

@[simp] theorem State.askLabel_inbox (s : State) (id : Nat) : (s.askLabel id).inbox = s.inbox := by
  unfold State.askLabel
  split <;> simp

@[simp] theorem State.controlStart_inbox (s : State) (id : Nat) : (s.controlStart id).inbox = s.inbox := by
  unfold State.controlStart
  dsimp only
  repeat' split
  all_goals simp

theorem State.placeBuf_inbox (s : State) (id n : Nat) : ∀ t, s.placeBuf id n = some t → t.inbox = s.inbox := by
  unfold State.placeBuf
  dsimp only
  repeat' split
  all_goals simp

@[simp] theorem State.noRoom_inbox (s : State) (id : Nat) : (s.noRoom id).inbox = s.inbox := by rfl

theorem State.placeAll_inbox (l : List Nat) (id : Nat) (s : State) : ∀ t, s.placeAll id l = some t → t.inbox = s.inbox := by
  induction l generalizing s with
  | nil =>
    rintro t ⟨⟩
    rfl
  | cons n r ih =>
    intro t h
    simp only [State.placeAll] at h
    split at h
    · next st placed => exact (ih st t h).trans (s.placeBuf_inbox id n st placed)
    · cases h

@[simp] theorem State.placeTo_inbox (s : State) (id stage : Nat) (sizes : List Nat) (f : State → State) (h : ∀ st, (f st).inbox = st.inbox) :
    (s.placeTo id stage sizes f).inbox = s.inbox := by
  unfold State.placeTo
  split
  · next st placed => simp [h, State.placeAll_inbox sizes id s st placed]
  · simp

@[simp] theorem State.dmaCheck_inbox (s : State) (j : Job) (k n : Nat) (write : Bool) : (s.dmaCheck j k n write).2.inbox = s.inbox := by
  unfold State.dmaCheck
  split <;> simp

@[simp] theorem State.fillBuf_inbox (s : State) (j : Job) (k : Nat) (b : Bytes) : (s.fillBuf j k b).inbox = s.inbox := by rfl
@[simp] theorem State.dmaFill_inbox (s : State) (j : Job) (k : Nat) (b : Bytes) : (s.dmaFill j k b).inbox = s.inbox := by simp [State.dmaFill]

@[simp] theorem State.parseJob_inbox (s : State) (id : Nat) : (s.parseJob id).inbox = s.inbox := by
  unfold State.parseJob
  split
  · simp
  · split <;> simp

@[simp] theorem State.parseIfReady_inbox (s : State) (id : Nat) : (s.parseIfReady id).inbox = s.inbox := by
  unfold State.parseIfReady
  split <;> simp

@[simp] theorem State.placeInput_inbox (s : State) (id : Nat) : (s.placeInput id).inbox = s.inbox := by
  unfold State.placeInput
  split <;> simp

@[simp] theorem State.descArrived_inbox (s : State) (j : Job) (b : Bytes) : (s.descArrived j b).inbox = s.inbox := by
  unfold State.descArrived
  dsimp only
  repeat' split
  all_goals simp

@[simp] theorem State.readFault_inbox (s : State) (ring : Nat) : (s.readFault ring).inbox = s.inbox := by rfl
@[simp] theorem State.descFailed_inbox (s : State) (j : Job) : (s.descFailed j).inbox = s.inbox := by simp [State.descFailed]
@[simp] theorem State.bufferFault_inbox (s : State) (j : Job) : (s.bufferFault j).inbox = s.inbox := by rfl

@[simp] theorem State.readEnds_inbox (s : State) (id : Nat) (what : ReadKind) (data : Option Bytes) : (s.readEnds id what data).inbox = s.inbox := by
  unfold State.readEnds
  repeat' split
  all_goals simp

@[simp] theorem State.dropVersions_inbox (s : State) (id : Nat) : (s.dropVersions id).inbox = s.inbox := by simp [State.dropVersions]

/-! ### The guard and the debug ports -/

@[simp] theorem State.guardOnAgain_inbox (s : State) : s.guardOnAgain.inbox = s.inbox := by
  unfold State.guardOnAgain
  split <;> simp

@[simp] theorem State.debugDenied_inbox (s : State) (word : Nat) : (s.debugDenied word).inbox = s.inbox := by simp [State.debugDenied]

@[simp] theorem State.debugAccess_inbox (s : State) (write : Bool) (word data : Nat) (allBits : Bool) :
    (s.debugAccess write word data allBits).inbox = s.inbox := by
  unfold State.debugAccess
  repeat' split
  all_goals simp

/-! ### Reads that complete -/

@[simp] theorem State.vaultFault_inbox (s : State) (region : Nat) : (s.vaultFault region).inbox = s.inbox := by rfl
@[simp] theorem State.dropRead_inbox (s : State) (r : VRead) : (s.dropRead r).inbox = s.inbox := by rfl
@[simp] theorem State.readLost_inbox (s : State) (jobs : List Nat) (due : Nat) : (s.readLost jobs due).inbox = s.inbox := by simp [State.readLost]
@[simp] theorem State.readOther_inbox (s : State) (r : VRead) (data : Bool) : (s.readOther r data).inbox = s.inbox := by simp [State.readOther]
@[simp] theorem State.repairCopy_inbox (s : State) (r : VRead) : (s.repairCopy r).inbox = s.inbox := by rfl

@[simp] theorem State.takeNode_inbox (s : State) (level index : Nat) (b : Bytes) :
    (s.takeNode level index b).inbox = s.inbox := by simp [State.takeNode]

@[simp] theorem State.readEmpty_inbox (s : State) (jobs : List Nat) : (s.readEmpty jobs).inbox = s.inbox := by simp [State.readEmpty]

@[simp] theorem State.nodeDone_inbox (s : State) (r : VRead) (data : Option Bytes) : (s.nodeDone r data).inbox = s.inbox := by
  unfold State.nodeDone
  split <;> simp

@[simp] theorem State.refuseAbsent_inbox (u : Unwrap) (s : State) (id : Nat) : (State.refuseAbsent u s id).inbox = s.inbox := by
  unfold State.refuseAbsent
  split <;> simp

@[simp] theorem State.deliver_inbox (s : State) (u : Unwrap) : (s.deliver u).inbox = s.inbox := by simp [State.deliver]

@[simp] theorem State.takeCopies_inbox (s : State) (jobs : List Nat) (data : Option Bytes) : (s.takeCopies jobs data).inbox = s.inbox := by
  refine foldl_inbox (fun st id => ?_) _ _
  split <;> simp

@[simp] theorem State.bothFail_inbox (s : State) (r : VRead) (e : TreeEntry) : (s.bothFail r e).inbox = s.inbox := by simp [State.bothFail]

@[simp] theorem State.pageDone_inbox (s : State) (r : VRead) (data : Option Bytes) : (s.pageDone r data).inbox = s.inbox := by
  unfold State.pageDone
  split <;> simp

@[simp] theorem State.readDone_inbox (s : State) (r : VRead) (data : Option Bytes) : (s.readDone r data).inbox = s.inbox := by simp [State.readDone]

@[simp] theorem State.readComplete_inbox (s : State) (page port : Nat) (data : Option Bytes) : (s.readComplete page port data).inbox = s.inbox := by
  unfold State.readComplete
  split
  · split <;> simp
  · simp

/-! ### Reseeds -/

@[simp] theorem State.reseed_inbox (s : State) (testPasses : Bool) : (s.reseed testPasses).inbox = s.inbox := by
  unfold State.reseed
  dsimp only
  repeat' split
  all_goals simp

@[simp] theorem State.reseedWindow_inbox (s : State) : s.reseedWindow.inbox = s.inbox := by
  unfold State.reseedWindow
  split <;> simp

/-! ### Accesses that the guard held -/

@[simp] theorem State.serveOne_inbox (s : State) (c : Instr) : (s.serveOne c).inbox = s.inbox := by
  cases c with
  | dmaReadComplete job what data => simp [State.serveOne, execDmaReadComplete]
  | vaultReadComplete page port data => simp [State.serveOne, execVaultReadComplete]
  | debugMasterAccess write word data allBits => simp [State.serveOne, execDebugMasterAccess]
  | _ => rfl

@[simp] theorem State.serveHeld_inbox (s : State) : s.serveHeld.inbox = s.inbox := by simp [State.serveHeld]

/-! ### Replies -/

@[simp] theorem State.seeReq_inbox (s : State) (r : DictReq) : (s.seeReq r).inbox = s.inbox := by simp [State.seeReq]

@[simp] theorem State.reply_inbox (s : State) (r : DictReq) (slot : Option Nat) (op reason : Nat) (value : Bytes) :
    (s.reply r slot op reason value).inbox = s.inbox := by simp [State.reply]

@[simp] theorem State.refused_inbox (s : State) (key reason : Nat) : (s.refused key reason).inbox = s.inbox := by rfl

@[simp] theorem State.refuse_inbox (s : State) (key reason : Nat) (req : Option (DictReq × Option Nat)) :
    (s.refuse key reason req).inbox = s.inbox := by
  unfold State.refuse
  split <;> simp

@[simp] theorem State.ackWrite_inbox (s : State) (key : Nat) (v : DVal) (req : Option (DictReq × Option Nat)) :
    (s.ackWrite key v req).inbox = s.inbox := by
  unfold State.ackWrite
  split <;> simp

@[simp] theorem State.refuseOwn_inbox (s : State) (o : OwnChange) (reason : Nat) : (s.refuseOwn o reason).inbox = s.inbox := by
  unfold State.refuseOwn
  split <;> simp

/-! ### Image tags -/

@[simp] theorem State.dropTag_inbox (s : State) (t : Bytes) : (s.dropTag t).inbox = s.inbox := by rfl
@[simp] theorem State.movesNext_inbox (s : State) (n : Nat) : (s.movesNext n).inbox = s.inbox := by rfl
@[simp] theorem State.restoreFailsNext_inbox (s : State) (n code : Nat) : (s.restoreFailsNext n code).inbox = s.inbox := by rfl

@[simp] theorem State.consumeTag_inbox (s : State) (tag : Bytes) (src target : Nat) : (s.consumeTag tag src target).inbox = s.inbox := by
  unfold State.consumeTag
  split <;> simp

@[simp] theorem State.restoreAnswered_inbox (s : State) (n : Nat) (accepted : Bool) :
    (s.restoreAnswered n accepted).inbox = s.inbox := by simp [State.restoreAnswered]

/-! ### Receipt and replication -/

@[simp] theorem State.badMessage_inbox (s : State) : s.badMessage.inbox = s.inbox := by rfl

@[simp] theorem State.addFragment_inbox (s : State) (h : MsgHdr) : (s.addFragment h).1.inbox = s.inbox := by
  unfold State.addFragment
  split <;> simp

/-- A message that is taken acts by `f` alone (R318, R320, R321). -/
@[simp] theorem State.receive_inbox (s : State) (type : Nat) (m : MsgHdr) (f : State → State) (h : ∀ st, (f st).inbox = st.inbox) :
    (s.receive type m f).inbox = s.inbox := by
  simp [State.receive, h]

/-- In the window a message does not wait: it acts as it comes (R357). -/
theorem State.atStep4_inbox {s : State} (h : s.window = true) (c : Instr) (f : State → State) : (s.atStep4 c f).inbox = (f s).inbox := by
  simp [State.atStep4, h]

@[simp] theorem State.abandonOwn_inbox (s : State) (o : OwnChange) : (s.abandonOwn o).inbox = s.inbox := by
  unfold State.abandonOwn
  split <;> simp

@[simp] theorem State.logRecord_inbox (s : State) (src : Nat) (r : ReplRecord) : (s.logRecord src r).inbox = s.inbox := by rfl
@[simp] theorem State.abandonForming_inbox (s : State) (j : Job) : (s.abandonForming j).inbox = s.inbox := by simp [State.abandonForming]
@[simp] theorem State.replicate_inbox (s : State) (src : Nat) (r : ReplRecord) : (s.replicate src r).inbox = s.inbox := by simp [State.replicate]
@[simp] theorem State.updOwn_inbox (s : State) (seq : Nat) (f : OwnChange → OwnChange) : (s.updOwn seq f).inbox = s.inbox := by rfl
@[simp] theorem State.takeAck_inbox (s : State) (src : Nat) (o : OwnChange) : (s.takeAck src o).inbox = s.inbox := by simp [State.takeAck]
@[simp] theorem State.updLog_inbox (s : State) (writer seq : Nat) (f : LogRecord → LogRecord) : (s.updLog writer seq f).inbox = s.inbox := by rfl
@[simp] theorem State.dropLog_inbox (s : State) (writer seq : Nat) : (s.dropLog writer seq).inbox = s.inbox := by rfl

@[simp] theorem State.settleOrphan_inbox (s : State) (o : OwnChange) (commit : Bool) :
    (s.settleOrphan o commit).inbox = s.inbox := by simp [State.settleOrphan]

@[simp] theorem State.takeCommit_inbox (s : State) (writer seq : Nat) : (s.takeCommit writer seq).inbox = s.inbox := by
  unfold State.takeCommit
  split <;> simp

@[simp] theorem State.answerQuery_inbox (s : State) (writer seq : Nat) : (s.answerQuery writer seq).inbox = s.inbox := by
  unfold State.answerQuery
  split <;> simp

@[simp] theorem State.countHolder_inbox (s : State) (src writer seq : Nat) : (s.countHolder src writer seq).inbox = s.inbox := by
  unfold State.countHolder
  split <;> simp

@[simp] theorem State.consume_inbox (s : State) (src : Nat) (tag : Bytes) (target : Nat) :
    (s.consume src tag target).inbox = s.inbox := by simp [State.consume]

@[simp] theorem State.migAnswered_inbox (s : State) (tag : Bytes) (accepted : Bool) : (s.migAnswered tag accepted).inbox = s.inbox := by
  unfold State.migAnswered
  split <;> simp

/-! ### Joining -/

@[simp] theorem State.joinWipe_inbox (s : State) (j : JoinState) : (s.joinWipe j).inbox = s.inbox := by rfl
@[simp] theorem State.joinFails_inbox (s : State) : s.joinFails.inbox = s.inbox := by rfl
@[simp] theorem State.joinAgree_inbox (s : State) (ec kem transcript : Bytes) : (s.joinAgree ec kem transcript).inbox = s.inbox := by rfl

@[simp] theorem State.takeAnswer_inbox (s : State) (a : Answer) : (s.takeAnswer a).inbox = s.inbox := by
  unfold State.takeAnswer
  split
  · simp
  · split <;> simp

@[simp] theorem State.takeDomain_inbox (s : State) (g : DomainGrant) : (s.takeDomain g).inbox = s.inbox := by simp [State.takeDomain]

@[simp] theorem State.takeOffer_inbox (s : State) (src : Nat) (o : Offer) : (s.takeOffer src o).inbox = s.inbox := by
  unfold State.takeOffer
  split
  · simp
  · split <;> simp

@[simp] theorem State.freeOutside_inbox (s : State) (page map : Nat) : (s.freeOutside page map).inbox = s.inbox := by simp [State.freeOutside]

@[simp] theorem State.takeObject_inbox (s : State) (slot : Nat) (b : Bytes) (pinned : Bool) (map : Nat) :
    (s.takeObject slot b pinned map).inbox = s.inbox := by simp [State.takeObject]

@[simp] theorem State.spendRecovering_inbox (s : State) : s.spendRecovering.inbox = s.inbox := by simp [State.spendRecovering]
@[simp] theorem State.freeUnnamed_inbox (s : State) : s.freeUnnamed.inbox = s.inbox := by simp [State.freeUnnamed]
@[simp] theorem State.transferDone_inbox (s : State) (full : Bool) : (s.transferDone full).inbox = s.inbox := by simp [State.transferDone]

/-! ### Responses -/

@[simp] theorem State.latch_inbox (s : State) (n r : Nat) : (s.latch n r).inbox = s.inbox := by simp [State.latch]
@[simp] theorem State.reloadPins_inbox (s : State) : s.reloadPins.inbox = s.inbox := by rfl
@[simp] theorem State.enterLock_inbox (s : State) (cause : Nat) : (s.enterLock cause).inbox = s.inbox := by simp [State.enterLock]
@[simp] theorem State.respondEnd_inbox (s : State) (r : Nat × Nat × List (Nat × Nat)) : (s.respondEnd r).inbox = s.inbox := by simp [State.respondEnd]
@[simp] theorem State.respondWindow_inbox (s : State) : s.respondWindow.inbox = s.inbox := by simp [State.respondWindow]
@[simp] theorem State.respondStart_inbox (s : State) : s.respondStart.inbox = s.inbox := by simp [State.respondStart]

/-! ### The dictionary service -/

theorem State.replicated_inbox (s : State) (key v : Nat) (c : Change × State) (h : s.replicated key v = some c) : c.2.inbox = s.inbox := by
  simp only [State.replicated] at h
  repeat' split at h
  all_goals cases h
  all_goals simp

@[simp] theorem nextOf_guardDisable_inbox (s : State) : (nextOf (execGuardDisable s) s).inbox = s.inbox := by
  unfold execGuardDisable
  split
  · rfl
  · split <;> rfl

@[simp] theorem nextOf_guardEnable_inbox (s : State) : (nextOf (execGuardEnable s) s).inbox = s.inbox := by
  unfold execGuardEnable
  split <;> simp [nextOf]

@[simp] theorem nextOf_swdtRefresh_inbox (s : State) (v : Nat) : (nextOf (execSwdtRefresh v s) s).inbox = s.inbox := by
  simp [execSwdtRefresh, nextOf]

theorem State.atOnce_inbox (s : State) (key v : Nat) : ∀ t, s.atOnce key v = some t → t.inbox = s.inbox := by
  unfold State.atOnce
  split
  · split <;> simp
  · simp

/-- By what the write is: refused, a byte string, one that acts at once, one that is replicated, or any other number. -/
@[simp] theorem State.acceptWrite_inbox (s : State) (officer : Bool) (key : Nat) (v : DVal) (req : Option (DictReq × Option Nat)) :
    (s.acceptWrite officer key v req).inbox = s.inbox := by
  unfold State.acceptWrite
  split
  · simp
  · split
    · simp
    · split
      · next t atOnce =>
        dsimp only
        split <;> simp [State.atOnce_inbox _ _ _ _ atOnce]
      · split
        · next c replicated => simp [State.replicated_inbox _ _ _ _ replicated]
        · simp

@[simp] theorem State.serveRead_inbox (s : State) (r : DictReq) : (s.serveRead r).inbox = s.inbox := by
  unfold State.serveRead
  split <;> simp

@[simp] theorem State.issueChallenge_inbox (s : State) (dst : Nat) : (s.issueChallenge dst).inbox = s.inbox := by simp [State.issueChallenge]
@[simp] theorem State.spend_inbox (s : State) (c : Bytes) : (s.spend c).inbox = s.inbox := by rfl

@[simp] theorem State.completeWrite_inbox (s : State) (w : PendingWrite) : (s.completeWrite w).inbox = s.inbox := by
  unfold State.completeWrite
  split <;> simp

@[simp] theorem State.tryComplete_inbox (s : State) (c : Bytes) : (s.tryComplete c).inbox = s.inbox := by
  unfold State.tryComplete
  split <;> simp

@[simp] theorem State.rejectApproval_inbox (s : State) : s.rejectApproval.inbox = s.inbox := by rfl

@[simp] theorem State.countApproval_inbox (s : State) (c : Bytes) (officer : Nat) (self : Bool) :
    (s.countApproval c officer self).inbox = s.inbox := by rfl

@[simp] theorem State.holdWrite_inbox (s : State) (r : DictReq) (c : Challenge) : (s.holdWrite r c).inbox = s.inbox := by simp [State.holdWrite]

@[simp] theorem State.quorumRequest_inbox (s : State) (r : DictReq) (key : Nat) : (s.quorumRequest r key).inbox = s.inbox := by
  unfold State.quorumRequest
  split <;> simp

@[simp] theorem State.serveWrite_inbox (s : State) (r : DictReq) : (s.serveWrite r).inbox = s.inbox := by
  unfold State.serveWrite
  split <;> simp

@[simp] theorem State.takeApproval_inbox (s : State) (b : Bytes) : (s.takeApproval b).inbox = s.inbox := by
  unfold State.takeApproval
  split
  · simp
  · split <;> simp

@[simp] theorem State.tunnelIn_inbox (s : State) (d : Bytes) : (s.tunnelIn d).inbox = s.inbox := by simp [State.tunnelIn]

/-! ### Step 4 -/

theorem State.atStep4_receive_inbox {s : State} (h : s.window = true) {c : Instr} {type : Nat} {hdr : MsgHdr} {f : State → State}
    (hf : ∀ st, (f st).inbox = st.inbox) : (s.atStep4 c fun s => s.receive type hdr f).inbox = s.inbox := by
  rw [State.atStep4_inbox h, State.receive_inbox _ _ _ _ hf]

/-- By the message; any other command is none. -/
theorem State.handOne_inbox {s : State} (h : s.window = true) (c : Instr) : (s.handOne c).inbox = s.inbox := by
  cases c with
  | hello => exact State.atStep4_receive_inbox h fun st => by split <;> rfl
  | dictRead req =>
    by_cases live : s.live
    · simp only [State.handOne, execDictRead, live, Bool.not_true, Bool.false_eq_true, if_false, State.atStep4_inbox h]
      split <;> simp
    · simp [State.handOne, execDictRead, live]
  | dictWrite req =>
    by_cases live : s.live
    · simp only [State.handOne, execDictWrite, live, Bool.not_true, Bool.false_eq_true, if_false, State.atStep4_inbox h]
      split
      · simp
      · exact State.receive_inbox _ _ _ _ fun st => by split <;> simp
    · simp [State.handOne, execDictWrite, live]
  | challengeRequest hdr => by_cases live : s.live <;> simp [State.handOne, execChallengeRequest, live, State.atStep4_inbox h]
  | approval hdr body => by_cases live : s.live <;> simp [State.handOne, execApproval, live, State.atStep4_inbox h]
  | dictReply => exact State.atStep4_receive_inbox h fun st => by simp
  | replicate => exact State.atStep4_receive_inbox h fun st => by simp
  | replAck => exact State.atStep4_receive_inbox h fun st => by split <;> simp
  | replCommit => exact State.atStep4_receive_inbox h fun st => by simp
  | replRollback => exact State.atStep4_receive_inbox h fun st => by split <;> simp
  | replQuery => exact State.atStep4_receive_inbox h fun st => by simp
  | replState => exact State.atStep4_receive_inbox h fun st => by simp
  | migConsume => exact State.atStep4_receive_inbox h fun st => by simp
  | migReply => exact State.atStep4_receive_inbox h fun st => by simp
  | attestOffer => exact State.atStep4_receive_inbox h fun st => by split <;> simp
  | attestAnswer => exact State.atStep4_receive_inbox h fun st => by split <;> simp
  | domainKey => exact State.atStep4_receive_inbox h fun st => by simp
  | heartTransfer => exact State.atStep4_receive_inbox h fun st => by split <;> simp
  | objectTransfer => exact State.atStep4_receive_inbox h fun st => by split <;> simp
  | transferEnd => exact State.atStep4_receive_inbox h fun st => by split <;> simp
  | _ => rfl

theorem foldl_handOne_inbox (l : List Instr) {s : State} (h : s.window = true) : (l.foldl State.handOne s).inbox = s.inbox := by
  induction l generalizing s with
  | nil => rfl
  | cons c l ih => rw [List.foldl_cons, ih ((s.handOne_window c).trans h), State.handOne_inbox h]

/-- Step 4 of the window leaves no message over. -/
theorem State.handOver_inbox {s : State} (h : s.window = true) : s.handOver.inbox = [] :=
  foldl_handOne_inbox s.inbox (s := { s with inbox := [] }) h

/-! ## What a window writes to the sillage log -/

/-- Between two states only the sillage log and the messages that wait for the chain differ. -/
def LogOnly (s t : State) : Prop := t = { s with sil := t.sil, chain := t.chain }

theorem LogOnly.trans {s t u : State} (h : LogOnly s t) (k : LogOnly t u) : LogOnly s u := by
  rw [LogOnly] at *
  rw [k, h]

theorem State.silWrite_logOnly (s : State) (e : SilEvent) : LogOnly s (s.silWrite e) := by
  unfold State.silWrite
  dsimp only
  split <;> rfl

/-- An event waits on, is written, or is counted as suppressed (R420, R421). -/
theorem silOne_logOnly (a : State × Nat) (e : SilEvent) : LogOnly a.1 (State.silOne a e).1 := by
  unfold State.silOne
  dsimp only
  split
  · rfl
  · split
    · exact a.1.silWrite_logOnly e
    · rfl

theorem foldl_silOne_logOnly {s : State} (q : List SilEvent) {a : State × Nat} (h : LogOnly s a.1) : LogOnly s (q.foldl State.silOne a).1 := by
  induction q generalizing a with
  | nil => exact h
  | cons e q ih => exact ih (h.trans (silOne_logOnly a e))

theorem LogOnly.with_sil {s t : State} (h : LogOnly s t) (sil : Sillage) : LogOnly s { t with sil := sil } := by
  rw [h]
  rfl

theorem LogOnly.count_with_sil {s t : State} (h : LogOnly s t) (k n : Nat) (sil : Sillage) :
    { t.count k n with sil := sil } = { s.count k n with sil := sil, chain := t.chain } := by
  rw [h]
  rfl

/-- The window of the sillage log touches the log, the waiting messages and the count of lost records; at most 1,024 records wait on (R420). -/
theorem State.silWindow_eq (s : State) (snap : Nat → Nat × Bytes) : ∃ lost sil chain, sil.queue.length ≤ 1024 ∧
    s.silWindow snap = { s.count Key.SIL_DROPPED lost with sil := sil, chain := chain } := by
  refine ⟨_, _, _, List.length_take_le .., ((foldl_silOne_logOnly (s := s) _ ?_).with_sil _).count_with_sil ..⟩
  rfl

theorem State.silWindow_queue (s : State) (snap : Nat → Nat × Bytes) : (s.silWindow snap).sil.queue.length ≤ 1024 := by
  obtain ⟨lost, sil, chain, le, e⟩ := s.silWindow_eq snap
  rw [e]
  exact le

theorem State.silWindow_inbox (s : State) (snap : Nat → Nat × Bytes) : (s.silWindow snap).inbox = s.inbox := by
  obtain ⟨lost, sil, chain, -, e⟩ := s.silWindow_eq snap
  rw [e]
  rfl

theorem State.silWindow_frame (s : State) (snap : Nat → Nat × Bytes) :
    s.silWindow snap = { s with sil := (s.silWindow snap).sil, chain := (s.silWindow snap).chain, dict := (s.silWindow snap).dict } := by
  obtain ⟨lost, sil, chain, -, e⟩ := s.silWindow_eq snap
  rw [e]
  rfl

/-! ## Work that a window does not find -/

theorem State.handOver_of_empty {s : State} (h : s.inbox = []) : s.handOver = s := by
  rw [State.handOver, h, List.foldl_nil, ← h]

theorem State.respondWindow_of_none {s : State} (h : s.tamper.respond = []) : s.respondWindow = s := by
  simp only [State.respondWindow, h, List.filter_nil, List.foldl_nil]
  rw [← h]

theorem State.respondStart_of_none {s : State} (h : s.tamper.respond = []) : s.respondStart = s := by
  simp [State.respondStart, State.respondWindow_of_none h]

theorem State.reseedWindow_of_none {s : State} (h : s.ent.reseedTest = none) : s.reseedWindow = s := by
  simp [State.reseedWindow, h]

theorem State.reloadHearts_of_none {s : State} (h : s.keys.heartsLost = []) : s.reloadHearts = s := by
  simp only [State.reloadHearts, h, List.foldl_nil]
  rw [← h, ite_self]

theorem State.takeOwnDue_of_none {s : State} (h : s.host.tunnel.ownDue = []) : s.takeOwnDue = s := by
  simp only [State.takeOwnDue, h, List.foldl_nil]
  rw [← h]

theorem State.dictWindow_of_none {s : State} (h : s.dict.pendingWrites = []) : s.dictWindow = s := by
  simp only [State.dictWindow, h, List.map_nil, List.filter_nil, List.foldl_nil]
  rw [← h]

theorem State.migWindow_of_none {s : State} (h : s.slices = []) : s.migWindow = s := by
  simp [State.migWindow, h]

/-- A block that is not listed is due for no hand-over. -/
theorem State.handWindow_of_none {s : State} (h : s.keeper.blocks = []) : s.handWindow = s := by
  refine List.foldl_fixed' (fun n => ?_) _
  simp [State.block, h, SMap.get, Block.reset]

/-! ## A write of the scheduler -/

/-- The write of an entry of the scheduler stores its value (R352). -/
theorem State.applyWrite_of_scheduler {s : State} {k v : Nat} (h : k / 256 = 0x1200) : s.applyWrite (k, .num v) = s.setNum k v := by
  have counted : k ∉ ceKeys := fun hk => (by decide : ∀ x ∈ ceKeys, x / 256 ≠ 0x1200) k hk h
  simp [State.applyWrite, State.applyLow, counted, h]

/-- Such a write is applied in the window: it maps no message of the tick. -/
theorem State.applyAcked_of_scheduler {s : State} {k v : Nat} (ha : s.dict.acked = [(k, .num v)]) (h : k / 256 = 0x1200) :
    s.applyAcked = ({ s with dict := { s.dict with acked := [] } } : State).setNum k v := by
  have below : k < Key.HST_MSIX_MAP 0 := by
    have base : Key.HST_MSIX_MAP 0 = 0x1310 * 256 := rfl
    omega
  have plain : mapWrite (k, .num v) = false := by simp [mapWrite, Nat.not_le.mpr below]
  simp [State.applyAcked, ha, plain, State.applyWrite_of_scheduler h]

/-! ## A unit with nothing else to do -/

/-- A window finds nothing to do but to apply the writes of its frame and to write the sillage log. -/
structure State.Unoccupied (s : State) : Prop where
  jobs : s.jobs = []
  slices : s.slices = []
  blocks : s.keeper.blocks = []
  respond : s.tamper.respond = []
  inbox : s.inbox = []
  guardOn : s.keeper.guardOn = true
  group : s.vault.group = []
  heartsLost : s.keys.heartsLost = []
  reseedTest : s.ent.reseedTest = none
  ownDue : s.host.tunnel.ownDue = []
  pendingWrites : s.dict.pendingWrites = []

/-- Neither the release of ALERT_N nor the records that are taken give the window something to do. -/
theorem State.Unoccupied.alertEnds {s : State} (h : s.Unoccupied) : s.alertEnds.Unoccupied := by
  unfold State.alertEnds
  split
  · exact ⟨h.jobs, h.slices, h.blocks, h.respond, h.inbox, h.guardOn, h.group, h.heartsLost, h.reseedTest, h.ownDue, h.pendingWrites⟩
  · exact h

theorem State.Unoccupied.silTake {s : State} (h : s.Unoccupied) (snap : Nat → Nat × Bytes) : (s.silTake snap).Unoccupied :=
  ⟨h.jobs, h.slices, h.blocks, h.respond, h.inbox, h.guardOn, h.group, h.heartsLost, h.reseedTest, h.ownDue, h.pendingWrites⟩

/-- The guard is on, and no heart or group waits. -/
theorem State.Unoccupied.toHandOver {s : State} (h : s.Unoccupied) :
    s.guardLimit.reloadHearts.groupWindow = s := by
  simp [State.guardLimit, h.guardOn, State.reloadHearts_of_none h.heartsLost, State.groupWindow, h.group]

/-- No message, datagram of its own or pending write is at hand. -/
theorem State.Unoccupied.messages {s : State} (h : s.Unoccupied) : s.handOver.takeOwnDue.dictWindow = s := by
  rw [State.handOver_of_empty h.inbox, State.takeOwnDue_of_none h.ownDue, State.dictWindow_of_none h.pendingWrites]

/-- No transfer, response, hand-over or reseed is due. -/
theorem State.Unoccupied.afterWrites {s : State} (h : s.Unoccupied) : s.migWindow.respondWindow.handWindow.reseedWindow = s := by
  rw [State.migWindow_of_none h.slices, State.respondWindow_of_none h.respond, State.handWindow_of_none h.blocks,
    State.reseedWindow_of_none h.reseedTest]

/-- The window's work on the writes of the scheduler is the writes, beside ALERT_N and the sillage log. -/
theorem State.Unoccupied.windowWork {s : State} (h : s.Unoccupied)
    (written : (s.silTake s.seen.snapshot).alertEnds.applyAcked.Unoccupied) :
    s.windowWork = ((s.silTake s.seen.snapshot).alertEnds.applyAcked.silWindow
      (s.silTake s.seen.snapshot).alertEnds.applyAcked.seen.snapshot).boundRaises s.boundState := by
  have taken := h.silTake s.seen.snapshot
  unfold State.windowWork
  simp only [taken.toHandOver, taken.jobs, List.foldl_nil, taken.alertEnds.messages, written.afterWrites]

/-! ## HOUSEKEEPING_WINDOW -/

/-- What a window does during a start and in a WARM reset: messages are handed over, responses and a reseed end, records are written (R25). -/
def State.startWindow (s : State) : State := s.handOver.respondStart.reseedWindow.silWindow s.seen.snapshot

/-- The window as it begins. -/
def State.begun (s : State) : State := { s with window := true }

theorem exec_window_of_noTick {s : State} (h : s.noTick = true) : exec .housekeepingWindow s = .next s := by
  simp [exec, execHousekeepingWindow, h]

theorem exec_window_in_start {s : State} (h : s.noTick = false) (start : s.rst.starting ≠ 0 ∨ (s.rst.power = .held ∧ s.rst.reach = 2)) :
    exec .housekeepingWindow s = .next s.begun.startWindow := by
  simp only [exec, execHousekeepingWindow, h, Bool.false_eq_true, if_false]
  exact if_pos start

theorem exec_window_serving {s : State} (h : s.noTick = false) (start : ¬(s.rst.starting ≠ 0 ∨ (s.rst.power = .held ∧ s.rst.reach = 2))) :
    exec .housekeepingWindow s = .next s.begun.windowWork := by
  simp only [exec, execHousekeepingWindow, h, Bool.false_eq_true, if_false]
  exact if_neg start

theorem State.startWindow_kept (s : State) : s.startWindow.window = s.window ∧ s.startWindow.tick = s.tick ∧ s.startWindow.pending = s.pending := by
  simp [State.startWindow]

theorem State.startWindow_inbox (s : State) (h : s.window = true) : s.startWindow.inbox = [] := by
  simp [State.startWindow, State.silWindow_inbox, State.handOver_inbox h]

theorem exec_window_marks_begun {s : State} (h : s.noTick = false) :
    ∃ t, exec .housekeepingWindow s = .next t ∧ t.window = true ∧ t.tick = s.tick ∧ t.pending = s.pending := by
  by_cases start : s.rst.starting ≠ 0 ∨ (s.rst.power = .held ∧ s.rst.reach = 2)
  · exact ⟨_, exec_window_in_start h start, s.begun.startWindow_kept⟩
  · exact ⟨_, exec_window_serving h start, by simp [State.begun]⟩

/-- With no message, response or reseed at hand the sillage log alone is worked on. -/
theorem State.startWindow_of_none {s : State} (hi : s.inbox = []) (hr : s.tamper.respond = []) (he : s.ent.reseedTest = none) :
    s.startWindow = s.silWindow s.seen.snapshot := by
  simp only [State.startWindow, State.handOver_of_empty hi, State.respondStart_of_none hr, State.reseedWindow_of_none he]

theorem State.alertEnds_blocks (s : State) : s.alertEnds.dict = s.dict ∧ s.alertEnds.keys = s.keys ∧ s.alertEnds.vault = s.vault := by
  unfold State.alertEnds
  split <;> simp

theorem State.boundRaises_blocks (b : Nat) (s : State) :
    (s.boundRaises b).dict = s.dict ∧ (s.boundRaises b).keys = s.keys ∧ (s.boundRaises b).vault = s.vault ∧ (s.boundRaises b).jobs = s.jobs := by
  unfold State.boundRaises
  split <;> simp

theorem State.num_of_dict {s t : State} (h : s.dict = t.dict) (k : Nat) : s.num k = t.num k := by
  rw [State.num, State.num, h]

/-- The end of a window: the sillage log and the change of SEI_BOUND_STATE touch no entry but the count of lost records, no key and no page. -/
theorem State.windowEnd_blocks (s : State) (snap : Nat → Nat × Bytes) (b : Nat) :
    let t := (s.silWindow snap).boundRaises b
    (∃ lost, t.dict = (s.count Key.SIL_DROPPED lost).dict) ∧ t.keys = s.keys ∧ t.vault = s.vault := by
  obtain ⟨lost, sil, chain, -, e⟩ := s.silWindow_eq snap
  obtain ⟨dict, keys, vault, -⟩ := (s.silWindow snap).boundRaises_blocks b
  exact ⟨⟨lost, by rw [dict, e]⟩, by rw [keys, e]; rfl, by rw [vault, e]; rfl⟩

/-- The number written stands, no write waits on, and keys and vault are as they were. -/
theorem State.Unoccupied.windowWork_applies {s : State} {k v : Nat} (h : s.Unoccupied) (ha : s.dict.acked = [(k, .num v)]) (hk : k / 256 = 0x1200)
    (rising : s.dict.nums.Pairwise fun a b => a.1 < b.1) :
    s.windowWork.num k = v ∧ s.windowWork.dict.acked = [] ∧ s.windowWork.keys = s.keys ∧ s.windowWork.vault = s.vault := by
  have ready := (h.silTake s.seen.snapshot).alertEnds
  obtain ⟨dict, keys, vault⟩ := (s.silTake s.seen.snapshot).alertEnds_blocks
  have applied := State.applyAcked_of_scheduler (dict ▸ ha) hk
  have written : (s.silTake s.seen.snapshot).alertEnds.applyAcked.Unoccupied := by
    rw [applied]
    exact { ready with }
  have other : k ≠ Key.SIL_DROPPED := by
    rintro rfl
    exact absurd hk (by decide)
  rw [h.windowWork written, applied]
  obtain ⟨⟨lost, hdict⟩, hkeys, hvault⟩ := State.windowEnd_blocks _ _ _
  refine ⟨?_, ?_, hkeys.trans keys, hvault.trans vault⟩
  · rw [State.num_of_dict hdict, State.num_count_ne _ _ _ _ other]
    exact State.num_setNum _ _ _ (dict ▸ rising)
  · rw [hdict]
    rfl

theorem exec_window_applies_write {s : State} {k v : Nat} (h : s.begun.Unoccupied) (power : s.rst.power = .run) (scrap : s.rst.scrapped = false)
    (start : s.rst.starting = 0) (ha : s.dict.acked = [(k, .num v)]) (hk : k / 256 = 0x1200) (rising : s.dict.nums.Pairwise fun a b => a.1 < b.1) :
    ∃ t, exec .housekeepingWindow s = .next t ∧ t.num k = v ∧ t.dict.acked = [] ∧ t.keys = s.keys ∧ t.vault = s.vault := by
  have ticks : s.noTick = false := by simp [State.noTick, power, scrap]
  exact ⟨_, exec_window_serving ticks (by simp [start, power]), h.windowWork_applies ha hk rising⟩

/-! ## PERIOD_SWITCH (R50) -/

/-- Between two states only the schedule and the check-value units differ. -/
def SchedOnly (s t : State) : Prop := t = { s with sched := t.sched, chk := t.chk }

theorem SchedOnly.trans {s t u : State} (h : SchedOnly s t) (k : SchedOnly t u) : SchedOnly s u := by
  rw [SchedOnly] at *
  rw [k, h]

theorem SchedOnly.jobs {s t : State} (h : SchedOnly s t) : t.jobs = s.jobs := by rw [h]
theorem SchedOnly.dict {s t : State} (h : SchedOnly s t) : t.dict = s.dict := by rw [h]
theorem SchedOnly.keys {s t : State} (h : SchedOnly s t) : t.keys = s.keys := by rw [h]

/-- Steps that each touch the schedule alone, in a unit without jobs. -/
theorem foldl_schedOnly {α : Type} {f : State → α → State} (h : ∀ s x, s.jobs = [] → SchedOnly s (f s x)) (l : List α) {s : State} (hj : s.jobs = []) :
    SchedOnly s (l.foldl f s) := by
  induction l generalizing s with
  | nil => rfl
  | cons x l ih =>
    have one := h s x hj
    exact one.trans (ih (one.jobs.trans hj))

theorem State.askCopy_schedOnly (s : State) (id : Nat) : SchedOnly s (s.askCopy id) := by
  unfold State.askCopy
  dsimp only
  split
  · rfl
  · split <;> rfl

section NoJobs
variable {s : State} (hj : s.jobs = [])
include hj

theorem State.job?_of_noJobs (id : Nat) : s.job? id = none := by simp [State.job?, hj]

theorem State.leaveSegs_schedOnly : SchedOnly s s.leaveSegs :=
  foldl_schedOnly (fun t l h => by simp only [State.leaveSeg, State.job?_of_noJobs h]; rfl) _ hj

theorem State.renewals_of_noJobs : s.renewals = s := by simp [State.renewals, hj]

theorem State.grant_schedOnly (a : Ask) : SchedOnly s (s.grant a) := by
  unfold State.grant
  split
  · rfl
  · split
    · simp only [State.grantJob, State.job?_of_noJobs hj]
      rfl
    · split
      · unfold State.grantCopy
        split <;> rfl
      · unfold State.grantChk
        split <;> rfl

/-- With no job at hand the copies alone ask for leave. -/
theorem State.askLeave_schedOnly : SchedOnly s s.askLeave := by
  have asked := (s.askCopy_schedOnly copyLeaveId).trans ((s.askCopy copyLeaveId).askCopy_schedOnly transferLeaveId)
  rw [State.askLeave, hj, List.foldl_nil]
  exact asked

theorem State.leaveFrame_schedOnly : SchedOnly s s.leaveFrame := by
  unfold State.leaveFrame
  rw [State.renewals_of_noJobs hj]
  have segs := State.leaveSegs_schedOnly hj
  have asked := segs.trans (State.askLeave_schedOnly (segs.jobs.trans hj))
  exact asked.trans (foldl_schedOnly (fun _ a h => State.grant_schedOnly h a) _ (asked.jobs.trans hj))

theorem State.lowWaiting_of_noJobs (eng cls : Nat) : s.lowWaiting eng cls = [] := by simp [State.lowWaiting, hj]

theorem State.contLow_of_noJobs (cls : Nat) : s.contLow cls = s := by simp [State.contLow, hj]

theorem State.classRest_of_noJobs (eng cls : Nat) : s.classRest eng cls = s := by simp [State.classRest, State.lowWaiting_of_noJobs hj]

/-- No slice has work, so none has a turn: the frame's account alone is drawn up. -/
theorem State.fillPool_schedOnly (eng : Nat) : SchedOnly s (s.fillPool eng) := by
  have none_ : s.quanta eng = [] := by simp [State.quanta, State.wanting, State.lowWaiting_of_noJobs hj, hj]
  simp only [State.fillPool, none_, List.foldl_nil, State.classRest_of_noJobs hj]
  rfl

theorem State.fillFrame_schedOnly : SchedOnly s s.fillFrame := by
  simp only [State.fillFrame, State.contLow_of_noJobs hj]
  have first := State.fillPool_schedOnly hj engPk
  exact first.trans (State.fillPool_schedOnly (first.jobs.trans hj) engSym)

theorem State.fillClass3_of_noJobs : s.fillClass3 = s := by
  simp only [State.fillClass3, State.contLow_of_noJobs hj, State.classRest_of_noJobs hj]

theorem State.holdDraws_of_noJobs : s.holdDraws = s := by simp [State.holdDraws, hj]

theorem State.retryJobs_of_noJobs : s.retryJobs = s := by simp [State.retryJobs, hj]

theorem State.class0News_of_noJobs : s.class0News = s := by simp [State.class0News, hj]

/-- The schedule that a period switch draws up anew, in a unit without jobs. -/
theorem State.newSchedule_schedOnly : SchedOnly s s.retryJobs.class0News.releaseReserve.leaveFrame.holdDraws.fillFrame.fillClass3 := by
  rw [State.retryJobs_of_noJobs hj, State.class0News_of_noJobs hj]
  have leave : SchedOnly s s.releaseReserve.leaveFrame := State.leaveFrame_schedOnly (s := s.releaseReserve) hj
  have noJobs := leave.jobs.trans hj
  have filled := leave.trans (State.fillFrame_schedOnly noJobs)
  rw [State.holdDraws_of_noJobs noJobs, State.fillClass3_of_noJobs (filled.jobs.trans hj)]
  exact filled

end NoJobs

/-! ## The switch -/

/-- The new period is set, and a change of SEI_BOUND_STATE raises its source. -/
def State.setPeriod (s : State) : State := (s.setNum Key.SEI_PERIOD (s.num Key.SEI_PERIOD_NEXT)).boundRaises s.boundState

theorem State.setPeriod_blocks (s : State) :
    s.setPeriod.dict = (s.setNum Key.SEI_PERIOD (s.num Key.SEI_PERIOD_NEXT)).dict ∧ s.setPeriod.keys = s.keys ∧ s.setPeriod.jobs = s.jobs := by
  obtain ⟨dict, keys, -, jobs⟩ := (s.setNum Key.SEI_PERIOD (s.num Key.SEI_PERIOD_NEXT)).boundRaises_blocks s.boundState
  exact ⟨dict, keys, jobs⟩

theorem State.boundRaises_live (b : Nat) (s : State) : (s.boundRaises b).live = s.live := by
  unfold State.boundRaises
  split <;> rfl

theorem State.boundRaises_serves (b : Nat) (s : State) : (s.boundRaises b).serves = s.serves := by
  unfold State.boundRaises
  split <;> rfl

/-- The commitments of the frame under the new period; what has been debited stays. -/
def State.recommit (s : State) : State := { s.commitFrame with sched := { s.commitFrame.sched with debited := s.sched.debited } }

theorem State.recommit_schedOnly (s : State) : SchedOnly s s.recommit := rfl
theorem State.recommit_serves (s : State) : s.recommit.serves = s.serves := rfl

/-- The frame's admissions under the new period. -/
def State.readmit (s : State) : State :=
  if s.serves then s.retryJobs.class0News.releaseReserve.leaveFrame.holdDraws.fillFrame.fillClass3 else s.releaseReserve

theorem State.readmit_schedOnly {s : State} (h : s.serves = false ∨ s.jobs = []) : SchedOnly s s.readmit := by
  unfold State.readmit
  split
  · next serves => exact State.newSchedule_schedOnly (h.resolve_left (by simp [serves]))
  · rfl

theorem State.periodSwitch_eq (s : State) : s.periodSwitch = if s.live then s.setPeriod.recommit.readmit else s.setPeriod := by
  have live : s.setPeriod.live = s.live := State.boundRaises_live _ _
  rw [← live]
  rfl

/-- Beside the new period, a unit that is not live, does not serve, or has no job changes its schedule alone. -/
theorem State.periodSwitch_schedOnly {s : State} (quiet : s.live = false ∨ s.serves = false ∨ s.jobs = []) :
    SchedOnly s.setPeriod s.periodSwitch := by
  have serves : s.setPeriod.recommit.serves = s.serves := s.setPeriod.recommit_serves.trans (State.boundRaises_serves _ _)
  have jobs : s.setPeriod.recommit.jobs = s.jobs := s.setPeriod.recommit_schedOnly.jobs.trans s.setPeriod_blocks.2.2
  rw [State.periodSwitch_eq]
  split
  · next live =>
    have idle : s.setPeriod.recommit.serves = false ∨ s.setPeriod.recommit.jobs = [] := by
      rw [serves, jobs]
      exact quiet.resolve_left (by simp [live])
    exact s.setPeriod.recommit_schedOnly.trans (State.readmit_schedOnly idle)
  · rfl

theorem exec_periodSwitch_of_not_due {s : State} (h : s.switchArmed = false ∨ s.tick < s.num Key.SEI_SWITCH_TICK) : exec .periodSwitch s = .next s := by
  refine if_neg ?_
  rintro ⟨armed, due⟩
  rcases h with h | h
  · simp [h] at armed
  · omega

theorem exec_periodSwitch_of_due {s : State} (armed : s.switchArmed = true) (due : s.num Key.SEI_SWITCH_TICK ≤ s.tick) :
    exec .periodSwitch s = .next s.periodSwitch.show := if_pos ⟨armed, due⟩

@[simp] theorem State.show_num (s : State) (k : Nat) : s.show.num k = s.num k := rfl
@[simp] theorem State.show_jobs (s : State) : s.show.jobs = s.jobs := rfl
@[simp] theorem State.show_keys (s : State) : s.show.keys = s.keys := rfl

/-- The new period stands; every other entry, the jobs and the keys are as they were. -/
theorem State.periodSwitch_sets_period {s : State} (quiet : s.live = false ∨ s.serves = false ∨ s.jobs = [])
    (rising : s.dict.nums.Pairwise fun a b => a.1 < b.1) :
    s.periodSwitch.num Key.SEI_PERIOD = s.num Key.SEI_PERIOD_NEXT ∧ (∀ k, k ≠ Key.SEI_PERIOD → s.periodSwitch.num k = s.num k) ∧
      s.periodSwitch.jobs = s.jobs ∧ s.periodSwitch.keys = s.keys := by
  have sched := State.periodSwitch_schedOnly quiet
  obtain ⟨dict, keys, jobs⟩ := s.setPeriod_blocks
  have same := sched.dict.trans dict
  refine ⟨?_, fun k h => ?_, sched.jobs.trans jobs, sched.keys.trans keys⟩
  · rw [State.num_of_dict same, State.num_setNum _ _ _ rising]
  · rw [State.num_of_dict same, State.num_setNum_ne _ _ _ _ h]

/-- Settles O58: the window by what it finds to do, the switch by the schedule that it draws up anew. -/
theorem windowAppliesAndPeriodSwitches : Obligations.WindowAppliesAndPeriodSwitches := by
  unfold Obligations.WindowAppliesAndPeriodSwitches
  intro s
  refine ⟨exec_window_of_noTick, exec_window_marks_begun, fun ticks start => ?start, ?write, exec_periodSwitch_of_not_due, fun armed due => ?switch⟩
  case start =>
    refine ⟨_, exec_window_in_start ticks start, State.silWindow_queue _ _, s.begun.startWindow_inbox rfl, fun inbox respond reseed => ?_⟩
    have idle : s.begun.startWindow = s.begun.silWindow s.begun.seen.snapshot := State.startWindow_of_none inbox respond reseed
    rw [idle]
    exact s.begun.silWindow_frame _
  case write =>
    intro k v power scrap start jobs slices blocks respond inbox guardOn group heartsLost reseedTest ownDue pendingWrites ha hk rising
    exact exec_window_applies_write ⟨jobs, slices, blocks, respond, inbox, guardOn, group, heartsLost, reseedTest, ownDue, pendingWrites⟩
      power scrap start ha hk rising
  case switch =>
    refine ⟨_, exec_periodSwitch_of_due armed due, by simp, by simp, by simp, fun quiet rising => ?_⟩
    simpa only [State.show_num, State.show_jobs, State.show_keys] using State.periodSwitch_sets_period (quiet.imp_right (Or.imp_right And.left)) rising

end Sys2Proof.Machine
end

section
/-! # The host's registers: ring pairs, the tunnel window, MSI-X (R54, R57, R58, R62, R63, R72, R106)

A doorbell is one operation for SQ_TAIL, CQ_HEAD and ABORT_INDEX, whether it comes as its own row or as a write to a ring page. A write
of ENABLE waits in `enableWritten`; what the tick then makes of it is said once for each outcome. A BAR write of 4 bytes is the write of
its register, which the page's offset selects. -/

namespace Sys2Proof.Machine

/-! ## Doorbells -/

/-- A register of a ring pair that the next tick samples: written while ENABLED is 1, ignored otherwise (R62). -/
def State.doorbell (s : State) (ring : Nat) (f : RingPair → RingPair) : State := if (s.ring ring).enabled then s.updRing ring f else s

theorem State.doorbell_of_enabled {s : State} {ring : Nat} (f : RingPair → RingPair) (h : (s.ring ring).enabled = true) :
    s.doorbell ring f = s.updRing ring f := if_pos h

theorem State.doorbell_of_disabled {s : State} {ring : Nat} (f : RingPair → RingPair) (h : (s.ring ring).enabled = false) :
    s.doorbell ring f = s := if_neg (by simp [h])

theorem exec_sqTailWrite (ring value : Nat) (s : State) :
    exec (.sqTailWrite ring value) s = .next (s.doorbell ring fun r => { r with tailWritten := some value }) :=
  (apply_ite Host.Outcome.next _ _ _).symm

theorem exec_cqHeadWrite (ring value : Nat) (s : State) :
    exec (.cqHeadWrite ring value) s = .next (s.doorbell ring fun r => { r with headWritten := some value }) :=
  (apply_ite Host.Outcome.next _ _ _).symm

theorem exec_abortIndexWrite (ring value : Nat) (s : State) :
    exec (.abortIndexWrite ring value) s = .next (s.doorbell ring fun r => { r with abortWritten := some value }) :=
  (apply_ite Host.Outcome.next _ _ _).symm

/-! ## A write of ENABLE, and the tick that observes it -/

theorem exec_ringEnable_of_idle {ring : Nat} {s : State} (busy : s.seen.busy ring = false) (off : (s.ring ring).enabled = false)
    (due : (s.ring ring).startDue = none) :
    exec (.ringEnable ring) s = .next (s.updRing ring fun r => { r with enableBit := true, enableWritten := some true }) :=
  congrArg Host.Outcome.next (if_neg (by simp [busy, off, due]))

theorem exec_ringEnable_of_taken {ring : Nat} {s : State}
    (h : s.seen.busy ring = true ∨ (s.ring ring).enabled = true ∨ (s.ring ring).startDue.isSome) : exec (.ringEnable ring) s = .next s :=
  congrArg Host.Outcome.next (if_pos (by simpa [or_assoc] using h))

section Sample
variable {s : State} {n : Nat}

theorem State.enableSample_of_unwritten (h : (s.ring n).enableWritten = none) : s.enableSample n = s := by
  simp [State.enableSample, h]

theorem State.enableSample_of_accepted (h : (s.ring n).enableWritten = some true) (off : (s.ring n).enabled = false) (code : s.enableRefusal n = 0) :
    s.enableSample n = s.updRing n fun r =>
      { r with enableWritten := none, startDue := some (s.tick + 1, s.firstLimit n), errorDue := some (s.tick + 1, 0) } := by
  simp [State.enableSample, State.updRing, h, off, code]

theorem State.enableSample_of_refused (h : (s.ring n).enableWritten = some true) (off : (s.ring n).enabled = false) (code : s.enableRefusal n ≠ 0) :
    s.enableSample n = s.updRing n fun r => { r with enableWritten := none, errorDue := some (s.tick + 1, s.enableRefusal n) } := by
  simp [State.enableSample, State.updRing, h, off, code]

theorem State.enableSample_of_disable (h : (s.ring n).enableWritten = some false) :
    s.enableSample n = s.updRing n fun r =>
      { r with enableWritten := none, enabled := false, startDue := none, errorDue := some (s.tick + 1, 0), tailWritten := none
               headWritten := none, abortWritten := none } := by
  simp [State.enableSample, State.updRing, h]

/-! ## What shows at the next tick -/

theorem State.enableShows_before {d limit : Nat} (h : (s.ring n).startDue = some (d, limit)) (early : s.tick < d) : s.enableShows n = s := by
  simp [State.enableShows, h, early]

theorem State.enableShows_at {d limit : Nat} (h : (s.ring n).startDue = some (d, limit)) (due : d ≤ s.tick) :
    s.enableShows n = s.updRing n fun r =>
      { r with enabled := true, startDue := none, tl := 0, sh := 0, cp := 0, ch := 0, limit := limit, tailWritten := none
               headWritten := none, abortWritten := none, abortMarks := [], lastShadow := [] } := by
  simp [State.enableShows, State.updRing, h, Nat.not_lt.mpr due]

theorem State.errorShows_before {d code : Nat} (h : (s.ring n).errorDue = some (d, code)) (early : s.tick < d) : s.errorShows n = s := by
  simp [State.errorShows, h, early]

theorem State.ring_setRing (r : RingPair) (wf : SMap.wf RingPair.reset s.rings = true) : (s.setRing n r).ring n = r :=
  SMap.get_set _ _ _ _ wf

/-- Whether or not the change of the code raises the ring pair's source. -/
theorem State.errorShows_at {d code : Nat} (h : (s.ring n).errorDue = some (d, code)) (wf : SMap.wf RingPair.reset s.rings = true)
    (due : d ≤ s.tick) : ((s.errorShows n).ring n).error = code := by
  simp only [State.errorShows, h, if_neg (Nat.not_lt.mpr due)]
  split
  · rw [State.ring_setRing _ (by simpa using wf)]
  · rw [State.ring_setRing _ wf]

end Sample

/-! ## Table 3.9 -/

theorem State.enableRefusal_order (s : State) (ring : Nat) :
    let r := s.ring ring
    let c := s.slice (s.ringSlice ring)
    let badK := r.k < 4 ∨ 16 < r.k
    let badSlice := 1024 ≤ s.ringSlice ring ∨ c.mig ≠ .running ∨ c.resetting.isSome = true
    let badBase := r.sqBase % 4096 ≠ 0 ∨ r.cqBase % 4096 ≠ 0 ∨ r.shadowBase % 64 ≠ 0
    let badPasid := s.host.pasidEnable = false ∧ s.ringSlice ring ≠ 0
    (badK → s.enableRefusal ring = 4) ∧ (¬ badK → badSlice → s.enableRefusal ring = 5) ∧
      (¬ badK → ¬ badSlice → badBase → s.enableRefusal ring = 6) ∧
      (¬ badK → ¬ badSlice → ¬ badBase → badPasid → s.enableRefusal ring = 7) ∧
      (¬ badK → ¬ badSlice → ¬ badBase → ¬ badPasid → s.enableRefusal ring = 0) := by
  intro r c badK badSlice badBase badPasid
  have e : s.enableRefusal ring = if badK then 4 else if badSlice then 5 else if badBase then 6 else if badPasid then 7 else 0 := by
    simp only [badPasid, ← Bool.not_eq_true]
    rfl
  rw [e]
  exact ⟨fun k => if_pos k, fun k c => by rw [if_neg k, if_pos c], fun k c b => by rw [if_neg k, if_neg c, if_pos b],
    fun k c b p => by rw [if_neg k, if_neg c, if_neg b, if_pos p], fun k c b p => by rw [if_neg k, if_neg c, if_neg b, if_neg p]⟩

/-- Settles O11: doorbells and ENABLE by their rows, the tick by what a waiting write or a staged change makes of it, the codes in their order. -/
theorem ringEnableAndDisable : Obligations.RingEnableAndDisable := by
  unfold Obligations.RingEnableAndDisable
  refine ⟨fun ring value s => ⟨fun on => ?on, fun off => ?off⟩, fun ring s => ⟨exec_ringEnable_of_idle, exec_ringEnable_of_taken, rfl⟩,
    fun ring s => ⟨State.enableSample_of_unwritten, State.enableSample_of_accepted, State.enableSample_of_refused, State.enableSample_of_disable,
      fun d limit h => ⟨State.enableShows_before h, State.enableShows_at h⟩,
      fun d code h wf => ⟨State.errorShows_before h, State.errorShows_at h wf⟩⟩,
    fun ring s => s.enableRefusal_order ring⟩
  case on =>
    rw [exec_sqTailWrite, exec_cqHeadWrite, exec_abortIndexWrite]
    simp only [State.doorbell_of_enabled _ on]
    exact ⟨rfl, rfl, rfl⟩
  case off =>
    rw [exec_sqTailWrite, exec_cqHeadWrite, exec_abortIndexWrite]
    simp only [State.doorbell_of_disabled _ off, and_self]

/-! ## The tunnel window and MSI-X -/

section Tunnel
variable {s : State}

theorem State.outGo_of_tunnelOn (h : s.tunnelOn = true) :
    s.outGo = { s with host := { s.host with tunnel := { s.host.tunnel with outGo := true } } } := if_pos h

theorem State.outGo_of_tunnelOff (h : s.tunnelOn = false) : s.outGo = s := if_neg (by simp [h])

theorem State.inFullClear_of_tunnelOn (h : s.tunnelOn = true) :
    s.inFullClear = { s with host := { s.host with tunnel := { s.host.tunnel with inFull := false } } } := if_pos h

theorem State.inFullClear_of_tunnelOff (h : s.tunnelOn = false) : s.inFullClear = s := if_neg (by simp [h])

end Tunnel

/-- The vectors whose message is due, with one more where its pending bit is set. -/
def dueUnmasked (v : Nat) (pending due : List Nat) : List Nat := if pending.contains v && !due.contains v then due ++ [v] else due

theorem dueUnmasked_contains {v : Nat} {pending : List Nat} (h : pending.contains v = true) (due : List Nat) :
    (dueUnmasked v pending due).contains v = true := by
  unfold dueUnmasked
  split
  · simp
  · next c => simpa only [h, Bool.true_and, Bool.not_eq_true', Bool.not_eq_false] using c

theorem dueUnmasked_of_not_pending {v : Nat} {pending : List Nat} (h : pending.contains v = false) (due : List Nat) : dueUnmasked v pending due = due :=
  if_neg (by simp only [h, Bool.false_and, Bool.false_eq_true, not_false_eq_true])

/-- A vector unmasked (R72). -/
theorem State.msixUnmask_eq (s : State) (v : Nat) : s.msixUnmask v = { s with host := { s.host with
    msix := SMap.set MsixVector.reset v { s.msixVector v with masked := false } s.host.msix
    unmasked := dueUnmasked v s.host.msixPending s.host.unmasked } } := by
  unfold State.msixUnmask dueUnmasked
  dsimp only [State.setMsix]
  split <;> rfl

/-! ## BAR writes -/

theorem barSize_slices : barSize 2 = 4096 * 1024 := rfl
theorem barSize_rings : barSize 4 = 4096 * 4096 := rfl

theorem exec_barRegisterWrite_of_bad {bar offset size : Nat} (v : Nat) (s : State)
    (h : ¬((size = 4 ∨ size = 8) ∧ offset % size = 0 ∧ offset < barSize bar)) :
    exec (.barRegisterWrite bar offset size v) s = .next { s with
      host := { s.host with aer := s.host.aer ||| 2 ^ 20 }, sent := s.sent ++ [.unsupported bar offset] } := if_neg h

theorem exec_barRegisterWrite_of_word {bar offset v : Nat} (s : State) (aligned : offset % 4 = 0) (inside : offset < barSize bar) (hv : v < 2 ^ 32) :
    exec (.barRegisterWrite bar offset 4 v) s = .next (s.barWrite32 bar offset v) := by
  have good : (4 = 4 ∨ 4 = 8) ∧ offset % 4 = 0 ∧ offset < barSize bar := ⟨.inl rfl, aligned, inside⟩
  refine (if_pos good).trans ?_
  rw [Nat.mod_eq_of_lt hv]
  rfl

/-- The register at offset `o` of ring page `n`. -/
theorem exec_barRegisterWrite_ringPage {n o v : Nat} (s : State) (hn : n < 4096) (ho : o < 4096) (aligned : o % 4 = 0) (hv : v < 2 ^ 32) :
    exec (.barRegisterWrite 4 (4096 * n + o) 4 v) s = .next (s.bar4Write (4096 * n + o) v) :=
  exec_barRegisterWrite_of_word s (by omega) (by rw [barSize_rings]; omega) hv

section RingPage
variable {n v : Nat} {s : State}

theorem State.bar4Write_sqTail : s.bar4Write (4096 * n) v = s.doorbell n fun r => { r with tailWritten := some v } := by
  simp [State.bar4Write, State.doorbell, State.updRing]

theorem State.bar4Write_cqHead : s.bar4Write (4096 * n + 8) v = s.doorbell n fun r => { r with headWritten := some v } := by
  simp [State.bar4Write, State.doorbell, State.updRing, Nat.mul_add_div]

theorem State.bar4Write_abortIndex : s.bar4Write (4096 * n + 16) v = s.doorbell n fun r => { r with abortWritten := some v } := by
  simp [State.bar4Write, State.doorbell, State.updRing, Nat.mul_add_div]

/-- The low half of the SQ base, while ENABLE and BUSY are 0 (R62). -/
theorem State.bar4Write_sqBase : s.bar4Write (4096 * n + 0x48) v =
    if (s.ring n).enableBit = false ∧ s.seen.busy n = false then s.updRing n fun r => { r with sqBase := r.sqBase / 2 ^ 32 * 2 ^ 32 + v } else s := by
  simp [State.bar4Write, State.updRing, Nat.mul_add_div, setHalf]

end RingPage

theorem State.bar2Write_slcReset (s : State) (n : Nat) : s.bar2Write (4096 * n) 1 = s.slcWrite n := by
  by_cases h : s.seen.mapped n = true
  · simp [State.bar2Write, h, bitOf]
  · simp [State.bar2Write, State.slcWrite, h]

/-- Settles O12: each register by the operation of its own row, a write that is no register access by its refusal. -/
theorem hostRegisterWrites : Obligations.HostRegisterWrites := by
  unfold Obligations.HostRegisterWrites
  refine ⟨fun s => ⟨fun on => ?tunnelOn, fun off => ?tunnelOff, fun _ => rfl⟩, fun v s => ?msix,
    fun n v s hn => ⟨fun _ _ _ h => ?bad, fun hv => ?ring, fun hn => ?slice⟩⟩
  case tunnelOn => exact ⟨congrArg _ (State.outGo_of_tunnelOn on), congrArg _ (State.inFullClear_of_tunnelOn on)⟩
  case tunnelOff => exact ⟨congrArg _ (State.outGo_of_tunnelOff off), congrArg _ (State.inFullClear_of_tunnelOff off)⟩
  case msix =>
    exact ⟨_, congrArg Host.Outcome.next (s.msixUnmask_eq v), rfl, fun h => dueUnmasked_contains h _, fun h => dueUnmasked_of_not_pending h _, rfl⟩
  case bad => exact exec_barRegisterWrite_of_bad v s h
  case ring =>
    have page (o : Nat) (ho : o < 4096) (aligned : o % 4 = 0) := exec_barRegisterWrite_ringPage s hn ho aligned hv
    rw [exec_sqTailWrite, exec_cqHeadWrite, exec_abortIndexWrite, page 8 (by decide) rfl, page 16 (by decide) rfl, page 0x48 (by decide) rfl,
      State.bar4Write_cqHead, State.bar4Write_abortIndex, State.bar4Write_sqBase]
    refine ⟨(page 0 (by decide) rfl).trans (congrArg _ State.bar4Write_sqTail), rfl, rfl, fun bit busy => ?_, fun taken => ?_⟩
    · rw [if_pos ⟨bit, busy⟩]
      rfl
    · rw [if_neg (by rcases taken with h | h <;> simp [h])]
  case slice =>
    rw [exec_barRegisterWrite_of_word s (by omega) (by rw [barSize_slices]; omega) (by decide)]
    exact congrArg _ (s.bar2Write_slcReset n)

end Sys2Proof.Machine
end

section
/-! # Reads of jobs: their failure, their data, their time (R76 to R78, R84, R88, R288)

What the end of an outstanding read does is said once for each kind of read, failed or with its data; the rows come to it while the guard
is on. A failed read leaves the ring pairs, or the job, as the rules say; data go through the check of the DMA access into the job's buffer
and its context, and wait there while the job cannot be parsed. -/

namespace Sys2Proof.Machine

/-! ## The job of a number -/

theorem State.id_of_job? {s : State} {id : Nat} {j : Job} (h : s.job? id = some j) : j.id = id := by simpa using List.find?_some h

theorem State.mem_of_job? {s : State} {id : Nat} {j : Job} (h : s.job? id = some j) : j ∈ s.jobs := List.mem_of_find?_eq_some h

theorem State.job?_updJob {s : State} {id : Nat} {j : Job} {f : Job → Job} (h : s.job? id = some j) (keeps : ∀ i, (f i).id = i.id) :
    (s.updJob id f).job? id = some (f j) := by
  have same : (fun i : Job => i.id == id) ∘ (fun i => if i.id = id then f i else i) = fun i => i.id == id := by
    funext i
    by_cases hi : i.id = id <;> simp [hi, keeps]
  rw [State.job?, State.updJob_jobs, List.find?_map, same, ← State.job?, h, Option.map_some, if_pos (State.id_of_job? h)]

/-! ## The end of a read while the guard is on -/

theorem exec_dmaReadComplete_of_guardOn {s : State} (on : s.keeper.guardOn = true) (id : Nat) (what : ReadKind) (data : Option Bytes) :
    exec (.dmaReadComplete id what data) s = .next (s.readEnds id what data) := congrArg Host.Outcome.next (if_pos on)

theorem exec_dmaReadComplete_of_guardOff {s : State} (off : s.keeper.guardOn = false) (id : Nat) (what : ReadKind) (data : Option Bytes) :
    exec (.dmaReadComplete id what data) s = .next { s with keeper := { s.keeper with held := s.keeper.held ++ [.dmaReadComplete id what data] } } :=
  congrArg Host.Outcome.next (if_neg (by simp [off]))

section Reads
variable {s : State} {id : Nat} {j : Job} (hj : s.job? id = some j)
include hj

theorem State.readEnds_of_not_outstanding {what : ReadKind} (h : j.outstanding what = false) (data : Option Bytes) : s.readEnds id what data = s := by
  simp [State.readEnds, hj, h]

theorem State.readEnds_piece_failed {what : ReadKind} (piece : what ≠ .descriptor) (h : j.outstanding what = true) :
    s.readEnds id what none = s.bufferFault j := by
  cases what
  case descriptor => exact absurd rfl piece
  all_goals simp [State.readEnds, hj, h]

theorem State.readEnds_descriptor_failed (h : j.outstanding .descriptor = true) : s.readEnds id .descriptor none = s.descFailed j := by
  simp [State.readEnds, hj, h]

theorem State.readEnds_label (h : j.outstanding .label = true) (b : Bytes) :
    s.readEnds id .label (some b) = ((s.dmaFill j 2 (fit j.desc.labelLength b)).updJob id fun i =>
      { i with label := fit i.desc.labelLength b, labelDone := true }).parseIfReady id := by
  simp [State.readEnds, hj, h]

theorem State.readEnds_whole_input (h : j.outstanding .input = true) (whole : opStream j.op = false) (b : Bytes) :
    s.readEnds id .input (some b) = ((s.dmaFill j 1 b).updJob id fun i =>
      { i with input := (j.input ++ b).take j.asked, inputDone := decide (i.n ≤ ((j.input ++ b).take j.asked).length) }).parseIfReady id := by
  simp [State.readEnds, hj, h, whole]

theorem State.parseIfReady_of_not_canParse (h : j.canParse = false) : s.parseIfReady id = s := by
  simp [State.parseIfReady, hj, h]

end Reads

/-! ## A failed descriptor read -/

/-- The jobs whose descriptors go with the failed one of `j` (R78, R125). -/
def State.goneWith (s : State) (j : Job) : List Job :=
  s.jobs.filter fun i => i.id == j.id || (!j.refetch && i.ring == j.ring && !i.refetch && !i.descDone && decide (j.id ≤ i.id))

/-- Jobs dropped without a record, their buffers scrubbed. -/
def State.dropJobs (s : State) (gone : List Job) : State := gone.foldl (fun st i => (st.scrubJob i).abandon i.id) s

/-- A ring pair stopped at its failed descriptor. -/
def State.stopAt (s : State) (j : Job) : State :=
  s.updRing j.ring fun r => { r with errorDue := some (s.tick + 2, 1), sh := if j.refetch then r.sh else j.index }

theorem State.dropJobs_tick (s : State) (gone : List Job) : (s.dropJobs gone).tick = s.tick := by simp [State.dropJobs]

theorem State.dropJobs_rings (s : State) (gone : List Job) : (s.dropJobs gone).rings = s.rings := by
  induction gone generalizing s with
  | nil => rfl
  | cons g gone ih => exact ih _

theorem State.dropJobs_sent (s : State) (gone : List Job) : (s.dropJobs gone).sent = s.sent := by
  induction gone generalizing s with
  | nil => rfl
  | cons g gone ih => exact ih _

theorem State.dropJobs_subset {s : State} {gone : List Job} {i : Job} (h : i ∈ (s.dropJobs gone).jobs) : i ∈ s.jobs := by
  induction gone generalizing s with
  | nil => exact h
  | cons g gone ih => exact List.mem_of_mem_filter (ih h)

theorem State.not_mem_dropJobs {s : State} {gone : List Job} {g i : Job} (hg : g ∈ gone) (h : i ∈ (s.dropJobs gone).jobs) : i.id ≠ g.id := by
  induction gone generalizing s with
  | nil => cases hg
  | cons g' gone ih =>
    cases hg with
    | head =>
      have kept : i ∈ (s.dropJob g.id).jobs := State.dropJobs_subset (s := (s.scrubJob g).abandon g.id) h
      simpa using (List.mem_filter.mp kept).2
    | tail _ hg => exact ih hg h

/-- Of a job fetched again, the parked ones of its ring pair go as well. -/
theorem State.descFailed_eq (s : State) (j : Job) :
    let t := ((s.readFault j.ring).dropJobs (s.goneWith j)).stopAt j
    s.descFailed j = if j.refetch then t.updSlice j.slice fun c => { c with parked := c.parked.filter fun p => decide (p.ring ≠ j.ring) } else t := rfl

theorem State.descFailed_blocks (s : State) (j : Job) :
    let t := (s.readFault j.ring).dropJobs (s.goneWith j)
    (s.descFailed j).rings = (t.stopAt j).rings ∧ (s.descFailed j).jobs = t.jobs ∧ (s.descFailed j).sent = t.sent := by
  simp only [State.descFailed_eq]
  split <;> exact ⟨rfl, rfl, rfl⟩

theorem State.descFailed_rings (s : State) (j : Job) : (s.descFailed j).rings = SMap.set RingPair.reset j.ring { s.ring j.ring with
    errorDue := some (s.tick + 2, 1), sh := if j.refetch then (s.ring j.ring).sh else j.index } s.rings := by
  have rings := (s.readFault j.ring).dropJobs_rings (s.goneWith j)
  have tick := (s.readFault j.ring).dropJobs_tick (s.goneWith j)
  obtain ⟨stopped, -, -⟩ := s.descFailed_blocks j
  rw [stopped]
  simp only [State.stopAt, State.updRing, State.setRing, State.ring, rings, tick]
  rfl

theorem State.descFailed_sent (s : State) (j : Job) : (s.descFailed j).sent = s.sent ++ [.readFailed j.ring] := by
  obtain ⟨-, -, sent⟩ := s.descFailed_blocks j
  rw [sent, State.dropJobs_sent]
  rfl

theorem State.descFailed_drops {s : State} {id : Nat} {j i : Job} (hj : s.job? id = some j) (h : i ∈ (s.descFailed j).jobs) : i.id ≠ j.id := by
  obtain ⟨-, jobs, -⟩ := s.descFailed_blocks j
  rw [jobs] at h
  exact State.not_mem_dropJobs (List.mem_filter.mpr ⟨State.mem_of_job? hj, by simp⟩) h

/-- Settles O13: an outstanding read ends by its kind; of a descriptor, what goes is dropped job by job. -/
theorem failedReadEndsJob : Obligations.FailedReadEndsJob := by
  unfold Obligations.FailedReadEndsJob
  refine ⟨fun id j s on hj => ⟨fun what piece out => ?piece, fun out => ?descriptor, fun what data idle => ?idle⟩,
    fun id what data s off => exec_dmaReadComplete_of_guardOff off id what data⟩
  all_goals simp only [exec_dmaReadComplete_of_guardOn on]
  case piece => exact ⟨_, congrArg _ (State.readEnds_piece_failed hj piece out), rfl, rfl, rfl⟩
  case descriptor =>
    exact ⟨_, congrArg _ (State.readEnds_descriptor_failed hj out), s.descFailed_rings j, fun _ => State.descFailed_drops hj, s.descFailed_sent j⟩
  case idle => exact congrArg _ (State.readEnds_of_not_outstanding hj idle data)

/-! ## Data that arrive -/

section Fill
variable {s : State} {j : Job} {k : Nat} {b : Bytes}

theorem State.dmaFill_of_clear (h : (s.dmaMeets j k (min b.length (j.bufs.getD k (0, 0)).2) true).1 = 0) :
    s.dmaFill j k b = { s with wm := (s.fillBuf j k b).wm } := by
  obtain ⟨region, clear⟩ : ∃ r, s.dmaMeets j k (min b.length (j.bufs.getD k (0, 0)).2) true = (0, r) := ⟨_, Prod.ext h rfl⟩
  simp only [State.dmaFill, State.dmaCheck, clear]
  rfl

/-- Words of another colour (R288): the data are dropped. -/
theorem State.dmaFill_of_otherColour (h : (s.dmaMeets j k (min b.length (j.bufs.getD k (0, 0)).2) true).1 = 1) :
    s.dmaFill j k b = ((s.count Key.KPR_COLOUR_FAULTS).event 0x2504).force j.id stFault (0xF3 + 256) := by
  obtain ⟨region, other⟩ : ∃ r, s.dmaMeets j k (min b.length (j.bufs.getD k (0, 0)).2) true = (1, r) := ⟨_, Prod.ext h rfl⟩
  simp only [State.dmaFill, State.dmaCheck, other]
  rfl

end Fill

/-- A job's status fixed, unless it has completed (R100). -/
def Job.forcedTo (status result : Nat) (j : Job) : Job :=
  if j.phase = .staged then { j with outcome := some ⟨status, [], result, none, none⟩ }
  else { j with forced := (match j.forced with | none => some (status, result) | some f => some f) }

theorem State.force_eq_updJob (s : State) (id status result : Nat) : s.force id status result = s.updJob id (Job.forcedTo status result) := rfl

theorem Job.forcedTo_id (status result : Nat) (j : Job) : (j.forcedTo status result).id = j.id := by
  unfold Job.forcedTo
  split <;> rfl

theorem Job.forcedTo_of_free {status result : Nat} {j : Job} (phase : j.phase ≠ .staged) (free : j.forced = none) :
    j.forcedTo status result = { j with forced := some (status, result) } := by
  simp [Job.forcedTo, phase, free]

theorem Job.not_staged_of_input {j : Job} (h : j.outstanding .input = true) : j.phase ≠ .staged := by
  intro staged
  simp [Job.outstanding, Job.reading, staged] at h

/-- The context of a job with input bytes put in. -/
def Job.withInput (inp : Bytes) (j : Job) : Job := { j with input := inp, inputDone := decide (j.n ≤ inp.length) }

/-- The context of a job with its label put in. -/
def Job.withLabel (b : Bytes) (j : Job) : Job := { j with label := fit j.desc.labelLength b, labelDone := true }

section Data
variable {s : State} {id : Nat} {j : Job} (hj : s.job? id = some j)
include hj

theorem State.label_enters {b : Bytes} (out : j.outstanding .label = true)
    (clear : (s.dmaMeets j 2 (min (fit j.desc.labelLength b).length (j.bufs.getD 2 (0, 0)).2) true).1 = 0) (waits : (j.withLabel b).canParse = false) :
    s.readEnds id .label (some b) = ({ s with wm := (s.fillBuf j 2 (fit j.desc.labelLength b)).wm } : State).updJob id (Job.withLabel b) := by
  rw [State.readEnds_label hj out, State.dmaFill_of_clear clear]
  have arrived : (({ s with wm := (s.fillBuf j 2 (fit j.desc.labelLength b)).wm } : State).updJob id (Job.withLabel b)).job? id = some (j.withLabel b) :=
    State.job?_updJob hj fun _ => rfl
  exact State.parseIfReady_of_not_canParse arrived waits

variable {b : Bytes} (out : j.outstanding .input = true) (whole : opStream j.op = false)
  (waits : (j.withInput ((j.input ++ b).take j.asked)).canParse = false)
include out whole waits

theorem State.input_enters (clear : (s.dmaMeets j 1 (min b.length (j.bufs.getD 1 (0, 0)).2) true).1 = 0) :
    s.readEnds id .input (some b) =
      ({ s with wm := (s.fillBuf j 1 b).wm } : State).updJob id (Job.withInput ((j.input ++ b).take j.asked)) := by
  rw [State.readEnds_whole_input hj out whole, State.dmaFill_of_clear clear]
  have arrived : (({ s with wm := (s.fillBuf j 1 b).wm } : State).updJob id (Job.withInput ((j.input ++ b).take j.asked))).job? id =
      some (j.withInput ((j.input ++ b).take j.asked)) := State.job?_updJob hj fun _ => rfl
  exact State.parseIfReady_of_not_canParse arrived waits

/-- The words stay; the context takes the bytes, and the job's status is fixed. -/
theorem State.input_of_otherColour (other : (s.dmaMeets j 1 (min b.length (j.bufs.getD 1 (0, 0)).2) true).1 = 1) (free : j.forced = none) :
    let u := ((s.count Key.KPR_COLOUR_FAULTS).event 0x2504).force id stFault (0xF3 + 256)
    let t := u.updJob id (Job.withInput ((j.input ++ b).take j.asked))
    s.readEnds id .input (some b) = t ∧ ∃ i ∈ t.jobs, i.id = id ∧ i.input = (j.input ++ b).take j.asked ∧ i.forced = some (stFault, 0xF3 + 256) := by
  intro u t
  have fixed : u.job? id = some { j with forced := some (stFault, 0xF3 + 256) } := by
    rw [← Job.forcedTo_of_free (Job.not_staged_of_input out) free]
    exact State.job?_updJob (s := (s.count Key.KPR_COLOUR_FAULTS).event 0x2504) hj (Job.forcedTo_id _ _)
  have arrived : t.job? id = some (({ j with forced := some (stFault, 0xF3 + 256) } : Job).withInput ((j.input ++ b).take j.asked)) :=
    State.job?_updJob fixed fun _ => rfl
  refine ⟨?_, _, State.mem_of_job? arrived, State.id_of_job? arrived, rfl, rfl⟩
  rw [State.readEnds_whole_input hj out whole, State.dmaFill_of_otherColour other, State.id_of_job? hj]
  exact State.parseIfReady_of_not_canParse arrived waits

end Data

/-! ## HST_READ_TIMEOUT -/

theorem Job.issued_eq (j : Job) (what : ReadKind) : j.issued what = if what = .label then j.labelSince else j.readSince := by
  cases what <;> rfl

theorem exec_readTimeout {s : State} {id : Nat} {j : Job} (hj : s.job? id = some j) (what : ReadKind) :
    exec (.readTimeout id what) s =
      if j.outstanding what = true ∧ (if what = .label then j.labelSince else j.readSince) + s.ticksOf (s.num Key.HST_READ_TIMEOUT) ≤ s.tick
      then .next (s.readEnds id what none) else .next s := by
  simp [exec, execReadTimeout, hj, Job.issued_eq]

/-- Settles O14: data by what their access meets, the timeout by the tick at which the read was issued. -/
theorem readDataEntersJobInTime : Obligations.ReadDataEntersJobInTime := by
  unfold Obligations.ReadDataEntersJobInTime
  refine ⟨fun id j b s on hj => ⟨fun out clear waits => ?label, fun out whole waits => ⟨fun clear => ?input, fun other free => ?colour⟩⟩,
    fun id what j s on hj => ⟨fun out late => ?late, fun early => ?early⟩⟩
  case label => exact (exec_dmaReadComplete_of_guardOn on _ _ _).trans (congrArg _ (State.label_enters hj out clear waits))
  case input => exact (exec_dmaReadComplete_of_guardOn on _ _ _).trans (congrArg _ (State.input_enters hj out whole waits clear))
  case colour =>
    obtain ⟨ends, entered⟩ := State.input_of_otherColour hj out whole waits other free
    exact ⟨_, (exec_dmaReadComplete_of_guardOn on _ _ _).trans (congrArg _ ends), rfl, entered, rfl, rfl⟩
  case late => rw [exec_readTimeout hj, if_pos ⟨out, late⟩, exec_dmaReadComplete_of_guardOn on]
  case early =>
    rw [exec_readTimeout hj, if_neg]
    rintro ⟨out, late⟩
    rcases early with idle | early
    · simp [idle] at out
    · omega

end Sys2Proof.Machine
end

section
/-! # The clock-crossing FIFOs and the host link (R51, R74, R75)

The check of an entry rests on two sums that exclusive or takes apart: the syndrome and the overall parity. Both are 0 of an entry as
written. Of one wrong bit the parity is 1 and the syndrome is the bit's position, and no two bits have one position, so that one wrong bit
is told from none and from two. -/

namespace Sys2Proof.Machine

/-! ## The syndrome of data -/

/-- The positions whose data bit is 1, added up by exclusive or. -/
def xorAt (d : BitVec 64) (a : Nat) (l : List (Nat × Nat)) : Nat := (l.filter fun x => d.getLsbD x.2).foldl (fun a x => a ^^^ x.1) a

theorem syndromeOf_eq (d : BitVec 64) : syndromeOf d = xorAt d 0 hammingData.zipIdx := rfl

theorem xorAt_cons (d : BitVec 64) (a : Nat) (x : Nat × Nat) (l : List (Nat × Nat)) :
    xorAt d a (x :: l) = xorAt d (if d.getLsbD x.2 then a ^^^ x.1 else a) l := by
  unfold xorAt
  rw [List.filter_cons]
  split <;> rfl

/-- By the bits of both at the first position. -/
theorem xorAt_xor (d e : BitVec 64) (l : List (Nat × Nat)) (a b : Nat) : xorAt (d ^^^ e) (a ^^^ b) l = xorAt d a l ^^^ xorAt e b l := by
  induction l generalizing a b with
  | nil => rfl
  | cons x l ih =>
    simp only [xorAt_cons, ← ih, BitVec.getLsbD_xor]
    congr 1
    cases d.getLsbD x.2 <;> cases e.getLsbD x.2
    · rfl
    · exact Nat.xor_assoc a b x.1
    · simp only [Bool.xor_false, if_true, Bool.false_eq_true, if_false]
      rw [Nat.xor_assoc, Nat.xor_comm b, Nat.xor_assoc]
    · simp only [Bool.xor_self, if_true, Bool.false_eq_true, if_false]
      rw [Nat.xor_comm b, Nat.xor_assoc, ← Nat.xor_assoc x.1, Nat.xor_self, Nat.zero_xor]

theorem syndromeOf_xor (d e : BitVec 64) : syndromeOf (d ^^^ e) = syndromeOf d ^^^ syndromeOf e := xorAt_xor d e _ 0 0

theorem xorAt_lt (d : BitVec 64) (l : List (Nat × Nat)) (hl : ∀ x ∈ l, x.1 < 2 ^ 7) {a : Nat} (ha : a < 2 ^ 7) : xorAt d a l < 2 ^ 7 := by
  induction l generalizing a with
  | nil => exact ha
  | cons x l ih =>
    rw [xorAt_cons]
    refine ih (fun y hy => hl y (List.mem_cons_of_mem _ hy)) ?_
    split
    · exact Nat.xor_lt_two_pow ha (hl x List.mem_cons_self)
    · exact ha

theorem syndromeOf_lt (d : BitVec 64) : syndromeOf d < 2 ^ 7 := xorAt_lt d _ (by decide +kernel) (by decide)

/-! ## Parity -/

theorem parity_succ (n w : Nat) : parity n (w + 1) = (parity n w + b2n (bitOf n w)) % 2 := by
  simp [parity, List.range_succ]

theorem b2n_xor (a b : Bool) : b2n (a ^^ b) = (b2n a + b2n b) % 2 := by cases a <;> cases b <;> rfl

theorem parity_xor (m n w : Nat) : parity (m ^^^ n) w = (parity m w + parity n w) % 2 := by
  induction w with
  | zero => rfl
  | succ w ih =>
    have bit : b2n (bitOf (m ^^^ n) w) = (b2n (bitOf m w) + b2n (bitOf n w)) % 2 := by rw [bitOf, Nat.testBit_xor, b2n_xor]; rfl
    simp only [parity_succ, ih, bit]
    omega

theorem parity_mod (n w k : Nat) (h : w ≤ k) : parity (n % 2 ^ k) w = parity n w := by
  induction w with
  | zero => rfl
  | succ w ih =>
    have bit : bitOf (n % 2 ^ k) w = bitOf n w := by simp [bitOf, Nat.testBit_mod_two_pow, Nat.lt_of_succ_le h]
    rw [parity_succ, parity_succ, bit, ih (Nat.le_of_succ_le h)]

/-! ## The two sums over an entry -/

/-- The check bits that an entry holds. -/
def heldBits (e : BitVec 72) : Nat := e.toNat / 2 ^ 64

def entrySyndrome (e : BitVec 72) : Nat := syndromeOf (e.setWidth 64) ^^^ heldBits e % 2 ^ 7

def entryParity (e : BitVec 72) : Nat := (parity (e.setWidth 64).toNat 64 + parity (heldBits e) 8) % 2

theorem checkEntry_eq (e : BitVec 72) : checkEntry e =
    if entrySyndrome e = 0 ∧ entryParity e = 0 then .clean else if entryParity e = 1 ∧ entrySyndrome e < 72 then .corrected else .uncorrectable := rfl

theorem heldBits_xor (e f : BitVec 72) : heldBits (e ^^^ f) = heldBits e ^^^ heldBits f := by
  rw [heldBits, BitVec.toNat_xor, Nat.xor_div_two_pow]
  rfl

theorem entrySyndrome_xor (e f : BitVec 72) : entrySyndrome (e ^^^ f) = entrySyndrome e ^^^ entrySyndrome f := by
  simp only [entrySyndrome, BitVec.setWidth_xor, syndromeOf_xor, heldBits_xor, Nat.xor_mod_two_pow]
  ac_rfl

theorem entryParity_xor (e f : BitVec 72) : entryParity (e ^^^ f) = (entryParity e + entryParity f) % 2 := by
  simp only [entryParity, BitVec.setWidth_xor, BitVec.toNat_xor, heldBits_xor, parity_xor]
  omega

/-! ## An entry as written -/

theorem heldBits_append (c : BitVec 8) (d : BitVec 64) : heldBits (c ++ d) = c.toNat := by
  rw [heldBits, BitVec.toNat_append, ← Nat.shiftLeft_add_eq_or_of_lt d.isLt, Nat.shiftLeft_eq]
  omega

/-- The bit over all 71 others. -/
def overallBit (d : BitVec 64) : Nat := (parity d.toNat 64 + parity (syndromeOf d) 7) % 2

theorem checkBits_toNat (d : BitVec 64) : (checkBits d).toNat = syndromeOf d + 2 ^ 7 * overallBit d := by
  have syndrome := syndromeOf_lt d
  have bit : overallBit d < 2 := Nat.mod_lt _ (by decide)
  have e : (checkBits d).toNat = (syndromeOf d + 128 * overallBit d) % 2 ^ 8 := rfl
  rw [e]
  omega

theorem entrySyndrome_fifoEntry (d : BitVec 64) : entrySyndrome (fifoEntry d) = 0 := by
  rw [entrySyndrome, fifoEntry, BitVec.setWidth_append_eq_right, heldBits_append, checkBits_toNat, Nat.add_mul_mod_self_left,
    Nat.mod_eq_of_lt (syndromeOf_lt d), Nat.xor_self]

theorem parity_checkBits (d : BitVec 64) : parity (checkBits d).toNat 8 = (parity (syndromeOf d) 7 + overallBit d) % 2 := by
  have low : parity (checkBits d).toNat 7 = parity (syndromeOf d) 7 := by
    rw [← parity_mod _ 7 7 le_rfl, checkBits_toNat, Nat.add_mul_mod_self_left, Nat.mod_eq_of_lt (syndromeOf_lt d)]
  have high : b2n (bitOf (checkBits d).toNat 7) = overallBit d := by
    have syndrome := syndromeOf_lt d
    have bit : overallBit d < 2 := Nat.mod_lt _ (by decide)
    have top : (syndromeOf d + 2 ^ 7 * overallBit d) / 2 ^ 7 % 2 = overallBit d := by omega
    rw [checkBits_toNat, bitOf, Nat.testBit_eq_decide_div_mod_eq, top]
    interval_cases overallBit d <;> rfl
  rw [parity_succ, low, high]

theorem entryParity_fifoEntry (d : BitVec 64) : entryParity (fifoEntry d) = 0 := by
  have bit : overallBit d = (parity d.toNat 64 + parity (syndromeOf d) 7) % 2 := rfl
  rw [entryParity, fifoEntry, BitVec.setWidth_append_eq_right, heldBits_append, parity_checkBits]
  omega

/-! ## Wrong bits -/

/-- The syndrome of one wrong bit: its position of the data, the power of two of a check bit, 0 of the bit over all. -/
def wrongBitSyndromes : List Nat := hammingData ++ [1, 2, 4, 8, 16, 32, 64, 0]

/-- Bit `i` of an entry. -/
def entryBit (i : Nat) : BitVec 72 := BitVec.ofNat 72 (2 ^ i)

theorem entrySyndrome_entryBit : (List.range 72).map (fun i => entrySyndrome (entryBit i)) = wrongBitSyndromes := by decide +kernel

theorem wrongBitSyndromes_nodup : wrongBitSyndromes.Nodup := by decide +kernel

theorem wrongBitSyndromes_lt : ∀ p ∈ wrongBitSyndromes, p < 72 := by decide +kernel

theorem entryParity_entryBit : ∀ i < 72, entryParity (entryBit i) = 1 := by decide +kernel

theorem entrySyndrome_entryBit_lt {i : Nat} (hi : i < 72) : entrySyndrome (entryBit i) < 72 :=
  wrongBitSyndromes_lt _ (entrySyndrome_entryBit ▸ List.mem_map_of_mem (List.mem_range.mpr hi))

theorem entrySyndrome_entryBit_inj {i j : Nat} (hi : i < 72) (hj : j < 72) (h : entrySyndrome (entryBit i) = entrySyndrome (entryBit j)) : i = j :=
  List.inj_on_of_nodup_map (entrySyndrome_entryBit.symm ▸ wrongBitSyndromes_nodup) (List.mem_range.mpr hi) (List.mem_range.mpr hj) h

theorem checkEntry_fifoEntry (d : BitVec 64) : checkEntry (fifoEntry d) = .clean := by
  rw [checkEntry_eq, entrySyndrome_fifoEntry, entryParity_fifoEntry]
  rfl

/-- One wrong bit: the parity is wrong. -/
theorem checkEntry_one_wrong (d : BitVec 64) {i : Nat} (hi : i < 72) : checkEntry (fifoEntry d ^^^ entryBit i) = .corrected := by
  have parity : entryParity (fifoEntry d ^^^ entryBit i) = 1 := by rw [entryParity_xor, entryParity_fifoEntry, entryParity_entryBit i hi]
  have syndrome : entrySyndrome (fifoEntry d ^^^ entryBit i) < 72 := by
    rw [entrySyndrome_xor, entrySyndrome_fifoEntry, Nat.zero_xor]
    exact entrySyndrome_entryBit_lt hi
  rw [checkEntry_eq, if_neg (by omega), if_pos ⟨parity, syndrome⟩]

/-- Two wrong bits: the parity is right, the syndrome is not. -/
theorem checkEntry_two_wrong (d : BitVec 64) {i j : Nat} (hi : i < 72) (hj : j < 72) (h : i ≠ j) :
    checkEntry (fifoEntry d ^^^ entryBit i ^^^ entryBit j) = .uncorrectable := by
  have parity : entryParity (fifoEntry d ^^^ entryBit i ^^^ entryBit j) = 0 := by
    rw [entryParity_xor, entryParity_xor, entryParity_fifoEntry, entryParity_entryBit i hi, entryParity_entryBit j hj]
  have syndrome : entrySyndrome (fifoEntry d ^^^ entryBit i ^^^ entryBit j) ≠ 0 := by
    rw [entrySyndrome_xor, entrySyndrome_xor, entrySyndrome_fifoEntry, Nat.zero_xor, Ne, Nat.xor_eq_zero_iff]
    exact fun same => h (entrySyndrome_entryBit_inj hi hj same)
  rw [checkEntry_eq, if_neg (fun c => syndrome c.1), if_neg (by omega)]

/-! ## Pointers and their crossing -/

/-- The shifts of a Gray code fall in pairs; what is left is the pointer and its shift by 9, which is 0. -/
@[simp] theorem ungray_gray (p : BitVec 9) : ungray (gray p) = p := by
  have pairs (x y : BitVec 9) : x ^^^ (x ^^^ y) = y := by rw [← BitVec.xor_assoc, BitVec.xor_self, BitVec.zero_xor]
  have gone : p >>> 9 = 0#9 := by
    refine BitVec.eq_of_toNat_eq ?_
    simp [Nat.shiftRight_eq_div_pow, Nat.div_eq_of_lt p.isLt]
  simp only [ungray, gray, BitVec.ushiftRight_xor_distrib, ← BitVec.shiftRight_add, Nat.reduceAdd, BitVec.xor_assoc, pairs, gone,
    BitVec.xor_self, BitVec.xor_zero]

theorem Fifo.pop_of_not_empty {f : Fifo} (h : f.empty = false) : f.pop =
    (some (SMap.get 0 f.cells (f.rd.toNat % 256)), { f with rd := f.rd + 1, cells := SMap.set 0 (f.rd.toNat % 256) 0 f.cells }) :=
  if_neg (by simp [h])

/-- Both sides of the FIFO know the other's pointer, and no entry is in it. -/
structure Fifo.Idle (f : Fifo) : Prop where
  same : f.wr = f.rd
  wr0 : f.wrGray0 = gray f.wr
  wr1 : f.wrGray1 = gray f.wr
  rd0 : f.rdGray0 = gray f.rd
  rd1 : f.rdGray1 = gray f.rd

section Idle
variable {f : Fifo} (h : f.Idle)
include h

theorem Fifo.Idle.empty : f.empty = true := by simp [Fifo.empty, h.wr1, h.same]

theorem Fifo.Idle.not_full : f.full = false := by simp [Fifo.full, fifoDist, h.rd1, h.same]

theorem Fifo.Idle.push (e : BitVec 72) : f.push e = { f with wr := f.wr + 1, cells := SMap.set 0 (f.wr.toNat % 256) e f.cells } :=
  if_neg (by simp [h.not_full])

/-- Two edges later the read side sees the entry. -/
theorem Fifo.Idle.not_empty_after_push (e : BitVec 72) : (f.push e).clock.clock.empty = false := by
  simp [h.push, Fifo.empty, Fifo.clock, ← h.same]

theorem Fifo.Idle.cross (e : BitVec 72) :
    let x := (f.push e).clock.clock
    f.cross e = (some (SMap.get 0 x.cells (x.rd.toNat % 256)),
      ({ x with rd := x.rd + 1, cells := SMap.set 0 (x.rd.toNat % 256) 0 x.cells } : Fifo).clock.clock) := by
  rw [Fifo.cross, Fifo.pop_of_not_empty (h.not_empty_after_push e)]

theorem Fifo.Idle.crosses (wf : SMap.wf 0 f.cells = true) (e : BitVec 72) :
    (f.cross e).1 = some e ∧ (f.cross e).2.empty = true ∧ (f.cross e).2.wr = f.wr + 1 := by
  rw [h.cross, h.push, h.same]
  refine ⟨congrArg some (SMap.get_set _ _ _ _ wf), ?_, rfl⟩
  simp [Fifo.empty, Fifo.clock]

end Idle

/-! ## The link -/

/-- A speed and a width of Table 3.1, no wider than CFG_SEL selects. -/
theorem exec_hostLinkRetrain (gen width : Nat) (s : State) : exec (.hostLinkRetrain gen width) s =
    if 1 ≤ gen ∧ gen ≤ 5 ∧ (width = 1 ∨ width = 2 ∨ width = 4 ∨ width = 8) ∧ width ≤ strapWidth s.rst.strap then
      .next { s with host := { s.host with trainedGen := gen, trainedWidth := width, linkUp := true } }
    else .next s := by
  simp [exec, execHostLinkRetrain]

/-- Settles O15: the entry's row by what it carried, the link by its operands, the code by its two sums, the pointers by Gray code. -/
theorem fifoErrorAndRetrain : Obligations.FifoErrorAndRetrain := by
  unfold Obligations.FifoErrorAndRetrain
  refine ⟨fun fifo s => ⟨rfl, rfl, rfl, fun _ => rfl⟩, fun gen width s => ⟨fun ok => ?trained, fun bad => ?refused, rfl⟩,
    fun d => ⟨checkEntry_fifoEntry d, fun _ => checkEntry_one_wrong d, fun _ hi _ hj => checkEntry_two_wrong d hi hj⟩, ungray_gray,
    fun f e same wr0 wr1 rd0 rd1 wf => ?crosses⟩
  case trained => rw [exec_hostLinkRetrain, if_pos ok]
  case refused => rw [exec_hostLinkRetrain, if_neg bad]
  case crosses =>
    have idle : f.Idle := ⟨same, wr0, wr1, rd0, rd1⟩
    exact ⟨idle.empty, idle.not_full, idle.crosses wf e⟩

end Sys2Proof.Machine
end

section
/-! # The operations of Table 4.8 (R91, R95)

Every command of the table is `State.perform` of its opcode with the outcome `State.jobOp` gives that opcode, the one its engine fixes
when no command has run; what the command does is then what `State.perform` does, by whether the job it names can be performed. -/

namespace Sys2Proof.Machine

/-! ## What `State.perform` does -/

/-- Of a job of this opcode that holds all its operation needs the outcome is fixed, and a free value is taken. -/
theorem State.perform_of_performable {s : State} {op id : Nat} {j : Job} (hj : s.job? id = some j) (hop : j.op = op) (hp : j.performable = true)
    (f : Job → Nat → Outcome) : s.perform op id f = { s.setOutcome id (f j s.free) with free := s.free + 1 } := by
  rw [State.perform, hj]
  exact if_pos ⟨hop, hp⟩

/-- Of any other job, and of none, nothing changes. -/
theorem State.perform_of_not_mayPerform {s : State} {op id : Nat} (h : s.mayPerform op id = false) (f : Job → Nat → Outcome) :
    s.perform op id f = s := by
  unfold State.perform
  unfold State.mayPerform at h
  cases hj : s.job? id with
  | none => rfl
  | some j =>
    rw [hj] at h
    exact if_neg (by simpa using h)

/-! ## What a command of the table performs -/

/-- A row of Table 4.8 performs the operation of its own opcode. -/
theorem exec_perform_jobOp_of_engineRow {c : Instr} {op id : Nat} (h : engineRow c = some (op, id)) (s : State) :
    exec c s = .next (s.perform op id (s.jobOp op)) := by
  cases c
  all_goals cases h
  all_goals rfl

/-- Settles O8: the command is `State.perform` of the row's opcode, by whether its job may be performed. -/
theorem engineCommandFixesOutcome : Obligations.EngineCommandFixesOutcome := by
  unfold Obligations.EngineCommandFixesOutcome
  intro c op id s row
  rw [exec_perform_jobOp_of_engineRow row]
  refine ⟨fun j hj hop hp => ?performs, fun other => ?leaves⟩
  case performs =>
    rw [State.perform_of_performable hj hop hp]
    rfl
  case leaves => rw [State.perform_of_not_mayPerform other]

end Sys2Proof.Machine
end

section
/-! # Migration on the chain (R123, R127, R129, R131)

A message of the chain that is taken in the window acts on the unit that has heard its source. The request to consume an image tag comes
down to whether the tag is outstanding, the reply to the restore that waits for it, the timeout to the direction of the transfer. -/

namespace Sys2Proof.Machine

/-! ## A message that is taken (R320, R321, R357) -/

/-- The checks of `State.receive` are those of `State.passes`, and a message of one fragment is whole. -/
theorem State.receive_of_passes {s : State} {type : Nat} {h : MsgHdr} (passes : s.passes type h = true) (f : State → State) :
    s.receive type h f = f (s.heardFrom h) := by
  simp only [State.passes, State.opensMsg, State.forMe, Bool.and_eq_true, Bool.not_eq_true', decide_eq_true_eq, beq_iff_eq] at passes
  obtain ⟨⟨⟨hears, good, opens⟩, ⟨foreign, new⟩, addressed⟩, whole⟩ := passes
  simp only [Bool.and_eq_false_iff, beq_eq_false_iff_ne, bne_eq_false_iff_eq] at opens foreign
  simp only [Bool.or_eq_true, Bool.and_eq_true, beq_iff_eq, bne_iff_ne] at addressed
  have sealed : ¬ (h.check ≠ .good ∨ (msgSeal type = 1 ∧ s.chain.domainKey.isNone)) := by
    rintro (bad | ⟨sealed, noKey⟩)
    · exact bad good
    · exact opens.elim (fun plain => plain sealed) fun key => by simp [key] at noKey
  have notOwn : ¬ (h.src = s.chain.address ∧ s.chain.address ≠ 0) := not_and_or.mpr (foreign.imp id fun none => not_not.mpr none)
  have mine : ¬ (h.dst ≠ bcast ∧ (h.dst ≠ s.chain.address ∨ s.chain.address = 0)) := by tauto
  rw [State.receive, if_neg (Bool.eq_false_iff.mp hears), if_neg sealed, if_neg notOwn, if_neg (Bool.eq_false_iff.mp new), if_neg mine]
  simp only [State.addFragment, if_pos whole, if_true]
  rfl

theorem State.atStep4_receive_of_takes {s : State} {type : Nat} {h : MsgHdr} (takes : s.takes type h = true) (c : Instr) (f : State → State) :
    s.atStep4 c (fun s => s.receive type h f) = f (s.heardFrom h) := by
  obtain ⟨window, passes⟩ := Bool.and_eq_true_iff.mp takes
  rw [State.atStep4, if_pos window, State.receive_of_passes passes]

/-! ## Slices -/

theorem State.slice_of_slices {s t : State} (h : t.slices = s.slices) (n : Nat) : t.slice n = s.slice n := congrArg (SMap.get SliceCtx.reset · n) h

theorem State.slice_updSlice {s : State} (wf : SMap.wf SliceCtx.reset s.slices = true) (n : Nat) (f : SliceCtx → SliceCtx) :
    (s.updSlice n f).slice n = f (s.slice n) := SMap.get_set _ _ _ _ wf

/-- The slice is MOVED at the next tick, and names no image of its own any more (R131). -/
theorem State.movesNext_slice {s : State} (wf : SMap.wf SliceCtx.reset s.slices = true) (n : Nat) :
    (s.movesNext n).slice n = { s.slice n with migDue := some (s.tick + 1), imageTag := none } := State.slice_updSlice wf n _

@[simp] theorem State.resolvePage_slices (s : State) (c : Change) (kind : ItemKind) : (s.resolvePage c kind).slices = s.slices := by
  unfold State.resolvePage
  split
  · split <;> rfl
  · rfl

theorem State.undoOwn_slices (s : State) (o : OwnChange) : (s.undoOwn o).slices = s.slices := State.resolvePage_slices _ _ _

/-! ## MIG_CONSUME (R129, R131) -/

@[simp] theorem State.sendMsg_tags (s : State) (type dst : Nat) (body : Bytes) (record : Option ReplRecord) :
    (s.sendMsg type dst body record).chain.tags = s.chain.tags := rfl

@[simp] theorem State.sendMsg_consumed (s : State) (type dst : Nat) (body : Bytes) (record : Option ReplRecord) :
    (s.sendMsg type dst body record).chain.consumed = s.chain.consumed := rfl

theorem State.dropTag_tags (s : State) (tag : Bytes) : ∀ x ∈ (s.dropTag tag).chain.tags, x.1 ≠ tag :=
  fun _ hx => of_decide_eq_true (List.mem_filter.mp hx).2

theorem exec_migConsume_of_takes {s : State} {h : MsgHdr} (takes : s.takes 0x38 h = true) (tag : Bytes) (target : Nat) :
    exec (.migConsume h tag target) s = .next ((s.heardFrom h).consume h.src tag target) :=
  congrArg Host.Outcome.next (State.atStep4_receive_of_takes takes _ _)

section Consume
variable {s : State} {tag : Bytes} {n : Nat}

theorem State.consumeTag_of_outstanding (out : (s.chain.tags.find? fun t => t.1 == tag) = some (tag, n)) (src target : Nat) :
    s.consumeTag tag src target =
      let t := (s.dropTag tag).movesNext n
      { t with chain := { t.chain with consumed := s.chain.consumed ++ [(tag, src, target)] } } := by
  rw [State.consumeTag, out]
  rfl

theorem State.consumeTag_slice (wf : SMap.wf SliceCtx.reset s.slices = true)
    (out : (s.chain.tags.find? fun t => t.1 == tag) = some (tag, n)) (src target : Nat) :
    (s.consumeTag tag src target).slice n = { s.slice n with migDue := some (s.tick + 1), imageTag := none } := by
  rw [State.consumeTag_of_outstanding out]
  exact State.movesNext_slice (s := s.dropTag tag) wf n

/-- The tag goes, and its consumer is kept. -/
theorem State.consumeTag_chain (out : (s.chain.tags.find? fun t => t.1 == tag) = some (tag, n)) (src target : Nat) :
    (s.consumeTag tag src target).chain = { (s.dropTag tag).chain with consumed := s.chain.consumed ++ [(tag, src, target)] } := by
  rw [State.consumeTag_of_outstanding out]
  rfl

theorem State.consumeTag_jobs (out : (s.chain.tags.find? fun t => t.1 == tag) = some (tag, n)) (src target : Nat) :
    (s.consumeTag tag src target).jobs = s.jobs := by
  rw [State.consumeTag_of_outstanding out]
  rfl

/-- An outstanding tag is consumed, and its request granted. -/
theorem State.consume_of_outstanding (out : (s.chain.tags.find? fun t => t.1 == tag) = some (tag, n)) (src target : Nat) :
    s.consume src tag target =
      (s.consumeTag tag src target).sendMsg 0x38 src (Config.bodyLayout 0x38 [tag, leBytes 2 target, [1]]) none := by
  have granted : s.consumable tag src target = true := by
    rw [State.consumable, List.any_eq_true.mpr ⟨_, List.mem_of_find?_eq_some out, beq_self_eq_true tag⟩, Bool.true_or]
  simp only [State.consume, granted]
  rfl

/-- Of a tag that is not outstanding nothing is consumed; the request is granted to the target that consumed it before alone. -/
theorem State.consume_of_not_outstanding (out : (s.chain.tags.find? fun t => t.1 == tag) = none) (src target : Nat) :
    s.consume src tag target = s.sendMsg 0x38 src
      (Config.bodyLayout 0x38 [tag, leBytes 2 target, [if (tag, src, target) ∈ s.chain.consumed then 1 else 2]]) none := by
  have unlisted : (s.chain.tags.any fun t => t.1 == tag) = false :=
    List.any_eq_false.mpr (List.find?_eq_none.mp out)
  simp only [State.consume, State.consumeTag, out, State.consumable, unlisted, Bool.false_or, List.contains_eq_mem]
  by_cases before : (tag, src, target) ∈ s.chain.consumed
  · simp only [before, decide_true, if_true]
    rfl
  · simp only [before, decide_false, if_false]
    rfl

end Consume

/-! ## MIG_REPLY (R129) -/

theorem exec_migReply_of_takes {s : State} {h : MsgHdr} (takes : s.takes 0x38 h = true) (tag : Bytes) (ok : Bool) :
    exec (.migReply h tag ok) s = .next ((s.heardFrom h).migAnswered tag ok) :=
  congrArg Host.Outcome.next (State.atStep4_receive_of_takes takes _ _)

section Reply
variable {s : State} {tag : Bytes}

theorem State.migAnswered_of_waiting {e : Nat × SliceCtx}
    (waits : (s.slices.find? fun e => e.2.mig == .restoring && e.2.imageTag == some tag && e.2.migDue.isNone) = some e) (ok : Bool) :
    s.migAnswered tag ok = s.restoreAnswered e.1 ok := by
  rw [State.migAnswered, waits]

theorem State.migAnswered_of_none_waits
    (idle : (s.slices.find? fun e => e.2.mig == .restoring && e.2.imageTag == some tag && e.2.migDue.isNone) = none) (ok : Bool) :
    s.migAnswered tag ok = s := by
  rw [State.migAnswered, idle]

end Reply

/-! ## MIGRATION_TIMEOUT (R127, R129) -/

/-- A SAVE whose replicated tag is taken back: its change on the chain is undone, and the tag is no longer outstanding. -/
def State.takeBackSave (s : State) (n : Nat) : State :=
  let u := (s.chain.own.find? fun o => match o.record.change with | .imageTag sl _ => sl == n | _ => false).elim s s.undoOwn
  (s.slice n).imageTag.elim u u.dropTag

theorem State.takeBackSave_slices (s : State) (n : Nat) : (s.takeBackSave n).slices = s.slices := by
  have undone (own : Option OwnChange) : (own.elim s s.undoOwn).slices = s.slices := by
    cases own with
    | none => rfl
    | some o => exact s.undoOwn_slices o
  unfold State.takeBackSave
  cases (s.slice n).imageTag with
  | none => exact undone _
  | some tag => exact undone _

theorem State.takeBackSave_tags {s : State} {n : Nat} {tag : Bytes} (h : (s.slice n).imageTag = some tag) :
    ∀ x ∈ (s.takeBackSave n).chain.tags, x.1 ≠ tag := by
  rw [State.takeBackSave, h]
  exact State.dropTag_tags _ tag

/-- A restore for which no slice reset is held ends without effect and begins none (R132). -/
theorem State.restoreFails_of_not_held {s : State} {n : Nat} (wf : SMap.wf SliceCtx.reset s.slices = true)
    (held : (s.slice n).resetHeld = false) (code : Nat) :
    s.restoreFails n code =
      s.updSlice n fun c => { c with mig := .running, migError := code, migDue := none, imageTag := none, opened := none, migFail := none } := by
  rw [State.restoreFails, State.releaseReset, State.slice_updSlice wf]
  exact if_neg (by simp [held])

section Timeout
variable {s : State} {n : Nat}

theorem exec_migrationTimeout_of_nothing_late
    (early : (s.slice n).migDue.isSome ∨ s.tick < (s.slice n).migTick + 66 ∨ ((s.slice n).mig ≠ .saving ∧ (s.slice n).mig ≠ .restoring)) :
    exec (.migrationTimeout n) s = .next s := by
  change execMigrationTimeout n s = .next s
  unfold execMigrationTimeout
  dsimp only
  split
  · rfl
  · next late =>
    obtain ⟨saving, restoring⟩ := (or_assoc.mpr early).resolve_left late
    split
    · next h => exact absurd h saving
    · next h => exact absurd h restoring
    · rfl

variable (due : (s.slice n).migDue = none) (late : (s.slice n).migTick + 66 ≤ s.tick)
include due late

theorem migrationTimeout_not_early : ¬ ((s.slice n).migDue.isSome ∨ s.tick < (s.slice n).migTick + 66) := by
  simp only [due, Option.isSome_none, Bool.false_eq_true, false_or]
  omega

theorem exec_migrationTimeout_of_saving (saving : (s.slice n).mig = .saving) :
    exec (.migrationTimeout n) s =
      .next ((s.takeBackSave n).updSlice n fun c => { c with mig := .frozen, migError := 6, imageTag := none, imageNew := none }) := by
  change execMigrationTimeout n s = _
  simp only [execMigrationTimeout, if_neg (migrationTimeout_not_early due late), saving, State.takeBackSave]
  cases (s.slice n).imageTag <;> cases s.chain.own.find? _ <;> rfl

theorem exec_migrationTimeout_of_restoring (restoring : (s.slice n).mig = .restoring) :
    exec (.migrationTimeout n) s = .next (s.restoreFails n 6) := by
  change execMigrationTimeout n s = _
  simp only [execMigrationTimeout, if_neg (migrationTimeout_not_early due late), restoring]

end Timeout

/-! ## FREEZE_DRAINED (R123) -/

section Freeze
variable {s : State} {n : Nat}

theorem State.noAdmitted_iff : (¬ (s.jobs.any fun j => j.slice == n && j.admitted.isSome) = true) ↔ ∀ j ∈ s.jobs, j.slice = n → j.admitted = none := by
  simp

theorem exec_freezeDrained_of_drained (wf : SMap.wf SliceCtx.reset s.slices = true) (freezing : (s.slice n).mig = .freezing)
    (begun : (s.slice n).migTick < s.tick) (drained : ∀ j ∈ s.jobs, j.slice = n → j.admitted = none) :
    exec (.freezeDrained n) s =
      let d := { s.slice n with mig := .frozen }
      .next { s with
        slices := SMap.set SliceCtx.reset n d s.slices
        shown := s.shown.map fun v => { v with slices := SMap.set SliceCtx.reset n d v.slices } } := by
  refine (if_pos ⟨freezing, begun, State.noAdmitted_iff.mpr drained⟩).trans ?_
  rw [State.showSlice, State.slice_updSlice wf]
  rfl

theorem exec_freezeDrained_of_not_drained
    (h : (s.slice n).mig ≠ .freezing ∨ s.tick ≤ (s.slice n).migTick ∨ ∃ j ∈ s.jobs, j.slice = n ∧ j.admitted.isSome = true) :
    exec (.freezeDrained n) s = .next s := by
  refine if_neg ?_
  rintro ⟨freezing, begun, drained⟩
  rcases h with h | h | ⟨j, hj, slice, admitted⟩
  · exact h freezing
  · omega
  · simp [State.noAdmitted_iff.mp drained j hj slice] at admitted

end Freeze

/-- Settles O48: each command by the lemma of its outcome. -/
theorem migrationOnTheChain : Obligations.MigrationOnTheChain := by
  unfold Obligations.MigrationOnTheChain
  intro h tag n s wf
  refine ⟨fun takes => ⟨fun target out => ?granted, fun target out => ?refused, fun waits => ?answered, fun idle ok => ?unasked⟩,
    fun due late => ⟨fun saving => ?saving, fun restoring held => ?restoring⟩, exec_migrationTimeout_of_nothing_late,
    exec_freezeDrained_of_drained wf, exec_freezeDrained_of_not_drained⟩
  case granted =>
    have out : ((s.heardFrom h).chain.tags.find? fun t => t.1 == tag) = some (tag, n) := out
    refine ⟨_, (exec_migConsume_of_takes takes tag target).trans (congrArg _ (State.consume_of_outstanding out h.src target)),
      State.consumeTag_slice (s := s.heardFrom h) wf out h.src target, ?tags, ?consumer, State.consumeTag_jobs out h.src target,
      _, List.mem_append_right _ (List.mem_singleton_self _), rfl, rfl, rfl⟩
    case tags =>
      rw [State.sendMsg_tags, State.consumeTag_chain out]
      exact State.dropTag_tags _ tag
    case consumer =>
      rw [State.sendMsg_consumed, State.consumeTag_chain out]
      rfl
  case refused => rw [exec_migConsume_of_takes takes, State.consume_of_not_outstanding (s := s.heardFrom h) out]; rfl
  case answered =>
    have reply (ok : Bool) : exec (.migReply h tag ok) s = .next ((s.heardFrom h).restoreAnswered n ok) := by
      rw [exec_migReply_of_takes takes, State.migAnswered_of_waiting (s := s.heardFrom h) waits]
    exact ⟨reply true, reply false⟩
  case unasked => rw [exec_migReply_of_takes takes, State.migAnswered_of_none_waits (s := s.heardFrom h) idle]
  case saving =>
    have slices := s.takeBackSave_slices n
    refine ⟨_, exec_migrationTimeout_of_saving due late saving, ?_, fun g image => State.takeBackSave_tags image⟩
    rw [State.slice_updSlice (by rw [slices]; exact wf), State.slice_of_slices slices]
  case restoring => rw [exec_migrationTimeout_of_restoring due late restoring, State.restoreFails_of_not_held wf held]; rfl

end Sys2Proof.Machine
end

section
/-! # A fault of a public-key lane (R37, R39, R153 to R155)

`State.pkFault` first notes the fault in the dictionary and the sillage log, then stops or re-runs the jobs that the lane held, then stops
the lane. The middle part touches jobs, lanes, slices and the scheduler alone and keeps every lane's role, so each clause comes from one part. -/

namespace Sys2Proof.Machine

/-! ## What may change while jobs are stopped -/

/-- Only jobs, lanes, slices and the scheduler change; the map of public-key lanes stays canonical and each lane keeps its role. -/
structure StopsJobs (s t : State) : Prop where
  frame : t = { s with jobs := t.jobs, lanes := t.lanes, slices := t.slices, sched := t.sched }
  wf : SMap.wf PkLane.reset s.lanes.pk = true → SMap.wf PkLane.reset t.lanes.pk = true
  role : SMap.wf PkLane.reset s.lanes.pk = true → ∀ n, (t.pkLane n).role = (s.pkLane n).role

theorem StopsJobs.refl (s : State) : StopsJobs s s := ⟨rfl, fun h => h, fun _ _ => rfl⟩

theorem StopsJobs.trans {s t u : State} (st : StopsJobs s t) (tu : StopsJobs t u) : StopsJobs s u where
  frame := by rw [tu.frame, st.frame]
  wf h := tu.wf (st.wf h)
  role h n := (tu.role (st.wf h) n).trans (st.role h n)

theorem StopsJobs.dict {s t : State} (h : StopsJobs s t) : t.dict = s.dict := by rw [h.frame]

theorem State.updJob_stopsJobs (s : State) (id : Nat) (f : Job → Job) : StopsJobs s (s.updJob id f) := ⟨rfl, fun h => h, fun _ _ => rfl⟩

/-- A lane that gives up a job it runs or has parked. -/
def PkLane.without (id : Nat) (l : PkLane) : PkLane :=
  if l.running = some id ∨ l.parked = some id then
    { l with
      running := (if l.running = some id then none else l.running)
      parked := (if l.parked = some id then none else l.parked) }
  else l

theorem State.offLane_pk (s : State) (id : Nat) : (s.offLane id).lanes.pk = SMap.mapVals PkLane.reset (PkLane.without id) s.lanes.pk := rfl

theorem PkLane.without_role (id : Nat) (l : PkLane) : (l.without id).role = l.role := by
  unfold PkLane.without
  split <;> rfl

theorem State.offLane_stopsJobs (s : State) (id : Nat) : StopsJobs s (s.offLane id) where
  frame := rfl
  wf h := by
    rw [State.offLane_pk]
    exact SMap.wf_mapVals _ _ _ h
  role h n := by
    rw [State.pkLane, State.offLane_pk, SMap.get_mapVals _ _ rfl _ _ h]
    exact PkLane.without_role id _

/-- A job that is finished leaves the lanes as one that is taken off them. -/
theorem State.finish_stopsJobs (s : State) (id status result due : Nat) : StopsJobs s (s.finish id status result due) where
  frame := rfl
  wf := (s.offLane_stopsJobs id).wf
  role := (s.offLane_stopsJobs id).role

theorem State.faultJob_stopsJobs (s : State) (j : Job) (src : Nat) (void : Bool) : StopsJobs s (s.faultJob j src void) := by
  unfold State.faultJob
  split
  · exact (s.offLane_stopsJobs _).trans (State.updJob_stopsJobs _ _ _)
  · exact (s.finish_stopsJobs _ _ _ _).trans (State.updJob_stopsJobs _ _ _)

theorem State.endByFault_stopsJobs (s : State) (src due id : Nat) : StopsJobs s (s.endByFault src due id) :=
  (s.finish_stopsJobs _ _ _ _).trans (State.updJob_stopsJobs _ _ _)

theorem foldl_stopsJobs {α : Type} {f : State → α → State} (h : ∀ s x, StopsJobs s (f s x)) (l : List α) (s : State) :
    StopsJobs s (l.foldl f s) := by
  induction l generalizing s with
  | nil => exact .refl s
  | cons x l ih => exact (h s x).trans (ih _)

/-! ## The job that a fault meets (R153) -/

theorem Job.faultWord_of_not_forced {j : Job} (h : j.forced = none) (src : Nat) : j.faultWord src = src := by rw [Job.faultWord, h]

/-- The jobs of a number that a state lists are the ones that `State.updJob` rewrites. -/
theorem State.mem_updJob {s : State} {j : Job} (hj : j ∈ s.jobs) (f : Job → Job) : f j ∈ (s.updJob j.id f).jobs :=
  List.mem_map.mpr ⟨j, hj, if_pos rfl⟩

theorem State.rerunNow_mem_faultJob {s : State} {j : Job} (hj : j ∈ s.jobs) (cls : j.cls = 0) (first : j.rerun = false) (src : Nat)
    (void : Bool) : j.rerunNow s.laneTime void ∈ (s.faultJob j src void).jobs := by
  rw [State.faultJob, if_pos ⟨cls, by simp [first]⟩]
  exact State.mem_updJob (s := s.offLane j.id) hj fun i => i.rerunNow s.laneTime void

theorem State.faulted_mem_faultJob {s : State} {j : Job} (hj : j ∈ s.jobs) (cls : j.cls ≠ 0) (src : Nat) (void : Bool) :
    ∃ i ∈ (s.faultJob j src void).jobs, i.id = j.id ∧ i.phase = .staged ∧ i.outcome = some ⟨stFault, [], j.faultWord src, none, none⟩ := by
  rw [State.faultJob, if_neg fun h => cls h.1]
  exact ⟨_, State.mem_updJob (State.mem_updJob (s := s.stopJob j.id) hj _) _, rfl, rfl, rfl⟩

/-! ## The three parts of `State.pkFault` -/

/-- The fault recorded, counted and put in the sillage log. -/
def State.notePkFault (s : State) (n cause : Nat) : State := ((s.recordPkFault n cause).count (Key.PKE_FAULT_COUNT n)).event 0x2001

/-- The jobs of the lane stopped: those that ran in this frame, then one that is parked and did not. -/
def State.stopPkJobs (s : State) (n : Nat) : State :=
  let ran := s.ranOn engPk n
  let t := ran.foldl (fun st j => st.faultJob j n false) s
  match (s.pkLane n).parked with
  | some id => if ran.any fun j => j.id == id then t else t.endByFault n (t.tick + 2) id
  | none => t

/-- The lane stopped, its fence due. -/
def PkLane.stopped (l : PkLane) : PkLane := { l with running := none, parked := none, test := none, due := .fence }

theorem State.pkFault_eq (s : State) (n cause : Nat) : s.pkFault n cause = ((s.notePkFault n cause).stopPkJobs n).updPk n PkLane.stopped := rfl

theorem State.stopPkJobs_stopsJobs (s : State) (n : Nat) : StopsJobs s (s.stopPkJobs n) := by
  have ran := foldl_stopsJobs (fun st j => State.faultJob_stopsJobs st j n false) (s.ranOn engPk n) s
  unfold State.stopPkJobs
  dsimp only
  split
  · split
    · exact ran
    · exact ran.trans (State.endByFault_stopsJobs _ _ _ _)
  · exact ran

/-- Where one job ran on the lane and no other is parked there, that job is all there is to stop. -/
theorem State.stopPkJobs_of_one {s : State} {n : Nat} {j : Job} (ran : s.ranOn engPk n = [j])
    (parked : (s.pkLane n).parked = none ∨ (s.pkLane n).parked = some j.id) : s.stopPkJobs n = s.faultJob j n false := by
  unfold State.stopPkJobs
  rcases parked with h | h <;> simp [ran, h]

/-- Recording a fault does not touch the period. -/
theorem State.notePkFault_laneTime (s : State) (n cause : Nat) : (s.notePkFault n cause).laneTime = s.laneTime := by
  have period : (s.notePkFault n cause).num Key.SEI_PERIOD = s.num Key.SEI_PERIOD :=
    (State.num_count_ne _ _ _ _ (by simp only [Key.SEI_PERIOD, Key.PKE_FAULT_COUNT, entryKey]; omega)).trans
      (State.num_setNum_ne _ _ _ _ (by decide))
  rw [State.laneTime, State.period, period]
  rfl

theorem lastFault_ne_faultCount (n : Nat) : Key.PKE_LAST_FAULT ≠ Key.PKE_FAULT_COUNT n := by
  simp only [Key.PKE_LAST_FAULT, Key.PKE_FAULT_COUNT, entryKey]
  omega

/-! ### What the dictionary reads after the fault -/

section Entries
variable {s : State} {n cause : Nat}

theorem State.pkFault_dict : (s.pkFault n cause).dict = (s.notePkFault n cause).dict := (State.stopPkJobs_stopsJobs (s.notePkFault n cause) n).dict

theorem State.pkFault_lastFault (rising : s.dict.nums.Pairwise fun a b => a.1 < b.1) :
    (s.pkFault n cause).num Key.PKE_LAST_FAULT = n + 256 * cause + 65536 * (s.tick % 2 ^ 48) :=
  calc (s.pkFault n cause).num Key.PKE_LAST_FAULT
      = (s.notePkFault n cause).num Key.PKE_LAST_FAULT := State.num_of_dict State.pkFault_dict _
    _ = (s.recordPkFault n cause).num Key.PKE_LAST_FAULT := State.num_count_ne _ _ _ _ (lastFault_ne_faultCount n)
    _ = n + 256 * cause + 65536 * (s.tick % 2 ^ 48) := State.num_setNum _ _ _ rising

theorem State.pkFault_faultCount (rising : s.dict.nums.Pairwise fun a b => a.1 < b.1) :
    (s.pkFault n cause).num (Key.PKE_FAULT_COUNT n) = min (topOf (Key.PKE_FAULT_COUNT n)) (s.num (Key.PKE_FAULT_COUNT n) + 1) := by
  have before : (s.recordPkFault n cause).num (Key.PKE_FAULT_COUNT n) = s.num (Key.PKE_FAULT_COUNT n) :=
    State.num_setNum_ne _ _ _ _ (lastFault_ne_faultCount n).symm
  rw [State.num_of_dict State.pkFault_dict, ← before]
  exact State.num_count _ _ _ (State.setNum_rising _ _ _ rising)

theorem State.pkFault_num_ne {k : Nat} (last : k ≠ Key.PKE_LAST_FAULT) (count : k ≠ Key.PKE_FAULT_COUNT n) :
    (s.pkFault n cause).num k = s.num k :=
  calc (s.pkFault n cause).num k
      = (s.notePkFault n cause).num k := State.num_of_dict State.pkFault_dict _
    _ = (s.recordPkFault n cause).num k := State.num_count_ne _ _ _ _ count
    _ = s.num k := State.num_setNum_ne _ _ _ _ last

end Entries

/-! ### The lane, the jobs, and the rest -/

section Fault
variable (s : State) (n cause : Nat)

theorem State.pkFault_pkLane (wf : SMap.wf PkLane.reset s.lanes.pk = true) :
    (s.pkFault n cause).pkLane n = (((s.notePkFault n cause).stopPkJobs n).pkLane n).stopped :=
  SMap.get_set _ _ _ _ ((State.stopPkJobs_stopsJobs (s.notePkFault n cause) n).wf wf)

theorem State.pkFault_role (wf : SMap.wf PkLane.reset s.lanes.pk = true) : ((s.pkFault n cause).pkLane n).role = (s.pkLane n).role := by
  rw [State.pkFault_pkLane s n cause wf]
  exact (State.stopPkJobs_stopsJobs (s.notePkFault n cause) n).role wf n

theorem State.pkFault_jobs_of_one {j : Job} (ran : s.ranOn engPk n = [j])
    (parked : (s.pkLane n).parked = none ∨ (s.pkLane n).parked = some j.id) :
    (s.pkFault n cause).jobs = ((s.notePkFault n cause).faultJob j n false).jobs := by
  rw [State.pkFault_eq, State.updPk_jobs, State.stopPkJobs_of_one (s := s.notePkFault n cause) ran parked]

theorem State.pkFault_frame : s.pkFault n cause =
    { s with
      jobs := (s.pkFault n cause).jobs, lanes := (s.pkFault n cause).lanes, slices := (s.pkFault n cause).slices
      sched := (s.pkFault n cause).sched, sil := (s.pkFault n cause).sil
      dict := { s.dict with nums := (s.pkFault n cause).dict.nums } } := by
  rw [State.pkFault_eq, (State.stopPkJobs_stopsJobs (s.notePkFault n cause) n).frame]
  rfl

end Fault

/-! ## LANE_FAULT -/

theorem exec_laneFault_of_faults {lane cause : Nat} {s : State} (unfenced : (s.pkLane lane).role ≠ .fenced)
    (staying : (s.pkLane lane).due ≠ .fence) (least : 1 ≤ cause) (most : cause ≤ 6) :
    exec (.laneFault lane cause) s = .next (s.pkFault lane cause) := by
  refine if_neg ?_
  rintro (h | h | h | h)
  · exact unfenced h
  · exact staying h
  · omega
  · omega

/-- A lane that is fenced or about to be, and a cause that Table 6.10 does not give to a lane. -/
theorem exec_laneFault_of_no_fault {lane cause : Nat} {s : State}
    (none : (s.pkLane lane).role = .fenced ∨ (s.pkLane lane).due = .fence ∨ cause = 0 ∨ 6 < cause) :
    exec (.laneFault lane cause) s = .next s := if_pos none

theorem mem_jobs_of_ranOn {s : State} {eng lane : Nat} {j : Job} (ran : s.ranOn eng lane = [j]) : j ∈ s.jobs :=
  (List.mem_filter.mp (ran ▸ List.mem_singleton_self j : j ∈ s.ranOn eng lane)).1

/-- Settles O18: the command is `State.pkFault`, whose parts give the clauses. -/
theorem laneFaultStopsLane : Obligations.LaneFaultStopsLane := by
  unfold Obligations.LaneFaultStopsLane
  intro lane cause s _ rising wf
  refine ⟨fun unfenced staying least most => ⟨s.pkFault lane cause, exec_laneFault_of_faults unfenced staying least most, ?running, ?parked,
    ?test, ?due, s.pkFault_role lane cause wf, State.pkFault_lastFault rising, State.pkFault_faultCount rising,
    fun k => State.pkFault_num_ne, fun j ran parked => ?jobs, s.pkFault_frame lane cause⟩, exec_laneFault_of_no_fault⟩
  case jobs =>
    have hj : j ∈ (s.notePkFault lane cause).jobs := mem_jobs_of_ranOn ran
    rw [s.pkFault_jobs_of_one lane cause ran parked]
    refine ⟨fun cls first => ?_, fun cls => State.faulted_mem_faultJob hj cls lane false, fun free => Job.faultWord_of_not_forced free lane⟩
    have again := State.rerunNow_mem_faultJob hj cls first lane false
    rwa [State.notePkFault_laneTime] at again
  all_goals
    rw [s.pkFault_pkLane lane cause wf]
    rfl

end Sys2Proof.Machine
end

section
/-! # The known-answer tests of lanes and clusters (R134, R157, R158, R179, R215)

A command that ends a test does so where the lane or cluster is in the right state and the test has run its schedule, and changes nothing
elsewhere: one lemma for each side, for either result of the test. The starts, frames and settling of spares follow, each by its condition. -/

namespace Sys2Proof.Machine

/-! ## The end of a test -/

/-- A test that stands and has run its whole schedule. -/
def testRan (t : Option LaneTest) : Bool := t.any fun x => x.cyclesLeft == 0

section Ends
variable {s : State} {n : Nat}

theorem exec_spareTestEnd_of_ran (role : (s.pkLane n).role = .spare) (ran : testRan (s.pkLane n).test = true) (pass : Bool) :
    exec (.spareTestEnd n pass) s = .next (if pass then s.setPk n { s.pkLane n with test := none } else s.pkFault n 6) :=
  if_pos ⟨role, ran⟩

theorem exec_spareTestEnd_of_not_ran (h : (s.pkLane n).role ≠ .spare ∨ testRan (s.pkLane n).test = false) (pass : Bool) :
    exec (.spareTestEnd n pass) s = .next s :=
  if_neg (not_and_or.mpr (h.imp_right ne_true_of_eq_false))

/-- The fault of a spare that fails its test is the lane fault of cause 6. -/
theorem exec_spareTestEnd_fail_eq_laneFault (role : (s.pkLane n).role = .spare) (ran : testRan (s.pkLane n).test = true)
    (staying : (s.pkLane n).due ≠ .fence) : exec (.spareTestEnd n false) s = exec (.laneFault n 6) s :=
  (exec_spareTestEnd_of_ran role ran false).trans
    (exec_laneFault_of_faults (by simp [role]) staying (by decide) (by decide)).symm

theorem exec_unfenceTestEnd_of_ran (role : (s.pkLane n).role = .fenced) (ran : testRan (s.pkLane n).test = true) (pass : Bool) :
    exec (.unfenceTestEnd n pass) s =
      let t := s.setPk n { s.pkLane n with test := none, due := if pass then .unfence else .none }
      .next (if pass then t else t.notePkFault n 6) :=
  if_pos ⟨role, ran⟩

theorem exec_unfenceTestEnd_of_not_ran (h : (s.pkLane n).role ≠ .fenced ∨ testRan (s.pkLane n).test = false) (pass : Bool) :
    exec (.unfenceTestEnd n pass) s = .next s :=
  if_neg (not_and_or.mpr (h.imp_right ne_true_of_eq_false))

theorem exec_latUnfenceTestEnd_of_ran (fenced : (s.cluster n).fenced = true) (ran : testRan (s.cluster n).test = true) (pass : Bool) :
    exec (.latUnfenceTestEnd n pass) s =
      let t := s.setCluster n { s.cluster n with test := none, due := if pass then .unfence else .none }
      .next (if pass then t else (t.recordPkFault (0x80 + n) 7).event 0x2003) :=
  if_pos (Bool.and_eq_true_iff.mpr ⟨fenced, ran⟩)

theorem exec_latUnfenceTestEnd_of_not_ran (h : (s.cluster n).fenced = false ∨ testRan (s.cluster n).test = false) (pass : Bool) :
    exec (.latUnfenceTestEnd n pass) s = .next s :=
  if_neg (ne_true_of_eq_false (Bool.and_eq_false_iff.mpr h))

/-- The test of a symmetric lane has run when its two frames have (R215). -/
def State.symTestRan (s : State) (t : Option LaneTest) : Bool := t.any fun x => decide (x.since + 1 ≤ s.tick)

theorem exec_symUnfenceTestEnd_of_ran (fenced : (s.symLane n).fenced = true) (ran : s.symTestRan (s.symLane n).test = true) (pass : Bool) :
    exec (.symUnfenceTestEnd n pass) s =
      let t := s.setSym n { s.symLane n with test := none, due := if pass then .unfence else .none }
      .next (if pass then t
        else ((t.setNum Key.SYM_LAST_FAULT (n + 256 * 6 + 65536 * (s.tick % 2 ^ 48))).count (Key.SYM_FAULT_COUNT n)).event 0x2101) :=
  if_pos (Bool.and_eq_true_iff.mpr ⟨fenced, ran⟩)

theorem exec_symUnfenceTestEnd_of_not_ran (h : (s.symLane n).fenced = false ∨ s.symTestRan (s.symLane n).test = false) (pass : Bool) :
    exec (.symUnfenceTestEnd n pass) s = .next s :=
  if_neg (ne_true_of_eq_false (Bool.and_eq_false_iff.mpr h))

theorem State.symTestRan_eq_false {t : Option LaneTest} (h : t = none ∨ ∃ x, t = some x ∧ s.tick < x.since + 1) : s.symTestRan t = false := by
  rcases h with rfl | ⟨x, rfl, early⟩
  · rfl
  · exact decide_eq_false (Nat.not_le.mpr early)

end Ends

/-! ## The tests of the spares (R157) -/

section Spares
variable {s : State} {n : Nat}

theorem exec_spareTestDue_of_other_tick
    (h : s.num Key.PKE_SPARE_TEST_INTERVAL = 0 ∨ s.tick % s.num Key.PKE_SPARE_TEST_INTERVAL ≠ 0) : exec .spareTestDue s = .next s :=
  congrArg Host.Outcome.next (if_neg fun due => h.elim due.1 (· due.2))

/-- At a multiple of the interval the one spare takes its turn. -/
theorem exec_spareTestDue_of_one (interval : s.num Key.PKE_SPARE_TEST_INTERVAL ≠ 0)
    (due : s.tick % s.num Key.PKE_SPARE_TEST_INTERVAL = 0) (one : s.pkWith .spare = [n]) :
    exec .spareTestDue s = .next (s.startSpareTest n) := by
  refine congrArg Host.Outcome.next ((if_pos ⟨interval, due⟩).trans ?_)
  rw [one]
  rfl

theorem State.startSpareTest_of_free (test : (s.pkLane n).test = none) (running : (s.pkLane n).running = none)
    (tested : (s.pkLane n).tested ≠ some s.tick) :
    s.startSpareTest n = s.setPk n { s.pkLane n with
      test := some ⟨206000, s.tick⟩, tested := some s.tick, banks := (s.pkLane n).banks ++ [⟨0, 2, 2, []⟩] } :=
  if_neg (by simp [test, running, tested])

theorem State.startSpareTest_of_tested (tested : (s.pkLane n).tested = some s.tick) : s.startSpareTest n = s := if_pos (.inr (.inr tested))

theorem State.laneTime_pos (s : State) : 0 < s.laneTime := by
  unfold State.laneTime laneTimeOf
  positivity

/-- Credits that fit are debited, others are not (R40). -/
theorem State.debit_of_fits {c : Nat} (h : c ≤ s.remainder) : s.debit c = some { s with sched := { s.sched with debited := s.sched.debited + c } } :=
  if_pos h

theorem State.debit_of_not_fits {c : Nat} (h : s.remainder < c) : s.debit c = none := if_neg (Nat.not_le.mpr h)

/-- The lane cycles that a test runs in a frame, and their credits at the public-key rate. -/
def State.testCycles (s : State) (x : LaneTest) : Nat := min s.laneTime x.cyclesLeft
def State.testCredits (s : State) (x : LaneTest) : Nat := ceilDiv (s.testCycles x * rPk) 100000

/-- A test that has begun and has something left takes a frame where its credits fit. -/
theorem State.testSegment_of_running {x : LaneTest} (test : (s.pkLane n).test = some x) (begun : x.since ≤ s.tick) (left : x.cyclesLeft ≠ 0) :
    s.testSegment n = (s.debit (s.testCredits x)).elim s fun t =>
      t.updPk n fun l => { l with test := some { x with cyclesLeft := x.cyclesLeft - s.testCycles x } } := by
  have some_left : ¬(min s.laneTime x.cyclesLeft = 0 ∨ s.tick < x.since) := by
    have := s.laneTime_pos
    omega
  unfold State.testSegment
  rw [test]
  refine (if_neg some_left).trans ?_
  unfold State.testCredits State.testCycles
  cases s.debit _ <;> rfl

theorem State.testSegment_of_fits {x : LaneTest} (test : (s.pkLane n).test = some x) (begun : x.since ≤ s.tick) (left : x.cyclesLeft ≠ 0)
    (fits : s.testCredits x ≤ s.remainder) :
    s.testSegment n = State.setPk { s with sched := { s.sched with debited := s.sched.debited + s.testCredits x } } n
      { s.pkLane n with test := some { x with cyclesLeft := x.cyclesLeft - s.testCycles x } } := by
  rw [State.testSegment_of_running test begun left, State.debit_of_fits fits]
  rfl

theorem State.testSegment_of_not_fits {x : LaneTest} (test : (s.pkLane n).test = some x) (begun : x.since ≤ s.tick) (left : x.cyclesLeft ≠ 0)
    (short : s.remainder < s.testCredits x) : s.testSegment n = s := by
  rw [State.testSegment_of_running test begun left, State.debit_of_not_fits short]
  rfl

/-! ## A coming spare (R134) -/

theorem exec_comingSpareSettle_of_free (role : (s.pkLane n).role = .comingSpare) (running : (s.pkLane n).running = none)
    (parked : (s.pkLane n).parked = none) (ran : s.ranOn engPk n = []) :
    exec (.comingSpareSettle n) s = .next (s.setPk n { s.pkLane n with role := .spare }) :=
  congrArg Host.Outcome.next (if_pos ⟨role, running, parked, ran⟩)

theorem exec_comingSpareSettle_of_not_free (h : (s.pkLane n).role ≠ .comingSpare ∨ (s.pkLane n).running.isSome = true ∨
    (s.pkLane n).parked.isSome = true ∨ s.ranOn engPk n ≠ []) : exec (.comingSpareSettle n) s = .next s := by
  refine congrArg Host.Outcome.next (if_neg ?_)
  rintro ⟨role, running, parked, ran⟩
  rcases h with h | h | h | h
  · exact h role
  · simp [running] at h
  · simp [parked] at h
  · exact h ran

end Spares

/-- Settles O21: each command by the lemma of its outcome, for a pass and for a fail. -/
theorem laneTestsEnd : Obligations.LaneTestsEnd := by
  unfold Obligations.LaneTestsEnd
  refine ⟨?ends, fun n s => ⟨exec_spareTestDue_of_other_tick, fun interval due one test running => ?due,
    fun x test begun left => ⟨State.testSegment_of_fits test begun left, State.testSegment_of_not_fits test begun left⟩,
    exec_comingSpareSettle_of_free, exec_comingSpareSettle_of_not_free⟩⟩
  case ends =>
    rintro n s _ _ _ rfl rfl rfl
    refine ⟨fun role ran => ⟨exec_spareTestEnd_of_ran role ran true, exec_spareTestEnd_of_ran role ran false,
        exec_spareTestEnd_fail_eq_laneFault role ran⟩, exec_spareTestEnd_of_not_ran,
      fun role ran => ⟨exec_unfenceTestEnd_of_ran role ran true, exec_unfenceTestEnd_of_ran role ran false⟩, exec_unfenceTestEnd_of_not_ran,
      fun fenced ran => ⟨exec_latUnfenceTestEnd_of_ran fenced ran true, exec_latUnfenceTestEnd_of_ran fenced ran false⟩,
      exec_latUnfenceTestEnd_of_not_ran, fun x fenced test late => ?symRan,
      fun h => exec_symUnfenceTestEnd_of_not_ran (h.imp_right State.symTestRan_eq_false)⟩
    case symRan =>
      have ran : s.symTestRan (s.symLane n).test = true := by
        rw [test]
        exact decide_eq_true late
      exact ⟨exec_symUnfenceTestEnd_of_ran fenced ran true, exec_symUnfenceTestEnd_of_ran fenced ran false⟩
  case due =>
    rw [exec_spareTestDue_of_one interval due one]
    exact ⟨fun tested => congrArg _ (State.startSpareTest_of_free test running tested),
      fun tested => congrArg _ (State.startSpareTest_of_tested tested)⟩

end Sys2Proof.Machine
end

section
/-! # Faults of a symmetric lane and of a cluster's shared units (R38, R39, R179, R215)

Both commands note the fault, stop the jobs it meets, then mark the lane or the cluster. Stopping jobs leaves the clusters and keeps the map
of symmetric lanes canonical, so the mark is what the lane or the cluster reads afterwards. -/

namespace Sys2Proof.Machine

/-! ## What stopping jobs leaves -/

/-- Jobs are stopped, the clusters are left, and the map of symmetric lanes stays canonical. -/
structure StopsJobsOnly (s t : State) : Prop extends StopsJobs s t where
  clusters : t.lanes.clusters = s.lanes.clusters
  symWf : SMap.wf SymLane.reset s.lanes.sym = true → SMap.wf SymLane.reset t.lanes.sym = true

theorem StopsJobsOnly.trans {s t u : State} (st : StopsJobsOnly s t) (tu : StopsJobsOnly t u) : StopsJobsOnly s u where
  toStopsJobs := st.toStopsJobs.trans tu.toStopsJobs
  clusters := tu.clusters.trans st.clusters
  symWf h := tu.symWf (st.symWf h)

theorem StopsJobs.only_of_lanes_eq {s t : State} (h : StopsJobs s t) (same : t.lanes = s.lanes) : StopsJobsOnly s t where
  toStopsJobs := h
  clusters := by rw [same]
  symWf := by rw [same]; exact id

/-- A symmetric lane that gives up a job it runs or has parked. -/
def SymLane.without (id : Nat) (l : SymLane) : SymLane :=
  { l with
    running := (if l.running = some id then none else l.running)
    parked := l.parked.filter fun p => decide (p ≠ id) }

theorem State.offLane_sym (s : State) (id : Nat) :
    (s.offLane id).lanes.sym = SMap.mapVals SymLane.reset (SymLane.without id) s.lanes.sym := rfl

theorem StopsJobs.only_of_lanes_offLane {s t : State} (h : StopsJobs s t) {id : Nat} (off : t.lanes = (s.offLane id).lanes) :
    StopsJobsOnly s t where
  toStopsJobs := h
  clusters := by rw [off]; rfl
  symWf wf := by rw [off, State.offLane_sym]; exact SMap.wf_mapVals _ _ _ wf

theorem State.freeWindows_stopsJobsOnly (s : State) (id : Nat) : StopsJobsOnly s (s.freeWindows id) :=
  StopsJobs.only_of_lanes_eq ⟨rfl, fun h => h, fun _ _ => rfl⟩ rfl

theorem State.faultJob_stopsJobsOnly (s : State) (j : Job) (src : Nat) (void : Bool) : StopsJobsOnly s (s.faultJob j src void) := by
  refine (s.faultJob_stopsJobs j src void).only_of_lanes_offLane (id := j.id) ?_
  unfold State.faultJob
  split <;> rfl

theorem State.endByFault_stopsJobsOnly (s : State) (src due id : Nat) : StopsJobsOnly s (s.endByFault src due id) :=
  (s.endByFault_stopsJobs src due id).only_of_lanes_offLane rfl

theorem foldl_stopsJobsOnly {α : Type} {f : State → α → State} (h : ∀ s x, StopsJobsOnly s (f s x)) (l : List α) (s : State) :
    StopsJobsOnly s (l.foldl f s) := by
  induction l generalizing s with
  | nil => exact (StopsJobs.refl s).only_of_lanes_eq rfl
  | cons x l ih => exact (h s x).trans (ih _)

/-- The host's rings, the vault, the chain and the keys are not touched. -/
theorem StopsJobs.keeps {s t : State} (h : StopsJobs s t) :
    t.rings = s.rings ∧ t.vault = s.vault ∧ t.chain = s.chain ∧ t.keys = s.keys := by
  rw [h.frame]
  exact ⟨rfl, rfl, rfl, rfl⟩

/-! ## SYM_LANE_FAULT (R215) -/

/-- The fault recorded, counted and put in the sillage log. -/
def State.noteSymFault (s : State) (n cause : Nat) : State :=
  ((s.setNum Key.SYM_LAST_FAULT (n + 256 * cause + 65536 * (s.tick % 2 ^ 48))).count (Key.SYM_FAULT_COUNT n)).event 0x2101

/-- The jobs of the lane stopped: those that ran in this frame, their windows given up, then those that are parked and did not. -/
def State.stopSymJobs (s : State) (n : Nat) : State :=
  let ran := s.ranOn engSym n
  let t := ran.foldl (fun st j => (st.freeWindows j.id).faultJob j (0x20 + n) false) s
  ((s.symLane n).parked.filter fun id => !(ran.any fun j => j.id == id)).foldl (fun st id => st.endByFault (0x20 + n) (st.tick + 2) id) t

/-- The lane stopped, its fence due. -/
def SymLane.stopped (l : SymLane) : SymLane := { l with running := none, parked := [], test := none, due := .fence }

theorem State.symFault_eq (s : State) (n cause : Nat) :
    s.symFault n cause = ((s.noteSymFault n cause).stopSymJobs n).updSym n SymLane.stopped := rfl

theorem State.stopSymJobs_stopsJobsOnly (s : State) (n : Nat) : StopsJobsOnly s (s.stopSymJobs n) := by
  unfold State.stopSymJobs
  refine (foldl_stopsJobsOnly (fun st j => ?ran) (s.ranOn engSym n) s).trans (foldl_stopsJobsOnly (fun st id => ?parked) _ _)
  case ran => exact (st.freeWindows_stopsJobsOnly j.id).trans (State.faultJob_stopsJobsOnly _ j (0x20 + n) false)
  case parked => exact st.endByFault_stopsJobsOnly (0x20 + n) (st.tick + 2) id

theorem symLastFault_ne_symFaultCount (n : Nat) : Key.SYM_LAST_FAULT ≠ Key.SYM_FAULT_COUNT n := by
  simp only [Key.SYM_LAST_FAULT, Key.SYM_FAULT_COUNT, entryKey]
  omega

section SymFault
variable {s : State} {n cause : Nat}

theorem State.symFault_symLane (wf : SMap.wf SymLane.reset s.lanes.sym = true) :
    (s.symFault n cause).symLane n = (((s.noteSymFault n cause).stopSymJobs n).symLane n).stopped := by
  rw [State.symFault_eq]
  exact SMap.get_set _ _ _ _ (((s.noteSymFault n cause).stopSymJobs_stopsJobsOnly n).symWf wf)

theorem State.symFault_lastFault (rising : s.dict.nums.Pairwise fun a b => a.1 < b.1) :
    (s.symFault n cause).num Key.SYM_LAST_FAULT = n + 256 * cause + 65536 * (s.tick % 2 ^ 48) :=
  calc (s.symFault n cause).num Key.SYM_LAST_FAULT
      = (s.noteSymFault n cause).num Key.SYM_LAST_FAULT := State.num_of_dict ((s.noteSymFault n cause).stopSymJobs_stopsJobsOnly n).dict _
    _ = (s.setNum Key.SYM_LAST_FAULT (n + 256 * cause + 65536 * (s.tick % 2 ^ 48))).num Key.SYM_LAST_FAULT :=
        State.num_count_ne _ _ _ _ (symLastFault_ne_symFaultCount n)
    _ = n + 256 * cause + 65536 * (s.tick % 2 ^ 48) := State.num_setNum _ _ _ rising

theorem exec_symLaneFault_of_faults (unfenced : (s.symLane n).fenced = false) (staying : (s.symLane n).due ≠ .fence) (least : 3 ≤ cause)
    (most : cause ≤ 6) : exec (.symLaneFault n cause) s = .next (s.symFault n cause) := by
  refine if_neg ?_
  rintro (h | h | h | h)
  · exact ne_true_of_eq_false unfenced h
  · exact staying h
  · omega
  · omega

/-- A lane that is fenced or about to be, and a cause that is none of a symmetric lane's. -/
theorem exec_symLaneFault_of_no_fault (h : (s.symLane n).fenced = true ∨ (s.symLane n).due = .fence ∨ cause < 3 ∨ 6 < cause) :
    exec (.symLaneFault n cause) s = .next s := if_pos h

end SymFault

/-! ## SHARED_UNIT_FAULT (R179) -/

/-- The fault recorded under the cluster's number and put in the sillage log. -/
def State.noteSharedUnitFault (s : State) (n : Nat) : State := (s.recordPkFault (0x80 + n) 7).event 0x2003

/-- The cluster's lattice jobs stopped: those that ran in this frame, to run again in another cluster, then those that did not. -/
def State.stopLatticeJobs (s : State) (n : Nat) : State :=
  let here := s.jobs.filter fun j =>
    latticeOp j.op && j.lane / 4 == n && j.admitted.isSome && (decide (j.phase = .running) || decide (j.phase = .parkedLane))
  let t := (here.filter fun j => decide (j.ranFrame = s.tick)).foldl (fun st j => st.faultJob j (0x80 + n) true) s
  (here.filter fun j => decide (j.ranFrame ≠ t.tick)).foldl (fun st j => st.endByFault (0x80 + n) (st.tick + 2) j.id) t

/-- The cluster's test given up, its fence due. -/
def Cluster.stopped (c : Cluster) : Cluster := { c with test := none, due := .fence }

/-- The state after a fault of a cluster's shared units. -/
def State.sharedUnitFault (s : State) (n : Nat) : State :=
  ((s.noteSharedUnitFault n).stopLatticeJobs n).setCluster n (s.cluster n).stopped

theorem State.stopLatticeJobs_stopsJobsOnly (s : State) (n : Nat) : StopsJobsOnly s (s.stopLatticeJobs n) := by
  unfold State.stopLatticeJobs
  refine (foldl_stopsJobsOnly (fun st j => ?ran) _ s).trans (foldl_stopsJobsOnly (fun st j => ?held) _ _)
  case ran => exact st.faultJob_stopsJobsOnly j (0x80 + n) true
  case held => exact st.endByFault_stopsJobsOnly (0x80 + n) (st.tick + 2) j.id

section SharedUnitFault
variable {s : State} {n : Nat}

theorem State.sharedUnitFault_cluster (wf : SMap.wf Cluster.reset s.lanes.clusters = true) :
    (s.sharedUnitFault n).cluster n = (s.cluster n).stopped := by
  have left := ((s.noteSharedUnitFault n).stopLatticeJobs_stopsJobsOnly n).clusters
  refine SMap.get_set _ _ _ _ ?_
  rw [left]
  exact wf

theorem State.sharedUnitFault_dict : (s.sharedUnitFault n).dict = (s.recordPkFault (0x80 + n) 7).dict :=
  ((s.noteSharedUnitFault n).stopLatticeJobs_stopsJobsOnly n).dict

theorem State.sharedUnitFault_lastFault (rising : s.dict.nums.Pairwise fun a b => a.1 < b.1) :
    (s.sharedUnitFault n).num Key.PKE_LAST_FAULT = 0x80 + n + 256 * 7 + 65536 * (s.tick % 2 ^ 48) :=
  (State.num_of_dict State.sharedUnitFault_dict _).trans (State.num_setNum _ _ _ rising)

theorem State.sharedUnitFault_num_ne {k : Nat} (other : k ≠ Key.PKE_LAST_FAULT) : (s.sharedUnitFault n).num k = s.num k :=
  (State.num_of_dict State.sharedUnitFault_dict _).trans (State.num_setNum_ne _ _ _ _ other)

theorem exec_sharedUnitFault_of_faults (unfenced : (s.cluster n).fenced = false) (staying : (s.cluster n).due ≠ .fence) :
    exec (.sharedUnitFault n) s = .next (s.sharedUnitFault n) := by
  refine if_neg ?_
  rintro (h | h)
  · exact ne_true_of_eq_false unfenced h
  · exact staying h

/-- A cluster that is fenced or about to be. -/
theorem exec_sharedUnitFault_of_no_fault (h : (s.cluster n).fenced = true ∨ (s.cluster n).due = .fence) :
    exec (.sharedUnitFault n) s = .next s := if_pos h

end SharedUnitFault

/-- Settles O20: each command by its state after the fault, whose parts give the clauses, and by its condition where there is none. -/
theorem symmetricLaneAndSharedUnitFaults : Obligations.SymmetricLaneAndSharedUnitFaults := by
  unfold Obligations.SymmetricLaneAndSharedUnitFaults
  intro n cause s
  refine ⟨fun _ rising wf unfenced staying least most => ?sym, exec_symLaneFault_of_no_fault, fun unfenced staying rising wf => ?unit,
    exec_sharedUnitFault_of_no_fault⟩
  case sym =>
    have stops := (s.noteSymFault n cause).stopSymJobs_stopsJobsOnly n
    have lane := State.symFault_symLane (n := n) (cause := cause) wf
    exact ⟨s.symFault n cause, exec_symLaneFault_of_faults unfenced staying least most, congrArg SymLane.running lane,
      congrArg SymLane.parked lane, congrArg SymLane.due lane, State.symFault_lastFault rising, stops.clusters, stops.keeps⟩
  case unit =>
    exact ⟨s.sharedUnitFault n, exec_sharedUnitFault_of_faults unfenced staying, State.sharedUnitFault_cluster wf,
      State.sharedUnitFault_lastFault rising, fun _ => State.sharedUnitFault_num_ne,
      ((s.noteSharedUnitFault n).stopLatticeJobs_stopsJobsOnly n).keeps⟩

end Sys2Proof.Machine
end

section
/-! # The end of a sweep pass (R237 to R239)

`State.certify` settles one SPENT heart and leaves every other heart, with what the sweep noted of it. A pass that ends certifies each SPENT
heart once, so a heart is settled where its turn comes, and the hearts before and after it in the list leave it alone. -/

namespace Sys2Proof

/-- A canonical map lists exactly the keys that read as something else than the default. -/
theorem SMap.mem_iff_get {α : Type} [DecidableEq α] (d : α) {m : List (Nat × α)} (wf : SMap.wf d m = true) {k : Nat} {v : α} :
    (k, v) ∈ m ↔ SMap.get d m k = v ∧ v ≠ d := by
  induction m with
  | nil => simp [SMap.get, eq_comm]
  | cons e m ih =>
    obtain ⟨a, w⟩ := e
    obtain ⟨listed, above, wf⟩ := (SMap.wf_cons d a w m).mp wf
    by_cases at_k : a = k
    · subst at_k
      have unlisted : (a, v) ∉ m := fun mem => Nat.lt_irrefl a (above _ mem)
      simp only [List.mem_cons, Prod.mk.injEq, true_and, unlisted, or_false, SMap.get, if_true]
      exact ⟨fun h => ⟨h.symm, h ▸ listed⟩, fun h => h.1.symm⟩
    · simp [SMap.get, at_k, Ne.symm at_k, ih wf]

/-- The keys of a canonical map rise. -/
theorem SMap.wf_rising {α : Type} [DecidableEq α] (d : α) {m : List (Nat × α)} (wf : SMap.wf d m = true) :
    m.Pairwise fun a b => a.1 < b.1 := by
  induction m with
  | nil => exact .nil
  | cons e m ih =>
    obtain ⟨_, above, wf⟩ := (SMap.wf_cons d e.1 e.2 m).mp wf
    exact List.pairwise_cons.mpr ⟨above, ih wf⟩

namespace Machine

/-! ## The SPENT hearts of the table -/

/-- The indices of the SPENT hearts, as the end of a pass lists them. -/
def State.spentList (s : State) : List Nat := (s.keys.hearts.filter fun e => decide (e.2.state = .spent)).map fun e => e.1

theorem State.mem_spentList {s : State} (wf : SMap.wf Heart.reset s.keys.hearts = true) {n : Nat} :
    n ∈ s.spentList ↔ (s.heart n).state = .spent := by
  simp only [State.spentList, List.mem_map, List.mem_filter, decide_eq_true_eq]
  constructor
  · rintro ⟨⟨n, h⟩, ⟨mem, spent⟩, rfl⟩
    have read : s.heart n = h := ((SMap.mem_iff_get _ wf).mp mem).1
    exact read ▸ spent
  · intro spent
    have listed : s.heart n ≠ Heart.reset := fun h => nomatch h ▸ spent
    exact ⟨(n, s.heart n), ⟨(SMap.mem_iff_get _ wf).mpr ⟨rfl, listed⟩, spent⟩, rfl⟩

theorem State.spentList_nodup {s : State} (wf : SMap.wf Heart.reset s.keys.hearts = true) : s.spentList.Nodup := by
  refine List.pairwise_map.mpr (((SMap.wf_rising _ wf).filter _).imp ?_)
  exact Nat.ne_of_lt

/-! ## What the write of a heart with its image leaves -/

/-- Beside the images, a heart's write with its image is the write of its entry, the image commit number one higher. -/
theorem State.putHeart_eq (s : State) (n : Nat) (h : Heart) :
    s.putHeart n h = { s with keys := { s.keys with
      hearts := SMap.set Heart.reset n { h with imageCommit := (s.heart n).imageCommit + 1 } s.keys.hearts
      images := (s.putHeart n h).keys.images } } := by
  unfold State.putHeart
  dsimp only
  split <;> rfl

theorem State.heart_putHeart {s : State} (n : Nat) (h : Heart) (wf : SMap.wf Heart.reset s.keys.hearts = true) :
    (s.putHeart n h).heart n = { h with imageCommit := (s.heart n).imageCommit + 1 } := by
  rw [State.putHeart_eq]
  exact SMap.get_set _ _ _ _ wf

/-! ## One heart certified -/

/-- What the settling of hearts leaves of the state, and of the canonical form of the heart table. -/
structure SettlesHeartsOnly (s t : State) : Prop where
  seen : t.keys.sweepSeen = s.keys.sweepSeen
  fresh : t.keys.sweepFresh = s.keys.sweepFresh
  dict : t.dict = s.dict
  vault : t.vault = s.vault
  jobs : t.jobs = s.jobs
  wf : SMap.wf Heart.reset s.keys.hearts = true → SMap.wf Heart.reset t.keys.hearts = true

theorem SettlesHeartsOnly.refl (s : State) : SettlesHeartsOnly s s := ⟨rfl, rfl, rfl, rfl, rfl, id⟩

theorem SettlesHeartsOnly.trans {s t u : State} (st : SettlesHeartsOnly s t) (tu : SettlesHeartsOnly t u) : SettlesHeartsOnly s u where
  seen := tu.seen.trans st.seen
  fresh := tu.fresh.trans st.fresh
  dict := tu.dict.trans st.dict
  vault := tu.vault.trans st.vault
  jobs := tu.jobs.trans st.jobs
  wf := tu.wf ∘ st.wf

theorem State.putHeart_settlesHeartsOnly (s : State) (n : Nat) (h : Heart) : SettlesHeartsOnly s (s.putHeart n h) := by
  rw [State.putHeart_eq]
  exact ⟨rfl, rfl, rfl, rfl, rfl, SMap.wf_set _ _ _ _⟩

/-- A heart stays, and so does the note that it was certified at the last pass. -/
structure KeepsHeart (n : Nat) (s t : State) : Prop where
  heart : t.heart n = s.heart n
  certified : n ∈ t.keys.certifiedLast ↔ n ∈ s.keys.certifiedLast

theorem KeepsHeart.refl (n : Nat) (s : State) : KeepsHeart n s s := ⟨rfl, Iff.rfl⟩

theorem KeepsHeart.trans {n : Nat} {s t u : State} (st : KeepsHeart n s t) (tu : KeepsHeart n t u) : KeepsHeart n s u :=
  ⟨tu.heart.trans st.heart, tu.certified.trans st.certified⟩

theorem State.putHeart_certifiedLast (s : State) (n : Nat) (h : Heart) : (s.putHeart n h).keys.certifiedLast = s.keys.certifiedLast :=
  congrArg (·.keys.certifiedLast) (s.putHeart_eq n h)

theorem State.certify_settlesHeartsOnly (s : State) (n : Nat) : SettlesHeartsOnly s (s.certify n) := by
  have put := s.putHeart_settlesHeartsOnly n
  have note (h : Heart) (l : List Nat) : SettlesHeartsOnly s { s.putHeart n h with keys := { (s.putHeart n h).keys with certifiedLast := l } } :=
    { put h with }
  unfold State.certify
  dsimp only
  split
  · exact put _
  split
  · exact note _ _
  split
  · exact note _ _
  · exact .refl s

theorem State.certify_keepsHeart (s : State) {n g : Nat} (other : g ≠ n) : KeepsHeart g s (s.certify n) := by
  have put (h : Heart) : (s.putHeart n h).heart g = s.heart g := s.heart_putHeart_ne h other
  unfold State.certify
  dsimp only
  split
  · exact ⟨put _, by rw [State.putHeart_certifiedLast]⟩
  split
  · exact ⟨put _, by simp [State.putHeart_certifiedLast, other]⟩
  split
  · exact ⟨put _, by simp [State.putHeart_certifiedLast, other]⟩
  · exact .refl g s

/-- What R239 asks of a heart that was SPENT when the pass ended. -/
structure SettledByPass (n : Nat) (s t : State) : Prop where
  named : n ∈ s.keys.sweepSeen → (t.heart n).state = .spent ∧ (t.heart n).certified = false
  confirmed : n ∉ s.keys.sweepSeen → n ∈ s.keys.certifiedLast → (t.heart n).state = .empty ∧ (t.heart n).generation = 0
  fresh : n ∉ s.keys.sweepSeen → n ∉ s.keys.certifiedLast → n ∈ s.keys.sweepFresh →
    (t.heart n).state = .spent ∧ (t.heart n).certified = true ∧ n ∈ t.keys.certifiedLast

theorem State.certify_settles {s : State} {n : Nat} (wf : SMap.wf Heart.reset s.keys.hearts = true) (spent : (s.heart n).state = .spent) :
    SettledByPass n s (s.certify n) where
  named seen := by
    have settled : s.certify n = s.putHeart n { s.heart n with certified := false } := by simp [State.certify, seen]
    rw [settled, State.heart_putHeart _ _ wf]
    exact ⟨spent, rfl⟩
  confirmed unseen last := by
    have settled : (s.certify n).heart n = (s.putHeart n { Heart.reset with lastChange := s.tick }).heart n := by
      simp [State.certify, unseen, last, State.heart]
    rw [settled, State.heart_putHeart _ _ wf]
    exact ⟨rfl, rfl⟩
  fresh unseen first since := by
    have settled : (s.certify n).heart n = (s.putHeart n { s.heart n with certified := true }).heart n := by
      simp [State.certify, unseen, first, since, State.heart]
    rw [settled, State.heart_putHeart _ _ wf]
    exact ⟨spent, rfl, by simp [State.certify, unseen, first, since]⟩

theorem SettledByPass.of_kept_before {n : Nat} {s s' t : State} (settles : SettlesHeartsOnly s s') (kept : KeepsHeart n s s')
    (h : SettledByPass n s' t) : SettledByPass n s t := by
  obtain ⟨named, confirmed, fresh⟩ := h
  rw [settles.seen] at named confirmed fresh
  rw [kept.certified] at confirmed fresh
  rw [settles.fresh] at fresh
  exact ⟨named, confirmed, fresh⟩

theorem SettledByPass.of_kept_after {n : Nat} {s t t' : State} (h : SettledByPass n s t) (kept : KeepsHeart n t t') : SettledByPass n s t' := by
  obtain ⟨named, confirmed, fresh⟩ := h
  rw [← kept.heart] at named confirmed fresh
  rw [← kept.certified] at fresh
  exact ⟨named, confirmed, fresh⟩

/-! ## A list of hearts certified -/

/-- The hearts of a list certified, one after the other. -/
def State.certifyAll (s : State) (l : List Nat) : State := l.foldl State.certify s

theorem State.certifyAll_settlesHeartsOnly (s : State) (l : List Nat) : SettlesHeartsOnly s (s.certifyAll l) := by
  induction l generalizing s with
  | nil => exact .refl s
  | cons m l ih => exact (s.certify_settlesHeartsOnly m).trans (ih _)

theorem State.certifyAll_keepsHeart (s : State) {l : List Nat} {n : Nat} (out : n ∉ l) : KeepsHeart n s (s.certifyAll l) := by
  induction l generalizing s with
  | nil => exact .refl n s
  | cons m l ih =>
    obtain ⟨other, out⟩ := List.ne_and_not_mem_of_not_mem_cons out
    exact (s.certify_keepsHeart other).trans (ih _ out)

theorem State.certifyAll_settles {s : State} {l : List Nat} {n : Nat} (once : l.Nodup) (mem : n ∈ l)
    (wf : SMap.wf Heart.reset s.keys.hearts = true) (spent : (s.heart n).state = .spent) : SettledByPass n s (s.certifyAll l) := by
  induction l generalizing s with
  | nil => exact nomatch mem
  | cons m l ih =>
    obtain ⟨out, once⟩ := List.nodup_cons.mp once
    by_cases turn : n = m
    · subst turn
      exact (State.certify_settles wf spent).of_kept_after (State.certifyAll_keepsHeart _ out)
    · have settles := s.certify_settlesHeartsOnly m
      have kept := s.certify_keepsHeart turn
      exact (ih once (List.mem_of_ne_of_mem turn mem) (settles.wf wf) (kept.heart ▸ spent)).of_kept_before settles kept

/-! ## The pass -/

/-- The sweep's notes as the next pass begins: no slot seen yet, and the hearts that are SPENT now are spent since before it. -/
def State.noteNextPass (s : State) : State := { s with keys := { s.keys with sweepSeen := [], sweepFresh := s.spentList } }

/-- The state once a pass has ended: the SPENT hearts settled, the pass counted, the next one begun at page 0. -/
def State.endPass (s : State) : State :=
  ((s.certifyAll s.spentList).noteNextPass.count Key.KEY_SWEEP_PASSES).setNum Key.KEY_SWEEP_CURSOR 0

theorem exec_sweepPassEnd_of_passed {s : State} (enabled : s.num Key.KEY_SWEEP_ENABLE ≠ 0) (up : s.vaultUp = true)
    (passed : s.allocatedFrom (s.num Key.KEY_SWEEP_CURSOR) = []) : exec .sweepPassEnd s = .next s.endPass :=
  if_pos ⟨enabled, up, passed⟩

/-- No pass ends where the sweep is off, the vault is down or allocated pages are left. -/
theorem exec_sweepPassEnd_of_not_passed {s : State}
    (h : s.num Key.KEY_SWEEP_ENABLE = 0 ∨ s.vaultUp = false ∨ s.allocatedFrom (s.num Key.KEY_SWEEP_CURSOR) ≠ []) :
    exec .sweepPassEnd s = .next s := by
  refine if_neg ?_
  rintro ⟨enabled, up, passed⟩
  obtain off | down | left := h
  · exact enabled off
  · exact ne_true_of_eq_false down up
  · exact left passed

section EndPass
variable {s : State}

/-- The counting and the notes of the next pass leave what was settled. -/
theorem State.endPass_keepsHeart (n : Nat) : KeepsHeart n (s.certifyAll s.spentList) s.endPass := ⟨rfl, Iff.rfl⟩

theorem State.endPass_cursor (rising : s.dict.nums.Pairwise fun a b => a.1 < b.1) : s.endPass.num Key.KEY_SWEEP_CURSOR = 0 := by
  have dict := (s.certifyAll_settlesHeartsOnly s.spentList).dict
  exact State.num_setNum _ _ _ (State.setNum_rising _ _ _ (dict ▸ rising))

theorem State.endPass_passes (rising : s.dict.nums.Pairwise fun a b => a.1 < b.1) :
    s.endPass.num Key.KEY_SWEEP_PASSES = min (topOf Key.KEY_SWEEP_PASSES) (s.num Key.KEY_SWEEP_PASSES + 1) := by
  have dict : (s.certifyAll s.spentList).noteNextPass.dict = s.dict := (s.certifyAll_settlesHeartsOnly s.spentList).dict
  calc s.endPass.num Key.KEY_SWEEP_PASSES
      = ((s.certifyAll s.spentList).noteNextPass.count Key.KEY_SWEEP_PASSES).num Key.KEY_SWEEP_PASSES := State.num_setNum_ne _ _ _ _ (by decide)
    _ = min (topOf Key.KEY_SWEEP_PASSES) ((s.certifyAll s.spentList).noteNextPass.num Key.KEY_SWEEP_PASSES + 1) :=
        State.num_count _ _ _ (dict ▸ rising)
    _ = min (topOf Key.KEY_SWEEP_PASSES) (s.num Key.KEY_SWEEP_PASSES + 1) := by rw [State.num_of_dict dict]

theorem State.endPass_settles (wf : SMap.wf Heart.reset s.keys.hearts = true) {n : Nat} (spent : (s.heart n).state = .spent) :
    SettledByPass n s s.endPass :=
  (State.certifyAll_settles (State.spentList_nodup wf) ((State.mem_spentList wf).mpr spent) wf spent).of_kept_after
    (State.endPass_keepsHeart n)

theorem State.endPass_heart_of_not_spent (wf : SMap.wf Heart.reset s.keys.hearts = true) {n : Nat} (other : (s.heart n).state ≠ .spent) :
    s.endPass.heart n = s.heart n :=
  (s.certifyAll_keepsHeart (mt (State.mem_spentList wf).mp other)).heart

end EndPass

/-- Settles O38: a pass that ends is `State.endPass`, whose parts give the clauses; one that does not, by its condition. -/
theorem sweepPassCertifiesSpentHearts : Obligations.SweepPassCertifiesSpentHearts := by
  unfold Obligations.SweepPassCertifiesSpentHearts
  refine fun s wf rising => ⟨fun enabled up passed => ?ends, exec_sweepPassEnd_of_not_passed⟩
  case ends =>
    have leaves := s.certifyAll_settlesHeartsOnly s.spentList
    refine ⟨s.endPass, exec_sweepPassEnd_of_passed enabled up passed, State.endPass_cursor rising, State.endPass_passes rising, rfl,
      fun n spent => ?settled, fun n => State.endPass_heart_of_not_spent wf, leaves.vault, leaves.jobs⟩
    case settled =>
      have settled := State.endPass_settles wf spent
      exact ⟨settled.named, settled.confirmed, settled.fresh⟩

end Machine
end Sys2Proof
end

section
/-! # Blocks, commands and reads of the vault's drives (R246, R249, R258)

Most of the vault's work changes a drive's blocks and commands alone, or with them the reads in progress and their credits. What such
work leaves is said once for each kind, so that the rules on groups, reads and drives need not look into the queues. -/

namespace Sys2Proof.Machine

/-! ## One drive of two -/

theorem State.setDrive_eq (s : State) (p : Nat) (d : Drive) : s.setDrive p d =
    { s with vault := { s.vault with d0 := if p = 0 then d else s.vault.d0, d1 := if p = 0 then s.vault.d1 else d } } := by
  unfold State.setDrive
  split <;> rfl

@[simp] theorem State.drive_setDrive (s : State) (p : Nat) (d : Drive) : (s.setDrive p d).drive p = d := by
  unfold State.drive
  rw [State.setDrive_eq]
  split <;> rfl

@[simp] theorem State.drive_setDrive_other (s : State) (p : Nat) (d : Drive) : (s.setDrive p d).drive (1 - p) = s.drive (1 - p) := by
  obtain rfl | pos := Nat.eq_zero_or_pos p
  · rfl
  · have zero : 1 - p = 0 := by omega
    simp [State.drive, State.setDrive_eq, zero, pos.ne']

@[simp] theorem State.drive_updDrive (s : State) (p : Nat) (f : Drive → Drive) : (s.updDrive p f).drive p = f (s.drive p) :=
  s.drive_setDrive p _

@[simp] theorem State.drive_updDrive_other (s : State) (p : Nat) (f : Drive → Drive) : (s.updDrive p f).drive (1 - p) = s.drive (1 - p) :=
  s.drive_setDrive_other p _

/-- A drive reads as changed where the number names the changed side, and as it was on the other one. -/
theorem State.drive_updDrive_cases (s : State) (p q : Nat) (f : Drive → Drive) :
    (s.drive q = s.drive p ∧ (s.updDrive p f).drive q = f (s.drive q)) ∨ (s.updDrive p f).drive q = s.drive q := by
  unfold State.updDrive State.drive
  rw [State.setDrive_eq]
  by_cases hp : p = 0 <;> by_cases hq : q = 0 <;> simp [hp, hq]

/-- What a change leaves of each drive, it leaves of both. -/
theorem State.drive_updDrive_of {α : Type} (s : State) (p q : Nat) {f : Drive → Drive} (g : Drive → α) (h : ∀ d, g (f d) = g d) :
    g ((s.updDrive p f).drive q) = g (s.drive q) := by
  obtain ⟨-, changed⟩ | stands := s.drive_updDrive_cases p q f
  · rw [changed, h]
  · rw [stands]

/-! ## Blocks and commands -/

/-- Beside its blocks and its commands a drive stands. -/
def Drive.Stands (d e : Drive) : Prop := e = { d with cells := e.cells, cmds := e.cmds }

theorem Drive.Stands.refl (d : Drive) : d.Stands d := rfl

theorem Drive.Stands.trans {d e f : Drive} (de : d.Stands e) (ef : e.Stands f) : d.Stands f := by
  rw [Drive.Stands, ef, de]

theorem Drive.setCell_stands (d : Drive) (b : Nat) (x : Bytes) : d.Stands (d.setCell b x) := rfl

/-- Beside its blocks and its commands each drive stands. -/
def DrivesStand (s t : State) : Prop := ∀ p, (s.drive p).Stands (t.drive p)

section Stand
variable {s t u : State} (p : Nat)

theorem DrivesStand.refl (s : State) : DrivesStand s s := fun _ => .refl _

theorem DrivesStand.trans (st : DrivesStand s t) (tu : DrivesStand t u) : DrivesStand s u := fun p => (st p).trans (tu p)

theorem DrivesStand.of_vault_eq (h : t.vault = s.vault) : DrivesStand s t := fun p => by
  simpa only [State.drive, h] using Drive.Stands.refl _

theorem DrivesStand.state (h : DrivesStand s t) : (t.drive p).state = (s.drive p).state := by rw [h p]
theorem DrivesStand.next (h : DrivesStand s t) : (t.drive p).next = (s.drive p).next := by rw [h p]
theorem DrivesStand.link (h : DrivesStand s t) : (t.drive p).link = (s.drive p).link := by rw [h p]
theorem DrivesStand.size (h : DrivesStand s t) : (t.drive p).size = (s.drive p).size := by rw [h p]
theorem DrivesStand.inMirror (h : DrivesStand s t) : (t.drive p).inMirror = (s.drive p).inMirror := by rw [h p]; rfl

end Stand

theorem State.updDrive_drivesStand (s : State) (p : Nat) {f : Drive → Drive}
    (h : ∀ d : Drive, d.Stands (f d)) : DrivesStand s (s.updDrive p f) := by
  intro q
  obtain ⟨-, changed⟩ | stands := s.drive_updDrive_cases p q f
  · rw [changed]
    exact h _
  · rw [stands]
    exact .refl _

/-- Only the drives change, and what leaves their ports. -/
def DrivesOnly (s t : State) : Prop := t = { s with vault := { s.vault with d0 := t.vault.d0, d1 := t.vault.d1 }, sent := t.sent }

theorem DrivesOnly.trans {s t u : State} (st : DrivesOnly s t) (tu : DrivesOnly t u) : DrivesOnly s u := by
  rw [DrivesOnly, tu, st]

theorem State.updDrive_drivesOnly (s : State) (p : Nat) (f : Drive → Drive) : DrivesOnly s (s.updDrive p f) := by
  rw [DrivesOnly, State.updDrive, State.setDrive_eq]

section DrivesOnly
variable {s t : State} (h : DrivesOnly s t)
include h

theorem DrivesOnly.jobs : t.jobs = s.jobs := by rw [h]
theorem DrivesOnly.num (k : Nat) : t.num k = s.num k := by rw [h]; rfl
theorem DrivesOnly.pages : t.pages = s.pages := h.num _
theorem DrivesOnly.formatting : t.vault.formatting = s.vault.formatting := by rw [h]
theorem DrivesOnly.state : t.vault.state = s.vault.state := by rw [h]
theorem DrivesOnly.group : t.vault.group = s.vault.group := by rw [h]
theorem DrivesOnly.root : t.vault.root = s.vault.root := by rw [h]
theorem DrivesOnly.tree : t.vault.tree = s.vault.tree := by rw [h]

end DrivesOnly

/-- Only the drives' blocks and commands change, and what leaves their ports. -/
structure MovesBlocks (s t : State) : Prop where
  only : DrivesOnly s t
  stand : DrivesStand s t

theorem DrivesOnly.refl (s : State) : DrivesOnly s s := rfl

theorem MovesBlocks.refl (s : State) : MovesBlocks s s := ⟨.refl s, .refl s⟩

theorem MovesBlocks.trans {s t u : State} (st : MovesBlocks s t) (tu : MovesBlocks t u) : MovesBlocks s u where
  only := st.only.trans tu.only
  stand := st.stand.trans tu.stand

theorem MovesBlocks.foldl {α : Type} {f : State → α → State} (h : ∀ s x, MovesBlocks s (f s x)) (l : List α) (s : State) :
    MovesBlocks s (l.foldl f s) :=
  List.foldlRecOn l f (.refl s) fun t st x _ => st.trans (h t x)

theorem State.updDrive_movesBlocks (s : State) (p : Nat) {f : Drive → Drive}
    (h : ∀ d : Drive, d.Stands (f d)) : MovesBlocks s (s.updDrive p f) where
  only := s.updDrive_drivesOnly p f
  stand := s.updDrive_drivesStand p h

theorem State.submit_movesBlocks (s : State) (port : Nat) (told : Bool) (op : NvmeOp) : MovesBlocks s (s.submit port told op) := by
  unfold State.submit
  split
  · next q _ =>
    have queued := s.updDrive_movesBlocks port (f := fun d => { d with cmds := d.cmds ++ [⟨q, op, s.tick, told⟩] }) fun _ => rfl
    exact ⟨congrArg (State.emit · _) queued.only, queued.stand⟩
  · exact .refl s

theorem State.submitAll_movesBlocks (s : State) (port : Nat) (ops : List NvmeOp) : MovesBlocks s (s.submitAll port ops) :=
  .foldl (fun s op => s.submit_movesBlocks port false op) ops s

theorem State.endWrites_movesBlocks (s : State) : MovesBlocks s s.endWrites :=
  (s.updDrive_movesBlocks 0 (f := Drive.writesEnd) fun _ => rfl).trans (State.updDrive_movesBlocks _ 1 (f := Drive.writesEnd) fun _ => rfl)

theorem State.endRead_movesBlocks (s : State) (port block : Nat) : MovesBlocks s (s.endRead port block) :=
  s.updDrive_movesBlocks port fun _ => rfl

theorem State.writeBlock_movesBlocks (s : State) (w : Nat × Bytes) : MovesBlocks s (s.writeBlock w) :=
  .foldl (fun s p => (s.updDrive_movesBlocks p fun d => d.setCell_stands _ _).trans (State.submit_movesBlocks _ _ _ _)) _ s

theorem State.deallocatePage_movesBlocks (s : State) (page : Nat) : MovesBlocks s (s.deallocatePage page) :=
  .foldl (fun s p => (s.updDrive_movesBlocks p fun d => (d.setCell_stands _ _).trans (Drive.setCell_stands _ _ _)).trans
    (State.submit_movesBlocks _ _ _ _)) _ s

theorem State.copyBlock_movesBlocks (s : State) (port block : Nat) : MovesBlocks s (s.copyBlock port block) :=
  ((s.updDrive_movesBlocks port fun d => d.setCell_stands _ _).trans (State.submit_movesBlocks _ _ _ _)).trans (State.submit_movesBlocks _ _ _ _)

/-- A command that is sent moves no block. -/
theorem State.submit_cells (s : State) (port : Nat) (told : Bool) (op : NvmeOp) (p : Nat) :
    ((s.submit port told op).drive p).cells = (s.drive p).cells := by
  unfold State.submit
  split
  · next q _ =>
    exact s.drive_updDrive_of port p (f := fun d => { d with cmds := d.cmds ++ [⟨q, op, s.tick, told⟩] }) Drive.cells fun _ => rfl
  · rfl

theorem State.submitAll_cells (s : State) (port : Nat) (ops : List NvmeOp) (p : Nat) :
    ((s.submitAll port ops).drive p).cells = (s.drive p).cells :=
  List.foldlRecOn ops (motive := fun t : State => (t.drive p).cells = (s.drive p).cells) _ rfl fun (t : State) same op _ =>
    (t.submit_cells port false op p).trans same

/-! ## Reads in progress -/

/-- A read that waits, issued or not by now. -/
def VRead.IssuedBy (tick : Nat) (x y : VRead) : Prop := y = x ∨ y = { x with issued := true, since := tick }

theorem VRead.IssuedBy.trans {tick : Nat} {x y z : VRead} (xy : x.IssuedBy tick y) (yz : y.IssuedBy tick z) : x.IssuedBy tick z := by
  obtain rfl | rfl := xy
  · exact yz
  · exact .inr (yz.elim id id)

/-- Reads that wait are issued: beside their marks, the drives' commands and the credits nothing changes. -/
structure IssuesReads (s t : State) : Prop where
  frame : t = { s with
    vault := { s.vault with d0 := t.vault.d0, d1 := t.vault.d1, reads := t.vault.reads }
    sched := { s.sched with debited := t.sched.debited }
    sent := t.sent }
  stand : DrivesStand s t
  reads : ∀ x ∈ s.vault.reads, ∃ y ∈ t.vault.reads, x.IssuedBy s.tick y

theorem MovesBlocks.issuesReads {s t : State} (h : MovesBlocks s t) : IssuesReads s t where
  frame := by rw [h.only]
  stand := h.stand
  reads x mem := ⟨x, by rw [h.only]; exact mem, .inl rfl⟩

theorem IssuesReads.refl (s : State) : IssuesReads s s := (MovesBlocks.refl s).issuesReads

section Issued
variable {s t : State} (h : IssuesReads s t)
include h

theorem IssuesReads.tick : t.tick = s.tick := by rw [h.frame]
theorem IssuesReads.jobs : t.jobs = s.jobs := by rw [h.frame]
theorem IssuesReads.waiting : t.vault.waiting = s.vault.waiting := by rw [h.frame]
theorem IssuesReads.root : t.vault.root = s.vault.root := by rw [h.frame]

end Issued

theorem IssuesReads.trans {s t u : State} (st : IssuesReads s t) (tu : IssuesReads t u) : IssuesReads s u where
  frame := by rw [tu.frame, st.frame]
  stand := st.stand.trans tu.stand
  reads x mem := by
    obtain ⟨y, mem, xy⟩ := st.reads x mem
    obtain ⟨z, mem, yz⟩ := tu.reads y mem
    exact ⟨z, mem, xy.trans (st.tick ▸ yz)⟩

theorem State.debit_issuesReads {s t : State} {c : Nat} (h : s.debit c = some t) : IssuesReads s t := by
  unfold State.debit at h
  split at h
  · obtain rfl := Option.some.inj h
    exact ⟨rfl, fun _ => rfl, fun x mem => ⟨x, mem, .inl rfl⟩⟩
  · exact nomatch h

/-- A read is marked as issued at the present tick. -/
def State.markIssued (s : State) (r : VRead) : State :=
  { s with vault := { s.vault with reads := s.vault.reads.map fun x => if x = r then { r with issued := true, since := s.tick } else x } }

theorem State.markIssued_issuesReads (s : State) (r : VRead) : IssuesReads s (s.markIssued r) where
  frame := rfl
  stand _ := rfl
  reads x mem := by
    refine ⟨_, List.mem_map_of_mem mem, ?_⟩
    split
    · next same => exact .inr (by rw [same])
    · exact .inl rfl

theorem State.issueRead_issuesReads (s : State) (r : VRead) : IssuesReads s (s.issueRead r) := by
  unfold State.issueRead
  split
  · exact .refl s
  split
  · exact .refl s
  · next t paid =>
    have debited : IssuesReads s t := by
      split at paid
      · obtain rfl := Option.some.inj paid
        exact .refl s
      · exact State.debit_issuesReads paid
    exact (debited.trans (t.markIssued_issuesReads r)).trans (State.submit_movesBlocks _ _ _ _).issuesReads

theorem State.issueReads_issuesReads (s : State) : IssuesReads s s.issueReads :=
  List.foldlRecOn s.vault.reads State.issueRead (.refl s) fun t st r _ => st.trans (t.issueRead_issuesReads r)

/-- A read that is added goes out with the others, or waits with them. -/
theorem State.addRead_issuesReads (s : State) (r : VRead) :
    IssuesReads { s with vault := { s.vault with reads := s.vault.reads ++ [r] } } (s.addRead r) := State.issueReads_issuesReads _

theorem State.mem_addRead (s : State) (r : VRead) : ∃ x ∈ (s.addRead r).vault.reads, r.IssuedBy s.tick x :=
  (s.addRead_issuesReads r).reads r (by simp)

end Sys2Proof.Machine
end

section
/-! # The opening of a commit group (R253 to R256)

A group takes versions one by one: `State.joins` is the test that each has to pass, and what the versions of a group have in common is what
the test asks of each. Phase 1 then issues the writes whose credits fit, which moves blocks and commands alone. -/

namespace Sys2Proof.Machine

/-! ## The versions that a group takes -/

/-- A version joins the group that has formed so far: the test of `State.pickGroup`. -/
def State.joins (s : State) (g : List Version) (v : Version) : Bool :=
  let same := g.filter fun w => w.page == v.page
  (v.resolves || !s.vault.locked.contains v.page) &&
    (same.isEmpty || (decide (v.kind ≠ .pendingChange) && !v.resolves && same.all fun w => decide (w.kind ≠ .pendingChange) && !w.resolves)) &&
    decide (((g.map fun w => w.page).eraseDups ++ (if same.isEmpty then [v.page] else [])).length ≤ 24)

theorem State.pickGroup_cons (s : State) (v : Version) (ws g : List Version) :
    s.pickGroup (v :: ws) g = s.pickGroup ws (if s.joins g v then g ++ [v] else g) := rfl

theorem Version.resolves_iff {v : Version} : v.resolves = true ↔ v.kind = .keep ∨ v.kind = .rollBack := by simp [Version.resolves]

section Joins
variable {s : State} {g : List Version} {v : Version}

theorem State.resolves_of_joins (joins : s.joins g v = true) (locked : v.page ∈ s.vault.locked) : v.kind = .keep ∨ v.kind = .rollBack := by
  simp only [State.joins, Bool.and_eq_true, Bool.or_eq_true] at joins
  obtain ⟨⟨allowed, -⟩, -⟩ := joins
  simpa [locked, Version.resolves_iff] using allowed

theorem groupPages_concat : groupPages (g ++ [v]) =
    groupPages g ++ (if (g.filter fun w => w.page == v.page).isEmpty then [v.page] else []) := by
  rw [groupPages, List.map_append, List.eraseDups_append]
  by_cases listed : ∃ w ∈ g, w.page = v.page
  · simp [groupPages, List.removeAll, listed]
  · have missing : (g.filter fun w => w.page == v.page).isEmpty = true := by simpa using listed
    simp [groupPages, List.removeAll, listed, missing, List.eraseDups_cons, -List.isEmpty_iff]

theorem State.groupPages_le_of_joins (joins : s.joins g v = true) : (groupPages (g ++ [v])).length ≤ 24 := by
  simp only [State.joins, Bool.and_eq_true, decide_eq_true_eq] at joins
  obtain ⟨-, room⟩ := joins
  rw [groupPages_concat]
  exact room

theorem State.joins_nil : s.joins [] v = (v.resolves || !s.vault.locked.contains v.page) := by simp [State.joins]

end Joins

section Pick
variable {s : State} {ws g : List Version} {v : Version}

theorem State.mem_pickGroup_of_mem (mem : v ∈ g) : v ∈ s.pickGroup ws g := by
  induction ws generalizing g with
  | nil => exact mem
  | cons w ws ih =>
    rw [State.pickGroup_cons]
    refine ih ?_
    split
    · exact List.mem_append_left _ mem
    · exact mem

theorem State.mem_pickGroup (mem : v ∈ s.pickGroup ws g) :
    v ∈ g ∨ v ∈ ws ∧ (v.page ∈ s.vault.locked → v.kind = .keep ∨ v.kind = .rollBack) := by
  induction ws generalizing g with
  | nil => exact .inl mem
  | cons w ws ih =>
    rw [State.pickGroup_cons] at mem
    split at mem
    · next joins =>
      obtain mem | ⟨mem, resolves⟩ := ih mem
      · obtain mem | mem := List.mem_append.mp mem
        · exact .inl mem
        · obtain rfl := List.mem_singleton.mp mem
          exact .inr ⟨List.mem_cons_self, State.resolves_of_joins joins⟩
      · exact .inr ⟨List.mem_cons_of_mem _ mem, resolves⟩
    · exact (ih mem).imp_right fun ⟨mem, resolves⟩ => ⟨List.mem_cons_of_mem _ mem, resolves⟩

theorem State.pickGroup_pages_le (le : (groupPages g).length ≤ 24) : (groupPages (s.pickGroup ws g)).length ≤ 24 := by
  induction ws generalizing g with
  | nil => exact le
  | cons w ws ih =>
    rw [State.pickGroup_cons]
    refine ih ?_
    split
    · next joins => exact State.groupPages_le_of_joins joins
    · exact le

/-- The first version that may join an empty group opens it. -/
theorem State.pickGroup_ne_nil (mem : v ∈ ws) (free : v.page ∉ s.vault.locked ∨ v.resolves = true) : s.pickGroup ws g ≠ [] := by
  induction ws generalizing g with
  | nil => exact nomatch mem
  | cons w ws ih =>
    rw [State.pickGroup_cons]
    obtain rfl | mem := List.mem_cons.mp mem
    · cases g with
      | nil =>
        have joins : s.joins [] v = true := by simpa [State.joins_nil, or_comm] using free
        rw [if_pos joins]
        exact List.ne_nil_of_mem (State.mem_pickGroup_of_mem (List.mem_singleton_self v))
      | cons x g =>
        refine List.ne_nil_of_mem (State.mem_pickGroup_of_mem (v := x) ?_)
        split <;> simp
    · exact ih mem

end Pick

section NextGroup
variable {s : State} {v : Version}

/-- The versions that the next group chooses from. -/
theorem State.mem_line (first : Version → Bool) :
    v ∈ (s.vault.waiting.filter fun v => decide (v.since ≠ s.tick)).filter first ++
      (s.vault.waiting.filter fun v => decide (v.since ≠ s.tick)).filter (fun v => !first v) ↔ v ∈ s.vault.waiting ∧ v.since ≠ s.tick := by
  cases h : first v <;> simp [h]

theorem State.mem_nextGroup (mem : v ∈ s.nextGroup) :
    v ∈ s.vault.waiting ∧ v.since ≠ s.tick ∧ (v.page ∈ s.vault.locked → v.kind = .keep ∨ v.kind = .rollBack) := by
  obtain mem | ⟨mem, resolves⟩ := State.mem_pickGroup mem
  · exact nomatch mem
  · obtain ⟨waits, earlier⟩ := (State.mem_line _).mp mem
    exact ⟨waits, earlier, resolves⟩

theorem State.nextGroup_pages_le : (groupPages s.nextGroup).length ≤ 24 := State.pickGroup_pages_le (Nat.zero_le _)

theorem State.nextGroup_ne_nil (waits : v ∈ s.vault.waiting) (earlier : v.since ≠ s.tick)
    (free : v.page ∉ s.vault.locked ∨ v.kind = .keep ∨ v.kind = .rollBack) : s.nextGroup ≠ [] :=
  State.pickGroup_ne_nil ((State.mem_line _).mpr ⟨waits, earlier⟩) (free.imp_right Version.resolves_iff.mpr)

end NextGroup

/-! ## Phase 1 -/

/-- The writes of a group that go out in a frame: 2 credits each, none past the plan's last one, and the Flush only after that one. -/
structure IssuesWrites (s t : State) : Prop where
  frame : t = { s with
    vault := { s.vault with d0 := t.vault.d0, d1 := t.vault.d1, groupIssued := t.vault.groupIssued, groupFlushed := t.vault.groupFlushed }
    sched := { s.sched with debited := t.sched.debited }
    sent := t.sent }
  paid : t.sched.debited + 2 * s.vault.groupIssued = s.sched.debited + 2 * t.vault.groupIssued
  issued : s.vault.groupIssued ≤ s.groupPlan.writes.length → t.vault.groupIssued ≤ s.groupPlan.writes.length
  flushed : s.vault.groupFlushed = false → t.vault.groupFlushed = true → s.groupPlan.writes.length ≤ t.vault.groupIssued

theorem IssuesWrites.refl (s : State) : IssuesWrites s s := ⟨rfl, rfl, id, fun no yes => by simp [no] at yes⟩

/-- The writes of the plan that are still to come. -/
def State.writesLeft (s : State) : List (Nat × Bytes) := s.groupPlan.writes.drop s.vault.groupIssued

/-- The next writes of the plan sent, and paid for. -/
def State.sendWrites (s : State) (k : Nat) : State :=
  let t := (s.writesLeft.take k).foldl State.writeBlock s
  { t with
    sched := { t.sched with debited := t.sched.debited + pageCredits * k }
    vault := { t.vault with groupIssued := t.vault.groupIssued + k } }

/-- The Flush sent to every drive that takes writes. -/
def State.sendFlush (s : State) : State :=
  s.writers.foldl (fun st p => st.submit p true .flush) { s with vault := { s.vault with groupFlushed := true } }

theorem State.sendWrites_frame (s : State) (k : Nat) : s.sendWrites k = { s with
    vault := { s.vault with d0 := (s.sendWrites k).vault.d0, d1 := (s.sendWrites k).vault.d1, groupIssued := s.vault.groupIssued + k }
    sched := { s.sched with debited := s.sched.debited + 2 * k }
    sent := (s.sendWrites k).sent } := by
  unfold State.sendWrites
  rw [(MovesBlocks.foldl State.writeBlock_movesBlocks (s.writesLeft.take k) s).only]
  rfl

theorem State.sendFlush_frame (s : State) : s.sendFlush = { s with
    vault := { s.vault with d0 := s.sendFlush.vault.d0, d1 := s.sendFlush.vault.d1, groupFlushed := true }
    sent := s.sendFlush.sent } := by
  unfold State.sendFlush
  rw [(MovesBlocks.foldl (fun s p => s.submit_movesBlocks p true .flush) s.writers { s with vault := { s.vault with groupFlushed := true } }).only]

theorem State.sendWrites_issuesWrites {s : State} {k : Nat} (fits : k ≤ s.writesLeft.length) : IssuesWrites s (s.sendWrites k) := by
  rw [State.writesLeft, List.length_drop] at fits
  refine ⟨by rw [s.sendWrites_frame], ?_, ?_, fun no yes => ?_⟩
  all_goals rw [s.sendWrites_frame] at *
  · dsimp only
    omega
  · exact fun within => by dsimp only; omega
  · simp [no] at yes

theorem IssuesWrites.flush {s t : State} (h : IssuesWrites s t) (all : s.groupPlan.writes.length ≤ t.vault.groupIssued) :
    IssuesWrites s t.sendFlush := by
  refine ⟨by rw [t.sendFlush_frame, h.frame], ?_, ?_, fun _ _ => ?_⟩
  all_goals rw [t.sendFlush_frame]
  · exact h.paid
  · exact h.issued
  · exact all

/-- The room of the drives that take writes. -/
def State.writeRoom (s : State) : Nat := s.writers.foldl (fun a p => min a (s.drive p).room) 1024

/-- What fits the frame of the writes still to come: by number, by credits, by the drives' queues. -/
def State.writesThatFit (s : State) : Nat := min s.writesLeft.length (min (s.remainder / pageCredits) (s.writeRoom - 1))

theorem State.issueWrites_of_granted {s : State} (opened : s.vault.group ≠ []) (on : s.keeper.guardOn = true) (granted : s.vaultDenied 4 = none) :
    s.issueWrites = if s.writesThatFit < s.writesLeft.length ∨ (s.sendWrites s.writesThatFit).vault.groupFlushed ∨ s.writeRoom = 0
      then s.sendWrites s.writesThatFit else (s.sendWrites s.writesThatFit).sendFlush := by
  rw [State.issueWrites, if_neg (by simp [opened, on]), granted]
  rfl

theorem State.issueWrites_of_off {s : State} (off : s.keeper.guardOn = false) : s.issueWrites = s := if_pos (.inr (by simp [off]))

theorem State.issueWrites_of_closed {s : State} (closed : s.vault.group = []) : s.issueWrites = s := if_pos (.inl closed)

theorem State.issueWrites_issuesWrites {s : State} (opened : s.vault.group ≠ []) (granted : s.keeper.guardOn = false ∨ s.vaultDenied 4 = none) :
    IssuesWrites s s.issueWrites := by
  cases on : s.keeper.guardOn with
  | false =>
    rw [State.issueWrites_of_off on]
    exact .refl s
  | true =>
    have sends : IssuesWrites s (s.sendWrites s.writesThatFit) := State.sendWrites_issuesWrites (Nat.min_le_left _ _)
    rw [State.issueWrites_of_granted opened on (granted.resolve_left (by simp [on]))]
    split
    · exact sends
    · next all =>
      have left : s.groupPlan.writes.length - s.vault.groupIssued ≤ s.writesThatFit := by
        simpa [State.writesLeft] using (not_or.mp all).1
      refine sends.flush ?_
      rw [s.sendWrites_frame]
      exact Nat.sub_le_iff_le_add'.mp left

/-! ## COMMIT_GROUP_OPEN -/

/-- The next group is open, and none of its writes has been issued. -/
def State.groupOpened (s : State) : State :=
  { s with vault := { s.vault with
    group := s.nextGroup, groupSince := s.tick, groupIssued := 0, groupFlushed := false, groupEnded := false,
    waiting := s.vault.waiting.filter fun v => !s.nextGroup.contains v } }

section Open
variable {s : State}

theorem exec_commitGroupOpen_of_opens (closed : s.vault.group = []) (settled : s.vault.coming = none) (up : s.vaultUp = true)
    (waits : s.nextGroup ≠ []) (room : s.journalFull s.nextGroup = false) :
    s.openGroup = s.groupOpened ∧ exec .commitGroupOpen s = .next s.groupOpened.issueWrites := by
  have opens : s.openGroup = s.groupOpened := if_neg (by simp [closed, settled, up, waits, room])
  exact ⟨opens, congrArg Host.Outcome.next ((if_pos closed).trans (congrArg State.issueWrites opens))⟩

theorem exec_commitGroupOpen_of_stays
    (h : s.vault.group ≠ [] ∨ s.vault.coming.isSome ∨ s.vaultUp = false ∨ s.nextGroup = [] ∨ s.journalFull s.nextGroup = true) :
    exec .commitGroupOpen s = .next s := by
  have stays : s.openGroup = s := if_pos (by simpa using h)
  refine congrArg Host.Outcome.next ?_
  split
  · next closed => rw [stays, State.issueWrites_of_closed closed]
  · rfl

end Open

/-- Settles O33: the group is what `State.pickGroup` takes, and phase 1 begins as `IssuesWrites` says. -/
theorem commitGroupOpens : Obligations.CommitGroupOpens := by
  unfold Obligations.CommitGroupOpens
  refine fun s => ⟨fun closed settled up waits room granted => ?opens,
    fun ⟨v, waits, earlier, free⟩ => State.nextGroup_ne_nil waits earlier free, exec_commitGroupOpen_of_stays⟩
  case opens =>
    obtain ⟨opens, runs⟩ := exec_commitGroupOpen_of_opens closed settled up waits room
    obtain ⟨frame, paid, issued, flushed⟩ := State.issueWrites_issuesWrites (s := s.groupOpened) waits granted
    rw [opens]
    have last := issued (Nat.zero_le _)
    refine ⟨s.groupOpened.issueWrites, runs, ?_, ?_, ?_, State.nextGroup_pages_le, fun v => State.mem_nextGroup, ?waiting, paid, last,
      fun sent => le_antisymm last (flushed rfl sent), ?_, ?_, ?_⟩
    all_goals rw [frame]
    case waiting => simp [State.groupOpened]
    all_goals rfl

end Sys2Proof.Machine
end

section
/-! # Phase 2 of a commit (R254 to R256)

`State.phase2` writes the records first; what follows it, in the area of verified nodes, the dictionary and the jobs of the group, leaves
them alone. -/

namespace Sys2Proof.Machine

/-! ## The records -/

@[simp] theorem RootCopy.of_holds (r : Root) : (RootCopy.of r).holds = true := by simp [RootCopy.of, RootCopy.holds]

@[simp] theorem JRecord.of_holds (r : Root) (items : List JItem) (tick : Nat) : (JRecord.of r items tick).holds = true := by
  simp [JRecord.of, JRecord.holds, JRecord.head, JRecord.body]

theorem GroupPlan.page_items (g : GroupPlan) (seq p : Nat) (vs : List Version) :
    (g.page seq p vs).items.map JItem.page = g.items.map JItem.page ++ [p] := by
  unfold GroupPlan.page
  dsimp only
  split <;> simp

/-- The plan has one item for each page of the group. -/
theorem State.groupPlan_items (s : State) : s.groupPlan.items.map JItem.page = groupPages s.vault.group := by
  have grows (ps : List Nat) (g : GroupPlan) : (ps.foldl (fun (a : GroupPlan) p => a.page (s.vault.root.seq + 1) p
      (s.vault.group.filter fun v => v.page == p)) g).items.map JItem.page = g.items.map JItem.page ++ ps := by
    induction ps generalizing g with
    | nil => simp
    | cons p ps ih => rw [List.foldl_cons, ih, GroupPlan.page_items, List.append_assoc, List.singleton_append]
  exact grows _ _

/-! ## What follows the records -/

/-- The records of the vault stand, with the rings, the keys and working memory. -/
structure FollowsRecords (s t : State) : Prop where
  vault : t.vault = { s.vault with nodes := t.vault.nodes }
  keys : t.keys = s.keys
  rings : t.rings = s.rings
  wm : t.wm = s.wm

theorem FollowsRecords.refl (s : State) : FollowsRecords s s := ⟨rfl, rfl, rfl, rfl⟩

theorem FollowsRecords.trans {s t u : State} (st : FollowsRecords s t) (tu : FollowsRecords t u) : FollowsRecords s u where
  vault := by rw [tu.vault, st.vault]
  keys := tu.keys.trans st.keys
  rings := tu.rings.trans st.rings
  wm := tu.wm.trans st.wm

theorem FollowsRecords.foldl {α : Type} {f : State → α → State} (h : ∀ s x, FollowsRecords s (f s x)) (l : List α) (s : State) :
    FollowsRecords s (l.foldl f s) :=
  List.foldlRecOn l f (.refl s) fun t st x _ => st.trans (h t x)

theorem State.withNodes_followsRecords (s : State) (l : List Nat) : FollowsRecords s { s with vault := { s.vault with nodes := l } } :=
  ⟨rfl, rfl, rfl, rfl⟩

theorem State.touchNode_followsRecords (s : State) (level index : Nat) : FollowsRecords s (s.touchNode level index) :=
  s.withNodes_followsRecords _

theorem State.setNum_followsRecords (s : State) (k v : Nat) : FollowsRecords s (s.setNum k v) := ⟨rfl, rfl, rfl, rfl⟩

theorem State.updJob_followsRecords (s : State) (id : Nat) (f : Job → Job) : FollowsRecords s (s.updJob id f) := ⟨rfl, rfl, rfl, rfl⟩

theorem State.withChain_followsRecords (s : State) (c : Chain) : FollowsRecords s { s with chain := c } := ⟨rfl, rfl, rfl, rfl⟩

theorem State.sendMsg_followsRecords (s : State) (type dst : Nat) (body : Bytes) (record : Option ReplRecord) :
    FollowsRecords s (s.sendMsg type dst body record) := s.withChain_followsRecords _

theorem State.startOwn_followsRecords (s : State) (change : Change) (k : Nat) (job : Option Nat) (write : Option (Nat × Option DictReq))
    (majority : Bool) : FollowsRecords s (s.startOwn change k job write majority) := by
  unfold State.startOwn
  dsimp only
  split
  · exact s.withChain_followsRecords _
  split
  · exact s.withChain_followsRecords _
  split
  · exact ((s.withChain_followsRecords _).trans (State.sendMsg_followsRecords _ _ _ _ _)).trans (State.sendMsg_followsRecords _ _ _ _ _)
  · exact (s.withChain_followsRecords _).trans (State.sendMsg_followsRecords _ _ _ _ _)

theorem State.replicateJob_followsRecords (s : State) (id : Nat) : FollowsRecords s (s.replicateJob id) := by
  unfold State.replicateJob
  split
  · split
    · dsimp only
      split <;> exact (s.startOwn_followsRecords _ _ _ _ _).trans (State.updJob_followsRecords _ _ _)
    · exact s.updJob_followsRecords _ _
  · exact .refl s

/-- What phase 2 brings into force at the next tick: the tree, root and locks of the plan, and the pages whose frames are free then. -/
def State.comes (s : State) : Coming :=
  let v := s.groupPlan.after.vault
  ⟨v.tree, { v.root with seq := s.vault.root.seq + 1 }, v.locked,
    (groupPages s.vault.group).filter fun p => decide ((s.groupPlan.after.pageEntry p).slotMap = 0) && !v.locked.contains p⟩

/-- The journal with one more record, the ring of 512. -/
def State.journalWith (s : State) (r : JRecord) : List JRecord :=
  (if 512 ≤ s.vault.journal.length then s.vault.journal.drop 1 else s.vault.journal) ++ [r]

/-- Phase 2's records: both battery copies, the journal record, the tree to come; the group is closed. -/
def State.writeRecords (s : State) : State :=
  { s with vault := { s.vault with
    battery0 := some (RootCopy.of s.comes.root), battery1 := some (RootCopy.of s.comes.root),
    journal := s.journalWith (JRecord.of s.comes.root s.groupPlan.items (s.tick + 1)),
    coming := some s.comes, group := [], groupIssued := 0, groupFlushed := false, groupEnded := false } }

theorem State.phase2_followsRecords (s : State) : FollowsRecords s.writeRecords s.phase2 := by
  have nodes := FollowsRecords.foldl (f := fun st p => (st.touchNode 2 (p / 128 ^ 2)).touchNode 1 (p / 128))
    (fun s p => (s.touchNode_followsRecords _ _).trans (State.touchNode_followsRecords _ _ _)) (groupPages s.vault.group) s.writeRecords
  exact (nodes.trans (.foldl (fun s _ => s.setNum_followsRecords _ _) _ _)).trans
    (.foldl (fun s _ => (s.updJob_followsRecords _ _).trans (State.replicateJob_followsRecords _ _)) _ _)

/-! ## The next tick -/

/-- The tree, root and locks that come into force stand until the next commit. -/
theorem State.comeIntoForce_of_coming {s : State} {c : Coming} (coming : s.vault.coming = some c) :
    s.comeIntoForce.vault.root = c.root ∧ s.comeIntoForce.vault.tree = c.tree ∧ s.comeIntoForce.vault.locked = c.locked ∧
      s.comeIntoForce.vault.coming = none := by
  unfold State.comeIntoForce
  rw [coming]
  dsimp only
  rw [(MovesBlocks.foldl State.deallocatePage_movesBlocks c.dead _).only]
  exact ⟨rfl, rfl, rfl, rfl⟩

/-! ## COMMIT_PHASE2 -/

/-- Every command of phase 1 has completed. -/
def State.phase1Ends (s : State) : State := State.endWrites { s with vault := { s.vault with groupEnded := true } }

theorem State.phase1Ends_frame (s : State) : s.phase1Ends = { s with
    vault := { s.vault with d0 := s.phase1Ends.vault.d0, d1 := s.phase1Ends.vault.d1, groupEnded := true } } := rfl

section Phase2
variable {s : State} (opened : s.vault.group ≠ []) (flushed : s.vault.groupFlushed = true)
include opened

theorem State.groupWindow_phase1Ends : s.phase1Ends.groupWindow = s.phase1Ends.phase2 := if_pos ⟨opened, rfl⟩

include flushed

theorem exec_commitPhase2_of_window (window : s.window = true) : exec .commitPhase2 s = .next s.phase1Ends.phase2 := by
  rw [← State.groupWindow_phase1Ends opened]
  exact (if_pos ⟨opened, flushed⟩).trans (congrArg Host.Outcome.next (if_pos window))

theorem exec_commitPhase2_of_no_window (early : s.window = false) : exec .commitPhase2 s = .next s.phase1Ends :=
  (if_pos ⟨opened, flushed⟩).trans (congrArg Host.Outcome.next (if_neg (ne_true_of_eq_false early)))

end Phase2

theorem exec_commitPhase2_of_not_flushed {s : State} (h : s.vault.group = [] ∨ s.vault.groupFlushed = false) :
    exec .commitPhase2 s = .next s := by
  refine if_neg ?_
  rintro ⟨opened, flushed⟩
  obtain closed | left := h
  · exact opened closed
  · exact ne_true_of_eq_false left flushed

/-- Settles O34: phase 2 writes `State.writeRecords`, and what follows leaves the records. -/
theorem commitPhaseTwoAdvancesRoot : Obligations.CommitPhaseTwoAdvancesRoot := by
  unfold Obligations.CommitPhaseTwoAdvancesRoot
  refine fun s => ⟨fun opened flushed window => ?window, fun opened flushed early => ?early, exec_commitPhase2_of_not_flushed⟩
  case early =>
    exact ⟨s.phase1Ends, exec_commitPhase2_of_no_window opened flushed early, rfl, State.groupWindow_phase1Ends opened, rfl, rfl, rfl,
      s.phase1Ends_frame⟩
  case window =>
    obtain ⟨vault, keys, rings, wm⟩ := s.phase1Ends.phase2_followsRecords
    have coming : s.phase1Ends.phase2.vault.coming = some s.phase1Ends.comes := by rw [vault]; rfl
    obtain ⟨root, tree, locked, none⟩ := State.comeIntoForce_of_coming coming
    refine ⟨s.phase1Ends.phase2, s.phase1Ends.comes, exec_commitPhase2_of_window opened flushed window, coming, rfl, ?_, ?_, ?_, ?_,
      RootCopy.of_holds _, ?_, ⟨s.phase1Ends.groupPlan.items, ?_, s.phase1Ends.groupPlan_items, JRecord.of_holds _ _ _⟩,
      root, tree, locked, none, ?_, ?_, keys, rings, wm⟩
    all_goals rw [vault]; rfl

end Sys2Proof.Machine
end

section
/-! # The end of a vault read (R252, R258, R259)

What ends on a port is taken off the reads in progress first (`State.readOff`). A copy that passes its check goes on, to the ladder or to the
next node of the path; one that does not is read from the other drive; and where that cannot be, the jobs that wait are finished. -/

namespace Sys2Proof.Machine

/-! ## Jobs that end -/

/-- The job's completion is staged: its status, no output, the tick at which its record is due. -/
def Job.EndedWith (status due : Nat) (j : Job) : Prop :=
  j.phase = .staged ∧ j.outcome = some ⟨status, [], 0, none, none⟩ ∧ j.due = due

/-- Each job of a list finished with a status. -/
def State.finishAll (s : State) (ids : List Nat) (status due : Nat) : State := ids.foldl (fun st id => st.finish id status 0 due) s

theorem State.finishAll_stopsJobs (s : State) (ids : List Nat) (status due : Nat) : StopsJobs s (s.finishAll ids status due) :=
  foldl_stopsJobs (fun s id => s.finish_stopsJobs id status 0 due) ids s

/-- A job is as it was where the list does not name it. -/
theorem State.mem_finishAll {s : State} {ids : List Nat} {status due : Nat} {j : Job} (mem : j ∈ (s.finishAll ids status due).jobs) :
    j.EndedWith status due ∨ j ∈ s.jobs ∧ j.id ∉ ids := by
  induction ids generalizing s with
  | nil => exact .inr ⟨mem, List.not_mem_nil⟩
  | cons id ids ih =>
    obtain ended | ⟨mem, rest⟩ := ih mem
    · exact .inl ended
    · rw [State.finish_jobs] at mem
      obtain ⟨i, listed, rfl⟩ := List.mem_map.mp mem
      split
      · exact .inl ⟨rfl, rfl, rfl⟩
      · next other =>
        rw [if_neg other] at rest
        exact .inr ⟨listed, List.not_mem_cons_of_ne_of_not_mem other rest⟩

theorem State.finishAll_ends {s : State} {ids : List Nat} {status due : Nat} :
    ∀ j ∈ (s.finishAll ids status due).jobs, j.id ∈ ids → j.EndedWith status due := fun _ mem named =>
  (State.mem_finishAll mem).resolve_right fun ⟨_, rest⟩ => rest named

theorem State.readLost_vault (s : State) (ids : List Nat) (due : Nat) : (s.readLost ids due).vault = s.vault :=
  (s.finishAll_stopsJobs ids stVault due).keeps.2.1

theorem State.readEmpty_eq (s : State) (ids : List Nat) : s.readEmpty ids = s.finishAll ids stUnknown (s.tick + 2) := by
  induction ids generalizing s with
  | nil => rfl
  | cons id ids ih => exact ih _

/-! ## What goes to the ladder -/

theorem State.refuseAbsent_stopsJobs (u : Unwrap) (s : State) (id : Nat) : StopsJobs s (s.refuseAbsent u id) := by
  unfold State.refuseAbsent
  split
  · dsimp only
    split
    · exact s.finish_stopsJobs _ _ _ _
    · exact .refl s
  · exact .refl s

theorem State.refuseAbsent_unwraps (u : Unwrap) (s : State) (id : Nat) : (s.refuseAbsent u id).lanes.unwraps = s.lanes.unwraps := by
  unfold State.refuseAbsent
  split
  · dsimp only
    split <;> rfl
  · rfl

theorem State.deliver_vault (s : State) (u : Unwrap) : (s.deliver u).vault = s.vault := by
  rw [State.deliver, (foldl_stopsJobs (State.refuseAbsent_stopsJobs u) u.jobs _).frame]

theorem State.deliver_unwraps (s : State) (u : Unwrap) : (s.deliver u).lanes.unwraps = s.lanes.unwraps ++ [u] :=
  List.foldlRecOn u.jobs (State.refuseAbsent u) (motive := fun t : State => t.lanes.unwraps = s.lanes.unwraps ++ [u]) rfl
    fun t same id _ => (t.refuseAbsent_unwraps u id).trans same

/-! ## The read as it ends -/

/-- A read taken off its port; an error counts for the port. -/
def State.readOff (s : State) (r : VRead) (data : Option Bytes) : State :=
  let t := (s.dropRead r).endRead r.port (s.readBlock r)
  if data.isNone then t.count (Key.VLT_PORT_ERRORS r.port) else t

theorem State.readDone_eq (s : State) (r : VRead) (data : Option Bytes) :
    s.readDone r data = if r.level = 0 then (s.readOff r data).pageDone r data else (s.readOff r data).nodeDone r data := rfl

/-- Beside the drives' commands the read itself goes, and the dictionary's counter may change. -/
structure EndsRead (r : VRead) (s t : State) : Prop where
  frame : t = { s with
    vault := { s.vault with d0 := t.vault.d0, d1 := t.vault.d1, reads := s.vault.reads.filter fun x => decide (x ≠ r) }
    dict := t.dict
    sent := t.sent }
  stand : DrivesStand s t

theorem State.endRead_endsRead (s : State) (r : VRead) : EndsRead r s ((s.dropRead r).endRead r.port (s.readBlock r)) := by
  have moved := (s.dropRead r).endRead_movesBlocks r.port (s.readBlock r)
  exact ⟨by rw [moved.only]; rfl, moved.stand⟩

theorem State.readOff_endsRead (s : State) (r : VRead) (data : Option Bytes) : EndsRead r s (s.readOff r data) := by
  have ended := s.endRead_endsRead r
  unfold State.readOff
  dsimp only
  split
  · exact ⟨by rw [ended.frame]; rfl, ended.stand⟩
  · exact ended

section EndsRead
variable {r : VRead} {s t : State} (h : EndsRead r s t)
include h

theorem EndsRead.tick : t.tick = s.tick := by rw [h.frame]
theorem EndsRead.jobs : t.jobs = s.jobs := by rw [h.frame]
theorem EndsRead.lanes : t.lanes = s.lanes := by rw [h.frame]
theorem EndsRead.reads : t.vault.reads = s.vault.reads.filter fun x => decide (x ≠ r) := by rw [h.frame]
theorem EndsRead.waiting : t.vault.waiting = s.vault.waiting := by rw [h.frame]
theorem EndsRead.root : t.vault.root = s.vault.root := by rw [h.frame]
theorem EndsRead.tree : t.vault.tree = s.vault.tree := by rw [h.frame]

theorem EndsRead.entryAt (level index : Nat) : t.entryAt level index = s.entryAt level index := by
  rw [State.entryAt, h.tree]
  rfl

end EndsRead

/-! ## The other drive -/

theorem State.readOther_jobs (s : State) (r : VRead) (data : Bool) : (s.readOther r data).jobs = s.jobs :=
  (s.addRead_issuesReads _).jobs

/-- The read goes to the other drive: nothing ends yet. -/
def GoesOther (r : VRead) (data : Bool) (s t : State) : Prop :=
  t.jobs = s.jobs ∧ ∃ x ∈ t.vault.reads, x.page = r.page ∧ x.port = 1 - r.port ∧ x.jobs = r.jobs ∧ x.level = r.level ∧
    x.second = true ∧ x.firstData = data ∧ x.since = s.tick

theorem GoesOther.of_readOther {r : VRead} {data : Bool} {s t : State} (jobs : t.jobs = s.jobs) (tick : t.tick = s.tick) :
    GoesOther r data s (t.readOther r data) := by
  refine ⟨(t.readOther_jobs r data).trans jobs, ?_⟩
  obtain ⟨x, mem, rfl | rfl⟩ := t.mem_addRead { r with port := 1 - r.port, second := true, firstData := data, since := t.tick, issued := false }
  all_goals exact ⟨_, mem, rfl, rfl, rfl, rfl, rfl, rfl, tick⟩

/-! ## A repair, a node taken up -/

/-- A second copy that passes has its page written anew (R259). -/
def State.repairSecond (s : State) (r : VRead) : State := if r.second then s.repairCopy r else s

theorem State.repairSecond_vault (s : State) (r : VRead) : (s.repairSecond r).vault = { s.vault with
    waiting := if r.second then s.vault.waiting ++ [⟨r.page, .repair, [], none, none, s.tick⟩] else s.vault.waiting } := by
  unfold State.repairSecond
  split <;> rfl

theorem State.repairSecond_lanes (s : State) (r : VRead) : (s.repairSecond r).lanes = s.lanes := by
  unfold State.repairSecond
  split <;> rfl

theorem State.repairSecond_tick (s : State) (r : VRead) : (s.repairSecond r).tick = s.tick := by
  unfold State.repairSecond
  split <;> rfl

/-- The tree and the area of verified nodes take a node up. -/
def TakesNode (s t : State) : Prop := t.vault = { s.vault with nodes := t.vault.nodes, lost := t.vault.lost, tree := t.vault.tree }

theorem TakesNode.trans {s t u : State} (st : TakesNode s t) (tu : TakesNode t u) : TakesNode s u := by
  rw [TakesNode, tu, st]

theorem State.withNodes_takesNode (s : State) (nodes : List Nat) : TakesNode s { s with vault := { s.vault with nodes := nodes } } := rfl

/-- A node that has been read counts as used, and is lost no more. -/
def State.noteNode (s : State) (level index : Nat) : State :=
  let t := if level < 3 then s.touchNode level index else s
  { t with vault := { t.vault with lost := t.vault.lost.filter fun k => decide (k ≠ treeKey level index) } }

theorem State.noteNode_takesNode (s : State) (level index : Nat) : TakesNode s (s.noteNode level index) := by
  have touched : TakesNode s (if level < 3 then s.touchNode level index else s) := by
    split
    · exact s.withNodes_takesNode _
    · rfl
  exact touched.trans rfl

theorem State.takeNode_eq (s : State) (level index : Nat) (b : Bytes) : s.takeNode level index b =
    if (s.noteNode level index).nodeBytes level index = b then s.noteNode level index
    else (List.range 128).foldl (fun st i =>
      let e := entryOf (cut (32 * i) 32 b)
      if e.seq = 0 then st else st.setEntry (level - 1) (128 * index + i) e) (s.noteNode level index) := rfl

theorem State.takeNode_takesNode (s : State) (level index : Nat) (b : Bytes) : TakesNode s (s.takeNode level index b) := by
  have noted := s.noteNode_takesNode level index
  rw [State.takeNode_eq]
  split
  · exact noted
  · refine List.foldlRecOn (List.range 128) _ noted fun t taken i _ => ?_
    dsimp only
    split
    · exact taken
    · exact taken.trans rfl

/-! ## A node -/

section Node
variable {s : State} {r : VRead}

theorem State.nodeDone_of_matches {b : Bytes}
    (good : (vaultHash r.level (r.page / 128 ^ r.level) b).take 22 = (s.entryAt r.level (r.page / 128 ^ r.level)).hash) :
    let t := (s.repairSecond r).takeNode r.level (r.page / 128 ^ r.level) b
    s.nodeDone r (some b) =
      if t.nextLevel r.page = 0 ∧ (t.pageEntry r.page).seq = 0 then t.readEmpty r.jobs
      else t.addRead { r with level := t.nextLevel r.page, second := false, firstData := false, since := t.tick, issued := false } :=
  if_pos good

theorem State.nodeDone_of_differs {b : Bytes} (first : r.second = false) (other : (s.drive (1 - r.port)).inMirror = true)
    (bad : (vaultHash r.level (r.page / 128 ^ r.level) b).take 22 ≠ (s.entryAt r.level (r.page / 128 ^ r.level)).hash) :
    s.nodeDone r (some b) = s.readOther r true :=
  (if_neg bad).trans (if_pos (by simp [first, other]))

end Node

/-! ## A page -/

/-- No job of the list is an OBJECT_REPAIR, which takes its own drive's copy as it is (R263). -/
def State.NoRepairs (s : State) (ids : List Nat) : Prop := ∀ id ∈ ids, ∀ j, s.job? id = some j → j.op ≠ 0x070C

theorem State.NoRepairs.any_eq_false {s : State} {ids : List Nat} (plain : s.NoRepairs ids) {id : Nat} (mem : id ∈ ids) :
    ((s.job? id).any fun j => j.op == 0x070C) = false := by
  cases found : s.job? id with
  | none => rfl
  | some j => simpa using plain id mem j found

/-- A page as it is checked for the jobs that wait: the part of `State.pageDone` that no repair takes. -/
def State.checkPage (s : State) (r : VRead) : Option Bytes → State
  | some b =>
    if matchesEntry r.page (s.readEntry r) (slotsOfPage b) then
      (if r.second && !r.prior then s.repairCopy r else s).deliver ⟨r.page, slotsOfPage b, r.jobs, r.prior, []⟩
    else
      let t := s.updDrive r.port fun d => d.setCell (s.readBlock r) b
      if r.second then (if r.firstData then t.bothFail r (s.readEntry r) else t.readLost r.jobs (t.tick + 2))
      else if (t.drive (1 - r.port)).inMirror then t.readOther r true
      else t.bothFail r (s.readEntry r)
  | none => if !r.second && (s.drive (1 - r.port)).inMirror then s.readOther r false else s.readLost r.jobs (s.tick + 2)

theorem EndsRead.noRepairs {r : VRead} {s t : State} (h : EndsRead r s t) {ids : List Nat} (plain : s.NoRepairs ids) : t.NoRepairs ids := by
  simpa only [State.NoRepairs, State.job?, h.jobs] using plain

section Page
variable {s : State} {r : VRead}

theorem State.pageDone_of_plain (plain : s.NoRepairs r.jobs) (waits : r.jobs ≠ []) (data : Option Bytes) :
    s.pageDone r data = s.checkPage r data := by
  have repairs : (r.jobs.filter fun id => (s.job? id).any fun j => j.op == 0x070C) = [] :=
    List.filter_eq_nil_iff.mpr fun id mem => by simp [plain.any_eq_false mem]
  have others : (r.jobs.filter fun id => !(s.job? id).any fun j => j.op == 0x070C) = r.jobs :=
    List.filter_eq_self.mpr fun id mem => by simp [plain.any_eq_false mem]
  unfold State.pageDone
  dsimp only
  rw [repairs, others]
  refine (if_neg fun h => waits h.1).trans ?_
  cases data <;> rfl

theorem State.checkPage_of_matches {b : Bytes} (now : r.prior = false)
    (good : matchesEntry r.page (s.readEntry r) (slotsOfPage b) = true) :
    s.checkPage r (some b) = (s.repairSecond r).deliver ⟨r.page, slotsOfPage b, r.jobs, false, []⟩ := by
  simp [State.checkPage, good, now, State.repairSecond]

theorem State.checkPage_of_differs {b : Bytes} (first : r.second = false) (other : (s.drive (1 - r.port)).inMirror = true)
    (bad : matchesEntry r.page (s.readEntry r) (slotsOfPage b) = false) :
    s.checkPage r (some b) = (s.updDrive r.port fun d => d.setCell (s.readBlock r) b).readOther r true := by
  simp [State.checkPage, bad, first, other]

end Page

/-! ## A copy that passes, fails, or does not come -/

section Copy
variable {s : State} {r : VRead} {b : Bytes}

/-- A page whose copy passes goes to the ladder. -/
theorem State.readDone_page_good (plain : s.NoRepairs r.jobs) (waits : r.jobs ≠ []) (now : r.prior = false) (page : r.level = 0)
    (good : matchesEntry r.page (s.pageEntry r.page) (slotsOfPage b) = true) :
    s.readDone r (some b) = ((s.readOff r (some b)).repairSecond r).deliver ⟨r.page, slotsOfPage b, r.jobs, false, []⟩ := by
  have ends := s.readOff_endsRead r (some b)
  rw [State.readDone_eq, if_pos page, State.pageDone_of_plain (ends.noRepairs plain) waits]
  refine State.checkPage_of_matches now ?_
  simpa [State.readEntry, page, now, State.pageEntry, ends.entryAt] using good

theorem State.readDone_page_bad (plain : s.NoRepairs r.jobs) (waits : r.jobs ≠ []) (now : r.prior = false) (page : r.level = 0)
    (bad : matchesEntry r.page (s.pageEntry r.page) (slotsOfPage b) = false) (first : r.second = false)
    (other : (s.drive (1 - r.port)).inMirror = true) : GoesOther r true s (s.readDone r (some b)) := by
  have ends := s.readOff_endsRead r (some b)
  rw [State.readDone_eq, if_pos page, State.pageDone_of_plain (ends.noRepairs plain) waits,
    State.checkPage_of_differs first ((ends.stand.inMirror _).trans other)]
  · exact .of_readOther (by simp [ends.jobs]) (by simp [ends.tick])
  · simpa [State.readEntry, page, now, State.pageEntry, ends.entryAt] using bad

/-- The state with the node that has been read taken up. -/
def State.nodeTaken (s : State) (r : VRead) (b : Bytes) : State :=
  ((s.readOff r (some b)).repairSecond r).takeNode r.level (r.page / 128 ^ r.level) b

theorem State.nodeTaken_tick : (s.nodeTaken r b).tick = s.tick := by
  rw [State.nodeTaken, (State.takeNode_kept _ _ _ _).2.1, State.repairSecond_tick, (s.readOff_endsRead r _).tick]

theorem State.nodeTaken_waiting : (s.nodeTaken r b).vault.waiting =
    if r.second then s.vault.waiting ++ [⟨r.page, .repair, [], none, none, s.tick⟩] else s.vault.waiting := by
  have ends := s.readOff_endsRead r (some b)
  rw [State.nodeTaken, State.takeNode_takesNode, State.repairSecond_vault, ends.waiting, ends.tick]

theorem State.nodeTaken_root : (s.nodeTaken r b).vault.root = s.vault.root := by
  rw [State.nodeTaken, State.takeNode_takesNode, State.repairSecond_vault, (s.readOff_endsRead r _).root]

/-- The next read of a path, from the same drive. -/
def State.nextRead (s : State) (r : VRead) : VRead :=
  { r with level := s.nextLevel r.page, second := false, firstData := false, since := s.tick, issued := false }

/-- A node whose copy passes is followed by the next read of its path, or shows that its page was never written. -/
theorem State.readDone_node_good (node : r.level ≠ 0)
    (good : (vaultHash r.level (r.page / 128 ^ r.level) b).take 22 = (s.entryAt r.level (r.page / 128 ^ r.level)).hash) :
    s.readDone r (some b) =
      if (s.nodeTaken r b).nextLevel r.page = 0 ∧ ((s.nodeTaken r b).pageEntry r.page).seq = 0 then (s.nodeTaken r b).readEmpty r.jobs
      else (s.nodeTaken r b).addRead ((s.nodeTaken r b).nextRead r) := by
  rw [State.readDone_eq, if_neg node]
  refine State.nodeDone_of_matches ?_
  rw [(s.readOff_endsRead r (some b)).entryAt]
  exact good

theorem State.readDone_node_bad (node : r.level ≠ 0)
    (bad : (vaultHash r.level (r.page / 128 ^ r.level) b).take 22 ≠ (s.entryAt r.level (r.page / 128 ^ r.level)).hash) (first : r.second = false)
    (other : (s.drive (1 - r.port)).inMirror = true) : GoesOther r true s (s.readDone r (some b)) := by
  have ends := s.readOff_endsRead r (some b)
  rw [State.readDone_eq, if_neg node, State.nodeDone_of_differs first ((ends.stand.inMirror _).trans other)]
  · exact .of_readOther ends.jobs ends.tick
  · rw [ends.entryAt]
    exact bad

/-- A failed read goes to the other drive, whatever it was of. -/
theorem State.readDone_failed_of_other (plain : s.NoRepairs r.jobs) (waits : r.jobs ≠ []) (first : r.second = false)
    (other : (s.drive (1 - r.port)).inMirror = true) : GoesOther r false s (s.readDone r none) := by
  have ends := s.readOff_endsRead r none
  have goes : s.readDone r none = (s.readOff r none).readOther r false := by
    rw [State.readDone_eq, State.pageDone_of_plain (ends.noRepairs plain) waits]
    simp [State.checkPage, State.nodeDone, first, (ends.stand.inMirror _).trans other]
  rw [goes]
  exact .of_readOther ends.jobs ends.tick

/-- A failed read that no other drive can serve is lost. -/
theorem State.readDone_failed_of_alone (plain : s.NoRepairs r.jobs) (waits : r.jobs ≠ [])
    (alone : r.second = true ∨ (s.drive (1 - r.port)).inMirror = false) :
    s.readDone r none = (s.readOff r none).readLost r.jobs (s.tick + 2) := by
  have ends := s.readOff_endsRead r none
  have closed : (!r.second && ((s.readOff r none).drive (1 - r.port)).inMirror) = false := by
    rw [ends.stand.inMirror]
    obtain second | out := alone <;> simp [*]
  rw [State.readDone_eq, State.pageDone_of_plain (ends.noRepairs plain) waits]
  simp [State.checkPage, State.nodeDone, closed, ends.tick]

end Copy

/-! ## VAULT_READ_COMPLETE -/

theorem exec_vaultReadComplete_of_guardOff {s : State} (off : s.keeper.guardOn = false) (page port : Nat) (data : Option Bytes) :
    exec (.vaultReadComplete page port data) s =
      .next { s with keeper := { s.keeper with held := s.keeper.held ++ [.vaultReadComplete page port data] } } :=
  congrArg Host.Outcome.next (if_neg (ne_true_of_eq_false off))

section Complete
variable {s : State} {page port : Nat} (on : s.keeper.guardOn = true)
include on

theorem exec_vaultReadComplete_of_guardOn (data : Option Bytes) :
    exec (.vaultReadComplete page port data) s = .next (s.readComplete page port data) :=
  congrArg Host.Outcome.next (if_pos on)

theorem exec_vaultReadComplete_of_no_read (idle : s.readOf page port = none) (data : Option Bytes) :
    exec (.vaultReadComplete page port data) s = .next s := by
  rw [exec_vaultReadComplete_of_guardOn on, State.readComplete, idle]

variable {r : VRead} (reading : s.readOf page port = some r)
include reading

theorem exec_vaultReadComplete_of_denied {g : Nat} (denied : s.vaultDenied 5 = some g) (data : Option Bytes) :
    exec (.vaultReadComplete page port data) s =
      .next ((((s.dropRead r).endRead r.port (s.readBlock r)).vaultFault g).readLost r.jobs (s.tick + 2)) := by
  rw [exec_vaultReadComplete_of_guardOn on, State.readComplete, reading, denied]

theorem exec_vaultReadComplete_of_granted (granted : s.vaultDenied 5 = none) (data : Option Bytes) :
    exec (.vaultReadComplete page port data) s = .next (s.readDone r data) := by
  rw [exec_vaultReadComplete_of_guardOn on, State.readComplete, reading, granted]

end Complete

theorem State.page_port_of_readOf {s : State} {page port : Nat} {r : VRead} (reading : s.readOf page port = some r) :
    r.page = page ∧ r.port = port := by
  have found := List.find?_some reading
  simp only [Bool.and_eq_true, beq_iff_eq] at found
  exact found.1

theorem State.vaultFault_vault (s : State) (region : Nat) : (s.vaultFault region).vault = s.vault := by
  simp [State.vaultFault, State.guardFault, State.takeNat]

/-- Settles O35: a read ends by what its copy is, page or node, and by what the other drive can still serve. -/
theorem vaultReadIsChecked : Obligations.VaultReadIsChecked := by
  unfold Obligations.VaultReadIsChecked
  refine ⟨fun page port d s off => exec_vaultReadComplete_of_guardOff off page port d, fun page port r s on => ?_⟩
  intro good ended
  refine ⟨fun idle d => exec_vaultReadComplete_of_no_read on idle d, fun reading g denied d => ?denied,
    fun reading granted now waits plain => ?granted⟩
  case denied =>
    refine ⟨_, exec_vaultReadComplete_of_denied on reading denied d, State.finishAll_ends, ?_⟩
    rw [State.readLost_vault, State.vaultFault_vault, (s.endRead_endsRead r).frame]
    exact ⟨rfl, rfl, rfl⟩
  case granted =>
    obtain ⟨rfl, rfl⟩ := State.page_port_of_readOf reading
    have runs := exec_vaultReadComplete_of_granted on reading granted
    refine ⟨fun b fine page => ⟨_, runs (some b), ?page⟩, fun b fine node => ⟨_, runs (some b), ?node⟩,
      fun b bad first other => ⟨_, runs (some b), ?differs⟩,
      fun first other => ⟨_, runs none, State.readDone_failed_of_other plain waits first other⟩, fun alone => ⟨_, runs none, ?alone⟩⟩
    case page =>
      have ends := s.readOff_endsRead r (some b)
      rw [State.readDone_page_good plain waits now page (by simpa [good, page] using fine), State.deliver_unwraps, State.deliver_vault,
        State.repairSecond_vault, State.repairSecond_lanes]
      exact ⟨ends.reads, by rw [ends.waiting, ends.tick], by rw [ends.lanes], ends.root, ends.tree⟩
    case node =>
      rw [State.readDone_node_good node (by simpa [good, node] using fine)]
      split
      · rw [State.readEmpty_eq, State.nodeTaken_tick]
        have vault := ((s.nodeTaken r b).finishAll_stopsJobs r.jobs stUnknown (s.tick + 2)).keeps.2.1
        exact ⟨(congrArg Vault.waiting vault).trans State.nodeTaken_waiting, .inr State.finishAll_ends,
          (congrArg Vault.root vault).trans State.nodeTaken_root⟩
      · have issues := (s.nodeTaken r b).addRead_issuesReads ((s.nodeTaken r b).nextRead r)
        refine ⟨issues.waiting.trans State.nodeTaken_waiting, .inl ?_, issues.root.trans State.nodeTaken_root⟩
        obtain ⟨x, mem, rfl | rfl⟩ := (s.nodeTaken r b).mem_addRead ((s.nodeTaken r b).nextRead r)
        all_goals exact ⟨_, mem, rfl, rfl, rfl, rfl⟩
    case differs =>
      by_cases page : r.level = 0
      · exact State.readDone_page_bad plain waits now page (by simpa [good, page] using bad) first other
      · exact State.readDone_node_bad page (by simpa [good, page] using bad) first other
    case alone =>
      rw [State.readDone_failed_of_alone plain waits alone]
      refine ⟨?_, State.finishAll_ends⟩
      rw [State.readLost_vault, (s.readOff_endsRead r none).reads]

end Sys2Proof.Machine
end

section
/-! # Drives that come and go (R245 to R247, R264, R265)

A port at the tick does one of four things: a drive that has come up is identified and takes its seat, one that has gone leaves, a state
that is due is taken, or nothing is due. `State.portTick` is each of them after the same poll. -/

namespace Sys2Proof.Machine

/-! ## Work that leaves the commit -/

/-- The tree, the root and the group of the vault stand, and the drives beside their blocks and commands. -/
structure LeavesCommit (s t : State) : Prop where
  vault : t.vault = { s.vault with d0 := t.vault.d0, d1 := t.vault.d1, reads := t.vault.reads }
  stand : DrivesStand s t

theorem LeavesCommit.trans {s t u : State} (st : LeavesCommit s t) (tu : LeavesCommit t u) : LeavesCommit s u where
  vault := by rw [tu.vault, st.vault]
  stand := st.stand.trans tu.stand

theorem LeavesCommit.refl (s : State) : LeavesCommit s s := ⟨rfl, .refl s⟩

theorem LeavesCommit.of_vault_eq {s t : State} (h : t.vault = s.vault) : LeavesCommit s t := ⟨by rw [h], .of_vault_eq h⟩

theorem IssuesReads.leavesCommit {s t : State} (h : IssuesReads s t) : LeavesCommit s t := ⟨by rw [h.frame], h.stand⟩

theorem State.withReads_leavesCommit (s : State) (reads : List VRead) :
    LeavesCommit s { s with vault := { s.vault with reads := reads } } := ⟨rfl, fun _ => rfl⟩

theorem State.readOther_leavesCommit (s : State) (r : VRead) (data : Bool) : LeavesCommit s (s.readOther r data) :=
  (s.withReads_leavesCommit _).trans (s.addRead_issuesReads _).leavesCommit

theorem State.readLost_leavesCommit (s : State) (ids : List Nat) (due : Nat) : LeavesCommit s (s.readLost ids due) :=
  .of_vault_eq (s.readLost_vault ids due)

theorem State.rereads_leavesCommit (s : State) (port : Nat) : LeavesCommit s (s.rereads port) := by
  refine List.foldlRecOn (s.vault.reads.filter fun r => r.port == port) _ (motive := LeavesCommit s) (.refl s) fun t st r _ => ?_
  have dropped : LeavesCommit s (t.dropRead r) := st.trans (t.withReads_leavesCommit _)
  dsimp only
  split
  · exact dropped.trans (State.readOther_leavesCommit _ _ _)
  · exact dropped.trans (State.readLost_leavesCommit _ _ _)

/-- A group that is given up leaves the tree, the root and the drives. -/
structure FailsGroup (s t : State) : Prop where
  group : t.vault.group = []
  root : t.vault.root = s.vault.root
  tree : t.vault.tree = s.vault.tree
  stand : DrivesStand s t

theorem State.failGroup_failsGroup (s : State) (due : Nat) : FailsGroup s (s.failGroup due) := by
  let u : State := { s with vault := { s.vault with group := [], groupIssued := 0, groupFlushed := false, groupEnded := false } }
  have ended : (s.failGroup due).vault = u.endWrites.vault :=
    (u.endWrites.finishAll_stopsJobs (s.vault.group.filterMap Version.job) stVault due).keeps.2.1
  have stand : DrivesStand s (s.failGroup due) :=
    (DrivesStand.trans (fun _ => rfl) u.endWrites_movesBlocks.stand).trans (.of_vault_eq ended)
  refine ⟨?_, ?_, ?_, stand⟩
  all_goals rw [ended]; rfl

/-! ## A port leaves -/

/-- The port as it leaves: its queues deleted where the link stands, its state taken, its commands gone. -/
def State.portOut (s : State) (port : Nat) (next : PortState) : State :=
  (if (s.drive port).linkNow then s.submitAll port queuesDown else s).updDrive port fun d => { d with state := next, cmds := [] }

theorem State.portLeaves_eq (s : State) (port : Nat) (next : PortState) : s.portLeaves port next =
    if (s.drive port).inMirror then
      let t := (s.portOut port next).rereads port
      if (t.drive (1 - port)).inMirror then t else t.failGroup (t.tick + 1)
    else s.portOut port next := rfl

theorem State.submitAll_if_movesBlocks (s : State) (c : Prop) [Decidable c] (port : Nat) (ops : List NvmeOp) :
    MovesBlocks s (if c then s.submitAll port ops else s) := by
  split
  · exact s.submitAll_movesBlocks port ops
  · exact .refl s

section PortOut
variable (s : State) (port : Nat) (next : PortState)

theorem State.portOut_state : ((s.portOut port next).drive port).state = next := by simp [State.portOut]

theorem State.portOut_link : ((s.portOut port next).drive port).link = (s.drive port).link := by
  simp [State.portOut, (s.submitAll_if_movesBlocks _ port queuesDown).stand.link]

theorem State.portOut_inMirror_other : ((s.portOut port next).drive (1 - port)).inMirror = (s.drive (1 - port)).inMirror := by
  simp [State.portOut, (s.submitAll_if_movesBlocks _ port queuesDown).stand.inMirror]

theorem State.portOut_vault : (s.portOut port next).vault =
    { s.vault with d0 := (s.portOut port next).vault.d0, d1 := (s.portOut port next).vault.d1 } := by
  rw [State.portOut, State.updDrive, State.setDrive_eq, (s.submitAll_if_movesBlocks _ port queuesDown).only]

end PortOut

/-- What a port that leaves does to itself and to the group in phase 1. -/
structure PortLeaves (port : Nat) (next : PortState) (s t : State) : Prop where
  state : (t.drive port).state = next
  link : (t.drive port).link = (s.drive port).link
  root : t.vault.root = s.vault.root
  tree : t.vault.tree = s.vault.tree
  fails : (s.drive port).inMirror = true → (s.drive (1 - port)).inMirror = false → t.vault.group = []
  keeps : (s.drive port).inMirror = false ∨ (s.drive (1 - port)).inMirror = true → t.vault.group = s.vault.group

theorem State.portLeaves_portLeaves (s : State) (port : Nat) (next : PortState) : PortLeaves port next s (s.portLeaves port next) := by
  have out := s.portOut_vault port next
  have reads := (s.portOut port next).rereads_leavesCommit port
  have state := (reads.stand.state port).trans (s.portOut_state port next)
  have link := (reads.stand.link port).trans (s.portOut_link port next)
  have mirror := (reads.stand.inMirror (1 - port)).trans (s.portOut_inMirror_other port next)
  rw [State.portLeaves_eq]
  dsimp only
  rw [mirror]
  split
  next was =>
    split
    next other =>
      refine ⟨state, link, ?_, ?_, fun _ last => by simp [other] at last, fun _ => ?_⟩
      all_goals rw [reads.vault, out]
    next last =>
      have fails := State.failGroup_failsGroup ((s.portOut port next).rereads port) (((s.portOut port next).rereads port).tick + 1)
      refine ⟨(fails.stand.state port).trans state, (fails.stand.link port).trans link, fails.root.trans ?_, fails.tree.trans ?_,
        fun _ _ => fails.group, fun kept => absurd kept (by simp [was, last])⟩
      all_goals rw [reads.vault, out]
  next stays =>
    refine ⟨s.portOut_state port next, s.portOut_link port next, ?_, ?_, fun was => absurd was stays, fun _ => ?_⟩
    all_goals rw [out]

/-! ## A drive that has come up -/

/-- Table 10.1's Identify, and the blocks read with it. -/
def Drive.identified (i : DriveIdent) (d : Drive) : Drive :=
  ({ d with link := true, ident := none, gen := i.gen, width := i.width, size := (if i.formatOk then i.blocks else 0) } : Drive).setCell 0 i.header0
    |>.setCell 1 i.header1 |>.setCell 16 i.node0 |>.setCell 17 i.node1

/-- The port with its drive identified, before its seat is chosen. -/
def State.identified (s : State) (port : Nat) (i : DriveIdent) : State :=
  (s.updDrive port (Drive.identified i)).submitAll port
    [.identifyController, .identifyNamespace, .read 0, .read 1, .read 16, .read 17]

/-- The state that the rules give the port. -/
def State.seat (s : State) (port : Nat) (i : DriveIdent) : PortState := (s.identified port i).joinState port i.formatOk

/-- The drive in its seat, its queues made where it takes part. -/
def State.seated (s : State) (port : Nat) (i : DriveIdent) : State :=
  let t := (s.identified port i).updDrive port fun d => { d with state := s.seat port i, next := none }
  if s.seat port i = .inMirror ∨ s.seat port i = .resilvering then t.submitAll port queuesUp else t

theorem State.driveFound_eq (s : State) (port : Nat) (i : DriveIdent) : s.driveFound port i =
    if s.seat port i = .resilvering then (s.seated port i).startCopy port else s.seated port i := rfl

/-- Commands sent to a port leave the other drive. -/
theorem State.submit_drive_other (s : State) (port : Nat) (told : Bool) (op : NvmeOp) :
    (s.submit port told op).drive (1 - port) = s.drive (1 - port) := by
  unfold State.submit
  split
  · exact s.drive_updDrive_other port _
  · rfl

theorem State.submitAll_drive_other (s : State) (port : Nat) (ops : List NvmeOp) :
    (s.submitAll port ops).drive (1 - port) = s.drive (1 - port) :=
  List.foldlRecOn ops _ (motive := fun t : State => t.drive (1 - port) = s.drive (1 - port)) rfl
    fun (t : State) same op _ => (t.submit_drive_other port false op).trans same

section Found
variable (s : State) (port : Nat) (i : DriveIdent)

theorem State.identified_drivesOnly : DrivesOnly s (s.identified port i) :=
  (s.updDrive_drivesOnly port _).trans (State.submitAll_movesBlocks _ _ _).only

theorem State.identified_drive_other : (s.identified port i).drive (1 - port) = s.drive (1 - port) :=
  (State.submitAll_drive_other _ _ _).trans (s.drive_updDrive_other port _)

theorem State.identified_link : ((s.identified port i).drive port).link = true := by
  rw [State.identified, (State.submitAll_movesBlocks _ _ _).stand.link, State.drive_updDrive]
  rfl

theorem State.identified_size : ((s.identified port i).drive port).size = if i.formatOk then i.blocks else 0 := by
  rw [State.identified, (State.submitAll_movesBlocks _ _ _).stand.size, State.drive_updDrive]
  rfl

/-- A seat as `State.joinState` chooses it. -/
theorem State.seat_eq : s.seat port i =
    if s.num (Key.VLT_PORT_OFFLINE port) ≠ 0 then .offline
    else if !i.formatOk then .out
    else if (if i.formatOk then i.blocks else 0) < blocksFor (s.vault.formatting.getD s.pages) then .out
    else if s.vault.formatting.isSome ∨ s.vault.state = .unformatted then .inMirror
    else if (s.drive (1 - port)).inMirror then .resilvering
    else if ((s.identified port i).drive port).headerPages = some s.pages ∧ ((s.identified port i).drive port).holdsRoot s.vault.root then .inMirror
    else .out := by
  have only := s.identified_drivesOnly port i
  rw [State.seat, State.joinState, only.num, only.formatting, only.pages, only.state, only.root, s.identified_drive_other, s.identified_size]

theorem State.seated_movesBlocks : MovesBlocks
    ((s.identified port i).updDrive port fun d => { d with state := s.seat port i, next := none }) (s.seated port i) := by
  unfold State.seated
  dsimp only
  split
  · exact State.submitAll_movesBlocks _ _ _
  · exact .refl _

theorem State.seated_drivesOnly : DrivesOnly s (s.seated port i) :=
  ((s.identified_drivesOnly port i).trans (State.updDrive_drivesOnly _ _ _)).trans (s.seated_movesBlocks port i).only

theorem State.seated_drive_other : (s.seated port i).drive (1 - port) = s.drive (1 - port) := by
  refine Eq.trans ?_ (s.identified_drive_other port i)
  unfold State.seated
  dsimp only
  split
  · exact (State.submitAll_drive_other _ _ _).trans (State.drive_updDrive_other _ _ _)
  · exact State.drive_updDrive_other _ _ _

theorem State.startCopy_stand : DrivesStand s (s.startCopy port) ∧ (s.startCopy port).jobs = s.jobs := by
  have copied : MovesBlocks s (if s.resilverPart port then s else (s.copyBlock port 0).copyBlock port 1) := by
    split
    · exact .refl s
    · exact (s.copyBlock_movesBlocks port 0).trans (State.copyBlock_movesBlocks _ _ _)
  exact ⟨copied.stand.trans fun _ => rfl, copied.only.jobs⟩

theorem State.driveFound_stand : DrivesStand (s.seated port i) (s.driveFound port i) ∧ (s.driveFound port i).jobs = s.jobs := by
  have jobs := (s.seated_drivesOnly port i).jobs
  rw [State.driveFound_eq]
  split
  · obtain ⟨stand, same⟩ := (s.seated port i).startCopy_stand port
    exact ⟨stand, same.trans jobs⟩
  · exact ⟨.refl _, jobs⟩

theorem State.driveFound_state : ((s.driveFound port i).drive port).state = s.seat port i := by
  rw [(s.driveFound_stand port i).1.state, (s.seated_movesBlocks port i).stand.state, State.drive_updDrive]

theorem State.driveFound_next : ((s.driveFound port i).drive port).next = none := by
  rw [(s.driveFound_stand port i).1.next, (s.seated_movesBlocks port i).stand.next, State.drive_updDrive]

theorem State.driveFound_link : ((s.driveFound port i).drive port).link = true := by
  rw [(s.driveFound_stand port i).1.link, (s.seated_movesBlocks port i).stand.link, State.drive_updDrive]
  exact s.identified_link port i

end Found

section Seat
variable {s : State} {port : Nat} {i : DriveIdent}

theorem State.seat_of_offline (offline : s.num (Key.VLT_PORT_OFFLINE port) ≠ 0) : s.seat port i = .offline := by
  rw [State.seat_eq, if_pos offline]

variable (online : s.num (Key.VLT_PORT_OFFLINE port) = 0)
include online

theorem State.seat_of_badFormat (bad : i.formatOk = false) : s.seat port i = .out := by simp [State.seat_eq, online, bad]

variable (ok : i.formatOk = true) (formatted : s.vault.formatting = none)
include ok formatted

theorem State.seat_of_small (small : i.blocks < blocksFor s.pages) : s.seat port i = .out := by
  simp [State.seat_eq, online, ok, formatted, small]

/-- Alone, a drive joins where it holds the vault, and stays out where it does not. -/
theorem State.seat_of_alone (known : s.vault.state ≠ .unformatted) (fits : blocksFor s.pages ≤ i.blocks)
    (alone : (s.drive (1 - port)).inMirror = false) : s.seat port i = .inMirror ∨ s.seat port i = .out := by
  rw [State.seat_eq]
  simp only [online, ok, formatted, known, alone, Nat.not_lt.mpr fits, ne_eq, not_true_eq_false, if_false, if_true, Bool.not_true,
    Option.getD_none, Option.isSome_none, or_self, Bool.false_eq_true]
  split
  · exact .inl rfl
  · exact .inr rfl

end Seat

/-- No resilver begins where the other drive is not in the mirror. -/
theorem State.seat_ne_resilvering {s : State} {port : Nat} (alone : (s.drive (1 - port)).inMirror = false) (i : DriveIdent) :
    s.seat port i ≠ .resilvering := by
  rw [State.seat_eq, alone]
  simp only [Bool.false_eq_true, if_false]
  split_ifs <;> nofun

theorem State.driveFound_drive_other {s : State} {port : Nat} (alone : (s.drive (1 - port)).inMirror = false) (i : DriveIdent) :
    (s.driveFound port i).drive (1 - port) = s.drive (1 - port) := by
  rw [State.driveFound_eq, if_neg (State.seat_ne_resilvering alone i)]
  exact s.seated_drive_other port i

/-! ## A port at the tick -/

/-- The port before its link is sampled: the commands of which no later command tells have completed, PERST_N is released. -/
def State.polled (s : State) (port : Nat) : State :=
  s.updDrive port fun d => { d with cmds := d.cmds.filter (fun c => c.told), perst := d.perst && !d.refclk }

/-- The port polled, its link gone. -/
def State.unlinked (s : State) (port : Nat) : State := (s.polled port).updDrive port fun d => { d with link := false, next := none }

section PortTick
variable {s : State} {port : Nat}

theorem State.polled_drivesOnly : DrivesOnly s (s.polled port) := s.updDrive_drivesOnly port _

theorem State.polled_drive_other : (s.polled port).drive (1 - port) = s.drive (1 - port) := s.drive_updDrive_other port _

theorem State.portTick_of_found {i : DriveIdent} (before : (s.drive port).link = false) (now : (s.drive port).linkNow = true)
    (ident : (s.drive port).ident = some i) : s.portTick port = (s.polled port).driveFound port i := by
  simp [State.portTick, State.polled, before, now, ident]

theorem State.portTick_of_gone (before : (s.drive port).link = true) (now : (s.drive port).linkNow = false) :
    s.portTick port = (s.unlinked port).portLeaves port .absent := by
  simp [State.portTick, State.unlinked, State.polled, before, now]

theorem State.portTick_of_out (before : (s.drive port).link = true) (now : (s.drive port).linkNow = true)
    (due : (s.drive port).next = some .out) :
    s.portTick port = ((s.polled port).updDrive port fun d => { d with next := none }).portLeaves port .out := by
  simp [State.portTick, State.polled, before, now, due]

theorem State.portTick_state_of_inMirror (before : (s.drive port).link = true) (now : (s.drive port).linkNow = true)
    (due : (s.drive port).next = some .inMirror) : ((s.portTick port).drive port).state = .inMirror := by
  simp [State.portTick, before, now, due]

theorem State.portTick_of_not_due (before : (s.drive port).link = true) (now : (s.drive port).linkNow = true)
    (idle : (s.drive port).next = none) : s.portTick port = s.polled port := by
  simp [State.portTick, State.polled, before, now, idle]

/-- What the tick does for a drive that has come up. -/
structure Seats (port : Nat) (i : DriveIdent) (s t : State) : Prop where
  link : (t.drive port).link = true
  next : (t.drive port).next = none
  other : (s.drive (1 - port)).inMirror = false → t.drive (1 - port) = s.drive (1 - port)
  jobs : t.jobs = s.jobs
  offline : s.num (Key.VLT_PORT_OFFLINE port) ≠ 0 → (t.drive port).state = .offline
  badFormat : s.num (Key.VLT_PORT_OFFLINE port) = 0 → i.formatOk = false → (t.drive port).state = .out
  joins : s.num (Key.VLT_PORT_OFFLINE port) = 0 → i.formatOk = true → s.vault.formatting = none → s.vault.state ≠ .unformatted →
    (i.blocks < blocksFor s.pages → (t.drive port).state = .out) ∧
    (blocksFor s.pages ≤ i.blocks → (s.drive (1 - port)).inMirror = false → (t.drive port).state = .inMirror ∨ (t.drive port).state = .out)

theorem State.driveFound_seats (i : DriveIdent) : Seats port i s (s.driveFound port i) where
  link := s.driveFound_link port i
  next := s.driveFound_next port i
  other alone := State.driveFound_drive_other alone i
  jobs := (s.driveFound_stand port i).2
  offline offline := (s.driveFound_state port i).trans (State.seat_of_offline offline)
  badFormat online bad := (s.driveFound_state port i).trans (State.seat_of_badFormat online bad)
  joins online ok formatted known := by
    rw [s.driveFound_state port i]
    exact ⟨State.seat_of_small online ok formatted, State.seat_of_alone online ok formatted known⟩

/-- The poll hides nothing of what seats a drive. -/
theorem Seats.of_polled {i : DriveIdent} {t : State} (h : Seats port i (s.polled port) t) : Seats port i s t := by
  have only : DrivesOnly s (s.polled port) := State.polled_drivesOnly
  obtain ⟨link, next, other, jobs, offline, badFormat, joins⟩ := h
  rw [only.num] at offline badFormat joins
  rw [only.formatting, only.state, only.pages] at joins
  rw [State.polled_drive_other] at other joins
  exact ⟨link, next, other, jobs.trans only.jobs, offline, badFormat, joins⟩

theorem State.unlinked_drivesOnly : DrivesOnly s (s.unlinked port) := State.polled_drivesOnly.trans (State.updDrive_drivesOnly _ _ _)

theorem State.unlinked_drive_other : (s.unlinked port).drive (1 - port) = s.drive (1 - port) :=
  (State.drive_updDrive_other _ _ _).trans State.polled_drive_other

theorem State.unlinked_link : ((s.unlinked port).drive port).link = false := by simp [State.unlinked]

theorem State.unlinked_inMirror : ((s.unlinked port).drive port).inMirror = (s.drive port).inMirror := by
  simp [State.unlinked, State.polled, Drive.inMirror]

end PortTick

/-! ## The commands -/

section Commands
variable {s : State} {port : Nat}

theorem exec_driveLinkUp_of_new (down : (s.drive port).linkNow = false) (admitted : port < strapDrives s.rst.strap) (x : DriveIdent) :
    exec (.driveLinkUp port x) s =
      .next (s.setDrive port { s.drive port with linkNow := true, ident := if (s.drive port).link then none else some x }) :=
  if_neg (by simp [down, admitted])

theorem exec_driveLinkUp_of_not_new (h : (s.drive port).linkNow = true ∨ strapDrives s.rst.strap ≤ port) (x : DriveIdent) :
    exec (.driveLinkUp port x) s = .next s := if_pos h

/-- A drive that takes writes is to go out. -/
theorem State.driveLost_of_writable (writable : (s.drive port).writable = true) :
    s.driveLost port .out = s.setDrive port { s.drive port with next := some .out } := by
  simp [State.driveLost, State.updDrive, writable]

theorem exec_vaultCmdTimeout_of_late (link : (s.drive port).link = true) (late : s.cmdLate port = true) :
    exec (.vaultCmdTimeout port) s = .next (s.driveLost port .out) := congrArg Host.Outcome.next (if_pos ⟨link, late⟩)

theorem exec_vaultCmdTimeout_of_not_late (h : (s.drive port).link = false ∨ s.cmdLate port = false) :
    exec (.vaultCmdTimeout port) s = .next s :=
  congrArg Host.Outcome.next (if_neg fun ⟨link, late⟩ => h.elim (ne_true_of_eq_false · link) (ne_true_of_eq_false · late))

theorem State.cmdLate_iff : s.cmdLate port = true ↔
    ∃ c ∈ (s.drive port).cmds, c.since + s.ticksOf (1000 * s.num Key.VLT_CMD_TIMEOUT) ≤ s.tick := by
  simp [State.cmdLate]

theorem exec_vaultCmdError_of_no_link (down : (s.drive port).link = false) (p : Option Nat) : exec (.vaultCmdError port p) s = .next s :=
  if_pos (by simp [down])

section Linked
variable (link : (s.drive port).link = true)
include link

theorem exec_vaultCmdError_of_other : exec (.vaultCmdError port none) s = .next (s.driveLost port .out) := if_neg (by simp [link])

theorem exec_vaultCmdError_of_read {p : Nat} {r : VRead} (reading : s.readOf p port = some r) :
    exec (.vaultCmdError port (some p)) s = .next (s.readDone r none) := by
  simp [exec, execVaultCmdError, link, reading]

theorem exec_vaultCmdError_of_no_read {p : Nat} (idle : s.readOf p port = none) : exec (.vaultCmdError port (some p)) s = .next s := by
  simp [exec, execVaultCmdError, link, idle]

end Linked

/-! ## SMART_POLL -/

/-- The health byte taken, and what bits 2 and 3 of it do to the drive. -/
def State.healthRead (s : State) (port w : Nat) : State :=
  let t := s.setNum (Key.VLT_PORT_HEALTH port) (w % 256)
  if bitOf w 2 || bitOf w 3 then t.driveLost port .out else t

theorem exec_smartPoll_of_not_due (h : s.tick % 65536 ≠ 0 ∨ (s.drive port).link = false) (w : Nat) : exec (.smartPoll port w) s = .next s :=
  if_neg fun ⟨due, link⟩ => h.elim (· due) (ne_true_of_eq_false · link)

/-- Other bits make a record of the sillage log alone. -/
theorem exec_smartPoll_of_due (due : s.tick % 65536 = 0) (link : (s.drive port).link = true) (w : Nat) :
    ∃ sil, exec (.smartPoll port w) s = .next { s.healthRead port w with sil := sil } := by
  refine ⟨(if (List.range 8).any fun i => bitOf w i && decide (i ≠ 2) && decide (i ≠ 3) then (s.healthRead port w).eventOf 247
    else s.healthRead port w).sil, (if_pos ⟨due, link⟩).trans ?_⟩
  refine congrArg Host.Outcome.next ?_
  change (if _ then (s.healthRead port w).eventOf 247 else s.healthRead port w) = _
  split <;> rfl

theorem State.healthRead_drivesOnly (w : Nat) : DrivesOnly (s.setNum (Key.VLT_PORT_HEALTH port) (w % 256)) (s.healthRead port w) := by
  unfold State.healthRead
  dsimp only
  split
  · exact State.updDrive_drivesOnly _ _ _
  · exact .refl _

theorem State.healthRead_next {w : Nat} (warns : bitOf w 2 = true ∨ bitOf w 3 = true) (writable : (s.drive port).writable = true) :
    ((s.healthRead port w).drive port).next = some .out := by
  have writable : ((s.setNum (Key.VLT_PORT_HEALTH port) (w % 256)).drive port).writable = true := writable
  simp [State.healthRead, warns, State.driveLost_of_writable writable]

theorem State.healthRead_drive {w : Nat} (fine2 : bitOf w 2 = false) (fine3 : bitOf w 3 = false) :
    (s.healthRead port w).drive port = s.drive port := by
  have plain : s.healthRead port w = s.setNum (Key.VLT_PORT_HEALTH port) (w % 256) := if_neg (by simp [fine2, fine3])
  rw [plain]
  rfl

end Commands

/-- Settles O36: each port's tick is one of four things after the same poll; the commands act, or not, by what the port has. -/
theorem drivesComeAndGo : Obligations.DrivesComeAndGo := by
  unfold Obligations.DrivesComeAndGo
  intro port s _ d out
  refine ⟨fun x => ⟨fun down admitted => exec_driveLinkUp_of_new down admitted x, fun h => exec_driveLinkUp_of_not_new h x⟩, rfl,
    fun x before now ident => ?found, fun before now => ?gone,
    fun before now => ⟨fun due => ?out, State.portTick_state_of_inMirror before now, fun idle => ?idle⟩,
    fun link writable => ⟨fun late => ?late, ?error⟩, exec_vaultCmdTimeout_of_not_late, State.cmdLate_iff,
    fun link => ⟨fun p r reading on granted => ?reread, fun p idle => exec_vaultCmdError_of_no_read link idle⟩,
    fun down => ⟨fun p => exec_vaultCmdError_of_no_link down p, exec_smartPoll_of_not_due (.inr down)⟩,
    fun w early => exec_smartPoll_of_not_due (.inl early) w, fun w link due rising => ?health⟩
  case found =>
    rw [State.portTick_of_found before now ident]
    obtain ⟨link, next, other, jobs, offline, badFormat, joins⟩ := ((s.polled port).driveFound_seats (port := port) x).of_polled
    exact ⟨link, next, other, jobs, offline, badFormat, joins⟩
  case gone =>
    rw [State.portTick_of_gone before now]
    have only : DrivesOnly s (s.unlinked port) := State.unlinked_drivesOnly
    obtain ⟨state, link, root, tree, fails, keeps⟩ := (s.unlinked port).portLeaves_portLeaves port .absent
    rw [State.unlinked_inMirror, State.unlinked_drive_other] at fails keeps
    exact ⟨link.trans State.unlinked_link, state, by simp [Drive.inMirror, state], fails, fun h => (keeps h).trans only.group,
      root.trans only.root, tree.trans only.tree⟩
  case out =>
    rw [State.portTick_of_out before now due]
    exact (State.portLeaves_portLeaves _ _ _).state
  case idle =>
    rw [State.portTick_of_not_due before now idle]
    exact s.drive_updDrive_of port port Drive.state fun _ => rfl
  case late => exact (exec_vaultCmdTimeout_of_late link late).trans (congrArg _ (State.driveLost_of_writable writable))
  case error => exact (exec_vaultCmdError_of_other link).trans (congrArg _ (State.driveLost_of_writable writable))
  case reread => rw [exec_vaultCmdError_of_read link reading, exec_vaultReadComplete_of_granted on reading granted]
  case health =>
    obtain ⟨sil, runs⟩ := exec_smartPoll_of_due due link w
    have only := State.healthRead_drivesOnly (s := s) (port := port) w
    exact ⟨_, runs, (only.num _).trans (State.num_setNum _ _ _ rising), State.healthRead_next, State.healthRead_drive, only.jobs⟩

end Sys2Proof.Machine
end

section
/-! # The ends of a resilver, a scrub pass and a format (R249, R250, R265 to R267)

A resilver ends with one more block copied. A format commits the unwritten tree first and then writes each drive of the mirror, which
leaves what was committed and the drives written before. -/

namespace Sys2Proof.Machine

/-! ## A block copied (R265) -/

theorem Drive.cell_setCell {d : Drive} (wf : SMap.wf zeroBlock d.cells = true) (b : Nat) (x : Bytes) : (d.setCell b x).cell b = x :=
  SMap.get_set _ _ _ _ wf

section Copy
variable {s : State} {port : Nat}

theorem State.cell_copyBlock (wf : SMap.wf zeroBlock (s.drive port).cells = true) (b : Nat) :
    ((s.copyBlock port b).drive port).cell b = (s.drive (1 - port)).cell b := by
  rw [Drive.cell, State.copyBlock, State.submit_cells, State.submit_cells, State.drive_updDrive]
  exact Drive.cell_setCell wf b _

theorem State.cells_copyBlock_other (b : Nat) : ((s.copyBlock port b).drive (1 - port)).cells = (s.drive (1 - port)).cells := by
  rw [State.copyBlock, State.submit_cells, State.submit_cells, State.drive_updDrive_other]

/-! ## RESILVER_DONE -/

/-- The level-5 node copied, and no copy left. -/
def State.copyEnds (s : State) (port : Nat) : State :=
  let t := s.copyBlock port (16 + b2n s.vault.root.frame)
  { t with vault := { t.vault with copyPort := none, copyKeys := [] } }

/-- The resilver has ended: the drive joins at the next tick, with the committed root as the last commit that it took. -/
def State.resilverEnds (s : State) (port : Nat) : State :=
  ((s.copyEnds port).updDrive port fun d => { d with next := some .inMirror }).setNum (Key.VLT_PORT_SYNC_SEQ port)
    (s.copyEnds port).vault.root.seq

theorem State.copyEnds_frame : s.copyEnds port = { s with
    vault := { s.vault with d0 := (s.copyEnds port).vault.d0, d1 := (s.copyEnds port).vault.d1, copyPort := none, copyKeys := [] }
    sent := (s.copyEnds port).sent } := by
  unfold State.copyEnds
  rw [(s.copyBlock_movesBlocks port _).only]

theorem State.resilverEnds_frame : s.resilverEnds port = { s with
    vault := { s.vault with d0 := (s.resilverEnds port).vault.d0, d1 := (s.resilverEnds port).vault.d1, copyPort := none, copyKeys := [] }
    dict := (s.resilverEnds port).dict
    sent := (s.resilverEnds port).sent } := by
  unfold State.resilverEnds
  rw [State.updDrive, State.setDrive_eq, State.copyEnds_frame]
  rfl

theorem exec_resilverDone_of_copied (resilvers : s.resilvering = some port) (begun : s.vault.copyPort = some port)
    (copied : s.vault.copyKeys.length ≤ s.num Key.VLT_RESILVER_CURSOR) : exec (.resilverDone port) s = .next (s.resilverEnds port) :=
  if_pos ⟨resilvers, begun, copied⟩

theorem exec_resilverDone_of_not_copied
    (h : s.resilvering ≠ some port ∨ s.vault.copyPort ≠ some port ∨ s.num Key.VLT_RESILVER_CURSOR < s.vault.copyKeys.length) :
    exec (.resilverDone port) s = .next s := by
  refine if_neg ?_
  rintro ⟨resilvers, begun, copied⟩
  obtain none | none | left := h
  · exact none resilvers
  · exact none begun
  · exact Nat.not_le.mpr left copied

theorem State.resilverEnds_drive : (s.resilverEnds port).drive port = { (s.copyEnds port).drive port with next := some .inMirror } :=
  (s.copyEnds port).drive_updDrive port _

theorem State.resilverEnds_next : ((s.resilverEnds port).drive port).next = some .inMirror := by rw [State.resilverEnds_drive]

theorem State.resilverEnds_top (wf : SMap.wf zeroBlock (s.drive port).cells = true) :
    ((s.resilverEnds port).drive port).cell (16 + b2n s.vault.root.frame) = (s.drive (1 - port)).cell (16 + b2n s.vault.root.frame) := by
  rw [State.resilverEnds_drive]
  exact State.cell_copyBlock wf _

theorem State.resilverEnds_syncSeq (rising : s.dict.nums.Pairwise fun a b => a.1 < b.1) :
    (s.resilverEnds port).num (Key.VLT_PORT_SYNC_SEQ port) = s.vault.root.seq := by
  rw [State.resilverEnds, State.copyEnds_frame]
  exact State.num_setNum _ _ _ (by simpa using rising)

end Copy

/-! ## SCRUB_PASS_END (R266) -/

section Scrub
variable {s : State}

theorem exec_scrubPassEnd_of_passed (on : s.scrubOn = true) (passed : s.scrubList = []) :
    exec .scrubPassEnd s = .next ((s.count Key.VLT_SCRUB_PASSES).setNum Key.VLT_SCRUB_CURSOR 0) := if_pos ⟨on, passed⟩

theorem exec_scrubPassEnd_of_not_passed (h : s.scrubOn = false ∨ s.scrubList ≠ []) : exec .scrubPassEnd s = .next s :=
  if_neg fun ⟨on, passed⟩ => h.elim (ne_true_of_eq_false · on) (· passed)

end Scrub

/-! ## FORMAT_DONE (R249, R250, R267) -/

/-- The blocks of a formatted drive: the two headers, and a level-5 node. -/
def formatCells (n : Nat) (node : Bytes) : List (Nat × Bytes) :=
  SMap.set zeroBlock 16 node (SMap.set zeroBlock 1 (headerBytes n 1) (SMap.set zeroBlock 0 (headerBytes n 1) []))

theorem formatCells_get (n : Nat) (node : Bytes) : SMap.get zeroBlock (formatCells n node) 0 = headerBytes n 1 ∧
    SMap.get zeroBlock (formatCells n node) 1 = headerBytes n 1 ∧ SMap.get zeroBlock (formatCells n node) 16 = node := by
  have first := SMap.wf_set zeroBlock 0 (headerBytes n 1) [] rfl
  have both := SMap.wf_set zeroBlock 1 (headerBytes n 1) _ first
  refine ⟨?_, ?_, SMap.get_set _ _ _ _ both⟩
  · rw [formatCells, SMap.get_set_ne _ _ _ _ _ _ (by decide), SMap.get_set_ne _ _ _ _ _ _ (by decide)]
    exact SMap.get_set _ _ _ _ rfl
  · rw [formatCells, SMap.get_set_ne _ _ _ _ _ _ (by decide)]
    exact SMap.get_set _ _ _ _ first

/-- The unwritten tree of `n` pages. -/
def State.blankTree (s : State) (n : Nat) : State :=
  let t := s.setNum Key.VLT_PAGES n
  { t with vault := { t.vault with tree := [], journal := [], nodes := [], lost := [] } }

/-- The root of a format: sequence 1, the level-5 node of the unwritten tree in frame 0. -/
def State.formatRoot (s : State) (n : Nat) : Root := ⟨1, vaultHash 5 0 ((s.blankTree n).nodeBytes 5 0), false⟩

/-- The unwritten tree committed, with no items. -/
def State.commitBlank (s : State) (n : Nat) : State :=
  let t := s.blankTree n
  let root := s.formatRoot n
  { t with vault := { t.vault with
    root := root, battery0 := some (RootCopy.of root), battery1 := some (RootCopy.of root),
    journal := [JRecord.of root [] (s.tick + 1)], formatting := none, waiting := [], group := [], locked := [], coming := none } }

/-- One drive formatted, with the format as the last commit that it took. -/
def State.formatOn (n : Nat) (s : State) (p : Nat) : State := (s.formatDrive p n).setNum (Key.VLT_PORT_SYNC_SEQ p) 1

/-- The format done: the drives of the mirror formatted, the cursors of sweep and scrub at 0. -/
def State.formatEnds (s : State) (n : Nat) : State :=
  ((s.mirror.foldl (State.formatOn n) (s.commitBlank n)).setNum Key.KEY_SWEEP_CURSOR 0).setNum Key.VLT_SCRUB_CURSOR 0

theorem exec_formatDone_of_mirror {s : State} {n : Nat} (formats : s.vault.formatting = some n) (mirror : s.mirror ≠ []) :
    exec .formatDone s = .next (s.formatEnds n) := by
  simp only [exec, execFormatDone, formats, if_neg mirror]
  rfl

theorem exec_formatDone_of_none {s : State} (h : s.vault.formatting = none ∨ s.mirror = []) : exec .formatDone s = .next s := by
  obtain none | empty := h
  · simp [exec, execFormatDone, none]
  · simp only [exec, execFormatDone, empty, if_true]
    split <;> rfl

/-! ### The drives of a format -/

/-- A format writes the drives, and in the dictionary the last commits that they took. -/
structure FormatsDrives (s t : State) : Prop where
  frame : t = { s with
    vault := { s.vault with d0 := t.vault.d0, d1 := t.vault.d1 }, dict := { s.dict with nums := t.dict.nums }, sent := t.sent }
  num : ∀ k, (∀ p, k ≠ Key.VLT_PORT_SYNC_SEQ p) → t.num k = s.num k
  rising : (s.dict.nums.Pairwise fun a b => a.1 < b.1) → t.dict.nums.Pairwise fun a b => a.1 < b.1

theorem FormatsDrives.refl (s : State) : FormatsDrives s s := ⟨rfl, fun _ _ => rfl, id⟩

theorem FormatsDrives.trans {s t u : State} (st : FormatsDrives s t) (tu : FormatsDrives t u) : FormatsDrives s u where
  frame := by rw [tu.frame, st.frame]
  num k other := (tu.num k other).trans (st.num k other)
  rising := tu.rising ∘ st.rising

theorem State.formatDrive_drivesOnly (s : State) (p n : Nat) : DrivesOnly s (s.formatDrive p n) :=
  (s.updDrive_drivesOnly p _).trans (State.submitAll_movesBlocks _ _ _).only

theorem State.formatOn_formatsDrives (n : Nat) (s : State) (p : Nat) : FormatsDrives s (s.formatOn n p) := by
  have only := s.formatDrive_drivesOnly p n
  refine ⟨?_, fun k other => (State.num_setNum_ne _ _ _ _ (other p)).trans (only.num k), fun rising => State.setNum_rising _ _ _ ?_⟩
  · rw [State.formatOn, only]
    rfl
  · rw [only]
    exact rising

theorem State.foldl_formatOn_formatsDrives (n : Nat) (l : List Nat) (s : State) : FormatsDrives s (l.foldl (State.formatOn n) s) :=
  List.foldlRecOn l _ (.refl s) fun t st p _ => st.trans (t.formatOn_formatsDrives n p)

theorem vltPages_ne_syncSeq (p : Nat) : Key.VLT_PAGES ≠ Key.VLT_PORT_SYNC_SEQ p := by
  simp only [Key.VLT_PAGES, Key.VLT_PORT_SYNC_SEQ, entryKey]
  omega

/-- The nodes are those of the same tree. -/
theorem FormatsDrives.nodeBytes {s t : State} (h : FormatsDrives s t) (level index : Nat) : t.nodeBytes level index = s.nodeBytes level index := by
  have pages : t.pages = s.pages := h.num _ vltPages_ne_syncSeq
  have tree : t.vault.tree = s.vault.tree := by rw [h.frame]
  simp only [State.nodeBytes, State.entryAt, pages, tree]

/-- A drive with the format alone on it. -/
def Drive.formatted (n : Nat) (node : Bytes) (d : Drive) : Drive :=
  ((({ d with cells := [] } : Drive).setCell 0 (headerBytes n 1)).setCell 1 (headerBytes n 1)).setCell 16 node

theorem Drive.formatted_cells (n : Nat) (node : Bytes) (d : Drive) : (d.formatted n node).cells = formatCells n node := rfl

section FormatOn
variable {n : Nat} {s : State} {p : Nat}

theorem State.cells_formatOn (q : Nat) :
    ((s.formatOn n q).drive p).cells = ((s.updDrive q (Drive.formatted n (s.nodeBytes 5 0))).drive p).cells :=
  State.submitAll_cells _ _ _ _

theorem State.cells_formatOn_same : ((s.formatOn n p).drive p).cells = formatCells n (s.nodeBytes 5 0) := by
  rw [State.cells_formatOn, State.drive_updDrive, Drive.formatted_cells]

/-- A drive that holds the format holds it still when any drive has been formatted. -/
theorem State.cells_formatOn_of_formatted (q : Nat) (held : (s.drive p).cells = formatCells n (s.nodeBytes 5 0)) :
    ((s.formatOn n q).drive p).cells = formatCells n (s.nodeBytes 5 0) := by
  rw [State.cells_formatOn]
  obtain ⟨-, changed⟩ | stands := s.drive_updDrive_cases q p (Drive.formatted n (s.nodeBytes 5 0))
  · rw [changed, Drive.formatted_cells]
  · rw [stands, held]

theorem State.cells_foldl_formatOn_of_formatted (l : List Nat) (held : (s.drive p).cells = formatCells n (s.nodeBytes 5 0)) :
    ((l.foldl (State.formatOn n) s).drive p).cells = formatCells n (s.nodeBytes 5 0) := by
  induction l generalizing s with
  | nil => exact held
  | cons q l ih =>
    have node := (s.formatOn_formatsDrives n q).nodeBytes 5 0
    exact node ▸ ih (node.symm ▸ State.cells_formatOn_of_formatted q held)

/-- Each drive of the list holds the format at the end. -/
theorem State.cells_foldl_formatOn {l : List Nat} (mem : p ∈ l) :
    ((l.foldl (State.formatOn n) s).drive p).cells = formatCells n (s.nodeBytes 5 0) := by
  induction l generalizing s with
  | nil => exact nomatch mem
  | cons q l ih =>
    have node := (s.formatOn_formatsDrives n q).nodeBytes 5 0
    obtain rfl | mem := List.mem_cons.mp mem
    · exact node ▸ State.cells_foldl_formatOn_of_formatted l (node.symm ▸ State.cells_formatOn_same)
    · exact node ▸ ih mem

end FormatOn

/-! ### The format as it ends -/

section FormatEnds
variable {s : State} {n : Nat}

theorem State.formatEnds_frame : s.formatEnds n = { s.commitBlank n with
    vault := { (s.commitBlank n).vault with d0 := (s.formatEnds n).vault.d0, d1 := (s.formatEnds n).vault.d1 }
    dict := { s.dict with nums := (s.formatEnds n).dict.nums }
    sent := (s.formatEnds n).sent } := by
  unfold State.formatEnds
  rw [(State.foldl_formatOn_formatsDrives n s.mirror (s.commitBlank n)).frame]
  rfl

theorem State.formatEnds_pages (rising : s.dict.nums.Pairwise fun a b => a.1 < b.1) : (s.formatEnds n).num Key.VLT_PAGES = n := by
  have formats := State.foldl_formatOn_formatsDrives n s.mirror (s.commitBlank n)
  calc (s.formatEnds n).num Key.VLT_PAGES
      = (s.mirror.foldl (State.formatOn n) (s.commitBlank n)).num Key.VLT_PAGES :=
        (State.num_setNum_ne _ _ _ _ (by decide)).trans (State.num_setNum_ne _ _ _ _ (by decide))
    _ = (s.setNum Key.VLT_PAGES n).num Key.VLT_PAGES := formats.num _ vltPages_ne_syncSeq
    _ = n := State.num_setNum _ _ _ rising

theorem State.formatEnds_cells {p : Nat} (small : p < 2) (mirror : (s.drive p).inMirror = true) :
    ((s.formatEnds n).drive p).cells = formatCells n ((s.blankTree n).nodeBytes 5 0) :=
  State.cells_foldl_formatOn (s := s.commitBlank n) (List.mem_filter.mpr ⟨List.mem_range.mpr small, mirror⟩)

theorem State.formatEnds_drive {p : Nat} (small : p < 2) (mirror : (s.drive p).inMirror = true) :
    ((s.formatEnds n).drive p).cell 0 = headerBytes n 1 ∧ ((s.formatEnds n).drive p).cell 1 = headerBytes n 1 ∧
      ((s.formatEnds n).drive p).holdsRoot (s.formatRoot n) = true := by
  obtain ⟨first, second, node⟩ := formatCells_get n ((s.blankTree n).nodeBytes 5 0)
  rw [← State.formatEnds_cells small mirror] at first second node
  refine ⟨first, second, beq_iff_eq.mpr ?_⟩
  exact congrArg (vaultHash 5 0) node

end FormatEnds

/-- Settles O37: a resilver ends as `State.resilverEnds`, a format as `State.formatEnds`; a copied block is the other drive's. -/
theorem resilverScrubAndFormatEnd : Obligations.ResilverScrubAndFormatEnd := by
  unfold Obligations.ResilverScrubAndFormatEnd
  intro s rising top
  refine ⟨fun port resilvers begun copied wf => ?resilver, fun port => exec_resilverDone_of_not_copied,
    fun port b _ wf => ⟨State.cell_copyBlock wf b, State.cells_copyBlock_other b⟩, fun on passed => ?scrub, exec_scrubPassEnd_of_not_passed,
    fun n formats mirror => ?format, exec_formatDone_of_none⟩
  case resilver =>
    have frame := s.resilverEnds_frame (port := port)
    refine ⟨_, exec_resilverDone_of_copied resilvers begun copied, State.resilverEnds_next, State.resilverEnds_top wf, ?_,
      State.resilverEnds_syncSeq rising, ?_, ?_, ?_⟩
    all_goals rw [frame]
  case scrub =>
    exact ⟨_, exec_scrubPassEnd_of_passed on passed, State.num_setNum _ _ _ (State.setNum_rising _ _ _ rising),
      (State.num_setNum_ne _ _ _ _ (by decide)).trans (State.num_count _ _ _ rising), rfl⟩
  case format =>
    have frame := s.formatEnds_frame (n := n)
    have root : (s.formatEnds n).vault.root = s.formatRoot n := by rw [frame]; rfl
    refine ⟨_, exec_formatDone_of_mirror formats mirror, ?_, ?_, ?_, ?_, ?_, ?_, State.formatEnds_pages rising,
      fun p small mirror => root ▸ State.formatEnds_drive small mirror, ?_, ?_, ?_⟩
    all_goals rw [frame]; rfl

end Sys2Proof.Machine
end

section
/-! # Blocks of samples (R270 to R274, R278, R285)

A block does to its wellspring what `Wellspring.tested`, `Wellspring.failing` and `Wellspring.passing` say, and besides that it only
counts and feeds the tap. The repetition count test trips on every run of the cutoff's length, wherever in the block it stands. -/

namespace Sys2Proof.Machine

/-! ## The wellspring of a number -/

theorem State.setWsp_eq (s : State) (n : Nat) (w : Wellspring) : s.setWsp n w = { s with
    ent := { s.ent with w0 := if n = 0 then w else s.ent.w0, w1 := if n = 0 then s.ent.w1 else w } } := by
  unfold State.setWsp
  split <;> rfl

@[simp] theorem State.wsp_setWsp (s : State) (n : Nat) (w : Wellspring) : (s.setWsp n w).wsp n = w := by
  rw [State.setWsp_eq, State.wsp]
  split <;> rfl

@[simp] theorem State.setWsp_drbg (s : State) (n : Nat) (w : Wellspring) : (s.setWsp n w).ent.drbg = s.ent.drbg := by rw [State.setWsp_eq]
@[simp] theorem State.setWsp_supply (s : State) (n : Nat) (w : Wellspring) : (s.setWsp n w).ent.supply = s.ent.supply := by
  rw [State.setWsp_eq]
@[simp] theorem State.setWsp_sinceReseed (s : State) (n : Nat) (w : Wellspring) : (s.setWsp n w).ent.sinceReseed = s.ent.sinceReseed := by
  rw [State.setWsp_eq]

theorem State.setWsp_zero_w1 (s : State) {n : Nat} (w : Wellspring) (h : n = 0) : (s.setWsp n w).ent.w1 = s.ent.w1 := by
  rw [State.setWsp_eq]
  exact if_pos h

theorem State.setWsp_ne_zero_w0 (s : State) {n : Nat} (w : Wellspring) (h : n ≠ 0) : (s.setWsp n w).ent.w0 = s.ent.w0 := by
  rw [State.setWsp_eq]
  exact if_neg h

/-! ## The health tests (R271, Table 11.1) -/

/-- The repetition count test goes over a block piece by piece. -/
theorem rctBlock_append (xs ys : List Bool) (v : Bool) (n : Nat) (t : Bool) :
    rctBlock (xs ++ ys) v n t = rctBlock ys (rctBlock xs v n t).1 (rctBlock xs v n t).2.1 (rctBlock xs v n t).2.2 := by
  induction xs generalizing v n t with
  | nil => rfl
  | cons x xs ih => exact ih ..

/-- A block that the test has tripped on stays so. -/
theorem rctBlock_of_tripped (b : List Bool) (v : Bool) (n : Nat) : (rctBlock b v n true).2.2 = true := by
  induction b generalizing v n with
  | nil => rfl
  | cons x b ih => exact ih ..

/-- A run in progress trips the test as soon as it is long enough. -/
theorem rctBlock_trips_of_run_in_progress (v : Bool) {k n : Nat} (t : Bool) (begun : 0 < n) (more : 0 < k) (long : rctCutoff ≤ n + k) :
    (rctBlock (List.replicate k v) v n t).2.2 = true := by
  induction k generalizing n t with
  | zero => omega
  | succ k ih =>
    simp only [List.replicate_succ, rctBlock, beq_self_eq_true, begun, decide_true, Bool.and_self, if_true]
    by_cases now : rctCutoff ≤ n + 1
    · simpa [now] using rctBlock_of_tripped _ v (n + 1)
    · exact ih _ (Nat.succ_pos n) (by omega) (by omega)

/-- A run of the cutoff's length trips the test, whatever run was in progress before it. -/
theorem rctBlock_run_trips (u v : Bool) (n : Nat) (t : Bool) : (rctBlock (List.replicate rctCutoff v) u n t).2.2 = true := by
  change (rctBlock (List.replicate 80 v) v (if v == u && decide (0 < n) then n + 1 else 1) _).2.2 = true
  have begun : 0 < if v == u && decide (0 < n) then n + 1 else 1 := by split <;> omega
  exact rctBlock_trips_of_run_in_progress v _ begun (by decide) (by unfold rctCutoff; omega)

theorem rctBlock_trips_of_run (pre post : List Bool) (u v : Bool) (n : Nat) :
    (rctBlock (pre ++ List.replicate rctCutoff v ++ post) u n false).2.2 = true := by
  rw [rctBlock_append, rctBlock_append, rctBlock_run_trips]
  exact rctBlock_of_tripped ..

theorem aptFails_cons_iff (v : Bool) (rest : List Bool) :
    aptFails (v :: rest) = true ↔ aptCutoff ≤ ((v :: rest).filter fun x => x == v).length := decide_eq_true_iff

/-! ## What a block does to its wellspring -/

/-- The run in progress at the end of a block; it starts anew after a block that the repetition count test fails. -/
def Wellspring.tested (w : Wellspring) (b : List Bool) : Wellspring :=
  let r := rctBlock b w.runValue w.runLength false
  { w with runValue := r.1, runLength := if r.2.2 then 0 else r.2.1 }

/-- One of the two health tests trips on a block. -/
def Wellspring.trips (w : Wellspring) (b : List Bool) : Bool := (rctBlock b w.runValue w.runLength false).2.2 || aptFails b

/-- A settled wellspring after a failed block. -/
def Wellspring.failing (w : Wellspring) (b : List Bool) : Wellspring :=
  { w.tested b with window := (true :: w.window).take 1024, passCount := 0 }

/-- Settled wellspring `n` after a passing block. -/
def Wellspring.passing (w : Wellspring) (n : Nat) (b : List Bool) : Wellspring :=
  { w.tested b with
    window := (false :: w.window).take 1024
    passCount := w.passCount + 1
    pool := if w.delivers then poolPut w.pool (condition n b) else w.pool
    state := if w.state = .starting ∧ 4 ≤ w.passCount + 1 then .healthy else w.state }

theorem Wellspring.trips_iff {w : Wellspring} {b : List Bool} :
    w.trips b = true ↔ (rctBlock b w.runValue w.runLength false).2.2 = true ∨ aptFails b = true := Bool.or_eq_true_iff

/-- A run of 81 equal samples trips the first test, 832 recurrences of the first sample the second. -/
theorem Wellspring.trips_of_run_or_recurrences {w : Wellspring} {b : List Bool}
    (h : (∃ pre v post, b = pre ++ List.replicate 81 v ++ post) ∨ ∃ v rest, b = v :: rest ∧ 832 ≤ (b.filter fun x => x == v).length) :
    w.trips b = true := by
  rw [Wellspring.trips_iff]
  obtain ⟨pre, v, post, rfl⟩ | ⟨v, rest, rfl, often⟩ := h
  · exact .inl (rctBlock_trips_of_run ..)
  · exact .inr ((aptFails_cons_iff v rest).mpr often)

theorem Wellspring.delivers_iff {w : Wellspring} : w.delivers = true ↔ w.state = .starting ∨ w.state = .healthy := by
  simp [Wellspring.delivers]

theorem length_poolPut_le {p : List Bytes} (o : Bytes) (h : p.length ≤ 4) : (poolPut p o).length ≤ 4 := by
  unfold poolPut
  simp only
  split
  · simpa using h
  · omega

theorem Wellspring.length_passing_pool_le {w : Wellspring} (n : Nat) (b : List Bool) (h : w.pool.length ≤ 4) :
    (w.passing n b).pool.length ≤ 4 := by
  change (if w.delivers then poolPut w.pool (condition n b) else w.pool).length ≤ 4
  split
  · exact length_poolPut_le _ h
  · exact h

/-! ## WSP_BLOCK -/

/-- A block goes to the tap where its wellspring is tapped (R285). -/
def State.tapBlock (s : State) (n : Nat) (b : List Bool) : State :=
  { s with sent := if (s.wsp n).state = .tapped then s.sent ++ [.tap n b] else s.sent }

theorem State.emit_tap_eq_tapBlock (s : State) (n : Nat) (b : List Bool) :
    (if (s.wsp n).state = .tapped then s.emit (.tap n b) else s) = s.tapBlock n b := by
  unfold State.tapBlock
  split <;> rfl

section Block
variable {s : State} {n : Nat} {b : List Bool}

theorem exec_wspBlock_of_noTick (still : s.noTick = true) : exec (.wspBlock n b) s = .next s := if_pos still

theorem exec_wspBlock_of_ticks (ticks : s.noTick = false) : exec (.wspBlock n b) s =
    if !(s.wsp n).settled then .next ((s.tapBlock n b).setWsp n ((s.wsp n).tested b))
    else if (s.wsp n).trips b then .next (((s.tapBlock n b).count (Key.WSP_SRC_FAILS n)).setWsp n ((s.wsp n).failing b))
    else .next (((s.tapBlock n b).count (Key.WSP_SRC_BLOCKS n)).setWsp n ((s.wsp n).passing n b)) := by
  rw [← State.emit_tap_eq_tapBlock]
  exact if_neg (by simp [ticks])

theorem exec_wspBlock_of_settling (ticks : s.noTick = false) (settling : (s.wsp n).settled = false) :
    exec (.wspBlock n b) s = .next ((s.tapBlock n b).setWsp n ((s.wsp n).tested b)) := by
  rw [exec_wspBlock_of_ticks ticks, if_pos (by simp [settling])]

theorem exec_wspBlock_of_trips (ticks : s.noTick = false) (settled : (s.wsp n).settled = true) (trips : (s.wsp n).trips b = true) :
    exec (.wspBlock n b) s = .next (((s.tapBlock n b).count (Key.WSP_SRC_FAILS n)).setWsp n ((s.wsp n).failing b)) := by
  rw [exec_wspBlock_of_ticks ticks, if_neg (by simp [settled]), if_pos trips]

theorem exec_wspBlock_of_passes (ticks : s.noTick = false) (settled : (s.wsp n).settled = true) (passes : (s.wsp n).trips b = false) :
    exec (.wspBlock n b) s = .next (((s.tapBlock n b).count (Key.WSP_SRC_BLOCKS n)).setWsp n ((s.wsp n).passing n b)) := by
  rw [exec_wspBlock_of_ticks ticks, if_neg (by simp [settled]), if_neg (by simp [passes])]

end Block

/-- Settles O40: a block leaves its wellspring as `Wellspring.tested`, `failing` or `passing`, and the rest as `State.setWsp` does. -/
theorem sampleBlocksAreTested : Obligations.SampleBlocksAreTested := by
  unfold Obligations.SampleBlocksAreTested
  intro n b s
  refine ⟨exec_wspBlock_of_noTick, fun ticks settling => ?settling, fun ticks settled equal => ?fails, fun ticks settled rct apt => ?passes⟩
  case settling =>
    refine ⟨_, exec_wspBlock_of_settling ticks settling, ?_, ?_, ?_, State.setWsp_dict .., State.setWsp_drbg ..⟩
    all_goals rw [State.wsp_setWsp]; rfl
  case fails =>
    refine ⟨_, exec_wspBlock_of_trips ticks settled (Wellspring.trips_of_run_or_recurrences equal), ?_, ?_, ?_, ?_, State.setWsp_dict ..,
      State.setWsp_drbg .., State.setWsp_zero_w1 _ _, State.setWsp_ne_zero_w0 _ _, State.setWsp_sinceReseed .., State.setWsp_supply .., ?only⟩
    case only =>
      rw [State.setWsp_eq]
      rfl
    all_goals rw [State.wsp_setWsp]; rfl
  case passes =>
    have passes : (s.wsp n).trips b = false := by rw [Wellspring.trips, rct, apt, Bool.or_self]
    refine ⟨_, exec_wspBlock_of_passes ticks settled passes, ?_, ?_, ?pool, ?bound, ?state, State.setWsp_dict .., State.setWsp_drbg ..⟩
    case bound =>
      rw [State.wsp_setWsp]
      exact Wellspring.length_passing_pool_le n b
    case pool => simp only [State.wsp_setWsp, Wellspring.passing, Wellspring.delivers_iff]
    case state => simp only [State.wsp_setWsp, Wellspring.passing, Nat.succ_le_succ_iff]
    all_goals rw [State.wsp_setWsp]; rfl

end Sys2Proof.Machine
end

section
/-! # Declared failures, reseeds and waits for a draw (R273, R275 to R278, R281)

A reseed is decided by two questions: is one due, and what `State.takeSeed` finds in the pools. What it finds is used up; the outcome of
the known-answer test says whether the DRBG is seeded from it or the supply is withheld. -/

namespace Sys2Proof.Machine

/-! ## Wellsprings declared failed and settled, and the last request -/

section Sources
variable {s : State} {n : Nat}

theorem exec_wspDeclaredFailed_of_ninth (ninth : 9 ≤ (s.wsp n).fails) (state : (s.wsp n).state ≠ .failed) (due : (s.wsp n).failDue = false) :
    exec (.wspDeclaredFailed n) s = .next (s.setWsp n { s.wsp n with failDue := true }) := if_pos ⟨ninth, state, by simp [due]⟩

theorem exec_wspDeclaredFailed_of_not_ninth
    (h : (s.wsp n).fails < 9 ∨ (s.wsp n).state = .failed ∨ (s.wsp n).failDue = true) : exec (.wspDeclaredFailed n) s = .next s := by
  refine if_neg ?_
  rintro ⟨ninth, state, due⟩
  obtain fewer | failed | declared := h
  · exact Nat.not_le.mpr fewer ninth
  · exact state failed
  · simp [declared] at due

theorem exec_wspSettled_of_starting (ticks : s.noTick = false) (settling : (s.wsp n).settled = false) (starting : (s.wsp n).state = .starting) :
    exec (.wspSettled n) s = .next (s.setWsp n { s.wsp n with settled := true, passCount := 0 }) :=
  if_pos (by simp [ticks, settling, starting])

theorem exec_wspSettled_of_not_starting (h : s.noTick = true ∨ (s.wsp n).settled = true ∨ (s.wsp n).state ≠ .starting) :
    exec (.wspSettled n) s = .next s := by
  refine if_neg ?_
  obtain still | settled | state := h
  · simp [still]
  · simp [settled]
  · simp [state]

theorem exec_drbgRequestLimit_of_reached (only : s.ent.supply = 3) (reached : 2 ^ 20 ≤ s.ent.sinceReseed) :
    exec .drbgRequestLimit s = .next { s with ent := { s.ent with limited := true } } := if_pos ⟨only, reached⟩

theorem exec_drbgRequestLimit_of_not_reached (h : s.ent.supply ≠ 3 ∨ s.ent.sinceReseed < 2 ^ 20) :
    exec .drbgRequestLimit s = .next s :=
  if_neg fun ⟨only, reached⟩ => h.elim (· only) (Nat.not_lt.mpr reached)

end Sources

/-! ## Reseeds (R275, R276) -/

section Reseed
variable {s : State}

theorem exec_reseedDue_of_not_live (dead : s.live = false) (p : Bool) : exec (.reseedDue p) s = .next s := by
  simp [exec, execReseedDue, dead]

theorem exec_reseedDue_in_lane_time (live : s.live = true) (lane : s.window = false) (p : Bool) :
    exec (.reseedDue p) s = .next { s with ent := { s.ent with reseedTest := some p } } := by
  simp [exec, execReseedDue, live, lane]

theorem exec_reseedDue_in_window (live : s.live = true) (window : s.window = true) (p : Bool) :
    exec (.reseedDue p) s = .next (s.reseed p) := by
  simp [exec, execReseedDue, live, window]

theorem State.reseedWindow_of_some {p : Bool} (h : s.ent.reseedTest = some p) :
    s.reseedWindow = State.reseed { s with ent := { s.ent with reseedTest := none } } p := by
  rw [State.reseedWindow, h]

/-- Both wellsprings are healthy, so that a reseed takes one output of each. -/
structure State.BothHealthy (s : State) : Prop where
  w0 : s.ent.w0.state = .healthy
  w1 : s.ent.w1.state = .healthy

theorem State.BothHealthy.takeSeed (h : s.BothHealthy) : s.takeSeed false =
    if 1 ≤ s.ent.w0.pool.length ∧ 1 ≤ s.ent.w1.pool.length then
      some (s.ent.w0.pool.take 1 ++ s.ent.w1.pool.take 1, s.ent.w0.pool.drop 1, s.ent.w1.pool.drop 1)
    else none := by
  simp [State.takeSeed, Wellspring.healthy, h.w0, h.w1]

theorem State.BothHealthy.takeSeed_of_empty (h : s.BothHealthy) (empty : s.ent.w0.pool = [] ∨ s.ent.w1.pool = []) :
    s.takeSeed false = none := by
  rw [h.takeSeed, if_neg]
  rintro ⟨some0, some1⟩
  obtain empty | empty := empty
  · simp [empty] at some0
  · simp [empty] at some1

theorem State.BothHealthy.takeSeed_of_cons (h : s.BothHealthy) {a b : Bytes} {p q : List Bytes} (p0 : s.ent.w0.pool = a :: p)
    (p1 : s.ent.w1.pool = b :: q) : s.takeSeed false = some ([a, b], p, q) := by
  simp [h.takeSeed, p0, p1]

/-- The state with the pools that a seed leaves. -/
def State.withPools (s : State) (p q : List Bytes) : State :=
  { s with ent := { s.ent with w0 := { s.ent.w0 with pool := p }, w1 := { s.ent.w1 with pool := q } } }

theorem State.reseed_of_not_due (noInit : s.wantsInit = false) (idle : s.reseedDueNow = false) (test : Bool) : s.reseed test = s := by
  simp [State.reseed, noInit, idle]

section Due
variable (noInit : s.wantsInit = false) (due : s.reseedDueNow = true)
include noInit due

theorem State.reseed_of_no_seed (seed : s.takeSeed false = none) (test : Bool) :
    s.reseed test = { s with ent := { s.ent with reseedDue := true } } := by
  simp [State.reseed, noInit, due, seed]

theorem State.reseed_of_test_failed {used p q : List Bytes} (seed : s.takeSeed false = some (used, p, q)) :
    s.reseed false = { ((s.withPools p q).count Key.WSP_DRBG_KAT_FAILS).event 0x2202 with
      ent := { (s.withPools p q).ent with katFailed := true, supply := 4 } } := by
  simp only [State.reseed, noInit, due, seed]
  rfl

theorem State.reseed_of_test_passed {used p q : List Bytes} (seed : s.takeSeed false = some (used, p, q)) :
    s.reseed true = { (s.withPools p q).count Key.WSP_RESEEDS with
      ent := { (s.withPools p q).ent with
        drbg := drbgReseed s.ent.drbg (drbgDf (used.take 2).flatten), sinceReseed := 0, framesSinceReseed := 0, reseedDue := false
        katFailed := false, limited := false } } := by
  simp only [State.reseed, noInit, due, seed]
  rfl

end Due
end Reseed

/-! ## Waits for a draw (R281) -/

section Wait
variable {s : State} {id : Nat} {j : Job}

/-- A job that has waited in vain since tick `a`. -/
def Job.withheld (a tick : Nat) (j : Job) : Job :=
  { j with
    phase := .staged, outcome := some ⟨stEntropy, [], 0, none, none⟩, due := max (a + 64) (tick + 1)
    outDone := true, leaveAsked := none, leaveUntil := none, boundVoid := j.class0 || j.boundVoid }

/-- The wait since tick `a` ends in vain. -/
def State.waitExpires (s : State) (id a : Nat) : State :=
  ((s.count Key.WSP_WITHHELD_JOBS).finish id stEntropy 0 (max (a + 64) (s.tick + 1))).updJob id
    fun i => { i with boundVoid := i.class0 || i.boundVoid }

theorem exec_entropyWaitExpiry_of_expired {a : Nat} (hj : s.job? id = some j) (held : j.firstHeld = some a) (ready : j.phase = .ready)
    (expired : a + 63 ≤ s.tick) : exec (.entropyWaitExpiry id) s = .next (s.waitExpires id a) := by
  simp only [exec, execEntropyWaitExpiry, hj, held]
  exact if_pos ⟨ready, expired⟩

theorem exec_entropyWaitExpiry_of_waiting (hj : s.job? id = some j)
    (h : j.firstHeld = none ∨ j.phase ≠ .ready ∨ ∃ a, j.firstHeld = some a ∧ s.tick < a + 63) :
    exec (.entropyWaitExpiry id) s = .next s := by
  simp only [exec, execEntropyWaitExpiry, hj]
  cases held : j.firstHeld with
  | none => rfl
  | some a =>
    refine if_neg ?_
    rintro ⟨ready, expired⟩
    obtain none | other | ⟨b, since, early⟩ := h
    · exact nomatch held.symm.trans none
    · exact other ready
    · cases held.symm.trans since
      exact Nat.not_le.mpr early expired

theorem State.waitExpires_jobs (s : State) (id a : Nat) :
    (s.waitExpires id a).jobs = s.jobs.map fun i => if i.id = id then i.withheld a s.tick else i := by
  simp only [State.waitExpires, State.updJob_jobs, State.finish_jobs, State.count_jobs, List.map_map]
  refine List.map_congr_left fun i _ => ?_
  by_cases named : i.id = id <;> simp [named, Job.withheld]

theorem State.mem_waitExpires_same {a : Nat} {i : Job} (mem : i ∈ (s.waitExpires id a).jobs) (named : i.id = id) :
    ∃ k, i = Job.withheld a s.tick k := by
  rw [State.waitExpires_jobs] at mem
  obtain ⟨k, -, rfl⟩ := List.mem_map.mp mem
  split at named
  next same => exact ⟨k, if_pos same⟩
  next other => exact absurd named other

theorem State.mem_waitExpires_other {a : Nat} {i : Job} (other : i.id ≠ id) : i ∈ (s.waitExpires id a).jobs ↔ i ∈ s.jobs := by
  rw [State.waitExpires_jobs, List.mem_map]
  constructor
  · rintro ⟨k, mem, rfl⟩
    split at other
    next same => exact absurd same other
    next still => exact (if_neg still).symm ▸ mem
  · exact fun mem => ⟨i, mem, if_neg other⟩

end Wait

/-- Settles O41: a due reseed by what `State.takeSeed` finds and the test gives, an expired wait as `State.waitExpires`. -/
theorem wellspringsReseedAndWaits : Obligations.WellspringsReseedAndWaits := by
  unfold Obligations.WellspringsReseedAndWaits
  refine ⟨fun n s => ?sources, fun p s => ?asked, fun s live window noInit => ?window, fun id j s hj => ?wait⟩
  case sources =>
    exact ⟨exec_wspDeclaredFailed_of_ninth, exec_wspDeclaredFailed_of_not_ninth, exec_wspSettled_of_starting,
      exec_wspSettled_of_not_starting, exec_drbgRequestLimit_of_reached, exec_drbgRequestLimit_of_not_reached⟩
  case asked =>
    exact ⟨fun dead => exec_reseedDue_of_not_live dead p, fun live lane => exec_reseedDue_in_lane_time live lane p,
      State.reseedWindow_of_some⟩
  case window =>
    simp only [exec_reseedDue_in_window live window]
    refine ⟨fun idle p => congrArg _ (State.reseed_of_not_due noInit idle p), fun due healthy0 healthy1 => ?due⟩
    have both : s.BothHealthy := ⟨healthy0, healthy1⟩
    refine ⟨fun empty p => congrArg _ (State.reseed_of_no_seed noInit due (both.takeSeed_of_empty empty) p), fun a b p q p0 p1 => ?_⟩
    have seed := both.takeSeed_of_cons p0 p1
    constructor
    · have input : ([a, b].take 2).flatten = a ++ b := by simp
      rw [State.reseed_of_test_passed noInit due seed, input]
      rfl
    · exact ⟨_, congrArg _ (State.reseed_of_test_failed noInit due seed), rfl, rfl, rfl, rfl, rfl, rfl, rfl, rfl⟩
  case wait =>
    refine ⟨fun a held ready expired => ?_, exec_entropyWaitExpiry_of_waiting hj⟩
    refine ⟨_, exec_entropyWaitExpiry_of_expired hj held ready expired, fun i mem named => ?_, fun i => State.mem_waitExpires_other, rfl⟩
    obtain ⟨k, rfl⟩ := State.mem_waitExpires_same mem named
    exact ⟨rfl, rfl, rfl⟩

end Sys2Proof.Machine
end

section
/-! # What every command keeps: the queue, and the life-cycle fuses but in four rows (R389 to R394, R406)

A row performs an operation, writes one entry, brings a message to its block, or is an event of its own (as for the tick number, R4). All of them complete
and keep the queue; the fuses stay but in the four rows of `blowsFuses`, whose share operations only blow them (`Laws/Fuses`). -/

namespace Sys2Proof.Machine

/-- A command that completes, and keeps the queue and the fuses. -/
def Keeps (s : State) (r : Res) : Prop := ∃ t, r = .next t ∧ t.pending = s.pending ∧ t.life.fuses = s.life.fuses

@[simp] theorem keeps_next {s t : State} : Keeps s (.next t) ↔ t.pending = s.pending ∧ t.life.fuses = s.life.fuses := by simp [Keeps]

@[simp] theorem keeps_ite {s : State} {p : Prop} [Decidable p] {a b : Res} : Keeps s (if p then a else b) ↔ if p then Keeps s a else Keeps s b := by
  split <;> rfl

theorem keeps_of_engineRow {c : Instr} {r : Nat × Nat} (h : engineRow c = some r) (s : State) : Keeps s (exec c s) := by
  obtain ⟨f, hf⟩ := exec_of_engineRow h s
  simp [hf]

theorem keeps_of_dictRow {c : Instr} {r : Bool × Role × Nat × DVal} (h : dictRow c = some r) (s : State) : Keeps s (exec c s) := by
  simp [exec_of_dictRow h s]

theorem keeps_of_handOne {c : Instr} {s : State} (h : exec c s = .next (s.handOne c)) : Keeps s (exec c s) := by
  simp [h, State.handOne_kept]

/-- The rows of a served unit alone: the request is handed over, or nothing happens. -/
theorem exec_served_eq_handOne (s : State) :
    (∀ r, exec (.dictRead r) s = .next (s.handOne (.dictRead r))) ∧ (∀ r, exec (.dictWrite r) s = .next (s.handOne (.dictWrite r))) ∧
    (∀ h, exec (.challengeRequest h) s = .next (s.handOne (.challengeRequest h))) ∧ ∀ h b, exec (.approval h b) s = .next (s.handOne (.approval h b)) := by
  simp only [exec, State.handOne, execDictRead, execDictWrite, execChallengeRequest, execApproval]
  cases s.live <;> simp

/-! ## Events that keep the fuses -/

theorem exec_keeps {c : Instr} (h : blowsFuses c = false) (hw : namesWord c = true) (s : State) : Keeps s (exec c s) := by
  cases c
  case transitionStep | coldStart | warmStart | housekeepingWindow => cases h
  -- the rows of Table 4.8
  case ecdsaSign | ecdsaVerify | eddsaSign | eddsaVerify | ecKeygen | ecdhDerive | rsaSignPss | rsaSignPkcs1 | rsaVerify |
      rsaDecryptOaep | rsaEncryptOaep | rsaKeygen | mlkemKeygen | mlkemEncaps | mlkemDecaps | mldsaKeygen | mldsaSign |
      mldsaVerify | pairedSign | pairedVerify | aeadSeal | aeadOpen | cipherEncrypt | cipherDecrypt | macGenerate | macVerify |
      hash | kdfDerive | fpeEncrypt | fpeDecrypt | pinTranslate | pinVerify | dukptDerive | keyblockImport | keyblockExport |
      lockerCodeIssue | lockerCodeCheck | lockerTokenSign | keyGenerate | keyImportWrapped | keyExportWrapped | keyPin |
      keyUnpin | keyDestroy | keyQuery | attestKey | recordSeal | recordOpen | counterIncrement | objectRepair | randomBytes =>
    exact keeps_of_engineRow rfl s
  -- the writes of a dictionary entry; an enrolment may also wait for its approval
  case pkeUnfence | pkeSpareCount | pkeLatUnfence | symUnfence | vltFormat | vltRootSelect | vltPortOfflineSet |
      vltPortOfflineClear | seiPeriodNext | seiSwitchTick | slcPasid | slcShareWrite | freeze | freezeNow | thaw | save |
      restore | rngSlice | hstMsixMap | hrtOwner | hrtInvalidate | hrtRetire | chnK | chnDomainFound | chnDomainJoin |
      chnDomainConfirm | chnMemberRemove | tmpClear | tmpLockClear | lcsTransition | lcsChallengeDraw | lcsCertApply |
      lcsGrantEnd | lcsTrimSelect | chkStart | chkContinue | chkSuspend | silClearCircular | rstResetRequest | standbyEnter |
      standbyExit | gateRequest | ungateRequest =>
    exact keeps_of_dictRow rfl s
  case ofcAlgorithm => simp [exec, execOfcAlgorithm]
  -- the messages of step 4
  case dictRead => exact keeps_of_handOne ((exec_served_eq_handOne s).1 _)
  case dictWrite => exact keeps_of_handOne ((exec_served_eq_handOne s).2.1 _)
  case challengeRequest => exact keeps_of_handOne ((exec_served_eq_handOne s).2.2.1 _)
  case approval => exact keeps_of_handOne ((exec_served_eq_handOne s).2.2.2 _ _)
  case hello | dictReply | replicate | replAck | replCommit | replRollback | replQuery | replState | migConsume | migReply |
      attestOffer | attestAnswer | domainKey | heartTransfer | objectTransfer | transferEnd =>
    exact keeps_of_handOne rfl
  -- the frame
  case tick | periodSwitch => simp [exec, execTick, State.tickOnce_kept, execPeriodSwitch]
  -- the host link and its rings
  case sqTailWrite | cqHeadWrite | ringEnable | ringDisable | barRegisterWrite | outGo | inFullClear | msixUnmask | pasidEnable |
      hostLinkRetrain =>
    simp [exec, execSqTailWrite, execCqHeadWrite, execRingEnable, execRingDisable, execBarRegisterWrite, execOutGo,
      execInFullClear, execMsixUnmask, execPasidEnable, execHostLinkRetrain]
  case fifoUncorrectable f content => cases content <;> simp [exec, execFifoUncorrectable]
  -- jobs and slices
  case abortIndexWrite | dmaReadComplete | slcReset | sliceResetDone | freezeDrained =>
    simp [exec, execAbortIndexWrite, execDmaReadComplete, execSlcReset, execSliceResetDone, execFreezeDrained]
  case readTimeout | replicationTimeout | quorumWriteExpiry | formatDone | lcsChallengeExpiry =>
    simp only [exec, execReadTimeout, execReplicationTimeout, execQuorumWriteExpiry, execFormatDone, execLcsChallengeExpiry]
    split <;> simp
  case migrationTimeout slice =>
    simp only [exec, execMigrationTimeout]
    split
    · simp
    · split
      · simp only [keeps_next, State.updSlice_kept]
        split <;> split <;> simp
      · simp
      · simp
  case entropyWaitExpiry =>
    simp only [exec, execEntropyWaitExpiry]
    split
    · split <;> simp
    · simp
  case vaultCmdError =>
    simp only [exec, execVaultCmdError]
    split
    · simp
    · split
      · split <;> simp
      · simp
  case replQueryDue =>
    simp only [exec, execReplQueryDue]
    split
    · simp
    · split <;> simp
  case replDecision =>
    simp only [exec, execReplDecision]
    split
    · split <;> simp
    · split
      · split <;> simp
      · simp
  -- faults of lanes, lattice clusters and register pages
  case laneFault | comingSpareSettle | spareTestDue | spareTestEnd | unfenceTestEnd | sharedUnitFault | latUnfenceTestEnd |
      symLaneFault | symUnfenceTestEnd | registerPageWipe =>
    simp [exec, execLaneFault, execComingSpareSettle, execSpareTestDue, execSpareTestEnd, execUnfenceTestEnd,
      execSharedUnitFault, execLatUnfenceTestEnd, execSymLaneFault, execSymUnfenceTestEnd, execRegisterPageWipe]
  -- the vault
  case vaultReadComplete | commitGroupOpen | commitPhase2 | driveLinkUp | driveLinkDown | vaultCmdTimeout | smartPoll |
      resilverDone | sweepPassEnd | scrubPassEnd =>
    simp [exec, execVaultReadComplete, execCommitGroupOpen, execCommitPhase2, execDriveLinkUp, execDriveLinkDown,
      execVaultCmdTimeout, execSmartPoll, execResilverDone, execSweepPassEnd, execScrubPassEnd]
  -- entropy
  case wspBlock | wspDeclaredFailed | wspSettled | reseedDue | drbgRequestLimit | rawSampleTapOpen =>
    simp [exec, execWspBlock, execWspDeclaredFailed, execWspSettled, execReseedDue, execDrbgRequestLimit, execRawSampleTapOpen]
  -- the Keeper: memory faults, the gateway, the guard, debug, hand-over, watchdogs
  case wmUncorrectable w =>
    have named : ¬ 2097152 ≤ w := by simpa [namesWord] using hw
    simp only [exec, execWmUncorrectable, if_neg named]
    split
    · simp
    · split <;> simp
  case keyCacheUncorrectable | heartTableUncorrectable | keeperSramUncorrectable | colourFault | gatewayCall |
      gatewayFaultLimit | weirInvalidate | guardDisable | guardEnable | guardHoldLimit =>
    simp [exec, execKeyCacheUncorrectable, execHeartTableUncorrectable, execKeeperSramUncorrectable, execColourFault,
      execGatewayCall, execGatewayFaultLimit, execWeirInvalidate, execGuardDisable, execGuardEnable, execGuardHoldLimit]
  case keeperCallServe =>
    simp only [exec, execKeeperCallServe]
    split
    · simp
    · split <;> simp
  case debugMasterAccess | debugHalt | debugResume | keeperHandoverRequest | keeperHandoverRelease | normalHandoverRequest |
      swdtRefresh | swdtExpiry | nwdtCheckin | nwdtExpiry =>
    simp [exec, execDebugMasterAccess, execDebugHalt, execDebugResume, execKeeperHandoverRequest, execKeeperHandoverRelease,
      execNormalHandoverRequest, execSwdtRefresh, execSwdtExpiry, execNwdtCheckin, execNwdtExpiry]
  case laneGateDrained =>
    simp only [exec, execLaneGateDrained]
    split <;> simp
  -- the chain, replication and joining
  case chainTickMarker | chainUp | portBroken | loopbackRestore | holdoverEntry | rollCall | fillCall | memberUnreachable |
      fragmentTimeout | joinTimeout | challengeExpiry =>
    simp [exec, execChainTickMarker, execChainUp, execPortBroken, execLoopbackRestore, execHoldoverEntry, execRollCall, execFillCall,
      execMemberUnreachable, execFragmentTimeout, execJoinTimeout, execChallengeExpiry]
  -- tamper and life cycle
  case tamperResponse | batteryRemoval | tamperSample | transitionLapse | certCheckEnd | grantExpiry =>
    simp [exec, execTamperResponse, execBatteryRemoval, execTamperSample, execTransitionLapse, execCertCheckEnd, execGrantExpiry]
  case tamperAlarm =>
    simp only [exec, execTamperAlarm]
    split
    · simp
    · split <;> simp
  -- check values, resets and power
  case chkScanEnd | idleEntry | powerOn | brownOut | resetNLow | resetNLong | perstNAssert | pcieHotReset | pcieLinkDown |
      functionLevelReset | functionStart =>
    simp [exec, execChkScanEnd, execIdleEntry, execPowerOn, execBrownOut, execResetNLow, execResetNLong, execPerstNAssert,
      execPcieHotReset, execPcieLinkDown, execFunctionLevelReset, execFunctionStart]

/-! ## The rows that can blow a fuse (R391, R393, R406) -/

/-- A command that completes, keeps the queue, and blows fuses at most, in the order of their marks. -/
def Blows (s : State) (r : Res) : Prop :=
  ∃ t, r = .next t ∧ t.pending = s.pending ∧ s.life.fuses.grows t.life.fuses ∧ (s.life.fuses.ordered = true → t.life.fuses.ordered = true)

theorem Keeps.blows {s : State} {r : Res} (h : Keeps s r) : Blows s r := by
  obtain ⟨t, run, queue, fuses⟩ := h
  exact ⟨t, run, queue, Fuses.grows_of_eq fuses, fun ordered => fuses ▸ ordered⟩

/-- A command that makes the fuses those of a state `u` of the same queue, which has the fuses of `s` and is then acted on. -/
theorem blows_next {s t u : State} (pending : t.pending = s.pending) (fuses : u.life.fuses = s.life.fuses) (grows : u.life.fuses.grows t.life.fuses)
    (ordered : u.life.fuses.ordered = true → t.life.fuses.ordered = true) : Blows s (.next t) :=
  ⟨t, rfl, pending, fuses ▸ grows, fuses ▸ ordered⟩

theorem execTransitionStep_blows (s : State) : Blows s (execTransitionStep s) := by
  have next (u : State) (n : Nat) (queue : u.pending = s.pending) (fuses : u.life.fuses = s.life.fuses) : Blows s (.next (u.transitionNext n)) :=
    blows_next (by simpa using queue) fuses (u.transitionNext_grows n) (u.transitionNext_ordered n)
  unfold execTransitionStep
  split
  case h_1 => exact (keeps_next.mpr ⟨rfl, rfl⟩).blows
  case h_2 tr _ =>
    dsimp only
    split
    · exact (keeps_next.mpr ⟨rfl, rfl⟩).blows
    · split
      · split
        · exact next _ _ (by simp) (by simp)
        · exact (keeps_next.mpr (by simp)).blows
      · split
        · obtain ⟨_, ⟨⟩, -, grows, ordered⟩ := next s tr.1 rfl rfl
          exact ⟨_, rfl, by simp, by simpa using grows, by simpa using ordered⟩
        · exact next s _ rfl rfl

theorem exec_blows_of_blowsFuses {c : Instr} (h : blowsFuses c = true) (s : State) : Blows s (exec c s) := by
  have start (u : State) (reach : Nat) (b : Boot) (queue : u.pending = s.pending) (fuses : u.life.fuses = s.life.fuses) :
      Blows s (.next (u.startFrom reach b)) :=
    blows_next (by simpa using queue) fuses (u.startFrom_grows reach b) (u.startFrom_ordered reach b)
  have still : Blows s (.next s) := (keeps_next.mpr ⟨rfl, rfl⟩).blows
  cases c
  case transitionStep => exact execTransitionStep_blows s
  case coldStart =>
    simp only [exec, execColdStart]
    split
    · exact start _ _ _ (by simp) (by simp)
    · exact still
  case warmStart =>
    simp only [exec, execWarmStart]
    split
    · exact start _ _ _ (by simp) (by simp)
    · exact still
  case housekeepingWindow =>
    simp only [exec, execHousekeepingWindow]
    split
    · exact still
    · split
      · exact (keeps_next.mpr (by simp)).blows
      · exact blows_next (u := { s with window := true }) (by simp) rfl (State.windowWork_grows _) (State.windowWork_ordered _)
  all_goals cases h

theorem exec_blows {c : Instr} (hw : namesWord c = true) (s : State) : Blows s (exec c s) := by
  cases h : blowsFuses c
  case false => exact (exec_keeps h hw s).blows
  case true => exact exec_blows_of_blowsFuses h s

/-- The one stop (R289). -/
theorem exec_wmUncorrectable_of_noSuchWord {w : Nat} (h : 2097152 ≤ w) (s : State) : exec (.wmUncorrectable w) s = .fault (.noSuchWord w) := by
  simp [exec, execWmUncorrectable, h]

/-- A command that completes names a word that the unit has. -/
theorem namesWord_of_exec_next {c : Instr} {s t : State} (h : exec c s = .next t) : namesWord c = true := by
  cases c
  case wmUncorrectable w =>
    refine decide_eq_true (Nat.lt_of_not_le fun past => ?_)
    rw [exec_wmUncorrectable_of_noSuchWord past] at h
    cases h
  all_goals rfl

theorem blows_of_exec_next {c : Instr} {s t : State} (h : exec c s = .next t) :
    t.pending = s.pending ∧ s.life.fuses.grows t.life.fuses ∧ (s.life.fuses.ordered = true → t.life.fuses.ordered = true) := by
  obtain ⟨u, run, kept⟩ := exec_blows (namesWord_of_exec_next h) s
  cases run.symm.trans h
  exact kept

/-! ## The life-cycle state -/

theorem Marks.isDone_of_grows {m n : Marks} (h : m.grows n) (done : m.isDone = true) : n.isDone = true := by
  obtain ⟨-, -, -, same | full⟩ := h
  · simpa [Marks.isDone, same] using done
  · rw [Marks.isDone, full]
    decide

/-- The number of the last transition that is DONE (Table 16.1). -/
theorem State.lifeCycle_le_of_grows {s t : State} (h : s.life.fuses.grows t.life.fuses) : s.lifeCycle ≤ t.lifeCycle := by
  obtain ⟨h1, h2, h3, h4, -, -⟩ := h
  have d1 := Marks.isDone_of_grows h1
  have d2 := Marks.isDone_of_grows h2
  have d3 := Marks.isDone_of_grows h3
  have d4 := Marks.isDone_of_grows h4
  simp only [State.lifeCycle]
  grind

/-! ## The statements -/

/-- Settles O1: a step is `exec` of the command at the front, by the definition of `step`. -/
theorem stepRunsFrontCommand : Obligations.StepRunsFrontCommand := fun _ _ _ => rfl

/-- Settles O2: every row but the one stop completes, by the kind of row. -/
theorem everyCommandCompletes : Obligations.EveryCommandCompletes := by
  unfold Obligations.EveryCommandCompletes
  refine ⟨fun c s h => ?_, fun w s h => exec_wmUncorrectable_of_noSuchWord h s⟩
  have named : namesWord c = true := by
    rcases h with h | h
    · exact h
    · cases c
      case wmUncorrectable w => exact absurd rfl (h w)
      all_goals rfl
  obtain ⟨t, run, -⟩ := exec_blows named s
  exact ⟨t, run⟩

/-- A step drops the command at the front of the queue, and nothing else of it. -/
theorem step_pending {s t : State} (h : step s = .next t) : t.pending = s.pending.drop 1 := by
  unfold step at h
  split at h
  · next e => cases h; simp [e]
  · next e => rw [(blows_of_exec_next h).1, e]; rfl

/-- Settles O3: every row keeps the queue, and a step drops its front. -/
theorem queueIsFirstInFirstOut : Obligations.QueueIsFirstInFirstOut := by
  unfold Obligations.QueueIsFirstInFirstOut
  refine ⟨⟨fun _ _ _ h => (blows_of_exec_next h).1, fun _ _ => step_pending⟩, fun s h => ?_⟩
  simp [step, h]

/-- Settles O5: the four rows of `blowsFuses` blow at most, every other row keeps the fuses. -/
theorem fusesOnlyBlow : Obligations.FusesOnlyBlow := by
  unfold Obligations.FusesOnlyBlow
  refine ⟨fun _ _ _ h => (blows_of_exec_next h).2.1, fun c s t still h => ?_⟩
  obtain ⟨u, run, -, fuses⟩ := exec_keeps still (namesWord_of_exec_next h) s
  cases run.symm.trans h
  exact fuses

/-- Settles O6: the rows keep the order of the marks, and so does the step that runs one of them. -/
theorem stepKeepsMarksOrdered : Obligations.StepKeepsMarksOrdered := by
  unfold Obligations.StepKeepsMarksOrdered
  intro s t ordered h
  unfold step at h
  split at h
  · cases h; exact ordered
  · exact (blows_of_exec_next h).2.2 ordered

/-- Settles O7: the state is that of the last transition that is DONE, and no mark is lost. -/
theorem lifeCycleNeverReturns : Obligations.LifeCycleNeverReturns := fun _ _ _ h =>
  State.lifeCycle_le_of_grows (blows_of_exec_next h).2.1

end Sys2Proof.Machine
end

section
/-! # Working memory reads back (R289, R290), and the state after reset -/

namespace Sys2Proof.Machine

/-! ## One word -/

section Word
variable {s : State} (hw : Memory.wf s.rest s.wm = true)
include hw

theorem State.word_setWord (i : Nat) (w : Word36) : (s.setWord i w).word i = w :=
  SMap.get_set_rising _ _ _ _ ((Memory.wf_iff _ _).mp hw).1

end Word

theorem State.word_setWord_ne (s : State) {i j : Nat} (w : Word36) (h : j ≠ i) : (s.setWord i w).word j = s.word j :=
  SMap.get_set_ne _ _ _ _ _ _ h

/-! ## One byte -/

/-- The data `n` of a word with byte `k` in the place of its byte at `p`. -/
def putDigit (n p k : Nat) : Nat := n - n / 2 ^ (8 * p) % 256 * 2 ^ (8 * p) + k * 2 ^ (8 * p)

theorem putDigit_digit {p k : Nat} (n : Nat) (hp : p < 4) (hk : k < 256) : putDigit n p k / 2 ^ (8 * p) % 256 = k := by
  simp only [putDigit]
  interval_cases p <;> omega

theorem putDigit_digit_ne {p q k : Nat} (n : Nat) (hp : p < 4) (hq : q < 4) (hk : k < 256) (h : q ≠ p) :
    putDigit n p k / 2 ^ (8 * q) % 256 = n / 2 ^ (8 * q) % 256 := by
  simp only [putDigit]
  interval_cases p <;> interval_cases q <;> omega

/-- One byte stored with a colour (R290). -/
def State.putByte (s : State) (c a : Nat) (b : Byte) : State := s.setWord (a / 4) ⟨c, putDigit (s.word (a / 4)).data (a % 4) b.toNat⟩

/-- A store is that of its first byte, then that of the rest behind it. -/
theorem State.wmStore_cons (s : State) (c a : Nat) (b : Byte) (bs : Bytes) : s.wmStore c a (b :: bs) = (s.putByte c a b).wmStore c (a + 1) bs := by
  rw [State.wmStore, List.zipIdx_cons', List.foldl_cons, List.foldl_map]
  simp only [Prod.map_fst, Prod.map_snd, id, ← Nat.add_assoc, Nat.add_right_comm a _ 1]
  rfl

section Byte
variable {s : State} (hw : Memory.wf s.rest s.wm = true) (c a : Nat) (b : Byte)

theorem State.putByte_wf (hw : Memory.wf s.rest s.wm = true) : Memory.wf (s.putByte c a b).rest (s.putByte c a b).wm = true :=
  s.setWord_wf _ _ hw

theorem State.word_putByte (hw : Memory.wf s.rest s.wm = true) :
    (s.putByte c a b).word (a / 4) = ⟨c, putDigit (s.word (a / 4)).data (a % 4) b.toNat⟩ := State.word_setWord hw _ _

theorem State.word_putByte_ne {w : Nat} (h : w ≠ a / 4) : (s.putByte c a b).word w = s.word w := s.word_setWord_ne _ h

theorem State.wmByte_putByte (hw : Memory.wf s.rest s.wm = true) : (s.putByte c a b).wmByte a = b := by
  have digit := putDigit_digit (s.word (a / 4)).data (Nat.mod_lt a (by decide : 4 > 0)) b.isLt
  apply BitVec.eq_of_toNat_eq
  simpa [State.wmByte, State.word_putByte _ _ _ hw, byteOf] using digit

theorem State.wmByte_putByte_ne (hw : Memory.wf s.rest s.wm = true) {x : Nat} (h : x ≠ a) : (s.putByte c a b).wmByte x = s.wmByte x := by
  by_cases same : x / 4 = a / 4
  · have digit := putDigit_digit_ne (s.word (a / 4)).data (Nat.mod_lt a (by decide : 4 > 0)) (Nat.mod_lt x (by decide : 4 > 0)) b.isLt (by omega)
    apply BitVec.eq_of_toNat_eq
    simpa [State.wmByte, same, State.word_putByte _ _ _ hw, byteOf] using digit
  · simp [State.wmByte, State.word_putByte_ne c a b same]

end Byte

/-! ## A run of bytes -/

theorem State.word_wmStore_of_outside {c w : Nat} {bs : Bytes} {s : State} {a : Nat} (h : 4 * w + 4 ≤ a ∨ a + bs.length ≤ 4 * w) :
    (s.wmStore c a bs).word w = s.word w := by
  induction bs generalizing s a with
  | nil => rfl
  | cons b bs ih =>
    simp only [List.length_cons] at h
    rw [State.wmStore_cons, ih (by omega), State.word_putByte_ne _ _ _ (by omega)]

section Run
variable {c : Nat} {bs : Bytes} {s : State} {a : Nat} (hw : Memory.wf s.rest s.wm = true)
include hw

theorem State.wmByte_wmStore_of_outside {x : Nat} (h : x < a ∨ a + bs.length ≤ x) : (s.wmStore c a bs).wmByte x = s.wmByte x := by
  induction bs generalizing s a with
  | nil => rfl
  | cons b bs ih =>
    simp only [List.length_cons] at h
    rw [State.wmStore_cons, ih (State.putByte_wf _ _ _ hw) (by omega), State.wmByte_putByte_ne _ _ _ hw (by omega)]

theorem State.wmByte_wmStore {i : Nat} (h : i < bs.length) : (s.wmStore c a bs).wmByte (a + i) = bs[i] := by
  induction bs generalizing s a i with
  | nil => exact absurd h (Nat.not_lt_zero i)
  | cons b bs ih =>
    rw [State.wmStore_cons]
    cases i with
    | zero =>
      rw [State.wmByte_wmStore_of_outside (State.putByte_wf _ _ _ hw) (by omega)]
      exact State.wmByte_putByte c a b hw
    | succ i =>
      rw [show a + (i + 1) = a + 1 + i by omega]
      exact ih (State.putByte_wf _ _ _ hw) (Nat.lt_of_succ_lt_succ h)

/-- A word of the stored colour keeps it. -/
theorem State.colour_wmStore_of_colour {w : Nat} (h : (s.word w).colour = c) : ((s.wmStore c a bs).word w).colour = c := by
  induction bs generalizing s a with
  | nil => exact h
  | cons b bs ih =>
    rw [State.wmStore_cons]
    refine ih (State.putByte_wf _ _ _ hw) ?_
    by_cases here : w = a / 4
    · rw [here, State.word_putByte _ _ _ hw]
    · rw [State.word_putByte_ne _ _ _ here, h]

theorem State.colour_wmStore {i : Nat} (h : i < bs.length) : ((s.wmStore c a bs).word ((a + i) / 4)).colour = c := by
  induction bs generalizing s a i with
  | nil => exact absurd h (Nat.not_lt_zero i)
  | cons b bs ih =>
    rw [State.wmStore_cons]
    cases i with
    | zero => exact State.colour_wmStore_of_colour (State.putByte_wf _ _ _ hw) (by rw [Nat.add_zero, State.word_putByte _ _ _ hw])
    | succ i =>
      rw [show a + (i + 1) = a + 1 + i by omega]
      exact ih (State.putByte_wf _ _ _ hw) (Nat.lt_of_succ_lt_succ h)

end Run

/-- Settles O60: a store is its bytes one after another, and one byte changes one digit of one word. -/
theorem workingMemoryReadsBack : Obligations.WorkingMemoryReadsBack := by
  unfold Obligations.WorkingMemoryReadsBack
  refine fun s hw => ⟨fun i w => ⟨State.word_setWord hw i w, fun j => s.word_setWord_ne w, s.setWord_wf i w hw⟩, fun c a bs => ?_⟩
  exact ⟨fun i h => State.wmByte_wmStore hw h, fun x h => State.wmByte_wmStore_of_outside hw h, fun i h => State.colour_wmStore hw h,
    fun w h => State.word_wmStore_of_outside h, s.wmStore_wf c a bs hw⟩

/-! ## After reset -/

/-- The one lane of Table 6.1 that reset lists is lane 23, the spare. -/
theorem State.reset_pkLane {n : Nat} (h : n < 23) : State.reset.pkLane n = PkLane.reset :=
  if_neg (by omega)

theorem State.reset_word (w : Nat) : State.reset.word w = ⟨15, 0⟩ := rfl

/-- Settles O59: the maps that reset leaves empty read as their resets; the shipped regions are checked in their order. -/
theorem resetLeavesSpecValues : Obligations.ResetLeavesSpecValues := by
  unfold Obligations.ResetLeavesSpecValues
  refine ⟨fun n => ⟨rfl, rfl⟩, rfl, fun v => rfl, fun n h => by rw [State.reset_pkLane h]; rfl, rfl, fun n => rfl, rfl, rfl, rfl, fun u => rfl, rfl,
    by decide, by decide, rfl, by decide, State.reset_wf, State.reset_word, rfl⟩

end Sys2Proof.Machine
end

section
/-! # A row that writes one entry is acknowledged (R357, R358) -/

namespace Sys2Proof.Machine

/-- A write that neither acts at once nor goes on the chain waits for the window. -/
theorem State.acceptWrite_of_waits {s : State} {officer : Bool} {key : Nat} {v : DVal} {req : Option (DictReq × Option Nat)} (h : actsElsewhere key = false)
    (stands : s.view.mayStand officer key v = true) : s.acceptWrite officer key v req = s.ackWrite key v req := by
  simp only [actsElsewhere, Bool.or_eq_false_iff, Bool.and_eq_false_imp, decide_eq_false_iff_not, decide_eq_true_eq, Bool.and_eq_true] at h
  obtain ⟨⟨⟨⟨guard, watchdog⟩, k⟩, member⟩, heart⟩ := h
  have notHeart : ¬ (0x8000 ≤ key / 256 ∧ key / 256 < 0xC000 ∧ (key % 256 = 3 ∨ key % 256 = 4 ∨ key % 256 = 5)) := by omega
  cases v with
  | octets b => simp [State.acceptWrite, stands]
  | num n => simp only [State.acceptWrite, stands, State.atOnce, State.replicated, if_neg guard, if_neg watchdog, if_neg k, if_neg member, if_neg notHeart]; rfl

/-- A write that passes every check is accepted (R358). -/
theorem State.rowWrite_of_passes {s : State} {role : Role} {key : Nat} {v : DVal} (h : s.writePasses role key v = true) :
    s.rowWrite true role key v = s.acceptWrite (decide (role = .officer)) key v none ∧ s.view.mayStand (decide (role = .officer)) key v = true := by
  simp only [State.writePasses, Bool.and_eq_true] at h
  obtain ⟨⟨live, judged⟩, stands⟩ := h
  refine ⟨?_, stands⟩
  simp only [State.rowWrite, live, if_true, State.writeEntry]
  split at judged
  · next a ha =>
    simp only [Bool.and_eq_true, decide_eq_true_eq] at judged
    obtain ⟨may, noRefusal⟩ := judged
    simp [ha, may, noRefusal]
  · cases judged

/-- Settles O9: the row makes its one write, which passes and waits. -/
theorem dictionaryRowAcknowledged : Obligations.DictionaryRowAcknowledged := by
  unfold Obligations.DictionaryRowAcknowledged
  intro c role key v s row waits passes
  obtain ⟨accepted, stands⟩ := State.rowWrite_of_passes passes
  rw [exec_of_dictRow row, accepted, State.acceptWrite_of_waits waits stands]
  rfl

end Sys2Proof.Machine
end

section
/-! # What several of the Keeper's rows share: folds that keep a part, traps, numbers of several writes -/

namespace Sys2Proof.Machine

/-- What each step of a fold keeps, the fold keeps. -/
theorem foldl_keeps {α β : Type} {p : State → β} {f : State → α → State} (h : ∀ st x, p (f st x) = p st) (l : List α) (s : State) :
    p (l.foldl f s) = p s := by
  induction l generalizing s with
  | nil => rfl
  | cons x l ih => rw [List.foldl_cons, ih, h]

theorem StopsJobs.keeper {s t : State} (h : StopsJobs s t) : t.keeper = s.keeper := by rw [h.frame]
theorem StopsJobs.wm {s t : State} (h : StopsJobs s t) : t.wm = s.wm := by rw [h.frame]

theorem State.force_stopsJobs (s : State) (id status result : Nat) : StopsJobs s (s.force id status result) := s.updJob_stopsJobs _ _

/-- A trap ends or marks the job that it stops (R291). -/
theorem State.trapJob_stopsJobs (s : State) (id detail : Nat) : StopsJobs s (s.trapJob id detail) := by
  unfold State.trapJob
  split
  · split
    · exact .refl s
    · split
      · exact s.finish_stopsJobs _ _ _ _
      · exact s.force_stopsJobs _ _ _
  · exact .refl s

/-- A trapped job's core is off its context, and of the unit no more than jobs and cores changes. -/
theorem State.trapJob_leaveCore (s : State) (id detail core : Nat) :
    let t := (s.trapJob id detail).leaveCore core
    t.dict = s.dict ∧ t.wm = s.wm ∧ t.keeper = { s.keeper with cores := s.keeper.cores.filter fun c => decide (c.1 ≠ core) } := by
  have h := s.trapJob_stopsJobs id detail
  exact ⟨h.dict, h.wm, by rw [State.leaveCore, h.keeper]⟩

theorem State.count_rising (s : State) (k n : Nat) (h : s.dict.nums.Pairwise fun a b => a.1 < b.1) :
    (s.count k n).dict.nums.Pairwise fun a b => a.1 < b.1 := s.setNum_rising _ _ h

/-- The numbers after one write and one count of two entries. -/
theorem State.num_setNum_count {s : State} {k c v : Nat} (hk : k ≠ c) (rising : s.dict.nums.Pairwise fun a b => a.1 < b.1) :
    ((s.count c).setNum k v).num k = v ∧ ((s.count c).setNum k v).num c = min (topOf c) (s.num c + 1) := by
  refine ⟨State.num_setNum _ _ _ (s.count_rising _ _ rising), ?_⟩
  rw [State.num_setNum_ne _ _ _ _ hk.symm, State.num_count _ _ _ rising]

/-! ## Guard faults (R291) -/

/-- A counted guard fault leaves its count and its record. -/
theorem State.num_count_guardFault {s : State} (cause : Nat) (region second master : Option Nat) (hc : cause < 256)
    (rising : s.dict.nums.Pairwise fun a b => a.1 < b.1) :
    let t := (s.count Key.KPR_GUARD_FAULTS).guardFault cause region second master
    t.num Key.KPR_GUARD_FAULT % 256 = cause ∧ t.num Key.KPR_GUARD_FAULTS = min (topOf Key.KPR_GUARD_FAULTS) (s.num Key.KPR_GUARD_FAULTS + 1) := by
  obtain ⟨record, count⟩ := State.num_setNum_count (s := s) (k := Key.KPR_GUARD_FAULT) (c := Key.KPR_GUARD_FAULTS)
    (v := cause + 256 * region.getD (Config.freeNat s.free % 16) + 4096 * second.getD (Config.freeNat s.free / 16 % 16) +
      65536 * master.getD (Config.freeNat s.free / 256 % 16) + 2 ^ 20 * (s.tick % 2 ^ 44)) (by decide) rising
  refine ⟨?_, count⟩
  exact (congrArg (· % 256) record).trans (by omega)

end Sys2Proof.Machine
end

section
/-! # Uncorrectable words of working memory (R12, R292) -/

namespace Sys2Proof.Machine

/-- The error as every owner meets it: counted, recorded, and told to a scan that has passed the word. -/
def State.noteWmError (s : State) (w : Nat) : State := ((s.count Key.KPR_WM_UE).eventOf 292).chkUncorrectable w

theorem State.chkUncorrectable_eq (s : State) (w : Nat) : s.chkUncorrectable w = { s with chk := (s.chkUncorrectable w).chk } := by
  unfold State.chkUncorrectable
  refine List.foldlRecOn _ _ (motive := fun t : State => t = { s with chk := t.chk }) rfl fun t ht u _ => ?_
  dsimp only
  split
  · exact congrArg (State.setChk · u _) ht
  · exact ht

theorem State.noteWmError_frame (s : State) (w : Nat) :
    s.noteWmError w = { s with dict := (s.count Key.KPR_WM_UE).dict, sil := (s.eventOf 292).sil, chk := (s.noteWmError w).chk } :=
  State.chkUncorrectable_eq _ w

theorem State.noteWmError_word (s : State) (w v : Nat) : (s.noteWmError w).word v = s.word v := by rw [State.noteWmError_frame]; rfl

section Owner
variable {s : State} {w : Nat} (named : w < 2097152)
include named

theorem exec_wmUncorrectable_of_owner {j : Job} (owner : (s.noteWmError w).ownerOf w = some j) :
    exec (.wmUncorrectable w) s = .next ((s.noteWmError w).force j.id stFault 0xF0) := by
  rw [State.noteWmError] at owner ⊢
  simp only [exec, execWmUncorrectable, if_neg (Nat.not_le.mpr named), owner]

/-- A word of no job is its colour's. -/
theorem exec_wmUncorrectable_of_colour (free : (s.noteWmError w).ownerOf w = none) :
    ((s.word w).colour = 0 → exec (.wmUncorrectable w) s = .next ((s.noteWmError w).resetDue 2 14)) ∧
    ((s.word w).colour = 13 → exec (.wmUncorrectable w) s = .next ((s.noteWmError w).resetDue 1 7)) ∧
    ((s.word w).colour = 14 → exec (.wmUncorrectable w) s = .next (((s.noteWmError w).failGroup (s.tick + 2)).failReads (s.tick + 2))) ∧
    ((s.word w).colour ≠ 0 → (s.word w).colour ≠ 13 → (s.word w).colour ≠ 14 →
      exec (.wmUncorrectable w) s = .next ((s.noteWmError w).setWord w Word36.free)) := by
  have colour := congrArg Word36.colour (s.noteWmError_word w w)
  have tick : (s.noteWmError w).tick = s.tick := by rw [State.noteWmError_frame]
  rw [← colour, ← tick]
  rw [State.noteWmError] at free ⊢
  simp only [exec, execWmUncorrectable, if_neg (Nat.not_le.mpr named), free]
  refine ⟨fun h => by simp only [h], fun h => by simp only [h], fun h => by simp only [h], fun keeper firmware vault => ?_⟩
  split
  · next h => exact absurd h keeper
  · next h => exact absurd h firmware
  · next h => exact absurd h vault
  · rfl

end Owner

/-- The vault gives up its group and its reads; its words stay. -/
theorem State.failGroup_failReads (s : State) (due : Nat) :
    let t := (s.failGroup due).failReads due
    t.vault.group = [] ∧ t.vault.reads = [] ∧ t.wm = s.wm := by
  let u := s.failGroup due
  let v : State := { u with vault := { u.vault with reads := [] } }
  have reads : StopsJobs v (u.failReads due) := v.finishAll_stopsJobs (u.vault.reads.flatMap VRead.jobs) stVault due
  have words : u.wm = s.wm := by
    have ended := State.finishAll_stopsJobs (State.endWrites { s with vault := { s.vault with group := [], groupIssued := 0, groupFlushed := false, groupEnded := false } })
      (s.vault.group.filterMap Version.job) stVault due
    exact ended.wm
  refine ⟨?_, ?_, reads.wm.trans words⟩
  · exact (congrArg Vault.group reads.keeps.2.1).trans (s.failGroup_failsGroup due).group
  · exact congrArg Vault.reads reads.keeps.2.1

/-- Settles O22: by the owner of the word, then by its colour. -/
theorem uncorrectableWordByOwner : Obligations.UncorrectableWordByOwner := by
  unfold Obligations.UncorrectableWordByOwner
  refine fun w s => ⟨fun past => exec_wmUncorrectable_of_noSuchWord past s, fun named => ⟨fun j => exec_wmUncorrectable_of_owner named, fun free => ?_⟩⟩
  obtain ⟨ofKeeper, ofFirmware, ofVault, ofNone⟩ := exec_wmUncorrectable_of_colour named free
  refine ⟨ofKeeper, ofFirmware, fun vault => ?_, fun keeper firmware vault wf => ⟨_, ofNone keeper firmware vault, ?_, fun v other => ?_, ?_, ?_⟩⟩
  · obtain ⟨group, reads, words⟩ := (s.noteWmError w).failGroup_failReads (s.tick + 2)
    exact ⟨_, ofVault vault, group, reads, by rw [words, State.noteWmError_frame]⟩
  · refine State.word_setWord ?_ w _
    rw [State.noteWmError_frame]
    exact wf
  · rw [State.word_setWord_ne _ _ other, State.noteWmError_word]
  · rw [State.setWord_jobs, State.noteWmError_frame]
  · rw [State.setWord_rst, State.noteWmError_frame]

end Sys2Proof.Machine
end

section
/-! # The weirs: calls, gateway faults, the Keeper's service (R288, R291, R294 to R297) -/

namespace Sys2Proof.Machine

/-! ## GATEWAY_CALL (R294, R295) -/

theorem exec_gatewayCall_of_queued {core weir addr length : Nat} {direct : Bool} {s : State} (running : s.keeper.coresRunning = true)
    (good : s.gateCause core weir addr length direct = 0) (room : (s.keeper.weirCalls.filter fun c => c.weir == weir).length < 16) :
    exec (.gatewayCall core weir addr length direct) s = .next { s with keeper := { s.keeper with
      weirCalls := s.keeper.weirCalls ++ [⟨weir, core, ((s.coreJob core).map fun j => j.id).getD 0, s.argBytes addr length, addr, false⟩]
      gateReturn := SMap.set 0 core 1 s.keeper.gateReturn } } := by
  simp only [exec, execGatewayCall, running, good, if_neg (Nat.not_le.mpr room)]
  rfl

theorem exec_gatewayCall_of_busy {core weir addr length : Nat} {direct : Bool} {s : State} (running : s.keeper.coresRunning = true)
    (good : s.gateCause core weir addr length direct = 0) (full : 16 ≤ (s.keeper.weirCalls.filter fun c => c.weir == weir).length) :
    exec (.gatewayCall core weir addr length direct) s = .next (s.setReturn core 2) := by
  simp [exec, execGatewayCall, running, good, full]

theorem exec_gatewayCall_of_fault {core weir addr length : Nat} {direct : Bool} {s : State} (running : s.keeper.coresRunning = true)
    (bad : s.gateCause core weir addr length direct ≠ 0) :
    exec (.gatewayCall core weir addr length direct) s = .next (s.gateFault core (s.gateCause core weir addr length direct)) := by
  simp [exec, execGatewayCall, running, bad]

/-- A gateway fault recorded and counted, before its core traps (R295). -/
def State.noteGateFault (s : State) (core cause : Nat) : State :=
  let u := ((s.count Key.KPR_GATE_FAULTS).setNum Key.KPR_LAST_GATE_FAULT (core + 256 * cause + 65536 * (s.tick % 2 ^ 48))).event 0x2503
  { u with
    keeper := { s.keeper with gateFaultTicks := s.keeper.gateFaultTicks ++ [s.tick], gateReturn := SMap.set 0 core 3 s.keeper.gateReturn }
    free := s.free + 1 }

@[simp] theorem State.noteGateFault_keeper (s : State) (core cause : Nat) : (s.noteGateFault core cause).keeper = { s.keeper with
    gateFaultTicks := s.keeper.gateFaultTicks ++ [s.tick], gateReturn := SMap.set 0 core 3 s.keeper.gateReturn } := rfl
@[simp] theorem State.noteGateFault_wm (s : State) (core cause : Nat) : (s.noteGateFault core cause).wm = s.wm := rfl

theorem State.gateFault_of_job {s : State} {core : Nat} {j : Job} (on : s.coreJob core = some j) (cause : Nat) :
    ∃ detail, s.gateFault core cause = ((s.noteGateFault core cause).trapJob j.id detail).leaveCore core := by
  refine ⟨if cause = 3 then 1 else if cause = 4 then 2 else 1 + s.takeNat.1 % 2, ?_⟩
  have same : (s.noteGateFault core cause).coreJob core = some j := on
  unfold State.gateFault
  dsimp only
  split
  · next k h => cases same.symm.trans h; rfl
  · next h => exact absurd (same.symm.trans h) nofun

theorem State.gateFault_of_none {s : State} {core : Nat} (off : s.coreJob core = none) (cause : Nat) : s.gateFault core cause = s.noteGateFault core cause := by
  have same : (s.noteGateFault core cause).coreJob core = none := off
  unfold State.gateFault
  dsimp only
  split
  · next k h => exact absurd (same.symm.trans h) nofun
  · rfl

/-- A gateway fault changes no numbers but its own, no call and no word; its core is off its context. -/
theorem State.gateFault_frame (s : State) (core cause : Nat) :
    let t := s.gateFault core cause
    t.dict = (s.noteGateFault core cause).dict ∧ t.wm = s.wm ∧ t.keeper.weirCalls = s.keeper.weirCalls ∧
      t.keeper.gateFaultTicks = s.keeper.gateFaultTicks ++ [s.tick] ∧ ∀ j, s.coreJob core = some j → ∀ c ∈ t.keeper.cores, c.1 ≠ core := by
  cases on : s.coreJob core with
  | none =>
    rw [State.gateFault_of_none on]
    simp
  | some j =>
    obtain ⟨detail, run⟩ := State.gateFault_of_job on cause
    obtain ⟨dict, wm, keeper⟩ := (s.noteGateFault core cause).trapJob_leaveCore j.id detail core
    rw [run]
    simp only [dict, wm, keeper, State.noteGateFault_wm, State.noteGateFault_keeper, true_and]
    exact fun _ _ c hc => of_decide_eq_true (List.mem_filter.mp hc).2

/-- Settles O24: by the cause that the call meets, then by the calls on its weir. -/
theorem gatewayCallQueuedBusyOrFaulted : Obligations.GatewayCallQueuedBusyOrFaulted := by
  unfold Obligations.GatewayCallQueuedBusyOrFaulted
  refine fun core weir addr length direct s =>
    ⟨fun running good => ⟨exec_gatewayCall_of_queued running good, exec_gatewayCall_of_busy running good⟩, fun running bad rising => ?_, fun still => ?_⟩
  · obtain ⟨dict, wm, calls, ticks, cores⟩ := s.gateFault_frame core (s.gateCause core weir addr length direct)
    obtain ⟨last, faults⟩ := State.num_setNum_count (s := s) (k := Key.KPR_LAST_GATE_FAULT) (c := Key.KPR_GATE_FAULTS)
      (v := core + 256 * s.gateCause core weir addr length direct + 65536 * (s.tick % 2 ^ 48)) (by decide) rising
    exact ⟨_, exec_gatewayCall_of_fault running bad, (State.num_of_dict dict _).trans last, (State.num_of_dict dict _).trans faults, calls, ticks, wm, cores⟩
  · simp [exec, execGatewayCall, still]

/-! ## GATEWAY_FAULT_LIMIT and WEIR_INVALIDATE (R295, R297) -/

/-- A set bit taken out of a number leaves the others. -/
theorem testBit_sub_two_pow {v i : Nat} (set : v.testBit i = true) (j : Nat) :
    (v - 2 ^ i).testBit j = (v.testBit j && decide (j ≠ i)) := by
  have low : v % 2 ^ i < 2 ^ i := Nat.mod_lt _ (Nat.two_pow_pos i)
  have odd : v / 2 ^ i % 2 = 1 := by simpa [Nat.testBit_eq_decide_div_mod_eq] using set
  have half (q : Nat) (h : q % 2 = 1) : (q - 1) / 2 = q / 2 ∧ (q - 1) % 2 = 0 := by omega
  have whole : v = 2 ^ i * (v / 2 ^ i) + v % 2 ^ i := (Nat.div_add_mod v _).symm
  have taken : v - 2 ^ i = 2 ^ i * (v / 2 ^ i - 1) + v % 2 ^ i := by
    obtain ⟨q, hq⟩ : ∃ q, v / 2 ^ i = q + 1 := Nat.exists_eq_succ_of_ne_zero fun zero => by simp [zero] at odd
    rw [hq, Nat.mul_succ] at whole
    rw [hq, Nat.add_sub_cancel]
    omega
  have bitWhole : v.testBit j = if j < i then (v % 2 ^ i).testBit j else (v / 2 ^ i).testBit (j - i) := by
    conv_lhs => rw [whole]
    exact Nat.testBit_two_pow_mul_add _ low _
  rw [taken, Nat.testBit_two_pow_mul_add _ low, bitWhole]
  rcases Nat.lt_trichotomy j i with less | rfl | more
  · simp [less, Nat.ne_of_lt less]
  · simp [Nat.testBit_zero, half _ odd]
  · obtain ⟨k, hk⟩ : ∃ k, j - i = k + 1 := Nat.exists_eq_succ_of_ne_zero (by omega)
    simp [Nat.not_lt.mpr (Nat.le_of_lt more), hk, Nat.testBit_succ, half _ odd, Nat.ne_of_gt more]

/-- KPR_WEIR_VALID with the bit of a weir cleared. -/
def clearBit (v i : Nat) : Nat := if bitOf v i then v - 2 ^ i else v

theorem bitOf_clearBit (v i j : Nat) : bitOf (clearBit v i) j = (bitOf v j && decide (j ≠ i)) := by
  unfold clearBit bitOf
  split
  · next set => exact testBit_sub_two_pow set j
  · next clear =>
    by_cases same : j = i
    · simp [same, Bool.eq_false_iff.mpr clear]
    · simp [same]

/-- Settles O25: the limit by the count of recent faults; the weir's bit and its calls, and no others, go. -/
theorem gatewayFaultLimitAndInvalidate : Obligations.GatewayFaultLimitAndInvalidate := by
  unfold Obligations.GatewayFaultLimitAndInvalidate
  refine fun weir s => ⟨fun reached => ?_, fun few => ?_, fun rising => ?_⟩
  · simp only [exec, execGatewayFaultLimit, if_pos reached]
    rfl
  · simp [exec, execGatewayFaultLimit, Nat.not_le.mpr few]
  · have valid := State.num_setNum s Key.KPR_WEIR_VALID (clearBit (s.num Key.KPR_WEIR_VALID) weir) rising
    refine ⟨_, rfl, ?_, fun w other => ?_, fun c => ?_, rfl, fun k hk => s.num_setNum_ne _ _ _ hk, rfl⟩
    · exact (congrArg (bitOf · weir) valid).trans (by simp [bitOf_clearBit])
    · exact (congrArg (bitOf · w) valid).trans (by simp [bitOf_clearBit, other])
    · simp

/-! ## KEEPER_CALL_SERVE (R288, R296) -/

/-- A byte of a result is stored where the word has the caller's colour. -/
def State.storeWhere (colour addr : Nat) (s : State) (x : Byte × Nat) : State :=
  if (s.word ((addr + x.2) / 4)).colour = colour then s.wmStore colour (addr + x.2) [x.1] else s

theorem State.wmStore_frame (s : State) (c a : Nat) (bs : Bytes) : s.wmStore c a bs = { s with wm := (s.wmStore c a bs).wm } := by
  induction bs generalizing s a with
  | nil => rfl
  | cons b bs ih =>
    rw [State.wmStore_cons, ih]
    rfl

theorem State.storeWhere_frame (colour addr : Nat) (s : State) (x : Byte × Nat) :
    s.storeWhere colour addr x = { s with wm := (s.storeWhere colour addr x).wm } := by
  unfold State.storeWhere
  split
  · exact State.wmStore_frame _ _ _ _
  · rfl

theorem State.storeWhere_word {colour addr : Nat} {s : State} {i : Nat} (other : (s.word i).colour ≠ colour) (x : Byte × Nat) :
    (s.storeWhere colour addr x).word i = s.word i := by
  unfold State.storeWhere
  split
  · next fits =>
    rw [State.wmStore_cons]
    exact State.word_putByte_ne _ _ _ fun here => other (here ▸ fits)
  · rfl

/-- The bytes of a result, where they fit. -/
def State.storeAll (s : State) (colour addr : Nat) (result : Bytes) : State := result.zipIdx.foldl (State.storeWhere colour addr) s

theorem State.storeAll_frame (s : State) (colour addr : Nat) (result : Bytes) :
    s.storeAll colour addr result = { s with wm := (s.storeAll colour addr result).wm } := by
  refine List.foldlRecOn _ _ (motive := fun t : State => t = { s with wm := t.wm }) rfl fun t ht x _ => ?_
  rw [State.storeWhere_frame, ht]

theorem State.storeAll_word {s : State} {colour i : Nat} (other : (s.word i).colour ≠ colour) (addr : Nat) (result : Bytes) :
    (s.storeAll colour addr result).word i = s.word i :=
  List.foldlRecOn _ _ (motive := fun t : State => t.word i = s.word i) rfl fun _ ht x _ => (State.storeWhere_word (by rwa [ht]) x).trans ht

/-- The Keeper's answer to a call, before its result is written. -/
def State.answered (s : State) (c : WeirCall) (rest : List WeirCall) (result : Bytes) : State :=
  { s with keeper := { s.keeper with weirCalls := rest, completions := s.keeper.completions ++ [(c.core, c.weir, 1, result)] } }

/-- A result all of whose words have the caller's colour is written; else that counts as a colour fault. -/
theorem State.writeResult_eq (s : State) (colour addr : Nat) (result : Bytes) :
    s.writeResult colour addr result =
      if ∀ i < result.length, (s.word ((addr + i) / 4)).colour = colour then s.storeAll colour addr result
      else ((s.storeAll colour addr result).count Key.KPR_COLOUR_FAULTS).event 0x2504 := by
  unfold State.writeResult
  simp only [List.all_eq_true, List.mem_range, decide_eq_true_eq]
  rfl

/-- One call served: the first whose context lives. -/
theorem exec_keeperCallServe_of_cons {result : Bytes} {s : State} {c : WeirCall} {rest : List WeirCall} (running : s.keeper.running = true)
    (free : s.keeper.haltSecure = false) (live : s.keeper.weirCalls.filter s.callLives = c :: rest) :
    exec (.keeperCallServe result) s =
      .next ((s.answered c rest (result.take 512)).writeResult (((s.job? c.job).map fun j => j.colour).getD 13) c.addr (result.take 512)) := by
  simp [exec, execKeeperCallServe, running, free, live, State.answered]

theorem State.answered_writeResult (s : State) (c : WeirCall) (rest : List WeirCall) (result : Bytes) (colour : Nat) :
    let t := (s.answered c rest result).writeResult colour c.addr result
    t.keeper = (s.answered c rest result).keeper ∧
      (∀ i, (s.word i).colour ≠ colour → t.word i = s.word i) ∧
      ((∀ i < result.length, (s.word ((c.addr + i) / 4)).colour = colour) → t = { s with keeper := t.keeper, wm := t.wm }) ∧
      ((∃ i < result.length, (s.word ((c.addr + i) / 4)).colour ≠ colour) → t.dict = (s.count Key.KPR_COLOUR_FAULTS).dict ∧
        t = { s with keeper := t.keeper, wm := t.wm, dict := t.dict, sil := t.sil }) := by
  have frame := (s.answered c rest result).storeAll_frame colour c.addr result
  have word (i : Nat) (other : (s.word i).colour ≠ colour) : ((s.answered c rest result).storeAll colour c.addr result).word i = s.word i :=
    State.storeAll_word (s := s.answered c rest result) other _ _
  dsimp only
  rw [State.writeResult_eq]
  split
  · next fits =>
    refine ⟨by rw [frame], word, fun _ => by rw [frame]; rfl, fun ⟨i, hi, other⟩ => absurd (fits i hi) other⟩
  · next unfit =>
    refine ⟨by rw [frame]; rfl, word, fun fits => absurd fits unfit, fun _ => ⟨?_, ?_⟩⟩
    · rw [frame]; rfl
    · rw [frame]; rfl

/-! ## COLOUR_FAULT (R288, R291) -/

theorem exec_colourFault_of_colour (core id : Nat) (s : State) :
    exec (.colourFault core id false) s = .next ((((s.count Key.KPR_COLOUR_FAULTS).event 0x2504).trapJob id 1).leaveCore core) := rfl

theorem exec_colourFault_of_guard (core id : Nat) (s : State) : exec (.colourFault core id true) s =
    .next ((((s.count Key.KPR_GUARD_FAULTS).guardFault 1 none (some 0) (some 0)).trapJob id 2).leaveCore core) := rfl

/-- Settles O26: one call by what `State.writeResult` can do; a fault by its record and the trap. -/
theorem oldestCallServedAndColourFaults : Obligations.OldestCallServedAndColourFaults := by
  unfold Obligations.OldestCallServedAndColourFaults
  refine ⟨fun result s c rest running free live => ?_, fun result s running free none => ?_, fun result s still => ?_, fun core id s rising => ⟨?_, ?_⟩⟩
  · obtain ⟨keeper, words, fits, unfit⟩ := s.answered_writeResult c rest (result.take 512) (((s.job? c.job).map fun j => j.colour).getD 13)
    exact ⟨_, exec_keeperCallServe_of_cons running free live, by rw [keeper]; rfl, by rw [keeper]; rfl, words, fits, unfit⟩
  · simp [exec, execKeeperCallServe, running, free, none]
  · rcases still with still | still <;> simp [exec, execKeeperCallServe, still]
  · obtain ⟨dict, wm, keeper⟩ := ((s.count Key.KPR_COLOUR_FAULTS).event 0x2504).trapJob_leaveCore id 1 core
    refine ⟨_, exec_colourFault_of_colour core id s, wm, by rw [keeper]; rfl, ?_, fun k hk => ?_⟩
    · exact (State.num_of_dict dict _).trans (s.num_count _ _ rising)
    · exact (State.num_of_dict dict _).trans (s.num_count_ne _ _ _ hk)
  · obtain ⟨dict, wm, keeper⟩ := ((s.count Key.KPR_GUARD_FAULTS).guardFault 1 none (some 0) (some 0)).trapJob_leaveCore id 2 core
    obtain ⟨record, count⟩ := State.num_count_guardFault (s := s) 1 none (some 0) (some 0) (by decide) rising
    refine ⟨_, exec_colourFault_of_guard core id s, wm, by rw [keeper]; rfl, (State.num_of_dict dict _).trans count, ?_⟩
    exact (congrArg (· % 256) (State.num_of_dict dict _)).trans record

end Sys2Proof.Machine
end

section
/-! # The region guard goes off and comes back; the debug master (R285, R299 to R302, R307, R308) -/

namespace Sys2Proof.Machine

/-! ## Guard faults -/

section Frame
variable (s : State) (cause : Nat) (region second master : Option Nat)
@[simp] theorem State.guardFault_keeper : (s.guardFault cause region second master).keeper = s.keeper := rfl
@[simp] theorem State.guardFault_wm : (s.guardFault cause region second master).wm = s.wm := rfl
@[simp] theorem State.guardFault_jobs : (s.guardFault cause region second master).jobs = s.jobs := rfl
@[simp] theorem State.guardFault_sent : (s.guardFault cause region second master).sent = s.sent := rfl
@[simp] theorem State.guardFault_rst : (s.guardFault cause region second master).rst = s.rst := rfl
@[simp] theorem State.guardFault_free : (s.guardFault cause region second master).free = s.free + 1 := rfl
end Frame

theorem State.guardFault_rising {s : State} (cause : Nat) (region second master : Option Nat) (rising : s.dict.nums.Pairwise fun a b => a.1 < b.1) :
    (s.guardFault cause region second master).dict.nums.Pairwise fun a b => a.1 < b.1 := s.takeNat.2.setNum_rising _ _ rising

/-- A guard fault's record tells its cause. -/
theorem State.num_guardFault {s : State} {cause : Nat} (region second master : Option Nat) (hc : cause < 256)
    (rising : s.dict.nums.Pairwise fun a b => a.1 < b.1) : (s.guardFault cause region second master).num Key.KPR_GUARD_FAULT % 256 = cause :=
  (congrArg (· % 256) (s.takeNat.2.num_setNum _ _ rising)).trans (by omega)

/-! ## GUARD_DISABLE and GUARD_HOLD_LIMIT (R299, R300) -/

/-- The guard on again: the new rule set where it does not overlap, else the one that stood. -/
theorem State.guardOnAgain_frame (s : State) :
    let t := s.guardOnAgain
    t.keeper.guardOn = true ∧ t.keeper.regions = (if (overlapOf s.keeper.regionsNew).isSome then s.keeper.guardSaved else s.keeper.regionsNew) ∧
      t.keeper.held = s.keeper.held ∧ t.wm = s.wm ∧ t.jobs = s.jobs ∧
      (s.dict.nums.Pairwise (fun a b => a.1 < b.1) → t.dict.nums.Pairwise fun a b => a.1 < b.1) := by
  unfold State.guardOnAgain
  split
  · next o h => exact ⟨by simp, by simp [h], by simp, by simp, by simp, State.guardFault_rising _ _ _ _⟩
  · next h => simp [h]

theorem State.serveHeld_of_none {s : State} (none : s.keeper.held = []) : s.serveHeld = s := by
  rw [State.serveHeld, none]
  exact congrArg (fun held => { s with keeper := { s.keeper with held := held } }) none.symm

/-- Settles O27: each change by whether the guard is on; at the hold limit by whether the new rules overlap. -/
theorem regionGuardChanges : Obligations.RegionGuardChanges := by
  unfold Obligations.RegionGuardChanges
  refine fun s => ⟨fun on lane => ?_, fun on window => ?_, fun off => ?_, fun on => ⟨?_, ?_⟩, fun off running none rising => ?_, fun still => ?_⟩
  · simp [exec, execGuardDisable, on, lane, State.guardOff]
  · simp [exec, execGuardDisable, on, window]
  · simp [exec, execGuardDisable, off]
  · simp [exec, execGuardEnable, on]
  · simp [exec, execGuardHoldLimit, State.guardLimit, on]
  · obtain ⟨guardOn, regions, held, wm, jobs, risen⟩ := s.guardOnAgain_frame
    let o := overlapOf s.keeper.regionsNew
    have run : exec .guardHoldLimit s = .next (s.guardOnAgain.guardFault 4 (o.map fun x => x.1) (o.map fun x => x.2) .none) := by
      have served := State.serveHeld_of_none (s := s.guardOnAgain.guardFault 4 (o.map fun x => x.1) (o.map fun x => x.2) .none) (by simpa using held.trans none)
      simp only [exec, execGuardHoldLimit, State.guardLimit, off, running]
      exact congrArg _ served
    exact ⟨_, run, by simpa using guardOn, by simpa using regions, State.num_guardFault _ _ _ (by decide) (risen rising), by simpa using wm, by simpa using jobs⟩
  · simp [exec, execGuardHoldLimit, State.guardLimit, still]

/-! ## DEBUG_MASTER_ACCESS (R301, R307) -/

theorem exec_debugMasterAccess_of_guardOff {s : State} (off : s.keeper.guardOn = false) (write : Bool) (word data : Nat) (allBits : Bool) :
    exec (.debugMasterAccess write word data allBits) s =
      .next { s with keeper := { s.keeper with held := s.keeper.held ++ [.debugMasterAccess write word data allBits] } } := by
  simp [exec, execDebugMasterAccess, State.guarded, off]

theorem exec_debugMasterAccess_of_guardOn {s : State} (on : s.keeper.guardOn = true) (write : Bool) (word data : Nat) (allBits : Bool) :
    exec (.debugMasterAccess write word data allBits) s = .next (s.debugAccess write word data allBits) := by
  simp [exec, execDebugMasterAccess, State.guarded, on]

/-- The record of an access that the region `n` refuses. -/
def State.debugFault (s : State) (cause n : Nat) : State := (s.count Key.KPR_GUARD_FAULTS).guardFault cause (some n) (some 0) (some 4)

theorem State.num_debugFault {s : State} {cause : Nat} (n : Nat) (hc : cause < 256) (rising : s.dict.nums.Pairwise fun a b => a.1 < b.1) :
    (s.debugFault cause n).num Key.KPR_GUARD_FAULT % 256 = cause := State.num_guardFault _ _ _ hc (s.count_rising _ _ rising)

section Frame
variable (s : State) (cause n : Nat)
@[simp] theorem State.debugFault_wm : (s.debugFault cause n).wm = s.wm := by simp [State.debugFault]
@[simp] theorem State.debugFault_sent : (s.debugFault cause n).sent = s.sent := by simp [State.debugFault]
@[simp] theorem State.debugFault_free : (s.debugFault cause n).free = s.free + 1 := by simp [State.debugFault]
@[simp] theorem State.debugFault_word (w : Nat) : (s.debugFault cause n).word w = s.word w := rfl
@[simp] theorem State.debugFault_debugRight (b : Nat) : (s.debugFault cause n).debugRight b = s.debugRight b := rfl
end Frame

/-- What a read that is not permitted shows of a word of this colour: the poison word, else a free word. -/
def deniedWord (colour : Nat) (secureRight : Bool) (free : Nat) : Nat := if colour = 0 ∧ !secureRight then poison else Config.freeNat free % 2 ^ 36

theorem State.debugDenied_shows (s : State) (word : Nat) :
    let t := s.debugDenied word
    t.sent = s.sent ++ [.debug (deniedWord (s.word word).colour (s.debugRight 2) s.free)] ∧ t.wm = s.wm := by
  unfold State.debugDenied deniedWord
  split <;> exact ⟨rfl, rfl⟩

/-- A debug master may see a word of this colour (R307). -/
def State.maySee (s : State) (colour : Nat) : Bool := s.debugRight (if colour = 0 then 2 else 0)

/-- No unlocked region lets the debug master at the address by this bit of its permissions. -/
def State.noRegionAllows (s : State) (word bit : Nat) : Prop :=
  ∀ n, regionAt s.keeper.regions (4 * word) = some n → (s.region n).lock = true ∨ bitOf (s.region n).perm bit = false

/-- What a read that is not permitted answers: by the region, then by the colour; never by the data. -/
def State.deniedRead (s : State) (word colour : Nat) : Nat :=
  match regionAt s.keeper.regions (4 * word) with
  | none => deniedWord colour (s.debugRight 2) s.free
  | some n =>
    if (s.region n).lock then poison
    else deniedWord colour (s.debugRight 2) (if bitOf (s.region n).perm 8 then s.free else s.free + 1)

section Access
variable {s : State} {word : Nat}

/-- By the region that the address matches (R301). -/
theorem State.debugAccess_of_denied_read (denied : s.noRegionAllows word 8 ∨ s.maySee (s.word word).colour = false) (data : Nat) (allBits : Bool) :
    let t := s.debugAccess false word data allBits
    t.sent = s.sent ++ [.debug (s.deniedRead word (s.word word).colour)] ∧ t.wm = s.wm := by
  unfold State.debugAccess State.deniedRead
  cases at_ : regionAt s.keeper.regions (4 * word) with
  | none => exact s.debugDenied_shows word
  | some n =>
    cases lock : (s.region n).lock
    case true => simp [lock]
    cases perm : bitOf (s.region n).perm 8
    case false =>
      have shows := (s.debugFault 1 n).debugDenied_shows word
      simp only [State.debugFault_word, State.debugFault_debugRight, State.debugFault_free, State.debugFault_sent, State.debugFault_wm] at shows
      simpa [lock, perm, State.debugFault] using shows
    have blind : s.debugRight (if (s.word word).colour = 0 then 2 else 0) = false := by
      rcases denied with region | right
      · simpa [lock, perm] using region n at_
      · exact right
    simpa [lock, perm, blind] using s.debugDenied_shows word

theorem State.debugAccess_of_locked {n : Nat} (at_ : regionAt s.keeper.regions (4 * word) = some n) (lock : (s.region n).lock = true) (data : Nat) (allBits : Bool) :
    s.debugAccess false word data allBits = (s.debugFault 2 n).emit (.debug poison) ∧ s.debugAccess true word data allBits = s.debugFault 2 n := by
  simp [State.debugAccess, at_, lock, State.debugFault]

theorem State.debugAccess_of_allowed_read {n : Nat} (at_ : regionAt s.keeper.regions (4 * word) = some n) (lock : (s.region n).lock = false)
    (perm : bitOf (s.region n).perm 8 = true) (right : s.maySee (s.word word).colour = true) (data : Nat) (allBits : Bool) :
    s.debugAccess false word data allBits = s.emit (.debug ((s.word word).colour * 2 ^ 32 + (s.word word).data)) := by
  simp only [State.maySee] at right
  simp [State.debugAccess, at_, lock, perm, right]

theorem State.debugAccess_of_allowed_write {n : Nat} (at_ : regionAt s.keeper.regions (4 * word) = some n) (lock : (s.region n).lock = false)
    (perm : bitOf (s.region n).perm 9 = true) (right : s.debugRight 1 = true) (data : Nat) (allBits : Bool) :
    s.debugAccess true word data allBits = s.setWord word ⟨if allBits then data / 2 ^ 32 % 16 else (s.word word).colour, data % 2 ^ 32⟩ := by
  simp [State.debugAccess, at_, lock, perm, right]

/-- A write sends nothing, and stores nothing where it is not permitted. -/
theorem State.debugAccess_write (s : State) (word data : Nat) (allBits : Bool) :
    let t := s.debugAccess true word data allBits
    t.sent = s.sent ∧ (s.noRegionAllows word 9 ∨ s.debugRight 1 = false → t.wm = s.wm) := by
  cases at_ : regionAt s.keeper.regions (4 * word) with
  | none => simp [State.debugAccess, at_]
  | some n =>
    cases lock : (s.region n).lock
    case true => rw [(State.debugAccess_of_locked at_ lock data allBits).2]; simp
    cases perm : bitOf (s.region n).perm 9
    case false => simp [State.debugAccess, at_, lock, perm]
    cases right : s.debugRight 1
    case false => simp [State.debugAccess, at_, lock, perm, right]
    rw [State.debugAccess_of_allowed_write at_ lock perm right]
    refine ⟨rfl, fun denied => ?_⟩
    rcases denied with region | blind
    · exact absurd (region n at_) (by simp [lock, perm])
    · exact nomatch blind

/-- A word of colour 0 is not shown without the secure right (R301). -/
theorem State.deniedRead_of_secure (blind : s.debugRight 2 = false) : s.deniedRead word 0 = poison := by
  unfold State.deniedRead deniedWord
  split
  · simp [blind]
  · split <;> simp [blind]

end Access

/-- Settles O29: by the guard, the region and its lock, the permission, the right. -/
theorem debugMasterAccess : Obligations.DebugMasterAccess := by
  unfold Obligations.DebugMasterAccess
  refine ⟨fun write word data allBits s off => exec_debugMasterAccess_of_guardOff off write word data allBits, fun word data allBits s on rising => ?_⟩
  simp only [exec_debugMasterAccess_of_guardOn on]
  refine ⟨fun secure blind => ?_, fun n at_ => ⟨fun lock => ?_, fun lock perm right => ?_, fun lock perm right => ⟨?_, ?_⟩⟩, ?_, fun denied => ?_⟩
  · obtain ⟨sent, wm⟩ := State.debugAccess_of_denied_read (s := s) (word := word) (.inr (by simpa [State.maySee, secure] using blind)) data allBits
    rw [secure, State.deniedRead_of_secure blind] at sent
    exact ⟨_, rfl, sent, wm⟩
  · obtain ⟨read, write⟩ := State.debugAccess_of_locked at_ lock data allBits
    rw [read, write]
    have cause := State.num_debugFault (s := s) (cause := 2) n (by decide) rising
    exact ⟨⟨_, rfl, by simp [poison], by simp, cause⟩, ⟨_, rfl, by simp, by simp, cause⟩⟩
  · rw [State.debugAccess_of_allowed_read at_ lock perm right]
    rfl
  · rw [State.debugAccess_of_allowed_write at_ lock perm right]
    rfl
  · rw [State.debugAccess_of_allowed_write at_ lock perm right]
    rfl
  · exact ⟨_, rfl, s.debugAccess_write word data allBits⟩
  · obtain ⟨sent, wm⟩ := State.debugAccess_of_denied_read denied data allBits
    refine ⟨_, _, rfl, sent, wm, fun wf d => ?_⟩
    let u := s.setWord word ⟨(s.word word).colour, d⟩
    have colour : (u.word word).colour = (s.word word).colour := by rw [State.word_setWord wf]
    have alike : u.noRegionAllows word 8 ∨ u.maySee (u.word word).colour = false := by rw [colour]; exact denied
    obtain ⟨shown, -⟩ := State.debugAccess_of_denied_read alike data allBits
    refine ⟨_, exec_debugMasterAccess_of_guardOn (s := u) on false word data allBits, shown.trans ?_⟩
    rw [colour]
    rfl

/-! ## Halts, resumes and the tap (R285, R308) -/

/-- Settles O30: each row by its one condition. -/
theorem debugHaltsAndTap : Obligations.DebugHaltsAndTap := by
  unfold Obligations.DebugHaltsAndTap
  refine fun source s => ⟨fun right => ?_, fun right => ?_, fun none => ?_, fun none => ?_, rfl, rfl, fun life grant right healthy free0 free1 => ?_, fun fails => ?_⟩
  · simp [exec, execDebugHalt, right]
  · simp [exec, execDebugHalt, right]
  · simp [exec, execDebugHalt, none]
  · simp [exec, execDebugHalt, none]
  · exact if_pos ⟨life, grant, right, healthy, free0, free1⟩
  · refine if_neg ?_
    rintro ⟨life, grant, right, healthy, free0, free1⟩
    rcases fails with ⟨maker, returned⟩ | none | ⟨normal, secure⟩ | sick | tapped | tapped
    · exact life.elim maker returned
    · simp [none] at grant
    · simp [normal, secure] at right
    · exact sick healthy
    · exact free0 tapped
    · exact free1 tapped

end Sys2Proof.Machine
end

section
/-! # Hand-over of shared blocks, gated lanes, watchdogs (R303 to R306, R309 to R311, R442) -/

namespace Sys2Proof.Machine

/-! ## Blocks and lanes kept by number -/

theorem State.block_setBlock {s : State} (wf : SMap.wf Block.reset s.keeper.blocks = true) (n : Nat) (x : Block) : (s.setBlock n x).block n = x :=
  SMap.get_set _ _ _ _ wf

theorem State.symLane_setSym {s : State} (wf : SMap.wf SymLane.reset s.lanes.sym = true) (n : Nat) (x : SymLane) : (s.setSym n x).symLane n = x :=
  SMap.get_set _ _ _ _ wf

theorem State.setBlock_wf {s : State} (wf : SMap.wf Block.reset s.keeper.blocks = true) (n : Nat) (x : Block) :
    SMap.wf Block.reset (s.setBlock n x).keeper.blocks = true := SMap.wf_set _ _ _ _ wf

/-! ## Hand-over (R303 to R306) -/

theorem State.blockLane_of_low {s : State} {b : Nat} (h : b ≤ 4) : s.blockLane b = none := if_neg (by omega)

/-- A request of a block that the Keeper may take (R304). -/
theorem exec_keeperHandoverRequest_of_free {s : State} {b : Nat} (may : b ≤ 4 ∨ (b ≤ 6 ∧ b - 5 < s.num Key.KPR_SYM_RESERVE ∧ (s.blockLane b).isSome))
    (owned : (s.block b).keeperOwns = false) (free : (s.block b).handDue = none) :
    exec (.keeperHandoverRequest b) s =
      .next (s.setBlock b { s.block b with handDue := some (s.tick + 2, true), normalAsks := false, lane := s.blockLane b }) := by
  simp only [exec, execKeeperHandoverRequest, owned, free]
  exact if_pos (by simpa [and_assoc] using may)

theorem exec_keeperHandoverRequest_of_refused {s : State} {b : Nat} (h : (s.block b).keeperOwns = true ∨ (s.block b).handDue.isSome ∨ 6 < b) :
    exec (.keeperHandoverRequest b) s = .next s := by
  simp only [exec, execKeeperHandoverRequest]
  refine if_neg ?_
  simp only [Bool.and_eq_true, Bool.or_eq_true, decide_eq_true_eq, Bool.not_eq_true', Option.isNone_iff_eq_none]
  rintro ⟨⟨may, owned⟩, free⟩
  rcases h with own | due | past
  · simp [own] at owned
  · simp [free] at due
  · omega

section Held
variable {s : State} {b : Nat}

theorem exec_handover_of_held (owned : (s.block b).keeperOwns = true) (free : (s.block b).handDue = none) :
    exec (.keeperHandoverRelease b) s = .next (s.setBlock b { s.block b with hand := .releasing, handDue := some (s.tick + 1, false) }) ∧
      exec (.normalHandoverRequest b) s = .next (s.setBlock b { s.block b with normalAsks := true }) := by
  simp [exec, execKeeperHandoverRelease, execNormalHandoverRequest, owned, free]

theorem exec_handover_of_not_held (h : (s.block b).keeperOwns = false ∨ (s.block b).handDue.isSome) :
    exec (.keeperHandoverRelease b) s = .next s ∧ exec (.normalHandoverRequest b) s = .next s := by
  have closed : ((s.block b).keeperOwns && (s.block b).handDue.isNone) = false := by
    rcases h with none | due
    · simp [none]
    · simp [Option.isNone_eq_false_iff.mpr due]
  simp [exec, execKeeperHandoverRelease, execNormalHandoverRequest, closed]

end Held

/-! ## LANE_GATE_DRAINED (R442) -/

/-- A block with its gate closed. -/
def Block.gatedNow (x : Block) : Block := { x with gated := true, gateDraining := false, deferred := false }

/-- The lane of a block that has one is gated with it. -/
theorem State.gateNow_of_lane {s : State} {b l : Nat} (sym : b = 5 ∨ b = 6) (lane : (s.block b).lane = some l)
    (wf : SMap.wf Block.reset s.keeper.blocks = true) :
    s.gateNow b = ((s.setBlock b (s.block b).gatedNow).updBlock b fun x => { x with lane := some l }).updSym l fun y =>
      { y with gated := true, draining := false } := by
  have same : (s.setBlock b (s.block b).gatedNow).blockLane b = some l := by
    rw [State.blockLane, if_pos sym, State.block_setBlock wf]
    simp [Block.gatedNow, lane]
  unfold State.gateNow
  rw [if_neg (by omega)]
  split
  · next k h => cases same.symm.trans h; rfl
  · next h => exact absurd (same.symm.trans h) nofun

theorem exec_laneGateDrained_of_drained {s : State} {b l : Nat} (lane : (s.block b).lane = some l) (draining : (s.block b).gateDraining = true)
    (running : (s.symLane l).running = none) (parked : (s.symLane l).parked = []) : exec (.laneGateDrained b) s = .next (s.gateNow b) := by
  simp [exec, execLaneGateDrained, lane, draining, running, parked]

theorem exec_laneGateDrained_of_not_draining {s : State} {b : Nat} (h : (s.block b).lane = none ∨ (s.block b).gateDraining = false) :
    exec (.laneGateDrained b) s = .next s := by
  simp only [exec, execLaneGateDrained]
  rcases h with none | still
  · rw [none]
  · split <;> simp [still]

/-- Settles O31: by who holds the block and what is due; the gate by the lane that the block names. -/
theorem handOverOfBlocks : Obligations.HandOverOfBlocks := by
  unfold Obligations.HandOverOfBlocks
  refine fun b s => ⟨fun low owned free => ?_, fun sym reserve owned free l lane => ?_, exec_keeperHandoverRequest_of_refused, fun owned free => ?_,
    exec_handover_of_not_held, fun l sym lane draining running parked wfSym wfBlock => ?_, exec_laneGateDrained_of_not_draining⟩
  · rw [exec_keeperHandoverRequest_of_free (.inl low) owned free, State.blockLane_of_low low]
    rfl
  · rw [exec_keeperHandoverRequest_of_free (.inr ⟨by omega, reserve, by simp [lane]⟩) owned free, lane]
    rfl
  · exact exec_handover_of_held owned free
  · refine ⟨_, exec_laneGateDrained_of_drained lane draining running parked, ?_⟩
    rw [State.gateNow_of_lane sym lane wfBlock]
    refine ⟨?_, State.symLane_setSym wfSym l _, rfl⟩
    refine (State.block_setBlock (State.setBlock_wf wfBlock b _) b _).trans ?_
    rw [State.block_setBlock wfBlock]
    simp [Block.gatedNow, ← lane]

/-! ## Internal reset sources (R426) -/

/-- A reset that becomes due is at least of its reach, and its bit is set. -/
theorem State.resetDue_due (s : State) (reach bit : Nat) :
    reach ≤ (s.resetDue reach bit).rst.dueReach ∧ bitOf (s.resetDue reach bit).rst.dueCauses bit = true := by
  simp [State.resetDue, bitOf, Nat.testBit_or, Nat.testBit_two_pow_self]

/-! ## Watchdogs (R309 to R311) -/

theorem mem_insertAsc {a b : Nat} {l : List Nat} : b ∈ insertAsc a l ↔ b = a ∨ b ∈ l := by
  induction l with
  | nil => simp [insertAsc]
  | cons x l ih =>
    simp only [insertAsc]
    split
    · simp
    · split
      · next same => simp [same]
      · simp only [List.mem_cons, ih]
        tauto

/-- A secure expiry recorded: the watchdog is disarmed until it is set up again (R310). -/
def State.noteSwdtExpiry (s : State) : State :=
  { s with keeper := { s.keeper with
      swdtExpiries := s.recentExpiries (s.keeper.swdtExpiries ++ [s.rst.seconds]), swdtUs := 0, swdtArmed := false } }.event 0x2501

/-- A normal expiry recorded (R311). -/
def State.noteNwdtExpiry (s : State) : State :=
  { s with keeper := { s.keeper with nwdtExpiries := s.recentExpiries (s.keeper.nwdtExpiries ++ [s.rst.seconds]), nwdtUs := 0 } }.event 0x2502

section Watchdogs
variable {s : State}

theorem exec_swdtExpiry_of_expired (armed : s.keeper.swdtArmed = true) (free : s.keeper.haltSecure = false)
    (late : 1000 * s.keeper.swdtPeriodNow ≤ s.keeper.swdtUs) : exec .swdtExpiry s = .next (s.noteSwdtExpiry.resetDue 2 9) :=
  if_pos (by simp [armed, free, late])

theorem exec_swdtExpiry_of_not_expired (h : s.keeper.swdtArmed = false ∨ s.keeper.haltSecure = true ∨ s.keeper.swdtUs < 1000 * s.keeper.swdtPeriodNow) :
    exec .swdtExpiry s = .next s := by
  refine if_neg ?_
  simp only [Bool.and_eq_true, Bool.not_eq_true', decide_eq_true_eq]
  rintro ⟨⟨armed, free⟩, late⟩
  rcases h with off | halted | early
  · simp [off] at armed
  · simp [halted] at free
  · omega

/-- An expiry of this second is one of the last 600 seconds. -/
theorem State.mem_recentExpiries (s : State) (l : List Nat) : s.rst.seconds ∈ s.recentExpiries (l ++ [s.rst.seconds]) := by
  simp [State.recentExpiries]

theorem State.length_recentExpiries (s : State) (l : List Nat) :
    (s.recentExpiries (l ++ [s.rst.seconds])).length = (l.filter fun t => decide (s.rst.seconds < t + 600)).length + 1 := by
  simp [State.recentExpiries]

theorem exec_nwdtExpiry_of_expired (running : s.keeper.coresRunning = true) (free : s.keeper.haltNormal = false)
    (late : 1000 * s.num Key.KPR_NWDT_PERIOD ≤ s.keeper.nwdtUs) :
    exec .nwdtExpiry s = .next (if 2 ≤ (s.keeper.nwdtExpiries.filter fun t => decide (s.rst.seconds < t + 600)).length
      then s.noteNwdtExpiry.resetDue 2 13 else s.noteNwdtExpiry.resetDue 1 4) := by
  have third : 3 ≤ (s.recentExpiries (s.keeper.nwdtExpiries ++ [s.rst.seconds])).length ↔
      2 ≤ (s.keeper.nwdtExpiries.filter fun t => decide (s.rst.seconds < t + 600)).length := by rw [s.length_recentExpiries]; omega
  exact (if_pos (by simp [running, free, late])).trans (congrArg _ (if_congr third rfl rfl))

theorem exec_nwdtExpiry_of_not_expired
    (h : s.keeper.coresRunning = false ∨ s.keeper.haltNormal = true ∨ s.keeper.nwdtUs < 1000 * s.num Key.KPR_NWDT_PERIOD) :
    exec .nwdtExpiry s = .next s := by
  refine if_neg ?_
  simp only [Bool.and_eq_true, Bool.not_eq_true', decide_eq_true_eq]
  rintro ⟨⟨running, free⟩, late⟩
  rcases h with still | halted | early
  · simp [still] at running
  · simp [halted] at free
  · omega

theorem all_checked_iff {core : Nat} {l : List Nat} :
    ((List.range 8).all fun n => (insertAsc core l).contains n) = true ↔ ∀ n < 8, n = core ∨ n ∈ l := by
  simp [mem_insertAsc]

theorem exec_nwdtCheckin_of_last {core : Nat} (running : s.keeper.coresRunning = true) (free : s.keeper.haltNormal = false)
    (all : ∀ n < 8, n = core ∨ n ∈ s.keeper.checkins) :
    exec (.nwdtCheckin core) s = .next { s with keeper := { s.keeper with checkins := [], nwdtUs := 0 } } := by
  simp only [exec, execNwdtCheckin, running, free]
  exact if_pos (all_checked_iff.mpr all)

theorem exec_nwdtCheckin_of_not_last {core n : Nat} (running : s.keeper.coresRunning = true) (free : s.keeper.haltNormal = false)
    (core8 : n < 8) (other : n ≠ core) (missing : n ∉ s.keeper.checkins) :
    exec (.nwdtCheckin core) s = .next { s with keeper := { s.keeper with checkins := insertAsc core s.keeper.checkins } } := by
  simp only [exec, execNwdtCheckin, running, free]
  exact if_neg fun all => (all_checked_iff.mp all n core8).elim other missing

end Watchdogs

/-- Settles O32: a refresh by the last two writes and by the cores that checked in, an expiry by its time. -/
theorem watchdogsRefreshAndExpire : Obligations.WatchdogsRefreshAndExpire := by
  unfold Obligations.WatchdogsRefreshAndExpire
  refine fun s => ⟨fun v => ⟨fun ⟨first, second⟩ => ?_, fun bad => ?_⟩, fun armed free late => ?_, exec_swdtExpiry_of_not_expired,
    fun core => exec_nwdtCheckin_of_last, fun core n running free core8 other missing => ?_, fun running free late => ?_, exec_nwdtExpiry_of_not_expired⟩
  · simp only [exec, execSwdtRefresh, first, second]
    rfl
  · simp only [exec, execSwdtRefresh]
    exact congrArg _ (if_neg (by simpa using bad))
  · obtain ⟨reach, cause⟩ := s.noteSwdtExpiry.resetDue_due 2 9
    exact ⟨_, exec_swdtExpiry_of_expired armed free late, reach, cause, s.mem_recentExpiries _, rfl, rfl⟩
  · exact ⟨_, exec_nwdtCheckin_of_not_last running free core8 other missing, fun m => mem_insertAsc, rfl⟩
  · refine ⟨_, exec_nwdtExpiry_of_expired running free late, ?_⟩
    split
    · exact ⟨s.noteNwdtExpiry.resetDue_due 2 13, rfl, rfl⟩
    · exact ⟨s.noteNwdtExpiry.resetDue_due 1 4, rfl, rfl⟩

end Sys2Proof.Machine
end

section
/-! # How every chain message is received (R318 to R322, R25, R425) -/

namespace Sys2Proof.Machine

/-- A message's row brings it to its block: in lane time it waits for step 4, a roll call alone excepted. -/
theorem exec_of_msgRow {c : Instr} {type : Nat} {h : MsgHdr} {s : State} (row : msgRow c = some (type, h))
    (served : type ≠ 0x10 ∧ type ≠ 0x20 ∧ type ≠ 0x22 ∨ s.live = true) (notBack : ¬ (s.chain.origin = true ∧ h.src = s.chain.address ∧ (type = 1 ∨ type = 2))) :
    ∃ f : State → State → State, (relayed c = true → exec c s = .next (s.receive type h (f s))) ∧
      (relayed c = false → exec c s = .next (s.atStep4 c fun s => s.receive type h (f s))) := by
  cases c
  case rollCall hdr count entries =>
    cases row
    exact ⟨fun _ st => st.rollCall h count entries, fun _ => if_neg fun ⟨_, origin, src, _⟩ => notBack ⟨origin, src, .inl rfl⟩, nofun⟩
  case fillCall hdr order entries =>
    cases row
    exact ⟨fun _ st => st.fillCall h order entries, fun _ => if_neg fun ⟨_, origin, src, _⟩ => notBack ⟨origin, src, .inr rfl⟩, nofun⟩
  case dictRead r =>
    simp only [msgRow, Option.ite_none_left_eq_some, Option.some.injEq, Prod.mk.injEq] at row
    obtain ⟨weir, rfl, rfl⟩ := row
    have live : s.live = true := by simpa using served
    exact ⟨fun _ st => st.serveRead r, nofun, fun _ => by simp [exec, execDictRead, live, weir]⟩
  case dictWrite r =>
    simp only [msgRow, Option.ite_none_left_eq_some, Option.some.injEq, Prod.mk.injEq] at row
    obtain ⟨weir, rfl, rfl⟩ := row
    have live : s.live = true := by simpa using served
    exact ⟨fun _ st => if r.hdr.dst = bcast then st else st.serveWrite r, nofun, fun _ => by simp [exec, execDictWrite, live, weir]⟩
  case challengeRequest =>
    cases row
    exact ⟨fun _ st => st.issueChallenge h.src, nofun, fun _ => if_pos (by simpa using served)⟩
  case approval hdr body =>
    cases row
    exact ⟨fun _ st => st.takeApproval body, nofun, fun _ => if_pos (by simpa using served)⟩
  case hello | dictReply | replicate | replAck | replCommit | replRollback | replQuery | replState | migConsume | migReply |
      attestOffer | attestAnswer | domainKey | heartTransfer | objectTransfer | transferEnd =>
    cases row
    exact ⟨_, nofun, fun _ => rfl⟩
  all_goals cases row

/-! ## What receipt does with a message that it does not take -/

section Receive
variable {s : State} {type : Nat} {h : MsgHdr} (f : State → State)

theorem State.receive_of_deaf (deaf : s.deaf = true) : s.receive type h f = s := if_pos deaf

theorem State.opensMsg_iff : s.opensMsg type h = true ↔ ¬ (h.check ≠ .good ∨ (msgSeal type = 1 ∧ s.chain.domainKey.isNone)) := by
  simp only [State.opensMsg, Bool.and_eq_true, decide_eq_true_eq, Bool.not_eq_true', Bool.and_eq_false_iff, beq_eq_false_iff_ne]
  grind

theorem State.receive_of_not_opens (hears : s.deaf = false) (shut : s.opensMsg type h = false) : s.receive type h f = s.badMessage := by
  rw [State.receive, if_neg (by simp [hears]), if_pos]
  exact not_not.mp fun good => by simp [State.opensMsg_iff.mpr good] at shut

theorem State.forMe_iff : s.forMe h = true ↔ ¬ (h.src = s.chain.address ∧ s.chain.address ≠ 0) ∧ ¬ s.chain.seen.contains (h.src, h.id, h.frag) ∧
    ¬ (h.dst ≠ bcast ∧ (h.dst ≠ s.chain.address ∨ s.chain.address = 0)) := by
  simp only [State.forMe, Bool.and_eq_true, Bool.not_eq_true', Bool.or_eq_true, beq_iff_eq, Bool.and_eq_false_iff, beq_eq_false_iff_ne, bne_eq_false_iff_eq,
    bne_iff_ne, Bool.not_eq_true]
  grind

theorem State.receive_of_not_forMe (opens : s.opensMsg type h = true) (others : s.forMe h = false) : s.receive type h f = s := by
  have some : ¬ _ := mt State.forMe_iff.mpr (Bool.eq_false_iff.mp others)
  unfold State.receive
  rw [if_neg (State.opensMsg_iff.mp opens)]
  grind

/-- A message for the unit is remembered, its source heard; a fragment acts only where it makes the message whole. -/
theorem State.receive_of_forMe (hears : s.deaf = false) (opens : s.opensMsg type h = true) (mine : s.forMe h = true) :
    s.receive type h f = if ((s.heardFrom h).addFragment h).2 then f ((s.heardFrom h).addFragment h).1 else ((s.heardFrom h).addFragment h).1 := by
  obtain ⟨notOwn, notSeen, addressed⟩ := State.forMe_iff.mp mine
  rw [State.receive, if_neg (by simp [hears]), if_neg (State.opensMsg_iff.mp opens), if_neg notOwn, if_neg notSeen, if_neg addressed]
  rfl

/-- The first fragment of several is kept (R320). -/
theorem State.addFragment_of_first (several : h.last ≠ 0) (first : ∀ p ∈ s.chain.partials, p.src ≠ h.src ∨ p.id ≠ h.id) :
    s.addFragment h = ({ s with chain := { s.chain with partials := s.chain.partials ++ [⟨h.src, h.id, s.tick, [(h.frag, [])], h.last⟩] } }, false) := by
  have none : (s.chain.partials.find? fun p => p.src == h.src && p.id == h.id) = none := by
    simp only [List.find?_eq_none, Bool.and_eq_true, beq_iff_eq]
    exact fun p hp ⟨src, id⟩ => (first p hp).elim (· src) (· id)
  have others : (s.chain.partials.filter fun q => !(q.src == h.src && q.id == h.id)) = s.chain.partials := by
    simp only [List.filter_eq_self, Bool.not_eq_true', Bool.and_eq_false_iff, beq_eq_false_iff_ne]
    exact first
  have notWhole : ((List.range (h.last + 1)).all fun i => h.frag == i) = false := by
    simp only [List.all_eq_false, List.mem_range, beq_iff_eq]
    exact if zero : h.frag = 0 then ⟨1, by omega, by omega⟩ else ⟨0, by omega, zero⟩
  simp only [State.addFragment, if_neg several, none, others, List.any_cons, List.any_nil, Bool.or_false, notWhole]
  rfl

end Receive

/-- Settles O42: the row brings the message to `State.receive`, whose conditions are taken in their order. -/
theorem messagesAreCheckedAndTakenOnce : Obligations.MessagesAreCheckedAndTakenOnce := by
  unfold Obligations.MessagesAreCheckedAndTakenOnce
  intro c type h s row served notBack
  obtain ⟨f, run⟩ := exec_of_msgRow row served notBack
  obtain ⟨relays, waits⟩ := run
  refine ⟨fun lane late => by rw [waits late, State.atStep4, if_neg (by simp [lane])], fun now => ?_⟩
  have received : exec c s = .next (s.receive type h (f s)) := by
    cases relay : relayed c
    case true => exact relays relay
    rw [waits relay, State.atStep4, if_pos (now.resolve_right (by simp [relay]))]
  rw [received]
  refine ⟨fun deaf => by rw [State.receive_of_deaf _ deaf], fun hears shut => ?_, fun opens others => ?_, fun hears opens mine several first => ?_⟩
  · rw [State.receive_of_not_opens _ hears shut]
    rfl
  · rw [State.receive_of_not_forMe _ opens others]
  · rw [State.receive_of_forMe _ hears opens mine, State.addFragment_of_first (s := s.heardFrom h) several first]
    rfl

end Sys2Proof.Machine
end

section
/-! # Tick markers and the state of the chain (R316, R323, R326 to R331) -/

namespace Sys2Proof.Machine

/-! ## CHAIN_TICK_MARKER -/

/-- The fields of a good header taken, and where both markers are in, the delays measured: numbers and the round trip change. -/
theorem State.takeHeader_frame (s : State) (m : Marker) :
    let t := s.takeHeader m
    t = { s with dict := { s.dict with nums := t.dict.nums }, chain := { s.chain with roundTrip := t.chain.roundTrip } } ∧
      (s.dict.nums.Pairwise (fun a b => a.1 < b.1) →
        t.dict.nums.Pairwise (fun a b => a.1 < b.1) ∧
        (m.headerOk = false → t.num Key.SEI_PERIOD = s.num Key.SEI_PERIOD) ∧
        (m.headerOk = true → t.num Key.SEI_PERIOD = m.period ∧ t.num Key.SEI_SWITCH_TICK = m.switchTick ∧ t.chain.roundTrip = m.roundTrip)) := by
  unfold State.takeHeader
  split
  · next ok =>
    refine ⟨rfl, fun rising => ?_⟩
    let u := (s.setNum Key.SEI_PERIOD m.period).setNum Key.SEI_PERIOD_NEXT (if m.switchArmed then m.periodNext else m.period)
    have risen : u.dict.nums.Pairwise fun a b => a.1 < b.1 := State.setNum_rising _ _ _ (s.setNum_rising _ _ rising)
    refine ⟨u.setNum_rising _ _ risen, fun bad => absurd ok (by simp [bad]), fun _ => ⟨?_, u.num_setNum _ _ risen, rfl⟩⟩
    calc (u.setNum Key.SEI_SWITCH_TICK m.switchTick).num Key.SEI_PERIOD
        = u.num Key.SEI_PERIOD := u.num_setNum_ne _ _ _ (by decide)
      _ = (s.setNum Key.SEI_PERIOD m.period).num Key.SEI_PERIOD := State.num_setNum_ne _ _ _ _ (by decide)
      _ = m.period := s.num_setNum _ _ rising
  · next bad => exact ⟨rfl, fun rising => ⟨rising, fun _ => rfl, fun ok => absurd ok bad⟩⟩

/-- The delays are the only numbers that a measurement writes (R326). -/
theorem State.measure_frame (s : State) :
    let t := s.measure
    t = { s with dict := { s.dict with nums := t.dict.nums } } ∧ ∀ k, k ≠ Key.CHN_DELAY_0 → k ≠ Key.CHN_DELAY_1 → t.num k = s.num k := by
  unfold State.measure
  split
  · refine ⟨rfl, fun k k0 k1 => ?_⟩
    rw [State.num_setNum_ne _ _ _ _ k1, State.num_setNum_ne _ _ _ _ k0]
  · exact ⟨rfl, fun _ _ _ => rfl⟩

/-- The arrival of an unwrapped marker noted (R326). -/
def State.noteArrival (s : State) (m : Marker) : State :=
  let arr := if m.wrapped then none else some m.arrivalPs
  if m.ring = 0 then { s with chain := { s.chain with arrival0 := arr.or s.chain.arrival0 } }
  else { s with chain := { s.chain with arrival1 := arr.or s.chain.arrival1 } }

/-- The unit follows the master, with the numbers as they stand. -/
def State.followed (s : State) (m : Marker) : State :=
  let d := 1000 * s.num (if m.ring = 0 then Key.CHN_DELAY_0 else Key.CHN_DELAY_1)
  let uses := !m.wrapped && (m.ring == 0 || s.chain.arrival0.isNone)
  let s := { s with chain := { s.chain with
    missed := 0, markerSeen := true, holdover := false, acting := false, tickSource := true, master := m.source,
    offset := if uses then nearOffset (m.arrivalPs - (d : Int)) (periodPs s.period) else s.chain.offset } }
  if m.headerOk then { s with tick := (m.tickNo + d / periodPs s.period) % 2 ^ 64 } else s

theorem State.follow_eq (s : State) (m : Marker) : s.follow m = ((s.takeHeader m).noteArrival m).measure.followed m := rfl

theorem State.noteArrival_frame (s : State) (m : Marker) :
    s.noteArrival m = { s with chain := { s.chain with arrival0 := (s.noteArrival m).chain.arrival0, arrival1 := (s.noteArrival m).chain.arrival1 } } := by
  by_cases ring : m.ring = 0 <;> simp [State.noteArrival, ring]

theorem State.followed_frame (s : State) (m : Marker) :
    let t := s.followed m
    t = { s with tick := t.tick, chain := { s.chain with
      missed := 0, markerSeen := true, holdover := false, acting := false, tickSource := true, master := m.source, offset := t.chain.offset } } ∧
      (m.headerOk = false → t.tick = s.tick) ∧
      (m.headerOk = true → t.tick =
        (m.tickNo + 1000 * s.num (if m.ring = 0 then Key.CHN_DELAY_0 else Key.CHN_DELAY_1) / periodPs (s.num Key.SEI_PERIOD)) % 2 ^ 64) := by
  unfold State.followed
  dsimp only
  split
  · next ok => exact ⟨rfl, fun bad => absurd ok (by simp [bad]), fun _ => rfl⟩
  · next bad => exact ⟨rfl, fun _ => rfl, fun ok => absurd ok bad⟩

/-- Everything up to the tick number: what the followed marker leaves of the state before it. -/
theorem State.measured_frame (s : State) (m : Marker) :
    let v := ((s.takeHeader m).noteArrival m).measure
    v = { s with dict := { s.dict with nums := v.dict.nums }, chain := v.chain } ∧ v.chain.lockA = s.chain.lockA ∧ v.chain.lockB = s.chain.lockB ∧
      (s.dict.nums.Pairwise (fun a b => a.1 < b.1) →
        (m.headerOk = false → v.num Key.SEI_PERIOD = s.num Key.SEI_PERIOD) ∧
        (m.headerOk = true → v.num Key.SEI_PERIOD = m.period ∧ v.num Key.SEI_SWITCH_TICK = m.switchTick ∧ v.chain.roundTrip = m.roundTrip)) := by
  obtain ⟨header, numbers⟩ := s.takeHeader_frame m
  have arrival := (s.takeHeader m).noteArrival_frame m
  obtain ⟨measure, kept⟩ := ((s.takeHeader m).noteArrival m).measure_frame
  have period := kept Key.SEI_PERIOD (by decide) (by decide)
  have switch := kept Key.SEI_SWITCH_TICK (by decide) (by decide)
  have num (k : Nat) : ((s.takeHeader m).noteArrival m).num k = (s.takeHeader m).num k := State.num_of_dict (by rw [arrival]) k
  have chain : ((s.takeHeader m).noteArrival m).measure.chain = ((s.takeHeader m).noteArrival m).chain := by rw [measure]
  dsimp only
  refine ⟨?_, ?_, ?_, fun rising => ?_⟩
  · rw [measure, arrival, header]
  · rw [chain, arrival, header]
  · rw [chain, arrival, header]
  · obtain ⟨-, bad, ok⟩ := numbers rising
    rw [period, switch, num, num, chain, arrival]
    exact ⟨bad, ok⟩

/-- What following a marker does (R4, R316, R326, R331). -/
theorem State.follow_frame {s : State} (rising : s.dict.nums.Pairwise fun a b => a.1 < b.1) (m : Marker) :
    let t := s.follow m
    t.chain.tickSource = true ∧ t.chain.holdover = false ∧ t.chain.acting = false ∧ t.chain.missed = 0 ∧ t.chain.master = m.source ∧
      t.chain.lockA = s.chain.lockA ∧ t.chain.lockB = s.chain.lockB ∧
      (m.headerOk = false → t.tick = s.tick ∧ t.num Key.SEI_PERIOD = s.num Key.SEI_PERIOD) ∧
      (m.headerOk = true → t.num Key.SEI_PERIOD = m.period ∧ t.num Key.SEI_SWITCH_TICK = m.switchTick ∧ t.chain.roundTrip = m.roundTrip ∧
        t.tick = (m.tickNo + 1000 * t.num (if m.ring = 0 then Key.CHN_DELAY_0 else Key.CHN_DELAY_1) / periodPs m.period) % 2 ^ 64) ∧
      t = { s with tick := t.tick, chain := t.chain, dict := { s.dict with nums := t.dict.nums } } := by
  obtain ⟨frame, lockA, lockB, numbers⟩ := s.measured_frame m
  obtain ⟨bad, ok⟩ := numbers rising
  rw [State.follow_eq]
  generalize ((s.takeHeader m).noteArrival m).measure = v at frame lockA lockB bad ok
  obtain ⟨followed, tickBad, tickOk⟩ := v.followed_frame m
  have num (k : Nat) : (v.followed m).num k = v.num k := State.num_of_dict (by rw [followed]) k
  have chain : (v.followed m).chain = _ := congrArg State.chain followed
  dsimp only
  simp only [num]
  refine ⟨by rw [chain], by rw [chain], by rw [chain], by rw [chain], by rw [chain], by rw [chain, lockA], by rw [chain, lockB], fun h => ?_, fun h => ?_, ?_⟩
  · exact ⟨(tickBad h).trans (by rw [frame]), bad h⟩
  · obtain ⟨period, switch, trip⟩ := ok h
    exact ⟨period, switch, by rw [chain, trip], by rw [tickOk h, period]⟩
  · have dict : (v.followed m).dict = v.dict := by rw [followed]
    generalize v.followed m = t at followed chain dict
    conv_lhs => rw [followed, frame]
    rw [chain, dict]

/-- Settles O43: whose marker it is, and what the unit is. -/
theorem tickMarkersAreFollowed : Obligations.TickMarkersAreFollowed := by
  unfold Obligations.TickMarkersAreFollowed
  intro m s
  have locks : s.portLocks m.ring = if m.ring = 0 then { s with chain := { s.chain with lockB := true } } else { s with chain := { s.chain with lockA := true } } := rfl
  rw [← locks]
  generalize hu : s.portLocks m.ring = u
  have rest : u.chain.origin = s.chain.origin ∧ u.chain.acting = s.chain.acting ∧ u.chain.address = s.chain.address ∧ u.chain.roundTrip = s.chain.roundTrip ∧
      u.dict = s.dict ∧ u.tick = s.tick ∧ u = { s with chain := u.chain } := by
    rw [← hu, locks]
    split <;> exact ⟨rfl, rfl, rfl, rfl, rfl, rfl, rfl⟩
  obtain ⟨origin, acting, address, trip, dict, tick, frame⟩ := rest
  have run : exec (.chainTickMarker m) s = if (s.chain.origin ∨ s.chain.acting) ∧ m.source = s.chain.address then .next (u.ownMarker m)
      else if s.chain.origin then .next u else if s.chain.acting ∧ ¬ m.strapped ∧ s.chain.address ≤ m.source then .next u else .next (u.follow m) := by
    simp only [exec, execChainTickMarker, hu, origin, acting, address]
  refine ⟨fun master own => ?_, fun strapped other => ?_, fun notOrigin isActing plain higher => ?_, fun notOrigin follows rising => ?_⟩
  · rw [run, if_pos ⟨master, own⟩, State.ownMarker, ← trip]
    by_cases first : m.ring = 0 ∧ m.wrapped = false
    · simp [first]
    · have : ¬ (m.ring = 0 ∧ ¬ m.wrapped = true) := by simpa using first
      rw [if_neg this, if_neg first]
  · rw [run, if_neg fun h => other h.2, if_pos strapped]
  · rw [run, if_neg fun h => Nat.ne_of_gt higher h.2, if_neg (by simp [notOrigin]), if_pos ⟨isActing, by simp [plain], Nat.le_of_lt higher⟩]
  · have notOwn : ¬ ((s.chain.origin ∨ s.chain.acting) ∧ m.source = s.chain.address) := by
      rintro ⟨master, own⟩
      rcases follows with still | lower | ⟨-, other⟩
      · simp [notOrigin, still] at master
      · omega
      · exact other own
    have notBarred : ¬ (s.chain.acting ∧ ¬ m.strapped ∧ s.chain.address ≤ m.source) := by
      rintro ⟨isActing, plain, high⟩
      rcases follows with still | lower | ⟨strapped, -⟩
      · simp [still] at isActing
      · omega
      · exact plain strapped
    rw [run, if_neg notOwn, if_neg (by simp [notOrigin]), if_neg notBarred]
    obtain ⟨f1, f2, f3, f4, f5, f6, f7, bad, ok, same⟩ := State.follow_frame (s := u) (by rw [dict]; exact rising) m
    generalize u.follow m = t at f1 f2 f3 f4 f5 f6 f7 bad ok same
    refine ⟨t, rfl, f1, f2, f3, f4, f5, f6, f7, fun h => ?_, ok, ?_⟩
    · rw [← tick, State.num_of_dict dict.symm]
      exact bad h
    · conv_lhs => rw [same, frame]

/-! ## The chain's state -/

/-- Settles O44: each row by its condition. -/
theorem chainStateRows : Obligations.ChainStateRows := by
  unfold Obligations.ChainStateRows
  refine fun s => ⟨fun origin down back => ?_, fun h => ?_, rfl, rfl, fun looped => if_pos looped, fun looped => if_pos looped, fun open_ => ?_, fun open_ => ?_,
    fun source missed => if_pos ⟨source, missed⟩, fun h => ?_⟩
  · exact if_pos ⟨origin, by simp [down], back⟩
  · refine if_neg ?_
    rintro ⟨origin, down, back⟩
    rcases h with h | h | h
    · simp [h] at origin
    · exact down h
    · simp [h] at back
  · simp [exec, execLoopbackRestore, open_]
  · simp [exec, execLoopbackRestore, open_]
  · refine if_neg ?_
    rintro ⟨source, missed⟩
    rcases h with h | h
    · simp [h] at source
    · omega

end Sys2Proof.Machine
end


section
/-! Check-value units: how a scan ends (chapter 17). -/

namespace Sys2Proof.Machine

theorem exec_chkScanEnd (u : Nat) (s : State) : exec (.chkScanEnd u) s = execChkScanEnd u s := rfl

/-- Settles O39: the four ends of a scan are the four branches of CHK_SCAN_END. -/
theorem scanEndsWithItsResult : Obligations.ScanEndsWithItsResult := by
  unfold Obligations.ScanEndsWithItsResult
  intro u s
  simp only [exec_chkScanEnd, execChkScanEnd, State.chkMismatch, State.setChk]
  refine ⟨fun h => if_pos h, fun running open_ => ?_⟩
  have scans : ¬ ((s.chkUnit u).state ≠ 1 ∨ (s.chkUnit u).next.isSome) := by simp [running, open_]
  rw [if_neg scans]
  refine ⟨fun hit => if_pos hit, fun clean left => ?_, fun clean done => ?_⟩
  · rw [if_neg (not_not_intro clean), if_pos left]
  · rw [if_neg (not_not_intro clean), if_neg (Nat.not_lt.mpr done)]
    refine ⟨fun computes => ?_, fun compares equal => ?_, fun compares differs => ?_⟩
    · simp [computes]
    · simp [compares, equal]
    · simp [compares, differs]

end Sys2Proof.Machine
end


section
/-! What ending jobs, grants and transitions leaves of the keys, the life cycle and the tamper monitors (chapters 15 and 16). -/

namespace Sys2Proof.Machine

/-- Jobs end, with what they had on the vault and the chain; everything else stays. -/
def EndsJobs (s t : State) : Prop :=
  t = { s with jobs := t.jobs, lanes := t.lanes, slices := t.slices, sched := t.sched, vault := t.vault, chain := t.chain }

namespace EndsJobs

theorem refl (s : State) : EndsJobs s s := rfl
theorem trans {s t u : State} (st : EndsJobs s t) (tu : EndsJobs t u) : EndsJobs s u := by
  unfold EndsJobs at *
  rw [tu, st]
theorem keys {s t : State} (h : EndsJobs s t) : t.keys = s.keys := by rw [h]
theorem life {s t : State} (h : EndsJobs s t) : t.life = s.life := by rw [h]
theorem tamper {s t : State} (h : EndsJobs s t) : t.tamper = s.tamper := by rw [h]
theorem wm {s t : State} (h : EndsJobs s t) : t.wm = s.wm := by rw [h]
theorem rst {s t : State} (h : EndsJobs s t) : t.rst = s.rst := by rw [h]

end EndsJobs

theorem StopsJobs.endsJobs {s t : State} (h : StopsJobs s t) : EndsJobs s t := by
  unfold EndsJobs
  conv_lhs => rw [h.frame]
  rw [h.frame]

theorem State.setDrive_endsJobs (s : State) (p : Nat) (d : Drive) : EndsJobs s (s.setDrive p d) := by
  unfold State.setDrive
  split <;> rfl

theorem State.endWrites_endsJobs (s : State) : EndsJobs s s.endWrites := (s.setDrive_endsJobs 0 _).trans (State.setDrive_endsJobs _ 1 _)
theorem State.orphanOwn_endsJobs (s : State) (id : Nat) : EndsJobs s (s.orphanOwn id) := rfl

theorem State.dropVersions_endsJobs (s : State) (id : Nat) : EndsJobs s (s.dropVersions id) := by
  simp only [State.dropVersions]
  split
  · exact .trans (t := { s with vault := _ }) rfl (State.endWrites_endsJobs _)
  · rfl

/-- A job that a LOCK or a zeroise meets. -/
theorem State.tamperJob_endsJobs (s : State) (zero : Bool) (j : Job) : EndsJobs s (s.tamperJob zero j) := by
  unfold State.tamperJob
  split
  · rfl
  · split
    · exact (s.updJob_stopsJobs _ _).endsJobs
    · exact (s.dropVersions_endsJobs j.id).trans ((State.orphanOwn_endsJobs _ j.id).trans (State.finish_stopsJobs _ _ _ _ _).endsJobs)

/-- The jobs of a unit, met one after the other. -/
theorem tamperJobs_endsJobs (zero : Bool) (l : List Job) (s : State) : EndsJobs s (l.foldl (fun st j => st.tamperJob zero j) s) := by
  induction l generalizing s with
  | nil => rfl
  | cons j l ih => exact (s.tamperJob_endsJobs zero j).trans (ih _)

/-! ## Grants -/

/-- Only the wellsprings and what they feed change. -/
def OnlyEnt (s t : State) : Prop := t = { s with ent := t.ent }

theorem OnlyEnt.trans {s t u : State} (st : OnlyEnt s t) (tu : OnlyEnt t u) : OnlyEnt s u := by
  unfold OnlyEnt at *
  rw [tu, st]

theorem State.setWsp_onlyEnt (s : State) (n : Nat) (w : Wellspring) : OnlyEnt s (s.setWsp n w) := by
  unfold State.setWsp
  split <;> rfl

theorem State.closeTap_onlyEnt (s : State) : OnlyEnt s s.closeTap := by
  unfold State.closeTap
  refine List.foldlRecOn (motive := OnlyEnt s) _ _ rfl fun t kept n _ => ?_
  dsimp only
  split
  · exact kept.trans (t.setWsp_onlyEnt n _)
  · exact kept

/-- A grant that ends leaves all but its own records, its enables and its tap. -/
theorem State.dropGrant_frame (s : State) :
    s.dropGrant = { s with
      life := { s.life with granted := false, endDue := false, grantRights := 0, grantEnds := 0, certState := if s.life.certState = 2 then 0 else s.life.certState }
      keeper := { s.keeper with debugState := 0, haltNormal := false, haltSecure := false }, ent := s.dropGrant.ent } := by
  unfold State.dropGrant
  conv_lhs => rw [State.closeTap_onlyEnt]

end Sys2Proof.Machine
end


section
/-! Transitions, challenges, grants and certificates (chapter 16). -/

namespace Sys2Proof.Machine

/-! ## Marks -/

theorem Fuses.marks_setMarks (f : Fuses) (n : Nat) (m : Marks) : (f.setMarks n m).marks n = m := by
  unfold Fuses.setMarks Fuses.marks
  split
  · rfl
  · split
    · rfl
    · split <;> rfl

/-- The marks of the four transitions stand apart. -/
theorem Fuses.marks_setMarks_ne (f : Fuses) {n k : Nat} (m : Marks) (hn : 1 ≤ n ∧ n ≤ 4) (hk : 1 ≤ k ∧ k ≤ 4) (other : k ≠ n) :
    (f.setMarks n m).marks k = f.marks k := by
  unfold Fuses.setMarks Fuses.marks
  grind

theorem State.marks_setMarks (s : State) (n : Nat) (m : Marks) : (s.setMarks n m).marks n = m := Fuses.marks_setMarks _ n m

/-- A mark that a step of a transition sets, beside the work of the step. -/
theorem State.setMarks_keys (s : State) (n : Nat) (m : Marks) : (s.setMarks n m).keys = s.keys := rfl

/-! ## The wipe of a transition -/

/-- The key tree, and the domain's key. -/
def State.secrets (s : State) : KeyTree × Option Bytes := (s.keys, s.chain.domainKey)

theorem State.setMembers_secrets (s : State) (l : List Nat) : (s.setMembers l).secrets = s.secrets := by
  unfold State.setMembers State.setAddrList
  exact List.foldlRecOn (motive := fun t : State => t.secrets = s.secrets) _ _ rfl fun _ kept _ _ => kept

theorem State.copyBatLog_secrets (s : State) : s.copyBatLog.secrets = s.secrets := by
  have copies := foldl_keeps (p := State.secrets)
    (f := fun (st : State) (b : BatLog) => { st with sil := { st.sil with queue := st.sil.queue ++ [⟨0x2720, st.tick, false, some b, none⟩] } })
    (fun _ _ => rfl) s.tamper.batLog s
  exact copies

theorem State.endLock_secrets (s : State) : s.endLock.secrets = s.secrets := by
  simp only [State.endLock]
  split <;> simp [State.secrets]

theorem DrivesOnly.secrets {s t : State} (h : DrivesOnly s t) : t.secrets = s.secrets := by
  unfold DrivesOnly at h
  rw [h]
  rfl

theorem State.deallocateDrive_secrets (s : State) (p : Nat) : (s.deallocateDrive p).secrets = s.secrets := by
  unfold State.deallocateDrive
  split
  · rw [(State.submitAll_movesBlocks _ p _).only.secrets]
    simp [State.secrets]
  · rfl

/-- The wipe of transition 1 destroys the key tree and the domain's key. -/
theorem State.wipeKeys_destroys (s : State) :
    s.wipeKeys.keys.baseSecret = none ∧ s.wipeKeys.keys.hearts = [] ∧ s.wipeKeys.keys.images = [] ∧ s.wipeKeys.keys.pins = [] ∧
      s.wipeKeys.chain.domainKey = none := by
  simp [State.wipeKeys, State.zeroiseAll, State.zeroiseBattery]

theorem State.sil_secrets (s : State) (x : Sillage) : ({ s with sil := x } : State).secrets = s.secrets := rfl
theorem State.dropEntries_secrets (s : State) (p : Reach → Bool) (keep : Nat → Bool) : (s.dropEntries p keep).secrets = s.secrets := rfl
theorem State.setOct_secrets (s : State) (k : Nat) (v : Bytes) : (s.setOct k v).secrets = s.secrets := rfl

theorem State.leaveDomain_secrets (s : State) :
    ({ s.joinWipe .none with
        chain := { (s.joinWipe .none).chain with log := [], early := [], own := [], tags := [], consumed := [], peerTags := [] } } : State).secrets =
      s.secrets := rfl

/-- The customer's wipe destroys what the wipe of transition 1 does. -/
theorem State.wipeCustomer_secrets (s : State) : s.wipeCustomer.secrets = s.wipeKeys.secrets := by
  unfold State.wipeCustomer
  rw [State.deallocateDrive_secrets, State.deallocateDrive_secrets, State.endLock_secrets, State.sil_secrets, State.dropEntries_secrets]
  refine (State.leaveDomain_secrets _).trans ?_
  rw [State.setMembers_secrets, State.setOct_secrets, State.copyBatLog_secrets]

/-- The second step of transitions 1, 3 and 4 destroys the key tree and the domain's key. -/
theorem State.transitionWipe_destroys (s : State) {n : Nat} (wipes : n ≠ 2) :
    (s.transitionWipe n).keys.baseSecret = none ∧ (s.transitionWipe n).keys.hearts = [] ∧ (s.transitionWipe n).keys.images = [] ∧
      (s.transitionWipe n).keys.pins = [] ∧ (s.transitionWipe n).chain.domainKey = none := by
  obtain ⟨base, hearts, images, pins, domain⟩ := s.wipeKeys_destroys
  have same : s.wipeCustomer.keys = s.wipeKeys.keys ∧ s.wipeCustomer.chain.domainKey = s.wipeKeys.chain.domainKey := by
    simpa [State.secrets] using s.wipeCustomer_secrets
  obtain ⟨keys, key⟩ := same
  unfold State.transitionWipe
  by_cases first : n = 1
  · rw [if_pos first]
    exact s.wipeKeys_destroys
  · rw [if_neg first, if_neg wipes]
    split
    · rw [keys, key]
      exact s.wipeKeys_destroys
    · simp only [State.batteryLost, State.zeroiseBattery, keys, key]
      exact ⟨trivial, hearts, images, pins, domain⟩

/-! ## The steps of a transition (R391, R392) -/

section
variable {s : State} {n target : Nat}

theorem State.transitionNext_of_not_begun (new : (s.marks n).hasBegun = false) :
    s.transitionNext n = s.setMarks n { s.marks n with begun := 15 } := by
  simp [State.transitionNext, new, blown]

theorem State.transitionNext_of_begun (begun : (s.marks n).hasBegun = true) (unwiped : (s.marks n).isWiped = false) :
    s.transitionNext n = (s.transitionWipe n).setMarks n { s.marks n with wiped := 15 } := by
  simp [State.transitionNext, begun, unwiped, blown]

theorem State.transitionNext_of_wiped (begun : (s.marks n).hasBegun = true) (wiped : (s.marks n).isWiped = true)
    (unprovisioned : (s.marks n).isProvisioned = false) :
    s.transitionNext n = (s.transitionProvision n).setMarks n { s.marks n with provisioned := 15 } := by
  simp [State.transitionNext, begun, wiped, unprovisioned, blown]

theorem State.transitionNext_of_provisioned (begun : (s.marks n).hasBegun = true) (wiped : (s.marks n).isWiped = true)
    (provisioned : (s.marks n).isProvisioned = true) : s.transitionNext n = s.setMarks n { s.marks n with done := 15 } := by
  simp [State.transitionNext, begun, wiped, provisioned, blown]

theorem State.transitionProvision_keys (s : State) (n : Nat) : (s.transitionProvision n).keys = s.keys := by
  unfold State.transitionProvision
  split_ifs <;> simp [State.unformat]

theorem exec_transitionStep (s : State) : exec .transitionStep s = execTransitionStep s := rfl

/-- After BEGUN a step is the next one of Table 16.3, and DONE asks for a WARM reset. -/
theorem exec_transitionStep_of_begun (running : s.life.transition = some (n, target)) (serves : s.rst.power = .run)
    (begun : (s.marks n).hasBegun = true) :
    exec .transitionStep s = .next (if (s.marks n).isProvisioned then (s.transitionNext n).resetDue 2 10 else s.transitionNext n) := by
  rw [exec_transitionStep, execTransitionStep, running]
  simp only [serves, begun, ne_eq, not_true_eq_false, if_false, Bool.not_true, Bool.false_eq_true]
  split <;> rfl

/-- Before BEGUN the grant is dropped and the conditions are checked again; a check that fails ends the transition. -/
theorem exec_transitionStep_of_not_begun (running : s.life.transition = some (n, target)) (serves : s.rst.power = .run)
    (new : (s.marks n).hasBegun = false) :
    exec .transitionStep s = .next (if transitionOf s.lifeCycle target = some n ∧ s.transitionAllowed n = true then
        s.dropGrant.setMarks n { s.marks n with begun := 15 }
      else ((({ s.dropGrant with life := { s.dropGrant.life with transition := none } } : State).event 0x2803).resetDue 2 10)) := by
  have life : s.dropGrant.lifeCycle = s.lifeCycle := by rw [s.dropGrant_frame]; rfl
  have marks : s.dropGrant.marks n = s.marks n := by rw [s.dropGrant_frame]; rfl
  have allowed : s.dropGrant.transitionAllowed n = s.transitionAllowed n := by rw [s.dropGrant_frame]; rfl
  rw [exec_transitionStep, execTransitionStep, running]
  simp only [serves, new, ne_eq, not_true_eq_false, if_false, Bool.not_false, if_true, life, allowed]
  split
  · rw [State.transitionNext_of_not_begun (by rw [marks, new]), marks]
  · rfl

end

/-- The step of a transition that has not begun. -/
theorem transitionStep_begins {s : State} {n target : Nat} (running : s.life.transition = some (n, target)) (serves : s.rst.power = .run)
    (number : 1 ≤ n ∧ n ≤ 4) (new : (s.marks n).hasBegun = false) :
    (transitionOf s.lifeCycle target = some n → s.transitionAllowed n = true → ∃ t, exec .transitionStep s = .next t ∧
      t.marks n = { s.marks n with begun := 15 } ∧ (∀ k, 1 ≤ k → k ≤ 4 → k ≠ n → t.marks k = s.marks k) ∧ t.keys = s.keys ∧ t.vault = s.vault) ∧
    (transitionOf s.lifeCycle target ≠ some n ∨ s.transitionAllowed n = false → ∃ t, exec .transitionStep s = .next t ∧
      t.life.fuses = s.life.fuses ∧ t.life.transition = none ∧ 2 ≤ t.rst.dueReach ∧ bitOf t.rst.dueCauses 10 = true) := by
  rw [exec_transitionStep_of_not_begun running serves new]
  refine ⟨fun leads allowed => ?_, fun fails => ?_⟩
  · rw [if_pos ⟨leads, allowed⟩]
    refine ⟨_, rfl, State.marks_setMarks _ n _, fun k hk1 hk4 other => ?_, ?_, ?_⟩
    · exact (Fuses.marks_setMarks_ne _ _ number ⟨hk1, hk4⟩ other).trans (by rw [s.dropGrant_frame]; rfl)
    · rw [State.setMarks_keys, s.dropGrant_frame]
    · rw [s.dropGrant_frame]
      rfl
  · rw [if_neg (by grind)]
    obtain ⟨reach, cause⟩ := State.resetDue_due
      (({ s.dropGrant with life := { s.dropGrant.life with transition := none } } : State).event 0x2803) 2 10
    exact ⟨_, rfl, by simp, by simp, reach, cause⟩

/-- A begun transition goes on by its marks. -/
theorem transitionStep_goes_on {s : State} {n target : Nat} (running : s.life.transition = some (n, target)) (serves : s.rst.power = .run)
    (begun : (s.marks n).hasBegun = true) :
    ((s.marks n).isWiped = false → (s.marks n).isProvisioned = false → ∃ t, exec .transitionStep s = .next t ∧ t.marks n = { s.marks n with wiped := 15 } ∧
      (n = 1 ∨ n = 3 ∨ n = 4 → t.keys.baseSecret = none ∧ t.keys.hearts = [] ∧ t.keys.images = [] ∧ t.keys.pins = [] ∧ t.chain.domainKey = none) ∧
      (n = 2 → t.life.fuses.vendorTest = false ∧ t.keys = s.keys)) ∧
    ((s.marks n).isWiped = true → (s.marks n).isProvisioned = false → ∃ t, exec .transitionStep s = .next t ∧ t.marks n = { s.marks n with provisioned := 15 } ∧
      (n = 1 → t.life.fuses.integratorHash = some s.life.newHash) ∧ (n = 4 → t.life.fuses.allBlown = true) ∧ t.keys = s.keys) ∧
    ((s.marks n).isWiped = true → (s.marks n).isProvisioned = true → ∃ t, exec .transitionStep s = .next t ∧ t.marks n = { s.marks n with done := 15 } ∧
      2 ≤ t.rst.dueReach ∧ bitOf t.rst.dueCauses 10 = true ∧ t.keys = s.keys) := by
  rw [exec_transitionStep_of_begun running serves begun]
  refine ⟨fun unwiped unprovisioned => ?_, fun wiped unprovisioned => ?_, fun wiped provisioned => ?_⟩
  · rw [if_neg (by simp [unprovisioned]), State.transitionNext_of_begun begun unwiped]
    refine ⟨_, rfl, State.marks_setMarks _ n _, fun wipes => s.transitionWipe_destroys (by omega), ?_⟩
    rintro rfl
    exact ⟨rfl, rfl⟩
  · rw [if_neg (by simp [unprovisioned]), State.transitionNext_of_wiped begun wiped unprovisioned]
    refine ⟨_, rfl, State.marks_setMarks _ n _, ?_, ?_, (State.setMarks_keys _ n _).trans (s.transitionProvision_keys n)⟩
    · rintro rfl
      rfl
    · rintro rfl
      rfl
  · rw [if_pos provisioned, State.transitionNext_of_provisioned begun wiped provisioned]
    obtain ⟨reach, cause⟩ := State.resetDue_due (s.setMarks n { s.marks n with done := 15 }) 2 10
    exact ⟨_, rfl, State.marks_setMarks s n _, reach, cause, rfl⟩

/-! ## Challenges, grants and certificates (R397, R400, R403, R404) -/

theorem State.zeroiseWorking_keys (s : State) : s.zeroiseWorking.keys = { s.keys with cache := [] } := by simp [State.zeroiseWorking]
theorem State.zeroiseWorking_jobs (s : State) : s.zeroiseWorking.jobs = s.jobs.map Job.wiped := by simp [State.zeroiseWorking]
theorem State.zeroiseWorking_life (s : State) : s.zeroiseWorking.life = s.life := by simp [State.zeroiseWorking]

/-- The working keys are gone, those of the jobs with them. -/
def State.workingGone (s : State) : Prop :=
  s.keys.cache = [] ∧ ∀ j ∈ s.jobs, j.key1 = none ∧ j.key2 = none ∧ j.heartKey = [] ∧ j.draws = []

theorem State.zeroiseWorking_workingGone (s : State) : s.zeroiseWorking.workingGone := by
  refine ⟨by rw [s.zeroiseWorking_keys], fun j held => ?_⟩
  rw [s.zeroiseWorking_jobs] at held
  obtain ⟨k, _, rfl⟩ := List.mem_map.mp held
  exact ⟨rfl, rfl, rfl, rfl⟩

/-- Right 3 of a grant destroys the base key and the image key with the working keys. -/
def State.destroyBaseKey (s : State) : State :=
  ({ s.zeroiseWorking with keys := { s.zeroiseWorking.keys with baseKey := none, heartImageKey := none } } : State).event 0x2802

/-- What the check of a certificate makes in its frame, with the rights 3 and 4 of a grant. -/
def State.grantWipes (s : State) (base working : Bool) : State :=
  let s := if base then s.destroyBaseKey else s
  if working then s.zeroiseWorking.event 0x2802 else s

theorem State.grantWipes_destroys (s : State) {base working : Bool} (either : base = true ∨ working = true) :
    (s.grantWipes base working).workingGone ∧ (s.grantWipes base working).keys.hearts = s.keys.hearts ∧
      (s.grantWipes base working).keys.baseSecret = s.keys.baseSecret ∧ (s.grantWipes base working).life = s.life ∧
      (base = true → (s.grantWipes base working).keys.baseKey = none ∧ (s.grantWipes base working).keys.heartImageKey = none) := by
  have gone : (s.destroyBaseKey).workingGone := ⟨by simp [State.destroyBaseKey, State.zeroiseWorking_keys], by
    simpa [State.destroyBaseKey] using s.zeroiseWorking_workingGone.2⟩
  cases working
  · obtain rfl : base = true := by simpa using either
    refine ⟨gone, ?_⟩
    simp [State.grantWipes, State.destroyBaseKey, State.zeroiseWorking_keys, State.zeroiseWorking_life]
  · refine ⟨by simpa [State.workingGone, State.grantWipes] using State.zeroiseWorking_workingGone (if base then s.destroyBaseKey else s), ?_⟩
    cases base <;> simp [State.grantWipes, State.destroyBaseKey, State.zeroiseWorking_keys, State.zeroiseWorking_life]

/-- The result of the check stands, and is recorded. -/
def State.certChecked (s : State) : State := State.event { s with life := { s.life with verdict := some s.certCheck } } 0x2801

theorem exec_certCheckEnd (s : State) : exec .certCheckEnd s = execCertCheckEnd s := rfl

/-- A check that ends with a grant of secure invasive debug, and one that ends otherwise. -/
theorem exec_certCheckEnd_of_running {s : State} (running : s.life.certState = 1) (open_ : s.life.verdict = none) :
    exec .certCheckEnd s = .next (
      if s.certCheck = 0 ∧ at8 16 s.certBytes = 1 ∧ (bitOf (at8 20 s.certBytes) 3 = true ∨ bitOf (at8 20 s.certBytes) 4 = true) then
        (s.jobs.foldl (fun st j => st.tamperJob true j) s.certChecked).grantWipes (bitOf (at8 20 s.certBytes) 3) (bitOf (at8 20 s.certBytes) 4)
      else s.certChecked) := by
  rw [exec_certCheckEnd, execCertCheckEnd, if_neg (by simp [running, open_])]
  have jobs : s.certChecked.jobs = s.jobs := by simp [State.certChecked]
  rcases Classical.em (s.certCheck = 0 ∧ at8 16 s.certBytes = 1) with ⟨passes, grants⟩ | other
  · simp only [passes, grants, State.grantWipes, State.destroyBaseKey]
    cases h3 : bitOf (at8 20 s.certBytes) 3 <;> cases h4 : bitOf (at8 20 s.certBytes) 4 <;> simp [State.certChecked, passes]
  · have denied : (decide (s.certCheck = 0) && at8 16 s.certBytes == 1) = false := by simpa using other
    rw [if_neg (by tauto)]
    simp [denied, State.certChecked]

/-- The end of a check. -/
theorem certCheckEnd_rules {s : State} (running : s.life.certState = 1) (open_ : s.life.verdict = none) :
    ∃ t, exec .certCheckEnd s = .next t ∧ t.life.verdict = some s.certCheck ∧
      if s.certCheck = 0 ∧ at8 16 s.certBytes = 1 ∧ (bitOf (at8 20 s.certBytes) 3 = true ∨ bitOf (at8 20 s.certBytes) 4 = true) then
        t.keys.cache = [] ∧ (∀ j ∈ t.jobs, j.key1 = none ∧ j.key2 = none ∧ j.heartKey = [] ∧ j.draws = []) ∧ t.keys.hearts = s.keys.hearts ∧
          t.keys.baseSecret = s.keys.baseSecret ∧
          (bitOf (at8 20 s.certBytes) 3 = true → t.keys.baseKey = none ∧ t.keys.heartImageKey = none)
      else t = State.event { s with life := { s.life with verdict := some s.certCheck } } 0x2801 := by
  rw [exec_certCheckEnd_of_running running open_]
  split
  · next grants =>
    have ends := tamperJobs_endsJobs true s.jobs s.certChecked
    obtain ⟨⟨cache, jobs⟩, hearts, secret, life, base⟩ := State.grantWipes_destroys
      (s.jobs.foldl (fun st j => st.tamperJob true j) s.certChecked) grants.2.2
    refine ⟨_, rfl, ?_, cache, jobs, ?_, ?_, base⟩
    · rw [life, ends.life]
      simp [State.certChecked]
    · rw [hearts, ends.keys]
      simp [State.certChecked]
    · rw [secret, ends.keys]
      simp [State.certChecked]
  · exact ⟨_, rfl, by simp [State.certChecked], rfl⟩

theorem State.endGrantNext_of_granted {s : State} (granted : s.life.granted = true) :
    s.endGrantNext = if bitOf s.life.grantRights 3 || bitOf s.life.grantRights 4 then
        ({ s with life := { s.life with endDue := true } } : State).resetDue 2 10
      else { s with life := { s.life with endDue := true } } := by
  unfold State.endGrantNext
  rw [if_neg (by simp [granted])]

theorem exec_grantExpiry (s : State) : exec .grantExpiry s = execGrantExpiry s := rfl

/-- Settles O55, by the steps of Table 16.3 and the ends of challenges, grants and certificate checks. -/
theorem transitionsGrantsAndCertificates : Obligations.TransitionsGrantsAndCertificates := by
  unfold Obligations.TransitionsGrantsAndCertificates
  intro s
  refine ⟨fun h => ?_, fun n target running serves lo hi => ?_, fun b d drawn => ?_, fun granted ended => ?_, fun h => ?_,
    certCheckEnd_rules, fun h => if_pos h⟩
  · rw [exec_transitionStep, execTransitionStep]
    split
    · rfl
    · next running => exact if_pos (h.resolve_left (by simp [running]))
  · exact ⟨fun new => (transitionStep_begins running serves ⟨lo, hi⟩ new).1, fun new => (transitionStep_begins running serves ⟨lo, hi⟩ new).2,
      fun begun => (transitionStep_goes_on running serves begun).1, fun begun => (transitionStep_goes_on running serves begun).2.1,
      fun begun => (transitionStep_goes_on running serves begun).2.2⟩
  · have expiry : exec .lcsChallengeExpiry s = execLcsChallengeExpiry s := rfl
    rw [expiry, execLcsChallengeExpiry, drawn]
    exact ⟨fun ended => if_pos ended, fun before => if_neg (Nat.not_le.mpr before)⟩
  · rw [exec_grantExpiry, execGrantExpiry, if_pos ⟨granted, ended⟩, State.endGrantNext_of_granted granted]
    split
    · exact ⟨_, rfl, rfl, fun _ => State.resetDue_due _ 2 10, rfl⟩
    · next harmless => exact ⟨_, rfl, rfl, fun rights => absurd rights (by simpa using harmless), rfl⟩
  · exact if_neg (by grind)

end Sys2Proof.Machine
end


section
/-! Tamper samples, alarms and the response of a frame (chapter 15). -/

namespace Sys2Proof.Machine

/-! ## The sources -/

theorem State.tmpSrc_setTmpSrc (s : State) (n : Nat) (x : TamperSrc) (wf : SMap.wf TamperSrc.reset s.tamper.sources = true) :
    (s.setTmpSrc n x).tmpSrc n = x := SMap.get_set _ n x s.tamper.sources wf

theorem State.tmpSrc_setTmpSrc_ne (s : State) {n m : Nat} (x : TamperSrc) (other : n ≠ m) : (s.setTmpSrc m x).tmpSrc n = s.tmpSrc n :=
  SMap.get_set_ne _ _ m n x s.tamper.sources other

/-- What a sample makes of a source (R374, R375). -/
def State.sampled (s : State) (r : Reading) (n : Nat) : TamperSrc :=
  let now := if n ≤ 10 then s.tamper.sampleBattery else s.tamper.sampleMain
  let recent := (s.tmpSrc n).events.filter fun e => decide (now < e + s.tamperW n)
  ⟨if s.tamperCondition r n && s.tamperArmed n then recent ++ [now] else recent, s.tamperCondition r n⟩

theorem State.sampleSource_eq (s : State) (r : Reading) (n : Nat) : s.sampleSource r n = s.setTmpSrc n (s.sampled r n) := rfl

theorem State.sampled_setTmpSrc_ne (s : State) (r : Reading) {n m : Nat} (x : TamperSrc) (other : n ≠ m) :
    (s.setTmpSrc m x).sampled r n = s.sampled r n := by
  have src := s.tmpSrc_setTmpSrc_ne x other
  unfold State.sampled
  rw [src]
  rfl

/-- A sample of several sources takes each of them, and no other. -/
theorem State.tmpSrc_samples (r : Reading) {l : List Nat} (apart : l.Nodup) {s : State} (wf : SMap.wf TamperSrc.reset s.tamper.sources = true) (n : Nat) :
    (l.foldl (fun st n => st.sampleSource r n) s).tmpSrc n = if n ∈ l then s.sampled r n else s.tmpSrc n := by
  induction l generalizing s with
  | nil => rfl
  | cons m l ih =>
    obtain ⟨notLater, apart⟩ := List.nodup_cons.mp apart
    rw [List.foldl_cons, State.sampleSource_eq, ih apart (SMap.wf_set _ m _ _ wf)]
    by_cases here : n = m
    · subst here
      rw [if_neg notLater, if_pos List.mem_cons_self, State.tmpSrc_setTmpSrc _ _ _ wf]
    · rw [s.sampled_setTmpSrc_ne r _ here, s.tmpSrc_setTmpSrc_ne _ here]
      simp [here]

/-- Samples change the sources alone. -/
theorem State.samples_frame (r : Reading) (l : List Nat) (s : State) : ∃ x,
    l.foldl (fun st n => st.sampleSource r n) s = { s with tamper := { s.tamper with sources := x } } := by
  induction l generalizing s with
  | nil => exact ⟨s.tamper.sources, rfl⟩
  | cons n l ih =>
    obtain ⟨x, more⟩ := ih (s.sampleSource r n)
    exact ⟨x, more⟩

/-- The events that a sample leaves at a source: its own, where the source counts, and some of those before it. -/
theorem State.sampled_events (s : State) (r : Reading) (n : Nat) :
    (s.tamperCondition r n = true → s.tamperArmed n = true →
      (if n ≤ 10 then s.tamper.sampleBattery else s.tamper.sampleMain) ∈ (s.sampled r n).events) ∧
    (s.tamperCondition r n = false ∨ s.tamperArmed n = false → ∀ e ∈ (s.sampled r n).events, e ∈ (s.tmpSrc n).events) := by
  refine ⟨fun met armed => ?_, fun without e held => ?_⟩
  · have counts : (s.tamperCondition r n && s.tamperArmed n) = true := by rw [met, armed]; rfl
    simp only [State.sampled]
    rw [if_pos counts]
    exact List.mem_append_right _ (List.mem_singleton_self _)
  · have counts : ¬ (s.tamperCondition r n && s.tamperArmed n) = true := by rcases without with h | h <;> simp [h]
    simp only [State.sampled] at held
    rw [if_neg counts] at held
    exact (List.mem_filter.mp held).1

/-- The sources of a domain. -/
def domainSources (battery : Bool) : List Nat := if battery then List.range 11 else (List.range 13).map fun i => i + 11

theorem mem_domainSources {battery : Bool} {n : Nat} : n ∈ domainSources battery ↔ n < 24 ∧ (n ≤ 10 ↔ battery = true) := by
  cases battery
  · simp only [domainSources, List.mem_map, List.mem_range, Bool.false_eq_true, if_false, iff_false]
    exact ⟨by omega, fun h => ⟨n - 11, by omega⟩⟩
  · simp only [domainSources, List.mem_range, if_true, iff_true]
    omega

theorem domainSources_nodup (battery : Bool) : (domainSources battery).Nodup := by cases battery <;> decide

/-- A sample is counted in its domain; one of the battery domain reads the junction. -/
def State.sampleCounted (s : State) (battery : Bool) (r : Reading) : State :=
  if battery then { s with tamper := { s.tamper with sampleBattery := s.tamper.sampleBattery + 1 }, rst := { s.rst with junction := r.temp } }
  else { s with tamper := { s.tamper with sampleMain := s.tamper.sampleMain + 1 } }

theorem exec_tamperSample (battery : Bool) (r : Reading) (s : State) : exec (.tamperSample battery r) s = execTamperSample battery r s := rfl

theorem exec_tamperSample_of_sampled {battery : Bool} {s : State} (r : Reading)
    (taken : battery = true ∨ (s.rst.power ≠ .battery ∧ s.rst.railsDown = [])) :
    exec (.tamperSample battery r) s = .next ((domainSources battery).foldl (fun st n => st.sampleSource r n) (s.sampleCounted battery r)) := by
  rw [exec_tamperSample, execTamperSample, if_neg (by rcases taken with h | ⟨power, rails⟩ <;> simp [*])]
  rfl

theorem State.sampleCounted_rules (s : State) (battery : Bool) (r : Reading) (n : Nat) :
    (s.sampleCounted battery r).tamperCondition r n = s.tamperCondition r n ∧ (s.sampleCounted battery r).tamperArmed n = s.tamperArmed n ∧
      (s.sampleCounted battery r).tmpSrc n = s.tmpSrc n := by
  unfold State.sampleCounted
  split <;> exact ⟨rfl, rfl, rfl⟩

/-- What a sample leaves. -/
theorem tamperSample_samples {battery : Bool} {s : State} (r : Reading) (taken : battery = true ∨ (s.rst.power ≠ .battery ∧ s.rst.railsDown = []))
    (wf : SMap.wf TamperSrc.reset s.tamper.sources = true) : ∃ t, exec (.tamperSample battery r) s = .next t ∧
      (∀ n < 24, (n ≤ 10 ↔ battery = true) → (t.tmpSrc n).condition = s.tamperCondition r n ∧
        (s.tamperCondition r n = true → s.tamperArmed n = true → (if battery then t.tamper.sampleBattery else t.tamper.sampleMain) ∈ (t.tmpSrc n).events) ∧
        (s.tamperCondition r n = false ∨ s.tamperArmed n = false → ∀ e ∈ (t.tmpSrc n).events, e ∈ (s.tmpSrc n).events)) ∧
      (∀ n, ¬ (n < 24 ∧ (n ≤ 10 ↔ battery = true)) → t.tmpSrc n = s.tmpSrc n) ∧
      t.tamper.latched = s.tamper.latched ∧ t.tamper.alarms = s.tamper.alarms ∧ t.keys = s.keys ∧ t.jobs = s.jobs ∧ t.dict = s.dict := by
  have wf' : SMap.wf TamperSrc.reset (s.sampleCounted battery r).tamper.sources = true := by
    unfold State.sampleCounted
    split <;> exact wf
  have srcs := State.tmpSrc_samples r (domainSources_nodup battery) wf'
  obtain ⟨x, frame⟩ := State.samples_frame r (domainSources battery) (s.sampleCounted battery r)
  refine ⟨_, exec_tamperSample_of_sampled r taken, fun n lt domain => ?_, fun n outside => ?_, ?_⟩
  · obtain ⟨condition, armed, src⟩ := s.sampleCounted_rules battery r n
    obtain ⟨notes, keeps⟩ := (s.sampleCounted battery r).sampled_events r n
    rw [condition, armed] at notes keeps
    rw [src] at keeps
    rw [srcs n, if_pos (mem_domainSources.mpr ⟨lt, domain⟩), frame]
    refine ⟨condition, fun met counts => ?_, keeps⟩
    simpa only [domain] using notes met counts
  · rw [srcs n, if_neg (mt mem_domainSources.mp outside), (s.sampleCounted_rules battery r n).2.2]
  · rw [frame]
    unfold State.sampleCounted
    split <;> exact ⟨rfl, rfl, rfl, rfl, rfl⟩

/-! ## Alarms (R375, R383, R384) -/

/-- The battery domain's own part of a response: the grant's end, the latches and the battery log. -/
def BatteryRecords (s t : State) : Prop :=
  t = { s with
    life := t.life, rst := t.rst, dict := t.dict
    tamper := { s.tamper with latched := t.tamper.latched, batLog := t.tamper.batLog, batSample := t.tamper.batSample } }

namespace BatteryRecords

theorem trans {s t u : State} (st : BatteryRecords s t) (tu : BatteryRecords t u) : BatteryRecords s u := by
  unfold BatteryRecords at *
  rw [tu, st]
theorem keys {s t : State} (h : BatteryRecords s t) : t.keys = s.keys := by rw [h]
theorem jobs {s t : State} (h : BatteryRecords s t) : t.jobs = s.jobs := by rw [h]
theorem alarms {s t : State} (h : BatteryRecords s t) : t.tamper.alarms = s.tamper.alarms := by rw [h]
theorem pendingActions {s t : State} (h : BatteryRecords s t) : t.tamper.pendingActions = s.tamper.pendingActions := by rw [h]
theorem sampleBattery {s t : State} (h : BatteryRecords s t) : t.tamper.sampleBattery = s.tamper.sampleBattery := by rw [h]
theorem tmpSrc {s t : State} (h : BatteryRecords s t) (n : Nat) : t.tmpSrc n = s.tmpSrc n := by rw [h]; rfl

end BatteryRecords

theorem State.endGrantNext_batteryRecords (s : State) : BatteryRecords s s.endGrantNext := by
  simp only [State.endGrantNext]
  split
  · rfl
  · split <;> rfl

theorem State.latch_batteryRecords (s : State) (n r : Nat) : BatteryRecords s (s.latch n r) := by
  unfold State.latch
  split <;> rfl

theorem State.batRecord_batteryRecords (s : State) (sources applied held state : Nat) : BatteryRecords s (s.batRecord sources applied held state) := by
  simp only [State.batRecord]
  split <;> rfl

theorem State.batAlarmRecord_batteryRecords (s : State) (n applied held state : Nat) : BatteryRecords s (s.batAlarmRecord n applied held state) := by
  have new : BatteryRecords s { s.batRecord (2 ^ n) applied held state with
      tamper := { (s.batRecord (2 ^ n) applied held state).tamper with batSample := some s.tamper.sampleBattery } } :=
    (s.batRecord_batteryRecords (2 ^ n) applied held state).trans rfl
  unfold State.batAlarmRecord
  split
  · dsimp only
    split
    · rfl
    · exact new
  · exact new

theorem State.batRecord_last (s : State) (sources applied held state : Nat) :
    ∃ b, (s.batRecord sources applied held state).tamper.batLog.getLast? = some b ∧ b.sources = sources := by
  have last (l : List BatLog) (b : BatLog) : ((l ++ [b]).drop (l.length + 1 - 64)).getLast? = some b := by
    rw [List.getLast?_drop, if_neg (by simp), List.getLast?_concat]
  simp only [State.batRecord]
  split
  · exact ⟨_, last s.tamper.batLog _, rfl⟩
  · exact ⟨_, last s.tamper.batLog _, rfl⟩

/-- The newest record of the battery log names the source; where it is not shared with another alarm of the sample, it alone (R384). -/
theorem State.batAlarmRecord_last (s : State) (n applied held state : Nat) :
    ∃ b, (s.batAlarmRecord n applied held state).tamper.batLog.getLast? = some b ∧ bitOf b.sources n = true ∧
      (s.tamper.batSample ≠ some s.tamper.sampleBattery → b.sources = 2 ^ n) := by
  obtain ⟨b, last, sources⟩ := s.batRecord_last (2 ^ n) applied held state
  have new : bitOf b.sources n = true ∧ (s.tamper.batSample ≠ some s.tamper.sampleBattery → b.sources = 2 ^ n) :=
    ⟨by rw [sources, bitOf, Nat.testBit_two_pow_self], fun _ => sources⟩
  unfold State.batAlarmRecord
  split
  · dsimp only
    split
    · next shared =>
      exact ⟨_, List.getLast?_concat, by simp [bitOf, Nat.testBit_or, Nat.testBit_two_pow_self], fun apart => absurd shared.1 apart⟩
    · exact ⟨b, last, new⟩
  · exact ⟨b, last, new⟩

/-- The part of the battery domain, with the zeroise that it makes at once. -/
theorem State.batteryPart_records (s : State) (n r held state : Nat) :
    BatteryRecords (if bitOf r 6 then s.zeroiseBattery else s) (s.batteryPart n r held state) ∧
    ∃ b, (s.batteryPart n r held state).tamper.batLog.getLast? = some b ∧ bitOf b.sources n = true ∧
      (s.tamper.batSample ≠ some s.tamper.sampleBattery → b.sources = 2 ^ n) := by
  simp only [State.batteryPart]
  have tamper : (if bitOf r 6 then s.zeroiseBattery else s).tamper = s.tamper := by split <;> rfl
  generalize (if bitOf r 6 then s.zeroiseBattery else s) = u at tamper
  have ends : BatteryRecords u (if setLatches r then u.endGrantNext else u) ∧ (if setLatches r then u.endGrantNext else u).tamper = u.tamper := by
    split
    · exact ⟨u.endGrantNext_batteryRecords, by simp only [State.endGrantNext]; split_ifs <;> rfl⟩
    · exact ⟨rfl, rfl⟩
  generalize (if setLatches r then u.endGrantNext else u) = v at ends
  obtain ⟨ends, same⟩ := ends
  have latched : (v.latch n r).tamper.batSample = v.tamper.batSample := by unfold State.latch; split <;> rfl
  refine ⟨ends.trans ((v.latch_batteryRecords n r).trans (State.batAlarmRecord_batteryRecords _ _ _ _ _)), ?_⟩
  obtain ⟨b, last, bit, sources⟩ := (v.latch n r).batAlarmRecord_last n (64 * b2n (bitOf r 6)) held state
  rw [latched, (v.latch_batteryRecords n r).sampleBattery, same, tamper] at sources
  exact ⟨b, last, bit, sources⟩

/-- The count of a source starts again at its alarm. -/
def State.countedAgain (s : State) (n : Nat) : State := s.setTmpSrc n { s.tmpSrc n with events := [] }

theorem exec_tamperAlarm (n : Nat) (s : State) : exec (.tamperAlarm n) s = execTamperAlarm n s := rfl

theorem exec_tamperAlarm_of_few {n : Nat} {s : State}
    (few : s.tamperArmed n = false ∨ (s.tmpSrc n).events.length < s.tamperK n ∨ (s.tmpSrc n).events = []) : exec (.tamperAlarm n) s = .next s := by
  rw [exec_tamperAlarm, execTamperAlarm]
  exact if_pos (by rcases few with h | h | h <;> simp [h])

section
variable {n : Nat} {s : State} (armed : s.tamperArmed n = true) (reached : s.tamperK n ≤ (s.tmpSrc n).events.length) (some_ : (s.tmpSrc n).events ≠ [])
include armed reached some_

theorem tamperAlarm_reached : ¬ (!s.tamperArmed n || decide ((s.tmpSrc n).events.length < s.tamperK n) || (s.tmpSrc n).events.isEmpty) = true := by
  simp [armed, Nat.not_lt.mpr reached, some_]

/-- An alarm in service: the battery domain's own part at once, and the set for the Keeper. -/
theorem exec_tamperAlarm_of_run (run : s.rst.power = .run) (up : n ≤ 10 ∨ s.rst.railsDown = []) :
    exec (.tamperAlarm n) s = .next ((if n ≤ 10 then
        (if s.startUp then (s.countedAgain n).batteryPart n (s.tamperSet n) 0 2
         else if bitOf (s.tamperSet n) 6 then (s.countedAgain n).zeroiseBattery else s.countedAgain n)
      else s.countedAgain n).keeperAlarm n (s.tamperSet n)) := by
  rw [exec_tamperAlarm, execTamperAlarm, if_neg (tamperAlarm_reached armed reached some_)]
  have power : ((s.setTmpSrc n { s.tmpSrc n with events := [] }).rst).power = .run := run
  simp only [power]
  by_cases battery : n ≤ 10
  · rw [if_pos battery, if_pos battery]
    rfl
  · rw [if_neg battery, if_neg battery]
    exact if_pos (up.resolve_left battery)

/-- An alarm of the battery domain on battery power or in STANDBY. -/
theorem exec_tamperAlarm_of_off (off : s.rst.power = .battery ∨ s.rst.power = .standby) (battery : n ≤ 10) : ∃ state,
    exec (.tamperAlarm n) s = .next (((s.countedAgain n).batteryAlarm n (s.tamperSet n) state).count (Key.TMP_SRC_ALARMS n)) := by
  rw [exec_tamperAlarm, execTamperAlarm, if_neg (tamperAlarm_reached armed reached some_)]
  rcases off with off | off
  · have power : ((s.setTmpSrc n { s.tmpSrc n with events := [] }).rst).power = .battery := off
    simp only [power, if_pos battery]
    exact ⟨0, rfl⟩
  · have power : ((s.setTmpSrc n { s.tmpSrc n with events := [] }).rst).power = .standby := off
    simp only [power, if_pos battery]
    exact ⟨1, rfl⟩

/-- What an alarm in service does. -/
theorem tamperAlarm_in_service (run : s.rst.power = .run) (up : n ≤ 10 ∨ s.rst.railsDown = []) :
    ∃ t, exec (.tamperAlarm n) s = .next t ∧ t.tamper.alarms = s.tamper.alarms ++ [(n, s.tamperSet n)] ∧
      (SMap.wf TamperSrc.reset s.tamper.sources = true → (t.tmpSrc n).events = []) ∧
      (n ≤ 10 → bitOf (s.tamperSet n) 6 = true → t.keys.baseSecret = none ∧ t.keys.baseSecret2 = none) ∧
      (10 < n ∨ bitOf (s.tamperSet n) 6 = false → t.keys = s.keys) ∧ t.jobs = s.jobs := by
  have restarted (wf : SMap.wf TamperSrc.reset s.tamper.sources = true) : ((s.countedAgain n).tmpSrc n).events = [] := by
    rw [State.countedAgain, State.tmpSrc_setTmpSrc _ _ _ wf]
  have destroyed : (s.countedAgain n).zeroiseBattery.keys.baseSecret = none ∧ (s.countedAgain n).zeroiseBattery.keys.baseSecret2 = none := ⟨rfl, rfl⟩
  refine ⟨_, exec_tamperAlarm_of_run armed reached some_ run up, ?_⟩
  simp only [State.keeperAlarm]
  by_cases battery : n ≤ 10
  · rw [if_pos battery]
    split
    · have part := ((s.countedAgain n).batteryPart_records n (s.tamperSet n) 0 2).1
      refine ⟨?_, fun wf => ?_, fun _ all => ?_, fun less => ?_, ?_⟩
      · rw [part.alarms]
        split <;> rfl
      · refine (congrArg TamperSrc.events (part.tmpSrc n)).trans ?_
        split <;> exact restarted wf
      · rw [part.keys, if_pos all]
        exact destroyed
      · rw [part.keys, if_neg (by simp [less.resolve_left (by omega)])]
        rfl
      · rw [part.jobs]
        split <;> rfl
    · split
      · next all => exact ⟨rfl, restarted, fun _ _ => destroyed, fun less => absurd all (by simp [less.resolve_left (by omega)]), rfl⟩
      · next less => exact ⟨rfl, restarted, fun _ all => absurd all less, fun _ => rfl, rfl⟩
  · rw [if_neg battery]
    exact ⟨rfl, restarted, fun h => absurd h battery, fun _ => rfl, rfl⟩

/-- What an alarm of the battery domain does outside service. -/
theorem tamperAlarm_off (off : s.rst.power = .battery ∨ s.rst.power = .standby) (battery : n ≤ 10) :
    ∃ t, exec (.tamperAlarm n) s = .next t ∧ t.tamper.pendingActions = s.tamper.pendingActions ||| s.tamperSet n ∧
      t.tamper.alarms = s.tamper.alarms ∧ (bitOf (s.tamperSet n) 6 = true → t.keys.baseSecret = none ∧ t.keys.baseSecret2 = none) ∧
      ∃ b, t.tamper.batLog.getLast? = some b ∧ bitOf b.sources n = true ∧ (s.tamper.batSample ≠ some s.tamper.sampleBattery → b.sources = 2 ^ n) := by
  obtain ⟨state, run⟩ := exec_tamperAlarm_of_off armed reached some_ off battery
  obtain ⟨part, b, last, bit, sources⟩ := (s.countedAgain n).batteryPart_records n (s.tamperSet n) (s.tamperSet n) state
  refine ⟨_, run, ?_, ?_, fun all => ?_, b, by simpa [State.batteryAlarm] using last, bit, sources⟩
  · simp only [State.count_tamper, State.batteryAlarm]
    rw [part.pendingActions]
    split <;> rfl
  · simp only [State.count_tamper, State.batteryAlarm]
    rw [part.alarms]
    split <;> rfl
  · simp only [State.count_keys, State.batteryAlarm]
    rw [part.keys, if_pos all]
    exact ⟨rfl, rfl⟩

end

/-! ## The response of a frame (R378 to R381, R386) -/

/-- The union of the sets of the alarms that wait. -/
def State.responseSet (s : State) : Nat := s.tamper.alarms.foldl (fun a x => a ||| x.2) 0

theorem State.chkZeroise_keeps (s : State) :
    s.chkZeroise.tamper = s.tamper ∧ s.chkZeroise.keys = s.keys := by
  unfold State.chkZeroise
  refine List.foldlRecOn (motive := fun t : State => t.tamper = s.tamper ∧ t.keys = s.keys) _ _ ⟨rfl, rfl⟩ fun t kept u _ => ?_
  have halts : (t.chkHalt u).tamper = t.tamper ∧ (t.chkHalt u).keys = t.keys := by
    unfold State.chkHalt
    split <;> simp [State.chkMismatch, State.chkStop]
  simpa [halts] using kept

/-- The frame in which the response of the alarms that wait is over. -/
def State.responseFrame (s : State) : Nat :=
  if bitOf s.responseSet 6 || bitOf s.responseSet 5 then s.tick + s.takeNat.1 % (32 / periodUs s.period + 2) else s.tick

/-- The alarms of the frame are taken up; a set that latches ends the grant, and LOCK or a zeroise meets the jobs. -/
def State.takeAlarms (s : State) : State :=
  let t := { s.takeNat.2 with tamper := { s.tamper with alarms := [], respond := s.tamper.respond ++ [(s.responseFrame, s.responseSet, s.tamper.alarms)] } }
  let t := if setLatches s.responseSet then t.endGrantNext else t
  if silences s.responseSet then t
  else if bitOf s.responseSet 2 || (bitOf s.responseSet 6 || bitOf s.responseSet 5) then
    t.jobs.foldl (fun st j => st.tamperJob (bitOf s.responseSet 6 || bitOf s.responseSet 5) j) t
  else t

theorem State.takeAlarms_rules (s : State) :
    s.takeAlarms.tamper.alarms = [] ∧ s.takeAlarms.tamper.respond = s.tamper.respond ++ [(s.responseFrame, s.responseSet, s.tamper.alarms)] ∧
      s.takeAlarms.keys = s.keys ∧ s.takeAlarms.wm = s.wm := by
  have ends (t : State) (zero : Bool) : EndsJobs t (if silences s.responseSet then t
      else if bitOf s.responseSet 2 || (bitOf s.responseSet 6 || bitOf s.responseSet 5) then t.jobs.foldl (fun st j => st.tamperJob zero j) t
      else t) := by
    split
    · rfl
    · split
      · exact tamperJobs_endsJobs _ _ _
      · rfl
  have grant (t : State) : (if setLatches s.responseSet then t.endGrantNext else t).tamper = t.tamper ∧
      (if setLatches s.responseSet then t.endGrantNext else t).keys = t.keys ∧ (if setLatches s.responseSet then t.endGrantNext else t).wm = t.wm := by
    split
    · simp only [State.endGrantNext]
      split_ifs <;> exact ⟨rfl, rfl, rfl⟩
    · exact ⟨rfl, rfl, rfl⟩
  obtain ⟨tamper, keys, wm⟩ := grant { s.takeNat.2 with tamper := { s.tamper with
    alarms := [], respond := s.tamper.respond ++ [(s.responseFrame, s.responseSet, s.tamper.alarms)] } }
  have stops := ends (if setLatches s.responseSet then State.endGrantNext { s.takeNat.2 with tamper := { s.tamper with
      alarms := [], respond := s.tamper.respond ++ [(s.responseFrame, s.responseSet, s.tamper.alarms)] } }
    else { s.takeNat.2 with tamper := { s.tamper with
      alarms := [], respond := s.tamper.respond ++ [(s.responseFrame, s.responseSet, s.tamper.alarms)] } })
    (bitOf s.responseSet 6 || bitOf s.responseSet 5)
  refine ⟨?_, ?_, stops.keys.trans keys, stops.wm.trans wm⟩
  · exact congrArg Tamper.alarms (stops.tamper.trans tamper)
  · exact congrArg Tamper.respond (stops.tamper.trans tamper)

theorem State.respond_eq (s : State) : s.respond =
    if bitOf s.responseSet 6 then s.takeAlarms.chkZeroise.zeroiseAll
    else if bitOf s.responseSet 6 || bitOf s.responseSet 5 then s.takeAlarms.chkZeroise.zeroiseWorking else s.takeAlarms := rfl

theorem State.responseFrame_bounds (s : State) : s.tick ≤ s.responseFrame ∧ s.responseFrame ≤ s.tick + 32 / periodUs s.period + 1 := by
  unfold State.responseFrame
  generalize 32 / periodUs s.period = q
  have short := Nat.mod_lt s.takeNat.1 (show 0 < q + 2 by omega)
  split <;> omega

theorem State.responseFrame_of_no_zeroise {s : State} (working : bitOf s.responseSet 5 = false) (all : bitOf s.responseSet 6 = false) :
    s.responseFrame = s.tick := by
  simp [State.responseFrame, working, all]

theorem State.zeroiseWorking_wipes (s : State) :
    s.zeroiseWorking.keys.cache = [] ∧ s.zeroiseWorking.ent.drbg.live = false ∧ s.zeroiseWorking.lanes.ladder = [] ∧
      s.zeroiseWorking.tamper = s.tamper ∧ s.zeroiseWorking.keys.baseSecret = s.keys.baseSecret ∧ s.zeroiseWorking.keys.hearts = s.keys.hearts := by
  simp [State.zeroiseWorking]

theorem State.zeroiseAll_wipes (s : State) :
    s.zeroiseAll.keys.cache = [] ∧ s.zeroiseAll.ent.drbg.live = false ∧ s.zeroiseAll.lanes.ladder = [] ∧ s.zeroiseAll.tamper = s.tamper ∧
      s.zeroiseAll.keys.baseSecret = none ∧ s.zeroiseAll.keys.baseSecret2 = none ∧ s.zeroiseAll.keys.hearts = [] ∧
      s.zeroiseAll.keys.baseKey = none ∧ s.zeroiseAll.chain.domainKey = none := by
  simp [State.zeroiseAll, State.zeroiseBattery, State.zeroiseWorking]

theorem exec_tamperResponse (s : State) : exec .tamperResponse s = execTamperResponse s := rfl

/-- The response of a frame. -/
theorem tamperResponse_responds {s : State} (waits : s.tamper.alarms ≠ []) (powered : s.rst.power ≠ .battery) (runs : s.rst.power ≠ .held ∨ s.rst.reach < 2) :
    ∃ t z, exec .tamperResponse s = .next t ∧ t.tamper.alarms = [] ∧ t.tamper.respond = s.tamper.respond ++ [(z, s.responseSet, s.tamper.alarms)] ∧
      s.tick ≤ z ∧ z ≤ s.tick + 32 / periodUs s.period + 1 ∧
      (bitOf s.responseSet 5 = false → bitOf s.responseSet 6 = false → z = s.tick ∧ t.keys = s.keys ∧ t.wm = s.wm) ∧
      (bitOf s.responseSet 5 = true ∨ bitOf s.responseSet 6 = true → t.keys.cache = [] ∧ t.ent.drbg.live = false ∧ t.lanes.ladder = []) ∧
      (bitOf s.responseSet 6 = true → t.keys.baseSecret = none ∧ t.keys.baseSecret2 = none ∧ t.keys.hearts = [] ∧ t.keys.baseKey = none ∧ t.chain.domainKey = none) ∧
      (bitOf s.responseSet 6 = false → t.keys.baseSecret = s.keys.baseSecret ∧ t.keys.hearts = s.keys.hearts) := by
  obtain ⟨alarms, respond, keys, wm⟩ := s.takeAlarms_rules
  obtain ⟨checkTamper, checkKeys⟩ := s.takeAlarms.chkZeroise_keeps
  obtain ⟨soon, late⟩ := s.responseFrame_bounds
  refine ⟨s.respond, s.responseFrame, if_neg ?_, ?_⟩
  · rintro (none_ | battery | ⟨held, wide⟩)
    · exact waits none_
    · exact powered battery
    · exact runs.elim (fun h => h held) (by omega)
  rw [s.respond_eq]
  cases all : bitOf s.responseSet 6
  · cases working : bitOf s.responseSet 5
    · simp only [Bool.false_eq_true, if_false, Bool.or_self]
      exact ⟨alarms, respond, soon, late, fun _ _ => ⟨State.responseFrame_of_no_zeroise working all, keys, wm⟩, by simp, nofun, fun _ => by rw [keys]; exact ⟨rfl, rfl⟩⟩
    · simp only [Bool.false_eq_true, if_false, Bool.false_or, if_true]
      obtain ⟨cache, drbg, ladder, tamper, secret, hearts⟩ := s.takeAlarms.chkZeroise.zeroiseWorking_wipes
      rw [tamper, checkTamper, secret, hearts, checkKeys, keys]
      exact ⟨alarms, respond, soon, late, nofun, fun _ => ⟨cache, drbg, ladder⟩, nofun, fun _ => ⟨rfl, rfl⟩⟩
  · simp only [if_true]
    obtain ⟨cache, drbg, ladder, tamper, secrets⟩ := s.takeAlarms.chkZeroise.zeroiseAll_wipes
    rw [tamper, checkTamper]
    exact ⟨alarms, respond, soon, late, nofun, fun _ => ⟨cache, drbg, ladder⟩, fun _ => secrets, nofun⟩

/-- Settles O53, by what a sample, an alarm and the response of a frame do. -/
theorem tamperSampledAlarmedAndAnswered : Obligations.TamperSampledAlarmedAndAnswered := by
  unfold Obligations.TamperSampledAlarmedAndAnswered
  intro s
  refine ⟨fun r down => ?_, fun battery r taken wf => tamperSample_samples r taken wf, fun n few => exec_tamperAlarm_of_few few,
    fun n armed reached some_ => ⟨fun run up => tamperAlarm_in_service armed reached some_ run up, fun off battery => tamperAlarm_off armed reached some_ off battery⟩,
    fun idle => if_pos idle, fun waits powered runs => tamperResponse_responds waits powered runs, fun battery => ⟨s.batteryLost, if_pos battery, ?_⟩,
    fun powered => if_neg powered⟩
  · rw [exec_tamperSample, execTamperSample]
    exact if_pos (by simpa using down)
  · exact ⟨rfl, rfl, rfl, rfl, rfl, rfl, rfl, rfl, rfl, rfl⟩

end Sys2Proof.Machine
end


section
/-! Starts of each reach, and the idle state (chapter 19). -/

namespace Sys2Proof.Machine

/-! ## What the steps before the boot leave (R430 to R432) -/

/-- The fuse load: records, LOCK, and what it finds. -/
def StartRecords (s t : State) : Prop :=
  t = { s with
    dict := t.dict, sil := t.sil, tamper := { s.tamper with locked := t.tamper.locked }, host := t.host
    rst := { s.rst with trimState := t.rst.trimState, trim := t.rst.trim, optionsState := t.rst.optionsState } }

theorem StartRecords.trans {s t u : State} (st : StartRecords s t) (tu : StartRecords t u) : StartRecords s u := by
  unfold StartRecords at *
  rw [tu, st]

theorem State.event_startRecords (s : State) (c : Nat) : StartRecords s (s.event c) := rfl

theorem State.enterLock_startRecords (s : State) (cause : Nat) : StartRecords s (s.enterLock cause) := by
  simp only [State.enterLock]
  split <;> rfl

theorem State.dropLockCause_startRecords (s : State) (bit : Nat) : StartRecords s (s.dropLockCause bit) := by
  simp only [State.dropLockCause]
  split
  · split <;> rfl
  · rfl

theorem StartRecords.ite {s t u : State} {c : Prop} [Decidable c] (ht : StartRecords s t) (hu : StartRecords s u) : StartRecords s (if c then t else u) := by
  split
  · exact ht
  · exact hu

/-- The fuse load leaves all but its own findings. -/
theorem State.fuseLoad_startRecords (s : State) : StartRecords s s.fuseLoad := by
  simp only [State.fuseLoad]
  refine .ite (.trans ?_ (State.event_startRecords _ _)) ?_
  all_goals
    refine .ite (.trans ?_ (State.enterLock_startRecords _ _)) (.ite (.trans ?_ (State.dropLockCause_startRecords _ _)) ?_)
    all_goals exact .ite rfl rfl

/-- The strap read sets the code that 12 of 16 conversions return, else 0. -/
theorem State.strapRead_frame (s : State) (conv : List Nat) :
    s.strapRead conv = { s with rst := { s.rst with strap := (strapCode conv).getD 0 }, sil := (s.strapRead conv).sil } := by
  unfold State.strapRead
  split
  · next code => simp only [code, Option.getD_some]
  · next none_ =>
    simp only [none_, Option.getD_none]
    rfl

/-! ## The boot (R434, R435) -/

/-- Only the roles of the public-key lanes change. -/
def OnlyLanes (s t : State) : Prop := t = { s with lanes := t.lanes }

theorem State.assignSpares_onlyLanes (s : State) : OnlyLanes s s.assignSpares := by
  unfold State.assignSpares
  refine List.foldlRecOn (motive := OnlyLanes s) _ _ rfl fun t kept n _ => ?_
  unfold OnlyLanes at *
  rw [kept]
  rfl

/-- With two good images the selected slot is taken, without a fallback. -/
theorem State.imageSelect_of_good {s : State} {b : Boot} (goodA : imageOk b.slotA = true) (goodB : imageOk b.slotB = true) :
    ∃ slot release measurement, s.imageSelect b = some { s with rst := { s.rst with
      bootSlot := slot, bootFallback := false, fwRelease := release, fwMeasurement := measurement } } := by
  simp only [State.imageSelect]
  by_cases first : s.bootNext = 0
  · rw [if_pos first, if_pos goodA]
    exact ⟨_, _, _, rfl⟩
  · rw [if_neg first, if_pos goodB]
    exact ⟨_, _, _, rfl⟩

theorem State.imageSelect_of_bad {s : State} {b : Boot} (badA : imageOk b.slotA = false) (badB : imageOk b.slotB = false) :
    s.imageSelect b = none := by
  have bad (n : Nat) : imageOk (if n = 0 then b.slotA else b.slotB) = false := by split <;> assumption
  simp only [State.imageSelect, bad, Bool.false_eq_true, if_false]

theorem State.transitionResume_of_whole {s : State} (whole : s.begunTransition = none) :
    s.transitionResume = { s with life := { s.life with transition := none } } := by
  unfold State.transitionResume
  rw [whole]

/-- The boot of a selected image, once a transition that stood open has ended. -/
theorem State.startFrom_of_selected {s u v : State} (reach : Nat) {b : Boot} (rom : b.romOk = true) (alive : s.lifeCycle ≠ 4)
    (selected : s.imageSelect b = some u) (resumed : u.transitionResume = v) (live : v.lifeCycle ≠ 4) :
    s.startFrom reach b = { v.assignSpares with
      wm := []
      keeper := { v.assignSpares.keeper with running := true, loaded := true }
      rst := { v.assignSpares.rst with power := .run, starting := reach, awaitDrbg := true, resetNLow := false } } := by
  unfold State.startFrom
  rw [if_neg (by simp [rom]), if_neg alive, selected]
  dsimp only
  rw [resumed, if_neg live]

/-- A start with a good ROM and good images runs on until the DRBG serves. -/
theorem State.startFrom_runs {s : State} (reach : Nat) {b : Boot} (rom : b.romOk = true) (alive : s.lifeCycle ≠ 4) (whole : s.begunTransition = none)
    (goodA : imageOk b.slotA = true) (goodB : imageOk b.slotB = true) : ∃ t, s.startFrom reach b = t ∧
      t.rst.power = .run ∧ t.rst.starting = reach ∧ t.rst.awaitDrbg = true ∧ t.rst.strap = s.rst.strap ∧ t.rst.bootFallback = false ∧ t.tick = s.tick ∧
      t.window = s.window ∧ t.wm = [] ∧ t.keeper.running = true ∧ t.life.fuses = s.life.fuses ∧ t.keys = s.keys := by
  obtain ⟨slot, release, measurement, selected⟩ := s.imageSelect_of_good goodA goodB
  have resumes : State.transitionResume { s with rst := { s.rst with
      bootSlot := slot, bootFallback := false, fwRelease := release, fwMeasurement := measurement } } = { s with
        rst := { s.rst with bootSlot := slot, bootFallback := false, fwRelease := release, fwMeasurement := measurement }
        life := { s.life with transition := none } } := State.transitionResume_of_whole whole
  refine ⟨_, State.startFrom_of_selected reach rom alive selected resumes alive, ?_⟩
  rw [State.assignSpares_onlyLanes]
  exact ⟨rfl, rfl, rfl, rfl, rfl, rfl, rfl, rfl, rfl, rfl, rfl⟩

theorem State.startFrom_of_scrapped {s : State} (reach : Nat) {b : Boot} (rom : b.romOk = true) (scrapped : s.lifeCycle = 4) :
    s.startFrom reach b = { s with rst := { s.rst with scrapped := true } } := by
  unfold State.startFrom
  rw [if_neg (by simp [rom]), if_pos scrapped]

/-- A start without a good ROM or image stops, with a battery log record. -/
theorem State.startFrom_stops {s : State} (reach : Nat) {b : Boot}
    (bad : b.romOk = false ∨ (s.lifeCycle ≠ 4 ∧ imageOk b.slotA = false ∧ imageOk b.slotB = false)) :
    (s.startFrom reach b).rst = s.rst ∧ (s.startFrom reach b).tamper.batLog ≠ [] := by
  have stops : s.startFrom reach b = s.bootStops := by
    unfold State.startFrom
    cases rom : b.romOk
    · rfl
    · obtain ⟨alive, badA, badB⟩ := bad.resolve_left (by simp [rom])
      rw [if_neg (by simp), if_neg alive, State.imageSelect_of_bad badA badB]
  rw [stops, State.bootStops]
  obtain ⟨r, last, _⟩ := s.batRecord_last 0 0 0 2
  refine ⟨?_, fun empty => by simp [empty] at last⟩
  simp only [State.batRecord]
  split <;> rfl

/-! ## COLD and WARM starts (R433, R434) -/

/-- A COLD start before its boot: ticks from 0, the fuse load and the strap read. -/
def State.coldSteps (s : State) (conv : List Nat) : State :=
  let t := ({ s with tick := 0, window := false, dict := { s.dict with ceSince := [] } } : State).fuseLoad.strapRead conv
  { t with chain := { t.chain with helloDue := !t.tunnelOn } }

theorem State.coldSteps_rules (s : State) (conv : List Nat) :
    (s.coldSteps conv).tick = 0 ∧ (s.coldSteps conv).window = false ∧ (s.coldSteps conv).rst.strap = (strapCode conv).getD 0 ∧
      (s.coldSteps conv).rst.power = s.rst.power ∧ (s.coldSteps conv).rst.reach = s.rst.reach ∧ (s.coldSteps conv).life = s.life ∧
      (s.coldSteps conv).keys = s.keys := by
  unfold State.coldSteps
  rw [State.strapRead_frame, State.fuseLoad_startRecords]
  exact ⟨rfl, rfl, rfl, rfl, rfl, rfl, rfl⟩

theorem exec_coldStart (conv : List Nat) (b : Boot) (s : State) : exec (.coldStart conv b) s = execColdStart conv b s := rfl

theorem exec_coldStart_of_held {s : State} (conv : List Nat) (b : Boot) (held : s.rst.power = .held) (cold : s.rst.reach = 3) (rails : s.rst.railsDown = [])
    (tied : s.rst.testMode = false) (alive : s.rst.scrapped = false) : exec (.coldStart conv b) s = .next ((s.coldSteps conv).startFrom 3 b) := by
  rw [exec_coldStart, execColdStart, if_pos ⟨held, cold, rails, by simp [tied], by simp [alive]⟩]
  rfl

/-- A COLD start: it runs on, finds the unit scrapped, or stops. -/
theorem coldStart_rules {s : State} (conv : List Nat) (b : Boot) (held : s.rst.power = .held) (cold : s.rst.reach = 3) (rails : s.rst.railsDown = [])
    (tied : s.rst.testMode = false) (alive : s.rst.scrapped = false) :
    (b.romOk = true → s.lifeCycle ≠ 4 → s.begunTransition = none → imageOk b.slotA = true → imageOk b.slotB = true → ∃ t, exec (.coldStart conv b) s = .next t ∧
      t.rst.power = .run ∧ t.rst.starting = 3 ∧ t.rst.awaitDrbg = true ∧ t.tick = 0 ∧ t.window = false ∧ t.rst.strap = (strapCode conv).getD 0 ∧
      t.rst.bootFallback = false ∧ t.wm = [] ∧ t.keeper.running = true ∧ t.life.fuses = s.life.fuses ∧ t.keys = s.keys) ∧
    (b.romOk = true → s.lifeCycle = 4 → ∃ t, exec (.coldStart conv b) s = .next t ∧ t.rst.scrapped = true ∧ t.rst.power = .held) ∧
    (b.romOk = false ∨ (s.lifeCycle ≠ 4 ∧ imageOk b.slotA = false ∧ imageOk b.slotB = false) → ∃ t, exec (.coldStart conv b) s = .next t ∧
      t.rst.power = .held ∧ t.rst.reach = 3 ∧ t.tamper.batLog ≠ []) := by
  obtain ⟨tick, window, strap, power, reach, life, keys⟩ := s.coldSteps_rules conv
  have cycle : (s.coldSteps conv).lifeCycle = s.lifeCycle := by simp only [State.lifeCycle, life]
  have begun : (s.coldSteps conv).begunTransition = s.begunTransition := by simp only [State.begunTransition, State.marks, life]
  rw [exec_coldStart_of_held conv b held cold rails tied alive]
  refine ⟨fun rom live whole goodA goodB => ?_, fun rom dead => ?_, fun bad => ?_⟩
  · obtain ⟨t, runs, run, starting, drbg, tStrap, fallback, tTick, tWindow, wm, running, fuses, tKeys⟩ :=
      State.startFrom_runs 3 rom (by rwa [cycle]) (by rwa [begun]) goodA goodB
    exact ⟨_, rfl, by rw [runs]; exact ⟨run, starting, drbg, tTick.trans tick, tWindow.trans window, tStrap.trans strap, fallback, wm, running,
      fuses.trans (by rw [life]), tKeys.trans keys⟩⟩
  · rw [State.startFrom_of_scrapped 3 rom (by rwa [cycle])]
    exact ⟨_, rfl, rfl, power.trans held⟩
  · obtain ⟨rst, batLog⟩ := State.startFrom_stops (s := s.coldSteps conv) 3 (by rwa [cycle])
    exact ⟨_, rfl, by rw [rst, power, held], by rw [rst, reach, cold], batLog⟩

theorem exec_warmStart (b : Boot) (s : State) : exec (.warmStart b) s = execWarmStart b s := rfl

/-- A WARM start with a good ROM and good images keeps ticks and strap. -/
theorem warmStart_runs {s : State} {b : Boot} (held : s.rst.power = .held) (warm : s.rst.reach = 2) (alive : s.rst.scrapped = false) (rom : b.romOk = true)
    (live : s.lifeCycle ≠ 4) (whole : s.begunTransition = none) (goodA : imageOk b.slotA = true) (goodB : imageOk b.slotB = true) :
    ∃ t, exec (.warmStart b) s = .next t ∧ t.rst.power = .run ∧ t.rst.starting = 2 ∧ t.rst.awaitDrbg = true ∧ t.tick = s.tick ∧
      t.rst.strap = s.rst.strap ∧ t.wm = [] ∧ t.keeper.running = true ∧ t.keys = s.keys := by
  have loads := s.fuseLoad_startRecords
  obtain ⟨t, runs, run, starting, drbg, strap, _, tick, _, wm, running, _, keys⟩ :=
    State.startFrom_runs (s := s.fuseLoad) 2 rom (by rw [loads]; exact live) (by rw [loads]; exact whole) goodA goodB
  have start : exec (.warmStart b) s = .next (s.fuseLoad.startFrom 2 b) := if_pos ⟨held, warm, by simp [alive]⟩
  exact ⟨t, start.trans (by rw [runs]), run, starting, drbg, tick.trans (by rw [loads]), strap.trans (by rw [loads]), wm, running, keys.trans (by rw [loads])⟩

/-! ## FUNCTION starts (R293, R436) -/

theorem SMap.get_filter_key {α : Type} (d : α) (p : Nat → Bool) (m : List (Nat × α)) (k : Nat) :
    SMap.get d (m.filter fun e => p e.1) k = if p k then SMap.get d m k else d := by
  induction m with
  | nil => simp [SMap.get]
  | cons e m ih =>
    obtain ⟨k', v⟩ := e
    by_cases here : k' = k
    · subst here
      cases kept : p k' <;> simp [kept, SMap.get, ih]
    · cases kept : p k' <;> simp [kept, SMap.get, here, ih]

/-- A scrubbed word reads as an unlisted one; every other stays. -/
theorem State.word_scrubWords (s : State) (p : Nat → Bool) (w : Nat) : (s.scrubWords p).word w = if p w then s.rest w else s.word w := by
  have kept := SMap.get_filter_key (s.rest w) (fun k => !p k) s.wm w
  refine kept.trans ?_
  cases p w <;> rfl

/-- The end of a FUNCTION start puts the causes and the reach on record. -/
theorem State.endStart_of_function {s : State} (rising : s.dict.nums.Pairwise fun a b => a.1 < b.1) :
    (s.endStart 1).num Key.RST_CAUSE = s.rst.causes ∧ (s.endStart 1).num Key.RST_LAST_REACH = 1 ∧ (s.endStart 1).rst.power = .run ∧
      (s.endStart 1).rst.readyDue = true ∧ (s.endStart 1).rst.causes = 0 ∧ (s.endStart 1).keeper = s.keeper ∧ (s.endStart 1).keys = s.keys ∧
      (s.endStart 1).vault = s.vault ∧ (s.endStart 1).lanes = s.lanes ∧ ∀ w, (s.endStart 1).word w = s.word w := by
  have dict : (s.endStart 1).dict = (((s.setNum Key.RST_CAUSE s.rst.causes).setNum Key.RST_LAST_REACH 1).count (Key.RST_COUNT 0)).dict := rfl
  refine ⟨?_, ?_, by simp [State.endStart, State.word, State.rest]⟩
  · rw [State.num_of_dict dict, State.num_count_ne _ _ _ _ (by decide), State.num_setNum_ne _ _ _ _ (by decide), s.num_setNum _ _ rising]
  · rw [State.num_of_dict dict, State.num_count_ne _ _ _ _ (by decide), State.num_setNum _ _ _ (s.setNum_rising _ _ rising)]

theorem exec_functionStart (s : State) : exec .functionStart s = execFunctionStart s := rfl

/-- A FUNCTION start that does not return from STANDBY. -/
theorem functionStart_serves {s : State} (held : s.rst.power = .held) (function : s.rst.reach = 1) (host : s.rst.fromStandby = false)
    (rising : s.dict.nums.Pairwise fun a b => a.1 < b.1) : ∃ t, exec .functionStart s = .next t ∧ t.rst.power = .run ∧ t.rst.readyDue = true ∧
      t.rst.causes = 0 ∧ t.num Key.RST_CAUSE = s.rst.causes ∧ t.num Key.RST_LAST_REACH = 1 ∧ t.keeper.coresRunning = true ∧
      (∀ w, 0x20000 ≤ w → w < 0x30000 → t.word w = s.word w) ∧ (∀ w, w < 0x20000 ∨ 0x30000 ≤ w → t.word w = s.rest w) ∧
      t.keys = s.keys ∧ t.vault = s.vault ∧ t.lanes = s.lanes := by
  have runs : exec .functionStart s = .next (State.endStart { s.scrubNormal with
      keeper := { s.scrubNormal.keeper with coresRunning := true, nwdtUs := 0 } } 1) := by
    have stays : s.scrubNormal.rst.fromStandby = false := by simp [State.scrubNormal, host]
    rw [exec_functionStart, execFunctionStart, if_pos ⟨held, function⟩]
    exact congrArg (fun t => Host.Outcome.next (State.endStart t 1)) (if_neg (by simp [stays]))
  obtain ⟨cause, reach, run, ready, causes, keeper, keys, vault, lanes, word⟩ := State.endStart_of_function
    (s := { s.scrubNormal with keeper := { s.scrubNormal.keeper with coresRunning := true, nwdtUs := 0 } }) rising
  have scrubbed (w : Nat) := (word w).trans (s.word_scrubWords (fun w => !(decide (0x20000 ≤ w) && decide (w < 0x30000))) w)
  refine ⟨_, runs, run, ready, causes, cause, reach, by rw [keeper], fun w lo hi => ?_, fun w outside => ?_, keys, vault, lanes⟩
  · exact (scrubbed w).trans (if_neg (by simp [lo, hi]))
  · exact (scrubbed w).trans (if_pos (by simpa [imp_iff_not_or] using outside))

/-- Settles O57, by the three starts and the condition of the idle state. -/
theorem startsLeadToService : Obligations.StartsLeadToService := by
  unfold Obligations.StartsLeadToService
  intro s
  refine ⟨fun conv b held cold rails tied alive => coldStart_rules conv b held cold rails tied alive, fun conv b other => if_neg ?_,
    fun b held warm alive rom live whole goodA goodB => warmStart_runs held warm alive rom live whole goodA goodB, fun b other => if_neg ?_,
    fun held function host rising _ => functionStart_serves held function host rising, fun other => if_neg ?_,
    fun run idle => if_pos ⟨run, idle⟩, fun busy => if_neg ?_⟩
  · rintro ⟨held, cold, rails, tied, alive⟩
    rcases other with h | h | h | h | h <;> simp_all
  · rintro ⟨held, warm, alive⟩
    rcases other with h | h | h <;> simp_all
  · rintro ⟨held, function⟩
    exact other.elim (fun h => h held) (fun h => h function)
  · rintro ⟨run, idle⟩
    exact busy.elim (fun h => h run) (fun h => absurd idle (Nat.not_le.mpr h))

end Sys2Proof.Machine
end


section
/-! Roll calls, HELLO and fragments (R320, R323 to R325). -/

namespace Sys2Proof.Machine

theorem State.raise_raised (s : State) (src : Nat) : (s.raise src).host.raised.contains src = true := by
  unfold State.raise
  split
  · next already => exact already
  · simp

/-! ## A roll call that the unit passes (R324) -/

section
variable {s : State} {h : MsgHdr} {count : Nat} {entries order : List Nat}

theorem State.dropAddress_of_free (free : s.chain.address = 0 ∨ s.chain.address ∉ entries) : s.dropAddress entries = s := by
  refine if_neg fun ⟨addressed, taken⟩ => ?_
  exact free.elim addressed fun other => other (List.contains_iff_mem.mp taken)

/-- An address seen in another unit's entry is given up (R325). -/
theorem State.dropAddress_of_taken (addressed : s.chain.address ≠ 0) (taken : s.chain.address ∈ entries) :
    s.dropAddress entries = { s with chain := { s.chain with address := 0, helloDue := true } } :=
  if_pos ⟨addressed, List.contains_iff_mem.mpr taken⟩

theorem State.rollCall_of_addressed (addressed : s.chain.address ≠ 0) (free : s.chain.address ∉ entries) :
    s.rollCall h count entries = s.forward 1 h (rollBody (max count (s.chain.address + 1)) (entries ++ [s.chain.address])) := by
  rw [State.rollCall, State.dropAddress_of_free (.inr free)]
  exact if_pos addressed

theorem State.rollCall_of_unaddressed (unaddressed : s.chain.address = 0) (room : count ≤ 4094) :
    s.rollCall h count entries = State.forward { s with chain := { s.chain with address := count } } 1 h (rollBody (count + 1) (entries ++ [count])) := by
  rw [State.rollCall, State.dropAddress_of_free (.inl unaddressed)]
  exact (if_neg (not_not.mpr unaddressed)).trans (if_pos room)

theorem State.rollCall_of_full (unaddressed : s.chain.address = 0) (full : 4094 < count) :
    s.rollCall h count entries = (s.raise 4099).forward 1 h (rollBody count (entries ++ [0])) := by
  rw [State.rollCall, State.dropAddress_of_free (.inl unaddressed)]
  exact (if_neg (not_not.mpr unaddressed)).trans (if_neg (Nat.not_le.mpr full))

/-- A unit that finds its address taken gives it up, and takes the next. -/
theorem State.rollCall_of_taken (addressed : s.chain.address ≠ 0) (taken : s.chain.address ∈ entries) (room : count ≤ 4094) :
    s.rollCall h count entries =
      State.forward { s with chain := { s.chain with address := count, helloDue := true } } 1 h (rollBody (count + 1) (entries ++ [count])) := by
  rw [State.rollCall, State.dropAddress_of_taken addressed taken]
  exact if_pos room

/-! ## A fill roll call that the unit passes (R325) -/

theorem State.fillCall_of_addressed (addressed : s.chain.address ≠ 0) (free : s.chain.address ∉ entries) :
    s.fillCall h order entries = s.forward 2 h (fillBody order (entries ++ [s.chain.address])) := by
  rw [State.fillCall, State.dropAddress_of_free (.inr free)]
  exact congrArg (fun t : State => t.forward 2 h (fillBody order (entries ++ [t.chain.address]))) (if_neg fun ⟨unaddressed, _⟩ => addressed unaddressed)

/-- The address that a fill roll call gives a unit without one. -/
def fillAddress (order entries : List Nat) : Nat := if order.getD entries.length 0 ∈ entries then 0 else order.getD entries.length 0

theorem State.fillCall_of_unaddressed (unaddressed : (s.dropAddress entries).chain.address = 0) :
    s.fillCall h order entries = State.forward { s.dropAddress entries with
      chain := { (s.dropAddress entries).chain with address := fillAddress order entries } } 2 h (fillBody order (entries ++ [fillAddress order entries])) := by
  unfold State.fillCall fillAddress
  generalize s.dropAddress entries = t at unaddressed
  dsimp only
  split
  · next gives => rw [if_neg (mt List.contains_iff_mem.mpr gives.2.2)]
  · next keeps =>
    have none_ : (if order.getD entries.length 0 ∈ entries then 0 else order.getD entries.length 0) = 0 := by
      simp only [List.contains_eq_mem] at keeps
      grind
    rw [none_, ← unaddressed]

/-! ## Receipt -/

theorem exec_rollCall_of_passed (passes : s.passes 1 h = true) (away : ¬ (s.chain.origin = true ∧ h.src = s.chain.address)) :
    exec (.rollCall h count entries) s = .next ((s.heardFrom h).rollCall h count entries) :=
  (if_neg fun ⟨_, origin, src, _⟩ => away ⟨origin, src⟩).trans (congrArg Host.Outcome.next (State.receive_of_passes passes _))

theorem exec_fillCall_of_passed (passes : s.passes 2 h = true) (away : ¬ (s.chain.origin = true ∧ h.src = s.chain.address)) :
    exec (.fillCall h order entries) s = .next ((s.heardFrom h).fillCall h order entries) :=
  (if_neg fun ⟨_, origin, src, _⟩ => away ⟨origin, src⟩).trans (congrArg Host.Outcome.next (State.receive_of_passes passes _))

theorem exec_hello_of_taken (takes : s.takes 3 h = true) :
    exec (.hello h) s = .next (if (s.heardFrom h).chain.origin then { s.heardFrom h with chain := { (s.heardFrom h).chain with fillCallDue := true } }
      else s.heardFrom h) :=
  congrArg Host.Outcome.next (State.atStep4_receive_of_takes takes _ _)

end

/-- Settles O45: what a call does at its master, at a unit that it passes, and where its conditions fail. -/
theorem rollCallsGiveAddresses : Obligations.RollCallsGiveAddresses := by
  unfold Obligations.RollCallsGiveAddresses
  intro h count entries order s
  refine ⟨fun good origin own whole => ⟨if_pos ⟨good, origin, own, whole⟩, if_pos ⟨good, origin, own, whole⟩⟩, fun passes away => ?_, fun passes away => ?_,
    fun takes => ?_, fun m member silent new => ?_, fun m other => ?_, fun src id => ⟨_, rfl, fun p => ?_, rfl⟩⟩
  · rw [exec_rollCall_of_passed passes away]
    refine ⟨fun addressed free => ?_, fun unaddressed room => ?_, fun unaddressed full => ?_, fun addressed taken room => ?_⟩
    · rw [State.rollCall_of_addressed (s := s.heardFrom h) addressed free]
      rfl
    · rw [State.rollCall_of_unaddressed (s := s.heardFrom h) unaddressed room]
      rfl
    · rw [State.rollCall_of_full (s := s.heardFrom h) unaddressed full]
      exact ⟨_, rfl, rfl, rfl, State.raise_raised _ 4099⟩
    · rw [State.rollCall_of_taken (s := s.heardFrom h) addressed taken room]
      exact ⟨_, rfl, rfl, rfl⟩
  · rw [exec_fillCall_of_passed passes away]
    refine ⟨fun addressed free => ?_, fun b unaddressed entry some_ new => ?_, fun addressed taken => ?_⟩
    · rw [State.fillCall_of_addressed (s := s.heardFrom h) addressed free]
      rfl
    · have gives : fillAddress order entries = b := by simp [fillAddress, List.getD, entry, new]
      have same := State.dropAddress_of_free (s := s.heardFrom h) (entries := entries) (.inl unaddressed)
      rw [State.fillCall_of_unaddressed (s := s.heardFrom h) (by rw [same]; exact unaddressed), same, gives]
      rfl
    · have dropped := State.dropAddress_of_taken (s := s.heardFrom h) addressed taken
      rw [State.fillCall_of_unaddressed (s := s.heardFrom h) (by rw [dropped]), dropped]
      rfl
  · rw [exec_hello_of_taken takes]
    exact ⟨fun origin => congrArg Host.Outcome.next (if_pos origin), fun other => congrArg Host.Outcome.next (if_neg (by rw [show (s.heardFrom h).chain.origin = s.chain.origin from rfl, other]; decide))⟩
  · exact if_pos (by simp [member, silent, new])
  · refine if_neg ?_
    rcases other with h | h | h <;> simp [h]
  · simp only [List.mem_filter, Bool.not_eq_true', Bool.and_eq_false_iff, beq_eq_false_iff_ne, decide_eq_false_iff_not]
    grind

end Sys2Proof.Machine
end


section
/-! Replication at a peer (R335 to R340). -/

namespace Sys2Proof.Machine

/-! ## This unit's change gives way (R225, R337) -/

/-- Changes of this unit end in a frame, and jobs with them: no change comes, the log stays, a staged job stays staged. -/
structure GivesWay (s t : State) : Prop where
  tick : t.tick = s.tick
  log : t.chain.log = s.chain.log
  own : ∀ o ∈ t.chain.own, o ∈ s.chain.own
  jobs : ∀ i ∈ t.jobs, ∃ j ∈ s.jobs, j.id = i.id ∧ (j.phase = .staged → i.phase = .staged)

namespace GivesWay

theorem of_same {s t : State} (tick : t.tick = s.tick) (log : t.chain.log = s.chain.log) (own : t.chain.own = s.chain.own) (jobs : t.jobs = s.jobs) : GivesWay s t :=
  ⟨tick, log, fun _ held => own ▸ held, fun i held => ⟨i, jobs ▸ held, rfl, id⟩⟩

theorem refl (s : State) : GivesWay s s := of_same rfl rfl rfl rfl

theorem trans {s t u : State} (st : GivesWay s t) (tu : GivesWay t u) : GivesWay s u where
  tick := tu.tick.trans st.tick
  log := tu.log.trans st.log
  own o held := st.own o (tu.own o held)
  jobs i held := by
    obtain ⟨j, inT, sameT, keepsT⟩ := tu.jobs i held
    obtain ⟨k, inS, sameS, keepsS⟩ := st.jobs j inT
    exact ⟨k, inS, sameS.trans sameT, fun staged => keepsT (keepsS staged)⟩

/-- Of several that give way, each is dealt with, where what is dealt with stays so. -/
theorem foldl {α : Type} {f : State → α → State} {done : α → State → Prop} (gives : ∀ s x, GivesWay s (f s x)) (does : ∀ s x, done x (f s x))
    (stays : ∀ {s t : State} (x : α), GivesWay s t → done x s → done x t) (l : List α) (s : State) :
    GivesWay s (l.foldl f s) ∧ ∀ x ∈ l, done x (l.foldl f s) := by
  induction l generalizing s with
  | nil => exact ⟨.refl s, nofun⟩
  | cons x l ih =>
    obtain ⟨rest, all⟩ := ih (f s x)
    refine ⟨(gives s x).trans rest, fun y listed => ?_⟩
    rcases List.mem_cons.mp listed with rfl | later
    · exact stays y rest (does s y)
    · exact all y later

end GivesWay

theorem State.sendMsg_givesWay (s : State) (type dst : Nat) (body : Bytes) (record : Option ReplRecord) : GivesWay s (s.sendMsg type dst body record) :=
  .of_same rfl rfl rfl rfl

theorem State.resolvePage_givesWay (s : State) (c : Change) (kind : ItemKind) : GivesWay s (s.resolvePage c kind) := by
  unfold State.resolvePage
  split
  · split
    · exact .of_same rfl rfl rfl rfl
    · exact .refl s
  · exact .refl s

theorem State.dropOwn_givesWay (s : State) (seq : Nat) : GivesWay s (s.dropOwn seq) :=
  ⟨rfl, rfl, fun _ held => List.mem_of_mem_filter held, fun i held => ⟨i, held, rfl, id⟩⟩

/-- A change undone is among the unit's own no more. -/
theorem State.undoOwn_givesWay (s : State) (o : OwnChange) : GivesWay s (s.undoOwn o) ∧ o ∉ (s.undoOwn o).chain.own := by
  refine ⟨(s.sendMsg_givesWay _ _ _ _).trans ((State.resolvePage_givesWay _ _ _).trans (State.dropOwn_givesWay _ _)), fun held => ?_⟩
  exact of_decide_eq_true (List.mem_filter.mp held).2 rfl

theorem State.finish_givesWay (s : State) (id status result due : Nat) :
    GivesWay s (s.finish id status result due) ∧ ∀ i ∈ (s.finish id status result due).jobs, i.id = id → i.phase = .staged := by
  have jobs := s.finish_jobs id status result due
  refine ⟨⟨State.finish_tick s id status result due, by rw [State.finish_chain], fun o held => by rwa [State.finish_chain] at held, fun i held => ?_⟩, fun i held => ?_⟩
  all_goals
    rw [jobs] at held
    obtain ⟨j, listed, rfl⟩ := List.mem_map.mp held
    split
  · exact ⟨j, listed, rfl, fun _ => rfl⟩
  · exact ⟨j, listed, rfl, fun same => same⟩
  · exact fun _ => rfl
  · next other => exact fun same => absurd same other

theorem State.reply_givesWay (s : State) (r : DictReq) (slot : Option Nat) (op reason : Nat) (value : Bytes) : GivesWay s (s.reply r slot op reason value) := by
  unfold State.reply
  split
  · exact .refl s
  · exact s.sendMsg_givesWay _ _ _ _

theorem State.refuse_givesWay (s : State) (key reason : Nat) (req : Option (DictReq × Option Nat)) : GivesWay s (s.refuse key reason req) := by
  have refused : GivesWay s (s.refused key reason) := .of_same rfl rfl rfl rfl
  unfold State.refuse
  split
  · exact refused.trans (State.reply_givesWay _ _ _ _ _ _)
  · exact refused

theorem State.refuseOwn_givesWay (s : State) (o : OwnChange) (reason : Nat) : GivesWay s (s.refuseOwn o reason) := by
  have settled : GivesWay s (s.settleHeart o.record.change) := by
    unfold State.settleHeart
    split <;> exact .of_same rfl rfl rfl rfl
  unfold State.refuseOwn
  split
  · exact settled.trans (State.refuse_givesWay _ _ _ _)
  · exact settled

theorem State.abandonOwn_givesWay (s : State) (o : OwnChange) : GivesWay s (s.abandonOwn o) ∧ o ∉ (s.abandonOwn o).chain.own := by
  obtain ⟨undone, gone⟩ := s.undoOwn_givesWay o
  have rest : GivesWay (s.undoOwn o) (s.abandonOwn o) := by
    unfold State.abandonOwn
    split
    · exact (State.finish_givesWay _ _ _ _ _).1
    · exact State.refuseOwn_givesWay _ o 12
  exact ⟨undone.trans rest, fun held => gone (rest.own o held)⟩

theorem State.dropVersions_givesWay (s : State) (id : Nat) : GivesWay s (s.dropVersions id) := by
  simp only [State.dropVersions, State.endWrites]
  split
  · exact .of_same (by simp) (by simp) (by simp) (by simp)
  · exact .of_same rfl rfl rfl rfl

theorem State.abandonForming_givesWay (s : State) (j : Job) :
    GivesWay s (s.abandonForming j) ∧ ∀ i ∈ (s.abandonForming j).jobs, i.id = j.id → i.phase = .staged := by
  obtain ⟨finishes, staged⟩ := (s.dropVersions j.id).finish_givesWay j.id stReplTimeout 0 (s.tick + 2)
  exact ⟨(s.dropVersions_givesWay j.id).trans finishes, staged⟩

/-- The changes of this unit that a record conflicts with give way, and those that are forming with them. -/
def State.yield (s : State) (mine : List OwnChange) (formed : List Job) : State := formed.foldl State.abandonForming (mine.foldl State.abandonOwn s)

theorem State.yield_rules (s : State) (mine : List OwnChange) (formed : List Job) :
    GivesWay s (s.yield mine formed) ∧ (∀ o ∈ mine, o ∉ (s.yield mine formed).chain.own) ∧
      ∀ j ∈ formed, ∀ i ∈ (s.yield mine formed).jobs, i.id = j.id → i.phase = .staged := by
  obtain ⟨yields, gone⟩ := GivesWay.foldl (done := fun (o : OwnChange) t => o ∉ t.chain.own) (fun s o => (s.abandonOwn_givesWay o).1)
    (fun s o => (s.abandonOwn_givesWay o).2) (fun o step absent held => absent (step.own o held)) mine s
  obtain ⟨more, staged⟩ := GivesWay.foldl (done := fun (j : Job) t => ∀ i ∈ t.jobs, i.id = j.id → i.phase = .staged)
    (fun s j => (s.abandonForming_givesWay j).1) (fun s j => (s.abandonForming_givesWay j).2) (fun j step done i held same => by
      obtain ⟨k, before, sameId, keeps⟩ := step.jobs i held
      exact keeps (done k before (sameId.trans same))) formed (mine.foldl State.abandonOwn s)
  exact ⟨yields.trans more, fun o listed held => gone o listed (more.own o held), staged⟩

/-! ## A record at a peer (R335, R337) -/

section
variable {s : State} {src : Nat} {r : ReplRecord}

/-- The changes of this unit that a record conflicts with. -/
def State.conflicting (s : State) (r : ReplRecord) : List OwnChange := s.chain.own.filter fun o => conflicts o.record.change r.change

theorem State.replicate_of_no_room (full : replicaLogSize < s.logUsed + (recordBytes r).length) : s.replicate src r = s := if_pos full

variable (room : s.logUsed + (recordBytes r).length ≤ replicaLogSize) (whole : s.chain.join ≠ .transferring ∨ s.chain.joinIsMember = true)
include room whole

theorem State.replicate_of_room : s.replicate src r =
    if s.runTaken r.change then s.event 0x1102
    else if s.heartNotReady r.change then s
    else if s.conflicting r = [] ∧ s.forming r.change = [] then s.logRecord src r
    else if (s.conflicting r).any fun o => o.applyAt.isSome then (if (s.conflicting r).any fun o => o.record.k == 0 then s.event 0x1102 else s)
    else if src < s.chain.address then (s.yield (s.conflicting r) (s.forming r.change)).logRecord src r
    else s := by
  rw [State.replicate, if_neg (Nat.not_lt.mpr room), if_neg]
  · rfl
  · rintro ⟨transferring, joining⟩
    exact whole.elim (fun h => h transferring) (fun h => joining h)

theorem State.replicate_of_runTaken (taken : s.runTaken r.change = true) : s.replicate src r = s.event 0x1102 :=
  (State.replicate_of_room room whole).trans (if_pos taken)

variable (clear : s.runTaken r.change = false)
include clear

theorem State.replicate_of_heartNotReady (waits : s.heartNotReady r.change = true) : s.replicate src r = s := by
  rw [State.replicate_of_room room whole, if_neg (by simp [clear]), if_pos waits]

variable (ready : s.heartNotReady r.change = false)
include ready

theorem State.replicate_of_acknowledged (stands : ((s.conflicting r).any fun o => o.applyAt.isSome) = true) :
    s.replicate src r = if (s.conflicting r).any fun o => o.record.k == 0 then s.event 0x1102 else s := by
  have some_ : ¬ (s.conflicting r = [] ∧ s.forming r.change = []) := fun ⟨none_, _⟩ => by simp [none_] at stands
  rw [State.replicate_of_room room whole, if_neg (by simp [clear]), if_neg (by simp [ready]), if_neg some_, if_pos stands]

theorem State.replicate_of_higher (some_ : s.conflicting r ≠ [] ∨ s.forming r.change ≠ []) (open_ : ((s.conflicting r).any fun o => o.applyAt.isSome) = false)
    (higher : s.chain.address ≤ src) : s.replicate src r = s := by
  rw [State.replicate_of_room room whole, if_neg (by simp [clear]), if_neg (by simp [ready]), if_neg (by tauto), if_neg (by simp [open_]),
    if_neg (Nat.not_lt.mpr higher)]

/-- A record that no change stands against, or that is of a lower address, is logged; what is in its way gives way. -/
theorem State.replicate_logs (free : (s.conflicting r = [] ∧ s.forming r.change = []) ∨
      (((s.conflicting r).any fun o => o.applyAt.isSome) = false ∧ src < s.chain.address)) :
    s.replicate src r = (s.yield (s.conflicting r) (s.forming r.change)).logRecord src r := by
  rw [State.replicate_of_room room whole, if_neg (by simp [clear]), if_neg (by simp [ready])]
  split
  · next none_ =>
    rw [none_.1, none_.2]
    rfl
  · next some_ =>
    obtain ⟨open_, lower⟩ := free.resolve_left some_
    rw [if_neg (by simp [open_]), if_pos lower]

end

/-- A record is logged and acknowledged (R335). -/
theorem State.logRecord_rules (s : State) (src : Nat) (r : ReplRecord) :
    (∃ e, (s.logRecord src r).chain.log = s.chain.log ++ [⟨src, r, s.tick, e, false, none, []⟩]) ∧
      (∃ m ∈ (s.logRecord src r).chain.waiting, m.type = 0x31 ∧ m.dst = src ∧ m.body = noticeBody src r.seq) ∧
      (s.logRecord src r).chain.own = s.chain.own ∧ (s.logRecord src r).jobs = s.jobs :=
  ⟨⟨_, rfl⟩, ⟨_, List.mem_append_right _ (List.mem_singleton_self _), rfl, rfl, rfl⟩, rfl, rfl⟩

/-! ## Notices, queries and decisions (R336, R339) -/

section
variable {s : State} {w seq : Nat} (foreign : w ≠ s.chain.address)
include foreign

theorem State.findOwn_of_foreign : s.findOwn w seq = none := if_neg foreign

theorem State.takeCommit_of_logged (logged : (s.logHas w seq || s.chain.joinLogged.any fun r => r.writer == w && r.record.seq == seq) = true) :
    s.takeCommit w seq = s.updLog w seq fun x => { x with committed := true } := by
  rw [State.takeCommit, State.findOwn_of_foreign foreign]
  exact if_pos logged

theorem State.takeCommit_of_early (unlogged : (s.logHas w seq || s.chain.joinLogged.any fun r => r.writer == w && r.record.seq == seq) = false) :
    s.takeCommit w seq = { s with chain := { s.chain with early := s.chain.early ++ [(w, seq)] } } := by
  rw [State.takeCommit, State.findOwn_of_foreign foreign]
  exact if_neg (by simp [unlogged])

theorem State.countHolder_of_foreign (src : Nat) :
    s.countHolder src w seq = s.updLog w seq fun x => { x with holders := addHolder src w x.holders } := by
  rw [State.countHolder, State.findOwn_of_foreign foreign]

variable {l : LogRecord} (logged : (s.chain.log.find? fun r => r.writer == w && r.record.seq == seq) = some l)
include logged

theorem exec_replQueryDue_of_logged : exec (.replQueryDue w seq) s = .next (
    if !l.committed && decide (l.since + 128 ≤ s.tick) && l.queried.isNone then
      ((s.updLog w seq fun x => { x with queried := some s.tick }).sendNotice 0x34 bcast w seq).sendNotice 0x35 bcast w seq
    else s) := by
  have run : exec (.replQueryDue w seq) s = execReplQueryDue w seq s := rfl
  rw [run, execReplQueryDue, State.findOwn_of_foreign foreign]
  dsimp only
  rw [logged]
  dsimp only
  split <;> rfl

theorem exec_replDecision_of_asked {q : Nat} (asked : l.queried = some q) (open_ : l.committed = false) (due : q + 65 ≤ s.tick) :
    exec (.replDecision w seq) s = .next (if l.record.k ≤ 1 + l.holders.length then s.updLog w seq fun x => { x with committed := true } else s.dropLog w seq) := by
  have run : exec (.replDecision w seq) s = execReplDecision w seq s := rfl
  rw [run, execReplDecision, State.findOwn_of_foreign foreign]
  dsimp only
  rw [logged]
  simp only [asked, open_, Bool.false_or, decide_eq_true_eq, if_neg (Nat.not_lt.mpr due)]
  split <;> rfl

theorem exec_replDecision_of_settled (settled : l.queried = none ∨ l.committed = true) : exec (.replDecision w seq) s = .next s := by
  have run : exec (.replDecision w seq) s = execReplDecision w seq s := rfl
  rw [run, execReplDecision, State.findOwn_of_foreign foreign]
  dsimp only
  rw [logged]
  dsimp only
  split
  · next asked => rw [settled.resolve_left (by simp [asked]), Bool.true_or, if_pos rfl]
  · rfl

end

section
variable {s : State} {w seq : Nat}

theorem State.answerQuery_of_logged {l : LogRecord} (logged : (s.chain.log.find? fun r => r.writer == w && r.record.seq == seq) = some l) :
    s.answerQuery w seq = if l.committed then s.sendNotice 0x32 bcast w seq
      else (s.updLog w seq fun x => { x with queried := some (x.queried.getD s.tick) }).sendNotice 0x35 bcast w seq := by
  rw [State.answerQuery, logged]

theorem State.answerQuery_of_unlogged (unlogged : (s.chain.log.find? fun r => r.writer == w && r.record.seq == seq) = none) : s.answerQuery w seq = s := by
  rw [State.answerQuery, unlogged]

/-! ## What comes by a message -/

variable {h : MsgHdr}

theorem exec_replicate_of_taken (takes : s.takes 0x30 h = true) (r : ReplRecord) : exec (.replicate h r) s = .next ((s.heardFrom h).replicate h.src r) :=
  congrArg Host.Outcome.next (State.atStep4_receive_of_takes takes _ _)

theorem exec_replCommit_of_taken (takes : s.takes 0x32 h = true) : exec (.replCommit h w seq) s = .next ((s.heardFrom h).takeCommit w seq) :=
  congrArg Host.Outcome.next (State.atStep4_receive_of_takes takes _ _)

theorem exec_replRollback_of_taken (takes : s.takes 0x33 h = true) (foreign : w ≠ s.chain.address) :
    exec (.replRollback h w seq) s = .next ((s.heardFrom h).dropLog w seq) := by
  refine congrArg Host.Outcome.next ((State.atStep4_receive_of_takes takes _ _).trans ?_)
  rw [State.findOwn_of_foreign (s := s.heardFrom h) foreign]

theorem exec_replQuery_of_taken (takes : s.takes 0x34 h = true) : exec (.replQuery h w seq) s = .next ((s.heardFrom h).answerQuery w seq) :=
  congrArg Host.Outcome.next (State.atStep4_receive_of_takes takes _ _)

theorem exec_replState_of_taken (takes : s.takes 0x35 h = true) : exec (.replState h w seq) s = .next ((s.heardFrom h).countHolder h.src w seq) :=
  congrArg Host.Outcome.next (State.atStep4_receive_of_takes takes _ _)

end

/-- What a peer judges a record by stands as it was before the message. -/
theorem State.heardFrom_judges (s : State) (h : MsgHdr) (r : ReplRecord) :
    (s.heardFrom h).logUsed = s.logUsed ∧ (s.heardFrom h).runTaken r.change = s.runTaken r.change ∧
      (s.heardFrom h).heartNotReady r.change = s.heartNotReady r.change ∧ (s.heardFrom h).conflicting r = s.conflicting r ∧
      (s.heardFrom h).forming r.change = s.forming r.change := ⟨rfl, rfl, rfl, rfl, rfl⟩

/-- A record at a peer, by its conditions. -/
theorem replicate_rules {s : State} {h : MsgHdr} (r : ReplRecord) (takes : s.takes 0x30 h = true)
    (whole : s.chain.join ≠ .transferring ∨ s.chain.joinIsMember = true) (room : s.logUsed + (recordBytes r).length ≤ replicaLogSize) :
    let u := s.heardFrom h
    let mine := s.conflicting r
    let formed := s.forming r.change
    let stands := mine.any fun o => o.applyAt.isSome
    (s.runTaken r.change = true → exec (.replicate h r) s = .next (u.event 0x1102)) ∧
    (s.runTaken r.change = false → s.heartNotReady r.change = true → exec (.replicate h r) s = .next u) ∧
    (s.runTaken r.change = false → s.heartNotReady r.change = false → stands = true →
      exec (.replicate h r) s = .next (if mine.any fun o => o.record.k == 0 then u.event 0x1102 else u)) ∧
    (s.runTaken r.change = false → s.heartNotReady r.change = false → mine ≠ [] ∨ formed ≠ [] → stands = false → s.chain.address ≤ h.src →
      exec (.replicate h r) s = .next u) ∧
    (s.runTaken r.change = false → s.heartNotReady r.change = false → (mine = [] ∧ formed = []) ∨ (stands = false ∧ h.src < s.chain.address) →
      ∃ t, exec (.replicate h r) s = .next t ∧ (∃ e, t.chain.log = s.chain.log ++ [⟨h.src, r, s.tick, e, false, none, []⟩]) ∧
      (∃ m ∈ t.chain.waiting, m.type = 0x31 ∧ m.dst = h.src ∧ m.body = noticeBody h.src r.seq) ∧
      (∀ o ∈ mine, o ∉ t.chain.own) ∧ ∀ j ∈ formed, ∀ i ∈ t.jobs, i.id = j.id → i.phase = .staged) := by
  obtain ⟨used, taken, notReady, conflicting, forming⟩ := s.heardFrom_judges h r
  have fits : (s.heardFrom h).logUsed + (recordBytes r).length ≤ replicaLogSize := by rwa [used]
  rw [exec_replicate_of_taken takes]
  refine ⟨fun overlaps => ?_, fun clear waits => ?_, fun clear ready stands => ?_, fun clear ready some_ open_ higher => ?_, fun clear ready free => ?_⟩
  · rw [State.replicate_of_runTaken (s := s.heardFrom h) fits whole (taken.trans overlaps)]
  · rw [State.replicate_of_heartNotReady (s := s.heardFrom h) fits whole (taken.trans clear) (notReady.trans waits)]
  · rw [State.replicate_of_acknowledged (s := s.heardFrom h) fits whole (taken.trans clear) (notReady.trans ready) (by rwa [conflicting]), conflicting]
  · rw [State.replicate_of_higher (s := s.heardFrom h) fits whole (taken.trans clear) (notReady.trans ready) (by rwa [conflicting, forming])
      (by rwa [conflicting]) higher]
  · rw [State.replicate_logs (s := s.heardFrom h) fits whole (taken.trans clear) (notReady.trans ready) (by rwa [conflicting, forming]), conflicting, forming]
    obtain ⟨yields, gone, staged⟩ := (s.heardFrom h).yield_rules (s.conflicting r) (s.forming r.change)
    obtain ⟨⟨e, log⟩, acks, own, jobs⟩ := ((s.heardFrom h).yield (s.conflicting r) (s.forming r.change)).logRecord_rules h.src r
    rw [yields.log, yields.tick] at log
    exact ⟨_, rfl, ⟨e, log⟩, acks, fun o listed => own ▸ gone o listed, fun j listed i held => staged j listed i (jobs ▸ held)⟩

/-- Settles O47, by the rules of a record, of a notice, of a query and of its decision. -/
theorem replicationAtAPeer : Obligations.ReplicationAtAPeer := by
  unfold Obligations.ReplicationAtAPeer
  intro h w seq r l s
  refine ⟨fun takes whole => ⟨fun full => ?_, fun room => replicate_rules r takes whole room⟩, fun foreign => ⟨fun takes => ?_, fun takes => ?_, fun takes => ?_,
    fun takes => ?_, fun logged => ?_⟩⟩
  · rw [exec_replicate_of_taken takes, State.replicate_of_no_room (s := s.heardFrom h) full]
  · rw [exec_replCommit_of_taken takes]
    exact ⟨fun logged => by rw [State.takeCommit_of_logged (s := s.heardFrom h) foreign logged],
      fun unlogged => by rw [State.takeCommit_of_early (s := s.heardFrom h) foreign unlogged]; rfl⟩
  · exact ⟨_, exec_replRollback_of_taken takes foreign, rfl, rfl, rfl, rfl⟩
  · rw [exec_replQuery_of_taken takes]
    refine ⟨fun logged => ?_, fun unlogged => by rw [State.answerQuery_of_unlogged (s := s.heardFrom h) unlogged]⟩
    rw [State.answerQuery_of_logged (s := s.heardFrom h) logged]
    exact ⟨fun committed => by rw [if_pos committed], fun open_ => by rw [if_neg (by simp [open_])]; rfl⟩
  · rw [exec_replState_of_taken takes, State.countHolder_of_foreign (s := s.heardFrom h) foreign]
  · rw [exec_replQueryDue_of_logged foreign logged]
    refine ⟨fun open_ old unasked => ?_, fun other => ?_, fun q asked open_ due => exec_replDecision_of_asked foreign logged asked open_ due,
      exec_replDecision_of_settled foreign logged⟩
    · rw [if_pos (by simp [open_, old, unasked])]
    · refine congrArg Host.Outcome.next (if_neg ?_)
      simp only [Bool.and_eq_true, Bool.not_eq_true', decide_eq_true_eq, Option.isNone_iff_eq_none]
      rintro ⟨⟨open_, old⟩, unasked⟩
      rcases other with committed | young | asked
      · simp [open_] at committed
      · omega
      · simp [unasked] at asked

end Sys2Proof.Machine
end


section
/-! The join to a domain on both sides (R343, R344). -/

namespace Sys2Proof.Machine

/-! ## Steps of a join -/

/-- A join that fails: its keys are wiped, the domain's key stays. -/
theorem State.joinFails_rules (s : State) :
    s.joinFails.chain.join = .failed ∧ s.joinFails.chain.joinSecret = [] ∧ s.joinFails.chain.joinKey = [] ∧ s.joinFails.chain.joinGrant = none ∧
      s.joinFails.chain.domainKey = s.chain.domainKey ∧ s.joinFails.chain.waiting = s.chain.waiting := by
  simp [State.joinFails, State.joinWipe]

/-- Step 4: the join is confirming under its key. -/
theorem State.joinAgree_rules (s : State) (ec kem transcript : Bytes) :
    let t := s.joinAgree ec kem transcript
    t.chain.join = .confirming ∧ t.chain.joinSince = s.tick ∧ t.chain.joinPeer = s.chain.joinPeer ∧ t.chain.joinIsMember = s.chain.joinIsMember ∧
      t.chain.joinConfirmed = false ∧ t.chain.joinSecret = [] ∧ t.chain.domainKey = s.chain.domainKey ∧ t.chain.waiting = s.chain.waiting := by
  simp [State.joinAgree]

/-! ## The offer at a member -/

/-- The checks of an offer's lot, signatures and key, and of the unit's own state (R343). -/
def State.offerFits (s : State) (o : Offer) : Bool :=
  s.lotAllowed o.lotEc o.lotDsa && joinVerify o.lotEc o.lotDsa (offerDigest o) o.sigEc o.sigDsa && o.kemKey.length == 1184 && kemEkOk 0x22 o.kemKey &&
    !s.withheld && !bitOf s.keeper.debugState 3

/-- The member takes part in a join with a peer. -/
def State.asMember (s : State) (src : Nat) : State := { s with chain := { s.chain with joinPeer := src, joinIsMember := true } }

theorem State.draw_chain (s : State) (n : Nat) : (s.draw n).2.chain = s.chain := rfl
theorem State.draw_tick (s : State) (n : Nat) : (s.draw n).2.tick = s.tick := rfl
theorem State.takeBytes_chain (s : State) (n : Nat) : (s.takeBytes n).2.chain = s.chain := rfl
theorem State.takeBytes_tick (s : State) (n : Nat) : (s.takeBytes n).2.tick = s.tick := rfl

/-- The checks as the member makes them: the first that fails. -/
theorem State.offerFits_eq (s : State) (src : Nat) (o : Offer) :
    (!(s.asMember src).lotAllowed o.lotEc o.lotDsa || !joinVerify o.lotEc o.lotDsa (offerDigest o) o.sigEc o.sigDsa || o.kemKey.length != 1184 ||
      !kemEkOk 0x22 o.kemKey || (s.asMember src).withheld || bitOf (s.asMember src).keeper.debugState 3) = !s.offerFits o := by
  have allowed : (s.asMember src).lotAllowed o.lotEc o.lotDsa = s.lotAllowed o.lotEc o.lotDsa := rfl
  have withheld : (s.asMember src).withheld = s.withheld := rfl
  have keeper : (s.asMember src).keeper = s.keeper := rfl
  simp only [State.offerFits, allowed, withheld, keeper, Bool.not_and, Bool.not_not, bne]

section
variable {s : State} {src : Nat} {o : Offer} (member : s.chain.domainKey.isSome = true)
include member

theorem State.takeOffer_of_bad (bad : ((p384.decode o.ecKey).isSome && s.offerFits o) = false) : s.takeOffer src o = (s.asMember src).joinFails := by
  rw [State.takeOffer, if_neg (by simp [Option.isSome_iff_ne_none.mp member])]
  cases point : p384.decode o.ecKey with
  | none => rfl
  | some q =>
    have fails : s.offerFits o = false := by simpa [point] using bad
    exact if_pos ((s.offerFits_eq src o).trans (by rw [fails]; rfl))

/-- An offer that passes is answered, with the join agreed on draws of the unit. -/
theorem State.takeOffer_of_good {q : Jac} (point : p384.decode o.ecKey = some q) (good : s.offerFits o = true) : ∃ (v : State) (ec kem transcript body : Bytes),
    s.takeOffer src o = (v.joinAgree ec kem transcript).sendMsg 0x41 src body none ∧
      v.chain = { (s.asMember src).chain with joinOffer := some o } ∧ v.tick = s.tick := by
  rw [State.takeOffer, if_neg (by simp [Option.isSome_iff_ne_none.mp member])]
  dsimp only
  rw [point]
  dsimp only
  refine ⟨_, _, _, _, _, if_neg (ne_true_of_eq_false ((s.offerFits_eq src o).trans (by rw [good]; rfl))), ?_, ?_⟩
  · simp only [State.takeBytes_chain, State.draw_chain]
    rfl
  · simp only [State.takeBytes_tick, State.draw_tick]

end

/-! ## The answer at the joining unit -/

/-- The checks of an answer's lot and signatures (R343). -/
def State.answerFits (s : State) (o : Offer) (a : Answer) : Bool :=
  s.lotAllowed a.lotEc a.lotDsa && joinVerify a.lotEc a.lotDsa (answerDigest o a) a.sigEc a.sigDsa && a.kemCt.length == 1088

theorem State.answerFits_eq (s : State) (o : Offer) (a : Answer) :
    (!s.lotAllowed a.lotEc a.lotDsa || !joinVerify a.lotEc a.lotDsa (answerDigest o a) a.sigEc a.sigDsa || a.kemCt.length != 1088) = !s.answerFits o a := by
  simp only [State.answerFits, Bool.not_and, bne]

section
variable {s : State} {a : Answer} {o : Offer} (offered : s.chain.joinOffer = some o)
include offered

theorem State.takeAnswer_of_bad (bad : ((p384.decode a.ecKey).isSome && s.answerFits o a) = false) : s.takeAnswer a = s.joinFails := by
  rw [State.takeAnswer, offered]
  dsimp only
  cases point : p384.decode a.ecKey with
  | none => rfl
  | some q =>
    have fails : s.answerFits o a = false := by simpa [point] using bad
    exact if_pos ((s.answerFits_eq o a).trans (by rw [fails]; rfl))

theorem State.takeAnswer_of_good {q : Jac} (point : p384.decode a.ecKey = some q) (good : s.answerFits o a = true) :
    ∃ ec kem transcript, s.takeAnswer a = s.joinAgree ec kem transcript := by
  rw [State.takeAnswer, offered]
  dsimp only
  rw [point]
  exact ⟨_, _, _, if_neg (ne_true_of_eq_false ((s.answerFits_eq o a).trans (by rw [good]; rfl)))⟩

end

/-! ## The domain's key at the joining unit -/

/-- Byte strings of the dictionary alone change. -/
def OnlyOcts (s t : State) : Prop := t = { s with dict := { s.dict with octs := t.dict.octs } }

theorem State.setMembers_onlyOcts (s : State) (l : List Nat) : OnlyOcts s (s.setMembers l) := by
  unfold State.setMembers State.setAddrList
  refine List.foldlRecOn (motive := OnlyOcts s) _ _ rfl fun t kept i _ => ?_
  unfold OnlyOcts at *
  rw [kept]
  rfl

/-- The domain is taken: its key and K, and the transfer follows. -/
theorem State.takeDomain_rules {s : State} (g : DomainGrant) (rising : s.dict.nums.Pairwise fun a b => a.1 < b.1) :
    (s.takeDomain g).chain.domainKey = some (fit 32 g.key) ∧ (s.takeDomain g).chain.join = .transferring ∧ (s.takeDomain g).num Key.CHN_K = g.k ∧
      (s.takeDomain g).keys = s.keys ∧ (s.takeDomain g).vault = s.vault := by
  simp only [State.takeDomain]
  rw [State.setMembers_onlyOcts]
  exact ⟨rfl, rfl, State.num_setNum _ _ _ rising, rfl, rfl⟩

/-! ## What comes by a message -/

section
variable {h : MsgHdr} {s : State}

theorem exec_attestOffer_of_taken (takes : s.takes 0x40 h = true) (o : Offer) : exec (.attestOffer h o) s = .next (
    if s.chain.join = .attesting ∨ s.chain.join = .confirming ∨ s.chain.join = .transferring then s.heardFrom h
    else (s.heardFrom h).takeOffer h.src o) :=
  congrArg Host.Outcome.next (State.atStep4_receive_of_takes takes _ _)

theorem exec_attestAnswer_of_taken (takes : s.takes 0x41 h = true) (a : Answer) : exec (.attestAnswer h a) s = .next (
    if s.chain.join = .attesting ∧ ¬ s.chain.joinIsMember = true ∧ h.src = s.chain.joinPeer then (s.heardFrom h).takeAnswer a else s.heardFrom h) :=
  congrArg Host.Outcome.next (State.atStep4_receive_of_takes takes _ _)

theorem exec_domainKey_of_taken (takes : s.takes 0x42 h = true) (g : DomainGrant) : exec (.domainKey h g) s = .next (
    if s.chain.join = .confirming ∧ ¬ s.chain.joinIsMember = true ∧ h.src = s.chain.joinPeer then
      (if s.chain.joinConfirmed then (s.heardFrom h).takeDomain g else { s.heardFrom h with chain := { (s.heardFrom h).chain with joinGrant := some g } })
    else s.heardFrom h) :=
  congrArg Host.Outcome.next (State.atStep4_receive_of_takes takes _ _)

end

/-- An offer at a member that no join holds up. -/
theorem attestOffer_rules {h : MsgHdr} {o : Offer} {s : State} (takes : s.takes 0x40 h = true)
    (free : ¬ (s.chain.join = .attesting ∨ s.chain.join = .confirming ∨ s.chain.join = .transferring)) (member : s.chain.domainKey.isSome = true) :
    ∃ t, exec (.attestOffer h o) s = .next t ∧ t.chain.domainKey = s.chain.domainKey ∧
      if (p384.decode o.ecKey).isSome && s.offerFits o then t.chain.join = .confirming ∧ t.chain.joinSince = s.tick ∧ t.chain.joinPeer = h.src ∧
        t.chain.joinIsMember = true ∧ t.chain.joinConfirmed = false ∧ ∃ m ∈ t.chain.waiting, m.type = 0x41 ∧ m.dst = h.src
      else t.chain.join = .failed ∧ t.chain.joinKey = [] ∧ t.chain.waiting = s.chain.waiting := by
  have fits : (s.heardFrom h).offerFits o = s.offerFits o := rfl
  rw [exec_attestOffer_of_taken takes, if_neg free]
  cases checks : (p384.decode o.ecKey).isSome && s.offerFits o
  · rw [State.takeOffer_of_bad (s := s.heardFrom h) member (by rw [fits, checks])]
    obtain ⟨failed, _, key, _, domain, waiting⟩ := ((s.heardFrom h).asMember h.src).joinFails_rules
    exact ⟨_, rfl, domain, failed, key, waiting⟩
  · obtain ⟨point, good⟩ := Bool.and_eq_true_iff.mp checks
    obtain ⟨q, decoded⟩ := Option.isSome_iff_exists.mp point
    obtain ⟨v, ec, kem, transcript, body, answers, chain, tick⟩ := State.takeOffer_of_good (s := s.heardFrom h) (src := h.src) member decoded (fits.trans good)
    obtain ⟨join, since, peer, isMember, confirmed, _, domain, _⟩ := v.joinAgree_rules ec kem transcript
    rw [chain] at peer isMember domain
    rw [answers]
    exact ⟨_, rfl, domain, join, since.trans tick, peer, isMember, confirmed, _, List.mem_append_right _ (List.mem_singleton_self _), rfl, rfl⟩

/-- Settles O49, by the message that a step of the join waits for. -/
theorem joinsAreAttestedAndConfirmed : Obligations.JoinsAreAttestedAndConfirmed := by
  unfold Obligations.JoinsAreAttestedAndConfirmed
  intro h o a g s
  refine ⟨fun takes => ⟨fun idle => ?_, fun free member => attestOffer_rules takes free member⟩, fun takes => ⟨fun unasked => ?_, fun x waits joining peer offered => ?_⟩,
    fun takes => ⟨fun unasked => ?_, fun waits joining peer => ?_⟩, fun step late => ?_, fun other => ?_⟩
  · rw [exec_attestOffer_of_taken takes]
    rcases idle with busy | outside
    · rw [if_pos busy]
    · have none_ : (s.heardFrom h).takeOffer h.src o = s.heardFrom h := if_pos (by rw [show (s.heardFrom h).chain.domainKey = none from outside]; rfl)
      rw [none_, ite_self]
  · rw [exec_attestAnswer_of_taken takes, if_neg (by rintro ⟨h1, h2, h3⟩; rcases unasked with h | h | h <;> contradiction)]
  · rw [exec_attestAnswer_of_taken takes, if_pos ⟨waits, by simp [joining], peer⟩]
    cases checks : (p384.decode a.ecKey).isSome && s.answerFits x a
    · rw [State.takeAnswer_of_bad (s := s.heardFrom h) offered checks]
      obtain ⟨failed, _, key, _, domain, _⟩ := (s.heardFrom h).joinFails_rules
      refine ⟨_, rfl, domain, ?_⟩
      rw [if_neg (by rw [← State.answerFits, checks]; decide)]
      exact ⟨failed, key⟩
    · obtain ⟨point, good⟩ := Bool.and_eq_true_iff.mp checks
      obtain ⟨q, decoded⟩ := Option.isSome_iff_exists.mp point
      obtain ⟨ec, kem, transcript, agrees⟩ := State.takeAnswer_of_good (s := s.heardFrom h) offered decoded good
      obtain ⟨join, _, _, _, confirmed, secret, domain, _⟩ := (s.heardFrom h).joinAgree_rules ec kem transcript
      rw [agrees]
      refine ⟨_, rfl, domain, ?_⟩
      rw [if_pos (by rw [← State.answerFits, checks])]
      exact ⟨join, confirmed, secret⟩
  · rw [exec_domainKey_of_taken takes, if_neg (by rintro ⟨h1, h2, h3⟩; rcases unasked with h | h | h <;> contradiction)]
  · rw [exec_domainKey_of_taken takes, if_pos ⟨waits, by simp [joining], peer⟩]
    refine ⟨fun early => by rw [if_neg (by simp [early])], fun confirmed rising => ?_⟩
    rw [if_pos confirmed]
    exact ⟨_, rfl, State.takeDomain_rules (s := s.heardFrom h) g rising⟩
  · obtain ⟨failed, secret, key, grant, domain, _⟩ := s.joinFails_rules
    exact ⟨_, if_pos ⟨step, late⟩, failed, secret, key, grant, domain⟩
  · refine if_neg ?_
    rintro ⟨step, late⟩
    rcases other with ⟨h1, h2⟩ | early
    · exact step.elim h1 h2
    · omega

end Sys2Proof.Machine
end


section
/-! Dictionary requests of the chain and of the Keeper's weirs (R353 to R358, R367, R57). -/

namespace Sys2Proof.Machine

/-! ## Replies and refusals -/

theorem State.reply_dict (s : State) (r : DictReq) (slot : Option Nat) (op reason : Nat) (value : Bytes) : (s.reply r slot op reason value).dict = s.dict := by
  unfold State.reply
  split <;> rfl

/-- A reply on the chain: a datagram that ends with the value. -/
theorem State.reply_waiting (s : State) {r : DictReq} (chain : r.weir = false) (slot : Option Nat) (op reason : Nat) (value : Bytes) :
    ∃ head, (s.reply r slot op reason value).chain.waiting = s.chain.waiting ++ [⟨0x11, r.hdr.src, s.chain.msgId, 0, head ++ value, none, 0, none⟩] := by
  rw [State.reply, if_neg (by simp [chain])]
  exact ⟨_, rfl⟩

theorem State.reply_keeps (s : State) (r : DictReq) (slot : Option Nat) (op reason : Nat) (value : Bytes) :
    (s.reply r slot op reason value).jobs = s.jobs ∧ (s.reply r slot op reason value).keys = s.keys := by
  unfold State.reply
  split <;> exact ⟨rfl, rfl⟩

/-- A refusal answers with its reason, and accepts no write. -/
theorem State.refuse_rules (s : State) (key reason : Nat) (req : Option (DictReq × Option Nat)) :
    (s.refuse key reason req).dict.answer = .refused reason ∧ (s.refuse key reason req).dict.acked = s.dict.acked := by
  have refused : (s.refused key reason).dict.answer = .refused reason ∧ (s.refused key reason).dict.acked = s.dict.acked := ⟨rfl, rfl⟩
  unfold State.refuse
  split
  · rw [State.reply_dict]
    exact refused
  · exact refused

/-- An accepted request of a role with a proof is remembered; nothing else changes. -/
theorem State.seeReq_frame (s : State) (r : DictReq) : s.seeReq r = { s with dict := { s.dict with seenReqs := (s.seeReq r).dict.seenReqs } } := by
  unfold State.seeReq
  generalize (s.dict.seenReqs ++ [(r.hdr.src, r.reqId, s.tick)]).drop (s.dict.seenReqs.length + 1 - 1024) = l
  split <;> rfl

/-! ## Reads (R332, R353) -/

section
variable {s : State} {r : DictReq}

theorem State.serveRead_of_unknown (unknown : attrOf r.index r.sub = none) :
    s.serveRead r = s.refuse (entryKey r.index r.sub) 1 (some (r, s.proofSlot r 1)) := by
  rw [State.serveRead, unknown]

variable {a : Attr} (known : attrOf r.index r.sub = some a)
include known

theorem State.serveRead_of_barred (barred : a.readable = false ∨ 4 < reqRole r ∨ (reqRole r = 4 ∧ r.weir = false)) :
    s.serveRead r = s.refuse (entryKey r.index r.sub) 2 (some (r, s.proofSlot r 1)) := by
  rw [State.serveRead, known]
  refine if_pos ?_
  rcases barred with h | h | h
  · exact .inr (.inr (by simp [h]))
  · exact .inl h
  · exact .inr (.inl ⟨h.1, by simp [h.2]⟩)

variable (readable : a.readable = true) (role : reqRole r ≤ 3 ∨ (reqRole r = 4 ∧ r.weir = true))
include readable role

theorem State.serveRead_of_permitted : s.serveRead r =
    if !s.proofOk r 1 then s.refuse (entryKey r.index r.sub) 3 (some (r, none))
    else (s.seeReq r).reply r (s.proofSlot r 1) 3 0 (s.asOfNext.valueField a (entryKey r.index r.sub)) := by
  rw [State.serveRead, known]
  refine if_neg ?_
  rintro (high | ⟨four, notWeir⟩ | unreadable)
  · omega
  · rcases role with low | ⟨-, weir⟩
    · omega
    · simp [weir] at notWeir
  · simp [readable] at unreadable

theorem State.serveRead_of_unproved (unproved : s.proofOk r 1 = false) : s.serveRead r = s.refuse (entryKey r.index r.sub) 3 (some (r, none)) :=
  (State.serveRead_of_permitted known readable role).trans (if_pos (by simp [unproved]))

theorem State.serveRead_of_proved (proved : s.proofOk r 1 = true) :
    s.serveRead r = (s.seeReq r).reply r (s.proofSlot r 1) 3 0 (s.asOfNext.valueField a (entryKey r.index r.sub)) :=
  (State.serveRead_of_permitted known readable role).trans (if_neg (by simp [proved]))

end

/-! ## Writes (R354, R358) -/

section
variable {s : State} {r : DictReq}

theorem State.serveWrite_of_unknown (unknown : attrOf r.index r.sub = none) :
    s.serveWrite r = s.refuse (entryKey r.index r.sub) 1 (some (r, s.proofSlot r 2)) := by
  rw [State.serveWrite, unknown]

variable {a : Attr} {role : Role} (known : attrOf r.index r.sub = some a) (acts : roleOf (reqRole r) = some role)
include known acts

theorem State.serveWrite_of_known : s.serveWrite r =
    if a.mayWrite role = false ∨ (role = .keeper ∧ r.weir = false) then s.refuse (entryKey r.index r.sub) 2 (some (r, s.proofSlot r 2))
    else if s.proofOk r 2 = false ∨ (role = .officer ∧ allZero (r.proof.drop 16) = false) then s.refuse (entryKey r.index r.sub) 3 (some (r, none))
    else
      let v := s.seeReq r
      let no := if v.lockBars role then 10 else if !a.lengthOk r.value then 4 else v.firstRefusal a role (entryKey r.index r.sub) (a.valueOf r.value)
      if no ≠ 0 then v.refuse (entryKey r.index r.sub) no (some (r, s.proofSlot r 2))
      else if role = .officer then v.quorumRequest r (entryKey r.index r.sub)
      else v.acceptWrite false (entryKey r.index r.sub) (a.valueOf r.value) (some (r, s.proofSlot r 2)) := by
  rw [State.serveWrite, known, acts]
  simp only [Bool.not_eq_true']

theorem State.serveWrite_of_barred (barred : a.mayWrite role = false) : s.serveWrite r = s.refuse (entryKey r.index r.sub) 2 (some (r, s.proofSlot r 2)) := by
  rw [State.serveWrite_of_known known acts, if_pos (.inl barred)]

theorem State.serveWrite_of_unproved (may : a.mayWrite role = true) (weir : role = .keeper → r.weir = true) (unproved : s.proofOk r 2 = false) :
    s.serveWrite r = s.refuse (entryKey r.index r.sub) 3 (some (r, none)) := by
  rw [State.serveWrite_of_known known acts, if_neg (by simpa [may] using weir), if_pos (.inl unproved)]

/-- A request whose role, proof, length and value pass goes to its own rule, or under role 3 to its quorum. -/
theorem State.serveWrite_of_passes (may : a.mayWrite role = true) (weir : role = .keeper → r.weir = true) (proved : s.proofOk r 2 = true)
    (tail : role = .officer → allZero (r.proof.drop 16) = true) (open_ : (s.seeReq r).lockBars role = false) (long : a.lengthOk r.value = true)
    (fits : (s.seeReq r).firstRefusal a role (entryKey r.index r.sub) (a.valueOf r.value) = 0) : s.serveWrite r =
      if role = .officer then (s.seeReq r).quorumRequest r (entryKey r.index r.sub)
      else (s.seeReq r).acceptWrite false (entryKey r.index r.sub) (a.valueOf r.value) (some (r, s.proofSlot r 2)) := by
  rw [State.serveWrite_of_known known acts, if_neg (by simpa [may] using weir), if_neg (by simpa [proved] using tail)]
  simp only [open_, long, fits, Bool.false_eq_true, if_false, Bool.not_true, ne_eq, not_true_eq_false]

end

theorem State.ackWrite_rules (s : State) (key : Nat) (v : DVal) (r : DictReq) (slot : Option Nat) :
    (s.ackWrite key v (some (r, slot))).dict.acked = s.dict.acked ++ [(key, v)] ∧ (s.ackWrite key v (some (r, slot))).dict.answer = .acked ∧
      (r.weir = false → ∃ m ∈ (s.ackWrite key v (some (r, slot))).chain.waiting, m.type = 0x11 ∧ m.dst = r.hdr.src) := by
  simp only [State.ackWrite]
  refine ⟨by rw [State.reply_dict]; rfl, by rw [State.reply_dict], fun chain => ?_⟩
  obtain ⟨head, waiting⟩ := State.reply_waiting { s.count Key.UNIT_DICT_WRITES with dict := { (s.count Key.UNIT_DICT_WRITES).dict with
    acked := (s.count Key.UNIT_DICT_WRITES).dict.acked ++ [(key, v)], answer := .acked } } chain slot 4 0 []
  rw [waiting]
  exact ⟨_, List.mem_append_right _ (List.mem_singleton_self _), rfl, rfl⟩

/-! ## Step 4 of the window -/

/-- The unit as it judges a request: of the chain once it has heard its source. -/
def State.judging (s : State) (r : DictReq) : State := if r.weir then s else s.heardFrom r.hdr

/-- What a request is judged on, but for the chain, stands as it was. -/
theorem State.judging_rules (s : State) (r : DictReq) : (s.judging r).dict = s.dict ∧ (∀ op, (s.judging r).proofOk r op = s.proofOk r op) ∧
    (s.judging r).jobs = s.jobs ∧ (s.judging r).keys = s.keys ∧ (s.judging r).chain.waiting = s.chain.waiting ∧
    (s.judging r).chain.msgId = s.chain.msgId := by
  unfold State.judging
  split <;> exact ⟨rfl, fun _ => rfl, rfl, rfl, rfl, rfl⟩

section
variable {s : State} {r : DictReq}

theorem exec_dictRequest_of_dead (dead : s.live = false) : exec (.dictRead r) s = .next s ∧ exec (.dictWrite r) s = .next s := by
  constructor <;> exact if_pos (by simp [dead])

variable (live : s.live = true)
include live

theorem exec_dictRead_of_live : exec (.dictRead r) s = .next (s.atStep4 (.dictRead r) fun s =>
    if r.weir then s.serveRead r else s.receive 0x10 r.hdr fun st => st.serveRead r) := if_neg (by simp [live])

theorem exec_dictWrite_of_live : exec (.dictWrite r) s = .next (s.atStep4 (.dictWrite r) fun s =>
    if r.weir then s.serveWrite r else s.receive 0x10 r.hdr fun st => if r.hdr.dst = bcast then st else st.serveWrite r) := if_neg (by simp [live])

theorem exec_dictRequest_of_lane_time (lane : s.window = false) :
    exec (.dictRead r) s = .next { s with inbox := s.inbox ++ [.dictRead r] } ∧ exec (.dictWrite r) s = .next { s with inbox := s.inbox ++ [.dictWrite r] } := by
  rw [exec_dictRead_of_live live, exec_dictWrite_of_live live]
  constructor <;> exact congrArg Host.Outcome.next (if_neg (by simp [lane]))

theorem exec_dictWrite_of_broadcast (chain : r.weir = false) (takes : s.takes 0x10 r.hdr = true) (all : r.hdr.dst = bcast) :
    exec (.dictWrite r) s = .next (s.heardFrom r.hdr) := by
  simp only [exec_dictWrite_of_live live, chain, Bool.false_eq_true, if_false, all, if_true]
  rw [State.atStep4_receive_of_takes takes]

/-- In the window a request is served. -/
theorem exec_dictRequest_of_served (served : (r.weir = true ∧ s.window = true) ∨ (s.takes 0x10 r.hdr = true ∧ r.hdr.dst ≠ bcast)) :
    exec (.dictRead r) s = .next ((s.judging r).serveRead r) ∧ exec (.dictWrite r) s = .next ((s.judging r).serveWrite r) := by
  have window : s.window = true := served.elim (fun h => h.2) fun h => (Bool.and_eq_true_iff.mp h.1).1
  rw [exec_dictRead_of_live live, exec_dictWrite_of_live live]
  cases chain : r.weir with
  | true => simp [State.atStep4, window, State.judging, chain]
  | false =>
    obtain ⟨takes, direct⟩ := served.resolve_left (by simp [chain])
    simp only [Bool.false_eq_true, if_false, direct, State.judging, chain]
    rw [State.atStep4_receive_of_takes takes, State.atStep4_receive_of_takes takes]
    exact ⟨rfl, rfl⟩

end

/-- A read that is served. -/
theorem dictRead_rules {r : DictReq} {a : Attr} {s : State} (live : s.live = true)
    (served : (r.weir = true ∧ s.window = true) ∨ (s.takes 0x10 r.hdr = true ∧ r.hdr.dst ≠ bcast)) (known : attrOf r.index r.sub = some a) :
    (a.readable = false ∨ 4 < reqRole r ∨ (reqRole r = 4 ∧ r.weir = false) → ∃ t, exec (.dictRead r) s = .next t ∧ t.dict.answer = .refused 2) ∧
    (a.readable = true → reqRole r ≤ 3 ∨ (reqRole r = 4 ∧ r.weir = true) → s.proofOk r 1 = false →
      ∃ t, exec (.dictRead r) s = .next t ∧ t.dict.answer = .refused 3) ∧
    (a.readable = true → reqRole r ≤ 3 ∨ (reqRole r = 4 ∧ r.weir = true) → s.proofOk r 1 = true → ∃ t, exec (.dictRead r) s = .next t ∧
      t.dict.nums = s.dict.nums ∧ t.dict.octs = s.dict.octs ∧ t.dict.acked = s.dict.acked ∧ t.jobs = s.jobs ∧ t.keys = s.keys ∧
      (r.weir = false → ∃ head, t.chain.waiting = s.chain.waiting ++ [⟨0x11, r.hdr.src, s.chain.msgId, 0,
        head ++ (s.judging r).asOfNext.valueField a (entryKey r.index r.sub), none, 0, none⟩])) := by
  obtain ⟨dict, proof, jobs, keys, waiting, msgId⟩ := s.judging_rules r
  rw [(exec_dictRequest_of_served live served).1]
  refine ⟨fun barred => ?_, fun readable role unproved => ?_, fun readable role proved => ?_⟩
  · rw [State.serveRead_of_barred known barred]
    exact ⟨_, rfl, (State.refuse_rules _ _ _ _).1⟩
  · rw [State.serveRead_of_unproved known readable role ((proof 1).trans unproved)]
    exact ⟨_, rfl, (State.refuse_rules _ _ _ _).1⟩
  · rw [State.serveRead_of_proved known readable role ((proof 1).trans proved)]
    have seen := (s.judging r).seeReq_frame r
    generalize (s.judging r).asOfNext.valueField a (entryKey r.index r.sub) = value
    obtain ⟨kJobs, kKeys⟩ := ((s.judging r).seeReq r).reply_keeps r ((s.judging r).proofSlot r 1) 3 0 value
    refine ⟨_, rfl, ?_, ?_, ?_, ?_, ?_, fun chain => ?_⟩
    · rw [State.reply_dict, seen, dict]
    · rw [State.reply_dict, seen, dict]
    · rw [State.reply_dict, seen, dict]
    · rw [kJobs, seen, jobs]
    · rw [kKeys, seen, keys]
    · obtain ⟨head, sent⟩ := ((s.judging r).seeReq r).reply_waiting chain ((s.judging r).proofSlot r 1) 3 0 value
      rw [sent, seen, waiting, msgId]
      exact ⟨head, rfl⟩

/-- A write that is served. -/
theorem dictWrite_rules {r : DictReq} {a : Attr} {role : Role} {s : State} (live : s.live = true)
    (served : (r.weir = true ∧ s.window = true) ∨ (s.takes 0x10 r.hdr = true ∧ r.hdr.dst ≠ bcast)) (known : attrOf r.index r.sub = some a)
    (acts : roleOf (reqRole r) = some role) :
    (a.mayWrite role = false → ∃ t, exec (.dictWrite r) s = .next t ∧ t.dict.answer = .refused 2 ∧ t.dict.acked = s.dict.acked) ∧
    (a.mayWrite role = true → (role = .keeper → r.weir = true) → s.proofOk r 2 = false →
      ∃ t, exec (.dictWrite r) s = .next t ∧ t.dict.answer = .refused 3 ∧ t.dict.acked = s.dict.acked) ∧
    (let v := (s.judging r).seeReq r
     a.mayWrite role = true → role ≠ .officer → (role = .keeper → r.weir = true) → s.proofOk r 2 = true → v.lockBars role = false → a.lengthOk r.value = true →
      v.firstRefusal a role (entryKey r.index r.sub) (a.valueOf r.value) = 0 → v.view.mayStand false (entryKey r.index r.sub) (a.valueOf r.value) = true →
      actsElsewhere (entryKey r.index r.sub) = false →
      ∃ t, exec (.dictWrite r) s = .next t ∧ t.dict.acked = s.dict.acked ++ [(entryKey r.index r.sub, a.valueOf r.value)] ∧ t.dict.answer = .acked ∧
        (r.weir = false → ∃ m ∈ t.chain.waiting, m.type = 0x11 ∧ m.dst = r.hdr.src)) := by
  obtain ⟨dict, proof, _, _, _, _⟩ := s.judging_rules r
  have refuses (key reason : Nat) (req : Option (DictReq × Option Nat)) : ((s.judging r).refuse key reason req).dict.answer = .refused reason ∧
      ((s.judging r).refuse key reason req).dict.acked = s.dict.acked := by
    rw [← dict]
    exact State.refuse_rules _ _ _ _
  rw [(exec_dictRequest_of_served live served).2]
  refine ⟨fun barred => ?_, fun may weir unproved => ?_, fun may plain weir proved open_ long fits stands waits => ?_⟩
  · rw [State.serveWrite_of_barred known acts barred]
    exact ⟨_, rfl, refuses _ _ _⟩
  · rw [State.serveWrite_of_unproved known acts may weir ((proof 2).trans unproved)]
    exact ⟨_, rfl, refuses _ _ _⟩
  · rw [State.serveWrite_of_passes known acts may weir ((proof 2).trans proved) (fun officer => absurd officer plain) open_ long fits, if_neg plain,
      State.acceptWrite_of_waits waits stands]
    obtain ⟨acked, answer, replied⟩ := ((s.judging r).seeReq r).ackWrite_rules (entryKey r.index r.sub) (a.valueOf r.value) r ((s.judging r).proofSlot r 2)
    refine ⟨_, rfl, acked.trans ?_, answer, replied⟩
    rw [State.seeReq_frame, dict]

/-- Settles O51, by the order in which a request is checked. -/
theorem dictionaryRequestsAreServed : Obligations.DictionaryRequestsAreServed := by
  unfold Obligations.DictionaryRequestsAreServed
  intro r body s
  refine ⟨exec_dictRequest_of_dead, fun live lane => exec_dictRequest_of_lane_time live lane, fun live chain takes all => ?_, fun live served => ⟨fun unknown => ?_, fun a known => ?_⟩,
    fun h takes => ?_⟩
  · rw [exec_dictWrite_of_broadcast live chain takes all]
    simp only [chain, Bool.false_eq_true, if_false]
  · obtain ⟨dict, _⟩ := s.judging_rules r
    obtain ⟨reads, writes⟩ := exec_dictRequest_of_served live served
    rw [reads, writes, State.serveRead_of_unknown unknown, State.serveWrite_of_unknown unknown, ← dict]
    exact ⟨⟨_, rfl, State.refuse_rules _ _ _ _⟩, _, rfl, State.refuse_rules _ _ _ _⟩
  · obtain ⟨barred, unproved, proved⟩ := dictRead_rules live served known
    exact ⟨barred, unproved, proved, fun role acts => dictWrite_rules live served known acts⟩
  · have run : exec (.dictReply h body) s = .next ((s.heardFrom h).tunnelIn (msgHeader 0x11 h.src h.dst h.id h.frag h.last body.length h.insTick ++ body)) :=
      congrArg Host.Outcome.next (State.atStep4_receive_of_takes takes _ _)
    rw [run]
    exact ⟨fun on => congrArg Host.Outcome.next (if_pos on), fun off => congrArg Host.Outcome.next (if_neg (ne_true_of_eq_false off))⟩

end Sys2Proof.Machine
end


section
/-! Challenges, approvals, quorum writes and replicated writes (R224, R333, R341, R360 to R365). -/

namespace Sys2Proof.Machine

/-! ## Challenges (R333) -/

/-- There is room for one more challenge that no write holds, and no held one goes. -/
theorem challengeRoom_rules (l : List Challenge) :
    ((l.filter fun c => !c.held).length ≤ 16 → ((challengeRoom l).filter fun c => !c.held).length < 16) ∧ ∀ c ∈ l, c.held = true → c ∈ challengeRoom l := by
  unfold challengeRoom
  split
  · next room => exact ⟨fun _ => room, fun _ listed _ => listed⟩
  · next full =>
    split
    · next o oldest =>
      have open_ : o.held = false := by simpa using List.find?_some oldest
      have listed : o ∈ l.filter fun c => !c.held := List.mem_filter.mpr ⟨List.mem_of_find?_eq_some oldest, by simp [open_]⟩
      refine ⟨fun most => ?_, fun c held isHeld => List.mem_filter.mpr ⟨held, decide_eq_true fun same => by simp [same, open_] at isHeld⟩⟩
      have fewer : ((l.filter fun c => !c.held).filter fun c => decide (c ≠ o)).length < (l.filter fun c => !c.held).length :=
        List.length_filter_lt_length_iff_exists.mpr ⟨o, listed, by simp⟩
      rw [List.filter_filter] at fewer ⊢
      simp only [Bool.and_comm] at fewer ⊢
      omega
    · next none_ =>
      have empty : (l.filter fun c => !c.held) = [] := List.filter_eq_nil_iff.mpr (List.find?_eq_none.mp none_)
      simp [empty] at full

theorem exec_challengeRequest_of_taken {h : MsgHdr} {s : State} (live : s.live = true) (takes : s.takes 0x20 h = true) :
    exec (.challengeRequest h) s = .next ((s.heardFrom h).issueChallenge h.src) :=
  (if_pos live).trans (congrArg Host.Outcome.next (State.atStep4_receive_of_takes takes _ _))

theorem State.issueChallenge_of_withheld {s : State} (withheld : s.withheld = true) (dst : Nat) : s.issueChallenge dst = s.sendMsg 0x21 dst [] none := if_pos withheld

/-- A challenge drawn, kept and sent. -/
theorem State.issueChallenge_rules {s : State} (serves : s.withheld = false) (dst : Nat) : ∃ b,
    (s.issueChallenge dst).dict = { s.dict with challenges := challengeRoom s.dict.challenges ++ [⟨b, s.tick + 1, false, []⟩] } ∧
      ∃ m ∈ (s.issueChallenge dst).chain.waiting, m.type = 0x21 ∧ m.dst = dst ∧ m.body = b := by
  rw [State.issueChallenge, if_neg (by simp [serves])]
  exact ⟨(s.draw 16).1, rfl, _, List.mem_append_right _ (List.mem_singleton_self _), rfl, rfl, rfl⟩

/-- A request for a challenge. -/
theorem challengeRequest_rules {h : MsgHdr} {s : State} (live : s.live = true) (takes : s.takes 0x20 h = true) :
    (s.withheld = true → exec (.challengeRequest h) s = .next ((s.heardFrom h).sendMsg 0x21 h.src [] none)) ∧
    (s.withheld = false → ∃ t b, exec (.challengeRequest h) s = .next t ∧ t.dict.challenges.getLast? = some ⟨b, s.tick + 1, false, []⟩ ∧
      (∃ m ∈ t.chain.waiting, m.type = 0x21 ∧ m.dst = h.src ∧ m.body = b) ∧
      ((s.dict.challenges.filter fun c => !c.held).length ≤ 16 → (t.dict.challenges.filter fun c => !c.held).length ≤ 16) ∧
      (∀ c ∈ s.dict.challenges, c.held = true → c ∈ t.dict.challenges) ∧ t.dict.nums = s.dict.nums) := by
  rw [exec_challengeRequest_of_taken live takes]
  refine ⟨fun withheld => by rw [State.issueChallenge_of_withheld (s := s.heardFrom h) withheld], fun serves => ?_⟩
  obtain ⟨b, dict, sent⟩ := State.issueChallenge_rules (s := s.heardFrom h) serves h.src
  obtain ⟨room, keeps⟩ := challengeRoom_rules (s.heardFrom h).dict.challenges
  refine ⟨_, b, rfl, ?_, sent, fun most => ?_, fun c listed held => ?_, ?_⟩
  · rw [dict]
    exact List.getLast?_concat
  · rw [dict]
    have one := room most
    simpa [List.filter_append] using one
  · rw [dict]
    exact List.mem_append_left _ (keeps c listed held)
  · rw [dict]
    rfl

/-! ## Quorum writes (R360) -/

section
variable {s : State} {r : DictReq} {c : Challenge}

theorem State.tryComplete_of_pending {b : Bytes} {w : PendingWrite} (pending : (s.dict.pendingWrites.find? fun w => w.challenge == b) = some w)
    (short : s.quorumReached w = false) : s.tryComplete b = s := by
  rw [State.tryComplete, pending]
  exact if_neg (ne_true_of_eq_false short)

theorem State.quorumReached_of_few {w : PendingWrite} (few : s.counting w < s.needed) : s.quorumReached w = false := by
  rw [State.quorumReached, decide_eq_false (Nat.not_le.mpr few), Bool.false_and]

/-- A quorum write without approvals waits for them. -/
theorem State.quorumRequest_waits (key : Nat) (drawn : s.outstanding (r.proof.take 16) = some c) (free : c.held = false) (none_ : c.approvals = [])
    (room : s.dict.pendingWrites.length < 16) (new : ∀ w ∈ s.dict.pendingWrites, w.challenge ≠ c.bytes) (some_ : 0 < s.needed) :
    (s.quorumRequest r key).dict = { s.dict with
      pendingWrites := s.dict.pendingWrites ++ [⟨r, c.bytes, [], false, false⟩], challenges := (s.quorumRequest r key).dict.challenges, answer := .waiting } := by
  have holds : ∃ l, s.quorumRequest r key = State.tryComplete { s with dict := { s.dict with
      pendingWrites := s.dict.pendingWrites ++ [⟨r, c.bytes, [], false, false⟩], challenges := l, answer := .waiting } } c.bytes := by
    rw [State.quorumRequest, drawn]
    dsimp only
    rw [if_neg (by simp [free]), if_neg (Nat.not_le.mpr room), State.holdWrite, none_]
    exact ⟨_, rfl⟩
  obtain ⟨l, holds⟩ := holds
  have first : ((s.dict.pendingWrites ++ [(⟨r, c.bytes, [], false, false⟩ : PendingWrite)]).find? fun w => w.challenge == c.bytes) =
      some ⟨r, c.bytes, [], false, false⟩ := by
    rw [List.find?_append, List.find?_eq_none.mpr (by simpa using new)]
    simp
  have stays := State.tryComplete_of_pending (b := c.bytes) (w := ⟨r, c.bytes, [], false, false⟩) (s := { s with dict := { s.dict with
    pendingWrites := s.dict.pendingWrites ++ [⟨r, c.bytes, [], false, false⟩], challenges := l, answer := .waiting } }) first (State.quorumReached_of_few some_)
  rw [holds, stays]

end

/-- A write of role 3 with an outstanding challenge. -/
theorem quorumWrite_rules {r : DictReq} {a : Attr} {c : Challenge} {s : State} (live : s.live = true) (chain : r.weir = false)
    (takes : s.takes 0x10 r.hdr = true) (direct : r.hdr.dst ≠ bcast) (officer : r.role = 3) (known : attrOf r.index r.sub = some a)
    (may : a.mayWrite .officer = true) (tail : allZero (r.proof.drop 16) = true) (long : a.lengthOk r.value = true)
    (fits : (s.heardFrom r.hdr).firstRefusal a .officer (entryKey r.index r.sub) (a.valueOf r.value) = 0)
    (drawn : s.outstanding (r.proof.take 16) = some c) (free : c.held = false) (none_ : c.approvals = []) (room : s.dict.pendingWrites.length < 16)
    (new : ∀ w ∈ s.dict.pendingWrites, w.challenge ≠ c.bytes) (some_ : 0 < s.needed) :
    ∃ t, exec (.dictWrite r) s = .next t ∧ t.dict.answer = .waiting ∧ t.dict.pendingWrites = s.dict.pendingWrites ++ [⟨r, c.bytes, [], false, false⟩] ∧
      t.dict.acked = s.dict.acked ∧ t.dict.nums = s.dict.nums ∧ t.dict.octs = s.dict.octs := by
  have judging : s.judging r = s.heardFrom r.hdr := if_neg (by simp [chain])
  have acts : roleOf (reqRole r) = some .officer := by
    rw [reqRole, if_neg (by simp [chain]), officer]
    rfl
  have unseen : (s.heardFrom r.hdr).seeReq r = s.heardFrom r.hdr := if_neg (by omega)
  have proved : (s.heardFrom r.hdr).proofOk r 2 = true := by simp only [State.proofOk, officer]
  have open_ : ((s.heardFrom r.hdr).seeReq r).lockBars .officer = false := by simp [State.lockBars]
  have served := State.serveWrite_of_passes known acts may nofun proved (fun _ => tail) open_ long (by rwa [unseen])
  rw [if_pos rfl, unseen] at served
  have dict := State.quorumRequest_waits (s := s.heardFrom r.hdr) (entryKey r.index r.sub) drawn free none_ room new some_
  rw [(exec_dictRequest_of_served live (.inr ⟨takes, direct⟩)).2, judging, served]
  exact ⟨_, rfl, by rw [dict], by rw [dict]; rfl, by rw [dict]; rfl, by rw [dict]; rfl, by rw [dict]; rfl⟩

/-! ## Approvals (R360, Table 13.7) -/

/-- The checks of an approval that ask for no challenge: reserved byte, officer, algorithm and signature. -/
def State.approvalGood (s : State) (b : Bytes) : Bool :=
  at8 23 b == 0 && decide (at8 21 b < 16) && s.approver (at8 21 b) (at8 22 b) (entryKey (le 18 2 b) (at8 20 b)) (cut 24 32 b) &&
    approvalSigned (at8 22 b) (s.officerKey (at8 21 b)) b

section
variable {s : State} {b : Bytes}

theorem State.takeApproval_of_bad (bad : s.approvalGood b = false ∨ s.outstanding (b.take 16) = none) : s.takeApproval b = s.rejectApproval := by
  rw [State.takeApproval]
  by_cases good : s.approvalGood b = true
  · have unasked := bad.resolve_left (by simp [good])
    exact (if_neg (by rw [← State.approvalGood, good]; decide)).trans (by rw [unasked])
  · exact if_pos (by rw [← State.approvalGood, Bool.eq_false_iff.mpr good]; rfl)

variable {c : Challenge} (good : s.approvalGood b = true) (drawn : s.outstanding (b.take 16) = some c)
include good drawn

/-- An approval for a challenge that no write holds is kept with it, once an officer. -/
theorem State.takeApproval_of_unheld (unheld : (s.dict.pendingWrites.find? fun w => w.challenge == c.bytes) = none) : s.takeApproval b =
    if c.approvals.any fun a => a.1 == at8 21 b then s.rejectApproval
    else { s with dict := { s.dict with challenges := s.dict.challenges.map fun x =>
      if x.bytes = c.bytes then { x with approvals := x.approvals ++ [(at8 21 b, le 16 2 b, entryKey (le 18 2 b) (at8 20 b), cut 24 32 b)] } else x } } := by
  rw [State.takeApproval]
  refine (if_neg (by rw [← State.approvalGood, good]; decide)).trans ?_
  rw [drawn]
  dsimp only
  rw [unheld]

/-- An approval for a pending write counts where it agrees and is new. -/
theorem State.takeApproval_of_pending {w : PendingWrite} (pending : (s.dict.pendingWrites.find? fun w => w.challenge == c.bytes) = some w) :
    s.takeApproval b =
      if !s.agrees w.req (le 16 2 b) (entryKey (le 18 2 b) (at8 20 b)) (cut 24 32 b) ||
          (if selfApproval (at8 21 b) (entryKey (le 18 2 b) (at8 20 b)) (cut 24 32 b) then w.selfApproved else w.officers.contains (at8 21 b)) then s.rejectApproval
      else (s.countApproval c.bytes (at8 21 b) (selfApproval (at8 21 b) (entryKey (le 18 2 b) (at8 20 b)) (cut 24 32 b))).tryComplete c.bytes := by
  rw [State.takeApproval]
  refine (if_neg (by rw [← State.approvalGood, good]; decide)).trans ?_
  rw [drawn]
  dsimp only
  rw [pending]

end

/-! ## What an approval counts -/

/-- A pending write with one more officer's approval. -/
def PendingWrite.approvedBy (w : PendingWrite) (c : Bytes) (officer : Nat) : PendingWrite :=
  if w.challenge = c then { w with officers := insertAsc officer w.officers } else w

theorem State.countApproval_eq (s : State) (c : Bytes) (officer : Nat) : s.countApproval c officer false =
    State.setNum { s with dict := { s.dict with pendingWrites := s.dict.pendingWrites.map fun w => w.approvedBy c officer } } (Key.OFC_LAST_APPROVAL officer) s.tick := by
  simp only [State.countApproval, PendingWrite.approvedBy, Bool.false_eq_true, if_false]

/-- The numbers by which approvals are judged are not those that an approval writes. -/
theorem lastApproval_apart (officer : Nat) : Key.OFC_ENROLMENT_OPEN ≠ Key.OFC_LAST_APPROVAL officer ∧ Key.OFC_QUORUM_M ≠ Key.OFC_LAST_APPROVAL officer ∧
    ∀ n, Key.OFC_ALGORITHM n ≠ Key.OFC_LAST_APPROVAL officer := by
  simp only [Key.OFC_ENROLMENT_OPEN, Key.OFC_QUORUM_M, Key.OFC_ALGORITHM, Key.OFC_LAST_APPROVAL, entryKey]
  exact ⟨by omega, by omega, fun n => by omega⟩

theorem State.countApproval_judges (s : State) (c : Bytes) (officer : Nat) :
    (s.countApproval c officer false).enrolled = s.enrolled ∧ (s.countApproval c officer false).needed = s.needed := by
  obtain ⟨opened, quorum, algorithm⟩ := lastApproval_apart officer
  rw [State.countApproval_eq]
  have num {k : Nat} (other : k ≠ Key.OFC_LAST_APPROVAL officer) := State.num_setNum_ne
    { s with dict := { s.dict with pendingWrites := s.dict.pendingWrites.map fun w => w.approvedBy c officer } } (Key.OFC_LAST_APPROVAL officer) k s.tick other
  have enrolled : (State.setNum { s with dict := { s.dict with pendingWrites := s.dict.pendingWrites.map fun w => w.approvedBy c officer } }
      (Key.OFC_LAST_APPROVAL officer) s.tick).enrolled = s.enrolled := by
    simp only [State.enrolled, num (algorithm _)]
    rfl
  refine ⟨enrolled, ?_⟩
  simp only [State.needed, State.enrolmentOpen, enrolled, num opened, num quorum]
  rfl

/-- An approval that leaves its write short of its quorum. -/
theorem State.countApproval_rules {s : State} {c : Bytes} {w : PendingWrite} (officer : Nat)
    (pending : (s.dict.pendingWrites.find? fun w => w.challenge == c) = some w)
    (few : ((insertAsc officer w.officers).filter fun n => s.enrolled.contains n).length < s.needed) (rising : s.dict.nums.Pairwise fun a b => a.1 < b.1) :
    let t := (s.countApproval c officer false).tryComplete c
    { w with officers := insertAsc officer w.officers } ∈ t.dict.pendingWrites ∧ t.num (Key.OFC_LAST_APPROVAL officer) = s.tick ∧ t.dict.acked = s.dict.acked := by
  obtain ⟨enrolled, needed⟩ := s.countApproval_judges c officer
  have mine : w.challenge = c := by simpa using List.find?_some pending
  have approved : w.approvedBy c officer = { w with officers := insertAsc officer w.officers } := if_pos mine
  have keeps : ((fun w : PendingWrite => w.challenge == c) ∘ fun w : PendingWrite => w.approvedBy c officer) = fun w => w.challenge == c := by
    funext x
    simp only [Function.comp, PendingWrite.approvedBy]
    split <;> rfl
  have first : ((s.countApproval c officer false).dict.pendingWrites.find? fun w => w.challenge == c) = some (w.approvedBy c officer) := by
    rw [State.countApproval_eq]
    refine List.find?_map.trans ?_
    rw [keeps, pending]
    rfl
  have short : (s.countApproval c officer false).counting (w.approvedBy c officer) < (s.countApproval c officer false).needed := by
    rw [State.counting, enrolled, needed, approved]
    exact few
  dsimp only
  rw [State.tryComplete_of_pending first (State.quorumReached_of_few short), ← approved]
  refine ⟨List.mem_of_find?_eq_some first, ?_, ?_⟩
  · rw [State.countApproval_eq]
    exact State.num_setNum _ _ _ rising
  · rw [State.countApproval_eq]
    rfl

section
variable {h : MsgHdr} {b : Bytes} {s : State}

theorem exec_approval_of_taken (live : s.live = true) (takes : s.takes 0x22 h = true) : exec (.approval h b) s = .next ((s.heardFrom h).takeApproval b) :=
  (if_pos live).trans (congrArg Host.Outcome.next (State.atStep4_receive_of_takes takes _ _))

/-- An approval as it arrives. -/
theorem approval_rules (live : s.live = true) (takes : s.takes 0x22 h = true) :
    let officer := at8 21 b
    let key := entryKey (le 18 2 b) (at8 20 b)
    (s.approvalGood b = false ∨ s.outstanding (b.take 16) = none →
      exec (.approval h b) s = .next (((s.heardFrom h).count Key.OFC_APPROVALS_REJECTED).event 0xC001)) ∧
    (∀ c, s.approvalGood b = true → s.outstanding (b.take 16) = some c → (s.dict.pendingWrites.find? fun w => w.challenge == c.bytes) = none →
      ((c.approvals.any fun a => a.1 == officer) = true → exec (.approval h b) s = .next (((s.heardFrom h).count Key.OFC_APPROVALS_REJECTED).event 0xC001)) ∧
      ((c.approvals.any fun a => a.1 == officer) = false → ∃ t, exec (.approval h b) s = .next t ∧
        (∃ x ∈ t.dict.challenges, x.bytes = c.bytes ∧ x.approvals = c.approvals ++ [(officer, le 16 2 b, key, cut 24 32 b)]) ∧
        t.dict.nums = s.dict.nums ∧ t.dict.pendingWrites = s.dict.pendingWrites)) ∧
    (∀ c w, s.approvalGood b = true → s.outstanding (b.take 16) = some c → (s.dict.pendingWrites.find? fun w => w.challenge == c.bytes) = some w →
      s.agrees w.req (le 16 2 b) key (cut 24 32 b) = false ∨ (selfApproval officer key (cut 24 32 b) = false ∧ officer ∈ w.officers) →
      exec (.approval h b) s = .next (((s.heardFrom h).count Key.OFC_APPROVALS_REJECTED).event 0xC001)) ∧
    (∀ c w, s.approvalGood b = true → s.outstanding (b.take 16) = some c → (s.dict.pendingWrites.find? fun w => w.challenge == c.bytes) = some w →
      s.agrees w.req (le 16 2 b) key (cut 24 32 b) = true → selfApproval officer key (cut 24 32 b) = false → officer ∉ w.officers →
      ((insertAsc officer w.officers).filter fun n => s.enrolled.contains n).length < s.needed → s.dict.nums.Pairwise (fun a b => a.1 < b.1) →
      ∃ t, exec (.approval h b) s = .next t ∧ { w with officers := insertAsc officer w.officers } ∈ t.dict.pendingWrites ∧
        t.num (Key.OFC_LAST_APPROVAL officer) = s.tick ∧ t.dict.acked = s.dict.acked) := by
  have agreement (r : DictReq) (target key : Nat) (hash : Bytes) : (s.heardFrom h).agrees r target key hash = s.agrees r target key hash := rfl
  rw [exec_approval_of_taken live takes]
  refine ⟨fun bad => ?_, fun c good drawn unheld => ⟨fun twice => ?_, fun new => ?_⟩, fun c w good drawn pending other => ?_,
    fun c w good drawn pending agrees other new few rising => ?_⟩
  · rw [State.takeApproval_of_bad (s := s.heardFrom h) bad]
    rfl
  · rw [State.takeApproval_of_unheld (s := s.heardFrom h) good drawn unheld, if_pos twice]
    rfl
  · rw [State.takeApproval_of_unheld (s := s.heardFrom h) good drawn unheld, if_neg (by simp [new])]
    exact ⟨_, rfl, ⟨_, List.mem_map_of_mem (List.mem_of_find?_eq_some drawn), by simp, by simp⟩, rfl, rfl⟩
  · rw [State.takeApproval_of_pending (s := s.heardFrom h) good drawn pending, agreement, if_pos]
    · rfl
    · rcases other with differs | ⟨plain, counted⟩
      · simp [differs]
      · simp [plain, counted]
  · rw [State.takeApproval_of_pending (s := s.heardFrom h) good drawn pending, agreement, if_neg (by simp [agrees, other, new]), other]
    exact ⟨_, rfl, State.countApproval_rules (s := s.heardFrom h) (at8 21 b) pending few rising⟩

end

/-! ## Writes that go on the chain (R223, R224, R341) -/

/-- A change put on the chain for a write stands among the unit's own. -/
theorem State.startOwn_rules (s : State) (change : Change) (k : Nat) (write : Nat × Option DictReq) (majority : Bool) :
    (s.startOwn change k none (some write) majority).dict = s.dict ∧ (s.startOwn change k none (some write) majority).keys = s.keys ∧
      (s.startOwn change k none (some write) majority).chain.seq = s.chain.seq + 1 ∧
      ∃ o, (s.startOwn change k none (some write) majority).chain.own = s.chain.own ++ [o] ∧ o.record = ⟨s.chain.seq, k, s.tick, change⟩ ∧ o.e = s.tick ∧
        o.write = some write := by
  have kept (l m : List OwnChange) : (if k = 0 ∧ (none : Option Nat).isNone = true ∧ (some write).isNone = true then l else m) = m := if_neg (by simp)
  simp only [State.startOwn, kept]
  split_ifs <;> exact ⟨rfl, rfl, rfl, _, rfl, rfl, rfl, rfl⟩

/-- What the change of a replicated write is, with the heart that it takes in flight (R224, R341). -/
def State.ReplicatedAs (s : State) (key n : Nat) (c : Change × State) : Prop :=
  c.2 = { s with ent := c.2.ent, keys := { s.keys with inFlight := c.2.keys.inFlight } } ∧
    (key = Key.CHN_K → c.1 = .kValue n) ∧ (key = Key.CHN_MEMBER_REMOVE → c.1 = .members (s.members.filter fun m => decide (m ≠ n))) ∧
    (0x8000 ≤ key / 256 → key / 256 < 0xC000 → key / 256 - 0x8000 ∈ c.2.keys.inFlight ∧
      ∃ k, c.1 = .heart (key / 256 - 0x8000) ((s.heart (key / 256 - 0x8000)).changed (key % 256) n k).bytes)

theorem State.replicated_of_heart {s : State} {key : Nat} (n : Nat) (lo : 0x8000 ≤ key / 256) (hi : key / 256 < 0xC000) (sub : 3 ≤ key % 256 ∧ key % 256 ≤ 5) :
    ∃ c, s.replicated key n = some c ∧ s.ReplicatedAs key n c := by
  have other : key ≠ Key.CHN_K ∧ key ≠ Key.CHN_MEMBER_REMOVE := by
    simp only [Key.CHN_K, Key.CHN_MEMBER_REMOVE, entryKey]
    omega
  simp only [State.replicated]
  rw [if_pos ⟨lo, hi, by omega⟩]
  refine ⟨_, rfl, ?_, fun k => absurd k other.1, fun m => absurd m other.2, fun _ _ => ⟨mem_insertAsc.mpr (.inl rfl), _, rfl⟩⟩
  dsimp only
  split <;> rfl

theorem State.replicated_of_chain {s : State} {key : Nat} (n : Nat) (chain : key = Key.CHN_K ∨ key = Key.CHN_MEMBER_REMOVE) :
    ∃ c, s.replicated key n = some c ∧ s.ReplicatedAs key n c := by
  have low : ¬ 0x8000 ≤ key / 256 := by
    rcases chain with rfl | rfl <;> decide
  simp only [State.replicated]
  rw [if_neg fun h => low h.1]
  rcases chain with rfl | rfl
  · rw [if_pos rfl]
    exact ⟨_, rfl, rfl, fun _ => rfl, nofun, fun lo => absurd lo low⟩
  · rw [if_neg (by decide), if_pos rfl]
    exact ⟨_, rfl, rfl, nofun, fun _ => rfl, fun lo => absurd lo low⟩

theorem State.acceptWrite_of_replicated {s : State} {officer : Bool} {key n : Nat} {c : Change × State} (stands : s.view.mayStand officer key (.num n) = true)
    (guard : key ≠ Key.KPR_GUARD_ENABLE) (watchdog : key ≠ Key.KPR_SWDT_REFRESH) (goes : s.replicated key n = some c) :
    s.acceptWrite officer key (.num n) none = { c.2.startOwn c.1 c.2.kInForce none (some (key, none)) c.2.majority with
      dict := { (c.2.startOwn c.1 c.2.kInForce none (some (key, none)) c.2.majority).dict with answer := .waiting } } := by
  rw [State.acceptWrite, if_neg (by simp [stands])]
  dsimp only
  rw [State.atOnce, if_neg guard, if_neg watchdog]
  dsimp only
  rw [goes]
  rfl

/-- A write that goes on the chain is waiting, and changes neither its entry nor the heart table. -/
theorem replicatedWrite_rules {c : Instr} {role : Role} {key n : Nat} {s : State} (row : dictRow c = some (true, role, key, .num n))
    (passes : s.writePasses role key (.num n) = true)
    (goes : key = Key.CHN_K ∨ key = Key.CHN_MEMBER_REMOVE ∨ (0x8000 ≤ key / 256 ∧ key / 256 < 0xC000 ∧ 3 ≤ key % 256 ∧ key % 256 ≤ 5)) :
    ∃ t o, exec c s = .next t ∧ t.dict = { s.dict with answer := .waiting } ∧ t.chain.own = s.chain.own ++ [o] ∧ t.chain.seq = s.chain.seq + 1 ∧
      o.record.seq = s.chain.seq ∧ o.record.k = s.kInForce ∧ o.e = s.tick ∧ o.write = some (key, none) ∧ t.keys.hearts = s.keys.hearts ∧
      (key = Key.CHN_K → o.record.change = .kValue n) ∧
      (key = Key.CHN_MEMBER_REMOVE → o.record.change = .members (s.members.filter fun m => decide (m ≠ n))) ∧
      (0x8000 ≤ key / 256 → key / 256 < 0xC000 → key / 256 - 0x8000 ∈ t.keys.inFlight ∧
        ∃ k, o.record.change = .heart (key / 256 - 0x8000) ((s.heart (key / 256 - 0x8000)).changed (key % 256) n k).bytes) := by
  obtain ⟨accepted, stands⟩ := State.rowWrite_of_passes passes
  have apart : key ≠ Key.KPR_GUARD_ENABLE ∧ key ≠ Key.KPR_SWDT_REFRESH := by
    simp only [Key.CHN_K, Key.CHN_MEMBER_REMOVE, Key.KPR_GUARD_ENABLE, Key.KPR_SWDT_REFRESH, entryKey] at goes ⊢
    omega
  obtain ⟨change, replicated, frame, kValue, members, heart⟩ : ∃ change, s.replicated key n = some change ∧ s.ReplicatedAs key n change := by
    rcases goes with k | member | ⟨lo, hi, sub⟩
    · exact State.replicated_of_chain n (.inl k)
    · exact State.replicated_of_chain n (.inr member)
    · exact State.replicated_of_heart n lo hi sub
  obtain ⟨dict, keys, seq, o, own, record, e, write⟩ := change.2.startOwn_rules change.1 change.2.kInForce (key, none) change.2.majority
  have kept : change.2.chain = s.chain ∧ change.2.dict = s.dict ∧ change.2.tick = s.tick ∧ change.2.keys.hearts = s.keys.hearts ∧ change.2.kInForce = s.kInForce := by
    rw [frame]
    exact ⟨rfl, rfl, rfl, rfl, rfl⟩
  obtain ⟨kChain, kDict, kTick, kHearts, kK⟩ := kept
  refine ⟨_, o, (exec_of_dictRow row s).trans (congrArg Host.Outcome.next (accepted.trans (State.acceptWrite_of_replicated stands apart.1 apart.2 replicated))), ?_, ?_⟩
  · dsimp only
    rw [dict, kDict]
  · dsimp only
    rw [own, seq, keys, record, kChain]
    exact ⟨rfl, rfl, rfl, kK, e.trans kTick, write, kHearts, kValue, members, heart⟩

/-! ## Expiries (R333, R361) -/

/-- A pending write at its expiry. -/
theorem quorumWriteExpiry_rules {b : Bytes} {s : State} {w : PendingWrite} {c : Challenge}
    (pending : (s.dict.pendingWrites.find? fun w => w.challenge == b) = some w) (drawn : (s.dict.challenges.find? fun c => c.bytes == b) = some c) :
    (c.issued + 4096 ≤ s.tick → ∃ t, exec (.quorumWriteExpiry b) s = .next t ∧ t.dict.answer = .refused 8 ∧
      (∀ x ∈ t.dict.pendingWrites, x.challenge ≠ b) ∧ (∀ x ∈ t.dict.challenges, x.bytes ≠ b) ∧ t.dict.acked = s.dict.acked) ∧
    (s.tick < c.issued + 4096 → exec (.quorumWriteExpiry b) s = .next s) := by
  have run : exec (.quorumWriteExpiry b) s = if c.issued + 4096 ≤ s.tick then
      .next ((s.spend b).refuse (entryKey w.req.index w.req.sub) 8 (some (w.req, none))) else .next s := by
    have unfolded : exec (.quorumWriteExpiry b) s = execQuorumWriteExpiry b s := rfl
    rw [unfolded, execQuorumWriteExpiry, pending, drawn]
  rw [run]
  refine ⟨fun due => ?_, fun early => if_neg (Nat.not_le.mpr early)⟩
  rw [if_pos due]
  obtain ⟨answer, acked⟩ := (s.spend b).refuse_rules (entryKey w.req.index w.req.sub) 8 (some (w.req, none))
  have lists : ((s.spend b).refuse (entryKey w.req.index w.req.sub) 8 (some (w.req, none))).dict.pendingWrites = (s.spend b).dict.pendingWrites ∧
      ((s.spend b).refuse (entryKey w.req.index w.req.sub) 8 (some (w.req, none))).dict.challenges = (s.spend b).dict.challenges := by
    simp only [State.refuse, State.reply_dict]
    exact ⟨rfl, rfl⟩
  refine ⟨_, rfl, answer, fun x listed => ?_, fun x listed => ?_, acked⟩
  · rw [lists.1] at listed
    exact of_decide_eq_true (List.mem_filter.mp listed).2
  · rw [lists.2] at listed
    exact of_decide_eq_true (List.mem_filter.mp listed).2

/-- Settles O52, by challenges, quorum writes, approvals, expiries and the writes that go on the chain. -/
theorem quorumAndReplicatedWrites : Obligations.QuorumAndReplicatedWrites := by
  unfold Obligations.QuorumAndReplicatedWrites
  refine ⟨fun h s live takes => challengeRequest_rules live takes, ?_, fun h b s live takes => approval_rules live takes, fun b s => ⟨?_, ?_, fun dead h => ?_⟩,
    fun officer value s live slot some_ => ?_, fun c role key n s row passes goes => replicatedWrite_rules row passes goes⟩
  · exact fun r a c s live chain takes direct officer known may tail long fits drawn free none_ room new some_ =>
      quorumWrite_rules live chain takes direct officer known may tail long fits drawn free none_ room new some_
  · exact fun w c pending drawn => quorumWriteExpiry_rules pending drawn
  · refine ⟨_, rfl, fun c => ?_, rfl⟩
    simp only [List.mem_filter, Bool.not_eq_true', Bool.and_eq_false_iff, beq_eq_false_iff_ne, Bool.not_eq_false', decide_eq_false_iff_not]
    grind
  · exact ⟨if_neg (by simp [dead]), if_neg (by simp [dead])⟩
  · exact if_pos (by simp [live, slot, some_])

end Sys2Proof.Machine
end

section
/-! Writes of the dictionary and the life cycle: only a few of them touch the life-cycle record, and none an authorised transition (R357, R390, R401). -/

namespace Sys2Proof.Machine

/-! ## What leaves the life-cycle record -/

@[simp] theorem State.ite_life (c : Prop) [Decidable c] (s t : State) : (if c then s else t).life = if c then s.life else t.life := apply_ite State.life c s t
@[simp] theorem State.foldl_life {α : Type} {f : State → α → State} (h : ∀ st x, (f st x).life = st.life) (l : List α) (s : State) : (l.foldl f s).life = s.life := foldl_keeps (p := State.life) h l s


@[simp] theorem State.draw_life (s : State) (n : Nat) : ((State.draw s n).2).life = s.life := by
  rfl

@[simp] theorem State.takeBytes_life (s : State) (n : Nat) : ((State.takeBytes s n).2).life = s.life := by
  rfl

@[simp] theorem State.sendMsg_life (s : State) (type dst : Nat) (body : Bytes) (record : Option ReplRecord) : (State.sendMsg s type dst body record).life = s.life := by
  rfl

@[simp] theorem State.sendNotice_life (s : State) (type dst writer seq : Nat) : (State.sendNotice s type dst writer seq).life = s.life := by
  rfl

@[simp] theorem State.submit_life (s : State) (port : Nat) (told : Bool) (op : NvmeOp) : (State.submit s port told op).life = s.life := by
  unfold State.submit
  split <;> simp

@[simp] theorem State.dropTag_life (s : State) (t : Bytes) : (State.dropTag s t).life = s.life := by
  rfl

@[simp] theorem State.setMembers_life (s : State) (l : List Nat) : (State.setMembers s l).life = s.life := by
  unfold State.setMembers State.setAddrList
  simp

@[simp] theorem State.endWrites_life (s : State) : (State.endWrites s).life = s.life := by
  rfl

@[simp] theorem State.scrubJob_life (s : State) (j : Job) : (State.scrubJob s j).life = s.life := by
  rfl

@[simp] theorem State.abandon_life (s : State) (id : Nat) : (State.abandon s id).life = s.life := by
  rfl

@[simp] theorem State.endAllJobs_life (s : State) : (State.endAllJobs s).life = s.life := by
  simp [State.endAllJobs]

@[simp] theorem State.migTo_life (s : State) (n : Nat) (m : MigState) : (State.migTo s n m).life = s.life := by
  rfl

@[simp] theorem State.movesNext_life (s : State) (n : Nat) : (State.movesNext s n).life = s.life := by
  rfl

@[simp] theorem State.park_life (s : State) (j : Job) : (State.park s j).life = s.life := by
  rfl

@[simp] theorem State.parkWhere_life (s : State) (n : Nat) (p : Job → Bool) : (State.parkWhere s n p).life = s.life := by
  simp [State.parkWhere]

@[simp] theorem State.migRefuse_life (s : State) (n code : Nat) : (State.migRefuse s n code).life = s.life := by
  rfl

@[simp] theorem State.thaw_life (s : State) (n : Nat) : (State.thaw s n).life = s.life := by
  unfold State.thaw
  split
  · split <;> simp
  · simp

@[simp] theorem State.restoreStart_life (s : State) (n : Nat) : (State.restoreStart s n).life = s.life := by
  simp [State.restoreStart]

@[simp] theorem State.saveStart_life (s : State) (n : Nat) : (State.saveStart s n).life = s.life := by
  simp [State.saveStart]

@[simp] theorem State.freeze_life (s : State) (n : Nat) : (State.freeze s n).life = s.life := by
  simp [State.freeze]

@[simp] theorem State.freezeNow_life (s : State) (n : Nat) : (State.freezeNow s n).life = s.life := by
  simp [State.freezeNow, State.parkWhere_life]

@[simp] theorem State.migCommand_life (s : State) (n v : Nat) : (State.migCommand s n v).life = s.life := by
  unfold State.migCommand
  split <;> simp

@[simp] theorem State.chkMismatch_life (s : State) : (State.chkMismatch s).life = s.life := by
  rfl

@[simp] theorem State.chkStop_life (s : State) (u state fault : Nat) : (State.chkStop s u state fault).life = s.life := by
  rfl

@[simp] theorem State.chkBegin_life (s : State) (u reg position : Nat) : (State.chkBegin s u reg position).life = s.life := by
  simp [State.chkBegin]

@[simp] theorem State.chkCommand_life (s : State) (u cmd : Nat) : (State.chkCommand s u cmd).life = s.life := by
  unfold State.chkCommand
  split <;> simp

@[simp] theorem State.chkHalt_life (s : State) (u : Nat) : (State.chkHalt s u).life = s.life := by
  simp [State.chkHalt]

@[simp] theorem State.chkFunctionReset_life (s : State) : (State.chkFunctionReset s).life = s.life := by
  simp [State.chkFunctionReset]

@[simp] theorem State.closeTap_life (s : State) : (State.closeTap s).life = s.life := by
  simp [State.closeTap]

@[simp] theorem State.slicesReset_life (s : State) : (State.slicesReset s).life = s.life := by
  simp [State.slicesReset]

@[simp] theorem State.lanesReset_life (s : State) : (State.lanesReset s).life = s.life := by
  rfl

@[simp] theorem State.assignSpares_life (s : State) : (State.assignSpares s).life = s.life := by
  simp [State.assignSpares]

@[simp] theorem State.functionReset_life (s : State) : (State.functionReset s).life = s.life := by
  simp [State.functionReset]

@[simp] theorem State.deallocatePage_life (s : State) (p : Nat) : (State.deallocatePage s p).life = s.life := by
  simp [State.deallocatePage]

@[simp] theorem State.comeIntoForce_life (s : State) : (State.comeIntoForce s).life = s.life := by
  unfold State.comeIntoForce
  split
  · exact State.foldl_life State.deallocatePage_life _ _
  · rfl

@[simp] theorem State.vaultReset_life (s : State) : (State.vaultReset s).life = s.life := by
  rfl

@[simp] theorem State.standbyOff_life (s : State) : (State.standbyOff s).life = s.life := by
  have reset (t : State) (b : Nat) : (t.enterReset 1 b).life = t.life := by simp [State.enterReset]
  simp [State.standbyOff, reset]

@[simp] theorem State.standbyOn_life (s : State) : (State.standbyOn s).life = s.life := by
  simp [State.standbyOn]

@[simp] theorem State.setStandby_life (s : State) (v : Nat) : (State.setStandby s v).life = s.life := by
  simp [State.setStandby]

@[simp] theorem State.gateNow_life (s : State) (b : Nat) : (State.gateNow s b).life = s.life := by
  simp only [State.gateNow]
  split
  · simp
  · split <;> simp

@[simp] theorem State.gateRequest_life (s : State) (b : Nat) : (State.gateRequest s b).life = s.life := by
  simp only [State.gateRequest]
  split
  · simp
  · split
    · simp
    · split <;> simp

@[simp] theorem State.ungateNow_life (s : State) (b : Nat) : (State.ungateNow s b).life = s.life := by
  simp only [State.ungateNow]
  split
  · simp
  · split <;> simp

@[simp] theorem State.setGate_life (s : State) (b v : Nat) : (State.setGate s b v).life = s.life := by
  simp [State.setGate]

@[simp] theorem State.startOwn_life (s : State) (change : Change) (k : Nat) (job : Option Nat) (write : Option (Nat × Option DictReq)) (majority : Bool) : (State.startOwn s change k job write majority).life = s.life := by
  simp [State.startOwn]

@[simp] theorem State.transferStart_life (s : State) (o : Offer) : (State.transferStart s o).life = s.life := by
  rfl

@[simp] theorem State.grantDomain_life (s : State) : (State.grantDomain s).life = s.life := by
  unfold State.grantDomain
  split <;> simp

@[simp] theorem State.takeDomain_life (s : State) (g : DomainGrant) : (State.takeDomain s g).life = s.life := by
  simp [State.takeDomain]

@[simp] theorem State.joinConfirm_life (s : State) : (State.joinConfirm s).life = s.life := by
  simp only [State.joinConfirm]
  split
  · simp
  · split <;> simp

@[simp] theorem State.joinStart_life (s : State) (peer : Nat) : (State.joinStart s peer).life = s.life := by
  simp [State.joinStart]

@[simp] theorem State.foundDomain_life (s : State) : (State.foundDomain s).life = s.life := by
  simp [State.foundDomain]

@[simp] theorem State.failReads_life (s : State) (due : Nat) : (State.failReads s due).life = s.life := by
  simp [State.failReads]

@[simp] theorem State.failGroup_life (s : State) (due : Nat) : (State.failGroup s due).life = s.life := by
  simp [State.failGroup]

@[simp] theorem State.driveLost_life (s : State) (port : Nat) (next : PortState) : (State.driveLost s port next).life = s.life := by
  simp [State.driveLost]

@[simp] theorem State.portOffline_life (s : State) (port v : Nat) : (State.portOffline s port v).life = s.life := by
  simp [State.portOffline]

@[simp] theorem State.takeRoot_life (s : State) (r : Root) : (State.takeRoot s r).life = s.life := by
  rfl

@[simp] theorem State.copyBlock_life (s : State) (port block : Nat) : (s.copyBlock port block).life = s.life := by
  simp [State.copyBlock]

@[simp] theorem State.startCopy_life (s : State) (port : Nat) : (State.startCopy s port).life = s.life := by
  simp [State.startCopy]

@[simp] theorem State.rootSelect_life (s : State) (port : Nat) : (State.rootSelect s port).life = s.life := by
  unfold State.rootSelect
  split <;> simp

@[simp] theorem State.startFormat_life (s : State) (n : Nat) : (State.startFormat s n).life = s.life := by
  simp [State.startFormat]

@[simp] theorem State.raiseSpare_life (s : State) : (State.raiseSpare s).life = s.life := by
  unfold State.raiseSpare
  split <;> rfl

@[simp] theorem State.lowerSpare_life (s : State) : (State.lowerSpare s).life = s.life := by
  unfold State.lowerSpare
  split
  · simp
  · split <;> simp

@[simp] theorem State.setSpareCount_life (s : State) (v : Nat) : (State.setSpareCount s v).life = s.life := by
  simp [State.setSpareCount]

@[simp] theorem State.unfencePk_life (s : State) (v : Nat) : (State.unfencePk s v).life = s.life := by
  simp [State.unfencePk]

@[simp] theorem State.unfenceSym_life (s : State) (v : Nat) : (State.unfenceSym s v).life = s.life := by
  simp [State.unfenceSym]

@[simp] theorem State.unfenceLat_life (s : State) (v : Nat) : (State.unfenceLat s v).life = s.life := by
  simp [State.unfenceLat]

@[simp] theorem State.setWeirs_life (s : State) (v : Nat) : (State.setWeirs s v).life = s.life := by
  rfl

@[simp] theorem State.setRegion_life (s : State) (n sub v : Nat) : (State.setRegion s n sub v).life = s.life := by
  rfl

@[simp] theorem State.setSource_life (s : State) (key n v : Nat) : (State.setSource s key n v).life = s.life := by
  rfl

@[simp] theorem State.clearLatches_life (s : State) (v : Nat) : (State.clearLatches s v).life = s.life := by
  rfl

@[simp] theorem State.reloadPins_life (s : State) : (State.reloadPins s).life = s.life := by
  rfl

@[simp] theorem State.clearLock_life (s : State) : (State.clearLock s).life = s.life := by
  simp [State.clearLock]

@[simp] theorem State.dropOfficer_life (s : State) (n : Nat) : (State.dropOfficer s n).life = s.life := by
  rfl

@[simp] theorem State.moveRing_life (s : State) (n v : Nat) : (State.moveRing s n v).life = s.life := by
  simp [State.moveRing]

@[simp] theorem State.ceClear_life (s : State) (key tick : Nat) : (State.ceClear s key tick).life = s.life := by
  rfl

@[simp] theorem State.silClear_life (s : State) (snap : Nat → Nat × Bytes) : (State.silClear s snap).life = s.life := by
  rfl

@[simp] theorem State.imageWrite_life (s : State) (n : Nat) (v : Bytes) : (State.imageWrite s n v).life = s.life := by
  rfl

/-! ## What a write leaves of the life cycle -/

/-- The authorised transition and the life-cycle state stand. -/
def SameStanding (s t : State) : Prop := t.life.authorised = s.life.authorised ∧ t.lifeCycle = s.lifeCycle

theorem SameStanding.of_life {s t : State} (h : t.life = s.life) : SameStanding s t := ⟨by rw [h], by simp only [State.lifeCycle, h]⟩

theorem SameStanding.trans {s t u : State} (st : SameStanding s t) (tu : SameStanding t u) : SameStanding s u :=
  ⟨tu.1.trans st.1, tu.2.trans st.2⟩

theorem SameStanding.foldl {α : Type} {f : State → α → State} (h : ∀ s x, SameStanding s (f s x)) (l : List α) (s : State) : SameStanding s (l.foldl f s) := by
  induction l generalizing s with
  | nil => exact ⟨rfl, rfl⟩
  | cons x l ih => exact (h s x).trans (ih _)

theorem State.endGrantNext_sameStanding (s : State) : SameStanding s s.endGrantNext := by
  simp only [State.endGrantNext]
  split_ifs <;> exact ⟨rfl, rfl⟩

theorem State.transitionStart_sameStanding (s : State) (target : Nat) : SameStanding s (s.transitionStart target) := by
  have ends : SameStanding s s.endGrantNext.endAllJobs := s.endGrantNext_sameStanding.trans (.of_life (State.endAllJobs_life _))
  unfold State.transitionStart
  split
  · exact ⟨rfl, rfl⟩
  · exact ends.trans ⟨by simp, by simp [State.lifeCycle]⟩

theorem State.applyLow_life (s : State) (index sub key v : Nat) : (s.applyLow index sub key v).life = s.life := by
  unfold State.applyLow
  split <;> simp

theorem State.applyHigh_sameStanding (s : State) (index sub key v : Nat) : SameStanding s (s.applyHigh index sub key v) := by
  unfold State.applyHigh
  by_cases check : 0x2610 ≤ index ∧ index < 0x2614
  · rw [if_pos check]
    dsimp only
    split_ifs <;> exact .of_life (by simp)
  rw [if_neg check]
  iterate 5
    split
    · exact .of_life (by simp)
  split
  case h_3 => exact s.transitionStart_sameStanding v
  case h_4 | h_5 | h_7 => exact ⟨rfl, rfl⟩
  case h_6 => exact s.endGrantNext_sameStanding
  all_goals exact .of_life (by simp)

theorem State.applyOctets_sameStanding (s : State) (index sub key : Nat) (b : Bytes) : SameStanding s (s.applyOctets index sub key b) := by
  unfold State.applyOctets
  split_ifs
  · exact .of_life (by simp)
  · exact .of_life (by simp)
  · split
    · exact .of_life (by simp)
    · exact ⟨rfl, rfl⟩
    · exact .of_life (by simp)

/-- No write that is applied touches an authorised transition or the life-cycle state. -/
theorem State.applyWrite_sameStanding (s : State) (w : Nat × DVal) : SameStanding s (s.applyWrite w) := by
  unfold State.applyWrite
  dsimp only
  split
  · split_ifs
    · exact .of_life (by simp)
    · exact .of_life (State.applyLow_life _ _ _ _ _)
    · exact State.applyHigh_sameStanding _ _ _ _ _
  · exact State.applyOctets_sameStanding _ _ _ _ _

theorem State.view_sameStanding (s : State) : SameStanding s s.view := SameStanding.foldl State.applyWrite_sameStanding _ s

/-! ## A reset of WARM reach or wider -/

theorem State.putHeart_life (s : State) (n : Nat) (h : Heart) : (s.putHeart n h).life = s.life := by
  simp only [State.putHeart]
  split <;> simp

theorem State.setHeartEntry_life (s : State) (n : Nat) (entry : Bytes) : (s.setHeartEntry n entry).life = s.life := by
  simp only [State.setHeartEntry, State.dropGeneration]
  split <;> exact State.putHeart_life _ _ _

theorem State.applyEffect_life (s : State) (c : Change) : (s.applyEffect c).life = s.life := by
  unfold State.applyEffect
  split
  case h_3 =>
    simp only [State.pinIn]
    split <;> rfl
  case h_6 => exact s.setHeartEntry_life _ _
  case h_10 => exact s.setMembers_life _
  all_goals rfl

theorem State.settleHeart_life (s : State) (c : Change) : (s.settleHeart c).life = s.life := by
  unfold State.settleHeart
  split <;> rfl

theorem State.chainWarm_life (s : State) : s.chainWarm.life = s.life := by
  have settles (t : State) (o : OwnChange) : (((t.applyEffect o.record.change).settleHeart o.record.change).dropOwn o.record.seq).life = t.life :=
    (State.settleHeart_life _ _).trans (State.applyEffect_life _ _)
  simp only [State.chainWarm]
  split
  · exact State.foldl_life settles _ s
  · exact State.foldl_life settles _ s

theorem State.dictReset_life (s : State) (p : Reach → Bool) : (s.dictReset p).life = s.life := rfl

theorem State.warmReset_life (s : State) : s.warmReset.life = s.functionReset.silReset.lifeReset.life := by
  simp only [State.warmReset, State.dictReset_life, State.chainWarm_life, State.vaultReset_life, State.lanesReset_life]

theorem State.coldReset_life (s : State) : s.coldReset.life = s.warmReset.life := by
  have clears (t : State) := State.foldl_life (fun st k => State.ceClear_life st k st.tick) ceKeys t
  simp only [State.coldReset, clears, State.dictReset_life]

/-- What a reset of WARM reach ends in the life-cycle record. -/
theorem State.lifeReset_ends (s : State) : s.lifeReset.life.authorised = none ∧ s.lifeReset.life.certState = 0 := ⟨rfl, rfl⟩

/-- A reset of WARM reach or wider ends the authority of a transition (R401). -/
theorem State.enterReset_ends_authority {s : State} {reach causes : Nat} (wide : 2 ≤ reach) (starts : s.rst.starting ≤ reach)
    (wider : s.rst.power ≠ .held ∨ s.rst.reach < reach) :
    (s.enterReset reach causes).life.authorised = none ∧ (s.enterReset reach causes).life.certState = 0 := by
  have strikes : (decide (s.rst.power = .held) && decide (reach ≤ s.rst.reach) || decide (reach < s.rst.starting)) = false := by
    rw [decide_eq_false (Nat.not_lt.mpr starts), Bool.or_false, Bool.and_eq_false_iff, decide_eq_false_iff_not, decide_eq_false_iff_not]
    exact wider.imp id Nat.not_le.mpr
  have ended (t : State) : t.warmReset.life.authorised = none ∧ t.warmReset.life.certState = 0 := by
    rw [State.warmReset_life]
    exact State.lifeReset_ends _
  simp only [State.enterReset, strikes, Bool.false_eq_true, if_false, if_neg (show ¬ reach = 1 by omega)]
  split
  · exact ended _
  · rw [State.coldReset_life]
    exact ended _

/-! ## The write of LCS_TRANSITION (R390) -/

/-- Without an authorised transition a write of LCS_TRANSITION may not stand outside FIELDED. -/
theorem State.mayStand_transition {s : State} (officer : Bool) (target : Nat) (state : s.lifeCycle ≠ 2) (none_ : s.life.authorised = none) :
    s.mayStand officer Key.LCS_TRANSITION (.num target) = false := by
  have rule : s.ruleLife officer 0x2800 3 target = false := by
    have unauthorised (n : Nat) : s.transitionAuthorised n target officer = false := by
      rw [State.transitionAuthorised, if_neg state, none_, Bool.and_eq_false_iff]
      exact .inr rfl
    simp only [State.ruleLife]
    split
    · rw [unauthorised, Bool.false_and]
    · rfl
  have own : s.ruleNum officer (Key.LCS_TRANSITION / 256) (Key.LCS_TRANSITION % 256) target = s.ruleLife officer 0x2800 3 target := rfl
  simp only [State.mayStand, own, rule, Bool.and_false]

/-- The write is refused, by its role, its value or its own rule. -/
theorem lcsTransition_refused {role : Role} {target : Nat} {s : State} (live : s.live = true) (state : s.lifeCycle ≠ 2) (none_ : s.life.authorised = none) :
    ∃ reason, reason ≠ 0 ∧ exec (.lcsTransition role target) s = .next (s.refused Key.LCS_TRANSITION reason) := by
  obtain ⟨authorised, cycle⟩ := s.view_sameStanding
  have barred := s.view.mayStand_transition (decide (role = .officer)) target (by rwa [cycle]) (authorised.trans none_)
  have run : exec (.lcsTransition role target) s = .next (s.writeEntry true role Key.LCS_TRANSITION (.num target)) :=
    congrArg Host.Outcome.next (if_pos live)
  rw [run, State.writeEntry, if_pos rfl]
  split
  · exact ⟨1, by decide, rfl⟩
  · next a _ =>
    dsimp only
    split_ifs with role_ value
    · exact ⟨2, by decide, rfl⟩
    · exact ⟨_, value, rfl⟩
    · exact ⟨6, by decide, by rw [State.acceptWrite, if_pos (by simp [barred])]; rfl⟩

/-- Settles O54: the certificate's lifetime, the reset of WARM reach and the rule of LCS_TRANSITION. -/
theorem authorisedTransitionLapses : Obligations.AuthorisedTransitionLapses := by
  unfold Obligations.AuthorisedTransitionLapses
  intro s
  refine ⟨fun authorised idle over_ => if_pos ⟨authorised, by simp [idle], over_⟩, fun stands => if_neg ?_,
    fun reach causes wide starts wider => State.enterReset_ends_authority wide starts wider,
    fun role target live state none_ => lcsTransition_refused live state none_⟩
  rintro ⟨authorised, idle, over_⟩
  rcases stands with none_ | running | before
  · simp [none_] at authorised
  · simp [Option.isNone_iff_eq_none.mp idle] at running
  · omega

end Sys2Proof.Machine
end
